-- ==== Sys2Proof/Word.lean ====
section
/-!
DEFINITION. The word types of the module (00_scope R7, 05_scratchpad R144): bytes, 32-bit
control-space words, 64-bit instruction and check words, 48-bit address registers, 64-byte rows
and 128-byte vector registers. Multi-byte values are little endian (R7).
-/

namespace Sys2Proof

abbrev Byte := BitVec 8
abbrev Half := BitVec 16
abbrev Word := BitVec 32
abbrev DWord := BitVec 64
/-- An address register A0-A15 of an engine (R86). -/
abbrev AReg := BitVec 48
/-- A row: 64 data bytes, byte 0 in bits 7..0 (R144). -/
abbrev Row := BitVec 512
/-- A vector register: 128 bytes, the first row in bits 511..0 (R72). -/
abbrev VReg := BitVec 1024

end Sys2Proof
end

