-- ==== Sys2Proof/Syntax.lean ====
section
/-!
DEFINITION. The commands of the block: one constructor of `Instr` for every row of the command table, with its
operands. An engine operation carries the whole 64-bit instruction word of R88; a command that writes a register
carries the word written; an event carries what the environment decides (which packet, what a sensor reads).
-/

namespace Sys2Proof

/-- The four engines of a core (R72), in the order of their codes. -/
inductive Engine where
  | load | matrix | vector | send
  deriving DecidableEq, Repr

/-- A word of a stored row that the environment has upset: correctable, or fatal, that is uncorrectable with the bits `flip` of
the word turned over (R148 to R150, R207, R208). -/
structure Upset where
  row : Nat
  word : Nat
  fatal : Bool
  flip : DWord
  deriving DecidableEq, Repr

/-- An engine that its plan overtakes: the engine, and the cycle since which it may have stopped issuing with nothing to hold it
(R47, R465). -/
structure Stall where
  engine : Engine
  since : Nat
  deriving DecidableEq, Repr

/-- What a read names: a control-space address, or an address in the control page of a core (R28, R162). -/
structure ReadAt where
  page : Option Nat
  addr : Nat
  deriving DecidableEq, Repr

/-- Where an engine operation issues and what the environment does to it: the physical core, the words upset in the
core's scratchpad before it reads, and whether its residue check finds a mismatch (R466). -/
structure At where
  core : Nat
  upsets : List Upset
  mismatch : Bool
  deriving DecidableEq, Repr

/-- A TLT frame (R434): priority, header fields, word and payload bytes. `logical` and `base` go with a ROWS frame: the
destination logical core and base row of its channel (R440, log entry 43). -/
structure Frame where
  prio : Nat
  version : Nat
  kind : Nat
  flags : Nat
  part : Nat
  source : Nat
  dest : Nat
  seq : Nat
  ack : Nat
  bed : Nat
  word : Nat
  payload : List Byte
  logical : Nat
  base : Nat
  deriving DecidableEq, Repr

/-- A frame as it arrives: EtherType, PCP, whether FCS and header CRC hold, and the codewords the FEC corrected and
failed to correct. -/
structure Arrival where
  etype : Nat
  crcOk : Bool
  corrected : Nat
  uncorrectable : Nat
  frame : Frame
  deriving DecidableEq, Repr

/-- Times of an exchange, in units of 1/256 cycle (R442); which of the three messages it is; the master's tick. -/
inductive TimeMsg where
  | sync
  | delayReq
  | delayResp (tick t1 t2 t3 t4 : Nat)
  deriving DecidableEq, Repr

/-- What the sensors give at a millisecond mark (R504, R508, R511): the words of PWR_IN_LAST and PWR_AUX_LAST, the reports of the
243 domains as pairs of words, for dies (die, highest sample of the mark, latest samples), for Bays (Bay, highest sample). -/
structure MarkIn where
  input : Word
  aux : Word
  reports : List (Word × Word)
  dies : List (Nat × Nat × Word)
  bays : List (Nat × Nat)
  deriving DecidableEq, Repr

/-- What the start-up self-test finds failing (R517): cores, die routers or transit rails, compute rails of dies, Bays, I/O dies, port
lanes as (port, mask); and whether the test overran its limit. -/
structure TestIn where
  cores : List Nat
  transit : List Nat
  compute : List Nat
  bays : List Nat
  ios : List Nat
  lanes : List (Nat × Nat)
  overrun : Bool
  deriving DecidableEq, Repr

/-- A host memory request to a BAR: its address there, and a read of `len` bytes or the bytes written. -/
inductive HostReq where
  | read (addr len : Nat)
  | write (addr : Nat) (data : List Byte)
  deriving DecidableEq, Repr

/-- A configuration request of the host (R516, PCI Express): the fields it writes that the module's behaviour depends on. -/
inductive CfgReq where
  | other
  | command (memory master : Bool)
  | msix (enable mask : Bool)
  | sriov (numVfs : Nat) (enable memory : Bool)
  deriving DecidableEq, Repr

/-- The commands, one constructor a row of the command table, in its order. Each docstring gives the mnemonic and the rule. -/
inductive Instr where
  /-- TICK (R41) -/
  | tick
  /-- MILLISECOND_MARK (R42) -/
  | millisecondMark (m : MarkIn)
  /-- TICK_LOAD (R44) -/
  | tickLoad
  /-- TICK_LOAD_APPLY (R62) -/
  | tickLoadApply
  /-- BEAT_START (R64) -/
  | beatStart (n : Nat)
  /-- FIRST_BEAT_BEGIN (R64) -/
  | firstBeatBegin (n : Nat)
  /-- BEAT_STOP (R64) -/
  | beatStop (n : Nat)
  /-- HOLD_SET (R51) -/
  | holdSet (n : Nat)
  /-- HOLD_CLEAR (R51) -/
  | holdClear (n : Nat)
  /-- HOLD_END (R51) -/
  | holdEnd (n : Nat)
  /-- BEAT_DECISION (R48) -/
  | beatDecision (n : Nat)
  /-- PLAN_OVERRUN (R47) -/
  | planOverrun (n p : Nat) (e : Stall)
  /-- BEAT_BOUNDARY (R46) -/
  | beatBoundary (n : Nat)
  /-- STATS_WINDOW_BOUNDARY (R57) -/
  | statsWindowBoundary (n : Nat)
  /-- NOP (R92) -/
  | nop (e : Engine) (x : At) (w : DWord)
  /-- EOB (R77) -/
  | eob (e : Engine) (x : At) (w : DWord)
  /-- WAIT (R92) -/
  | wait (e : Engine) (x : At) (w : DWord)
  /-- SETW (R92) -/
  | setw (e : Engine) (x : At) (w : DWord)
  /-- LOOP (R76) -/
  | loop (e : Engine) (x : At) (w : DWord)
  /-- LOOPR (R92) -/
  | loopr (e : Engine) (x : At) (w : DWord)
  /-- BR (R92) -/
  | br (e : Engine) (x : At) (w : DWord)
  /-- SIG (R83) -/
  | sig (e : Engine) (x : At) (w : DWord)
  /-- SWT (R83) -/
  | swt (e : Engine) (x : At) (w : DWord)
  /-- SETA (R92) -/
  | seta (e : Engine) (x : At) (w : DWord)
  /-- ADDA (R92) -/
  | adda (e : Engine) (x : At) (w : DWord)
  /-- LDA (R92) -/
  | lda (e : Engine) (x : At) (w : DWord)
  /-- SBREL (R92) -/
  | sbrel (e : Engine) (x : At) (w : DWord)
  /-- LDL (R93) -/
  | ldl (x : At) (w : DWord)
  /-- LDS (R93) -/
  | lds (x : At) (w : DWord)
  /-- LDR (R93) -/
  | ldr (x : At) (w : DWord)
  /-- LDB (R93) -/
  | ldb (x : At) (w : DWord)
  /-- MXL (R95) -/
  | mxl (x : At) (w : DWord)
  /-- MMA (R118) -/
  | mma (x : At) (w : DWord)
  /-- MDR (R119) -/
  | mdr (x : At) (w : DWord)
  /-- MCLR (R116) -/
  | mclr (x : At) (w : DWord)
  /-- MSCW (R95) -/
  | mscw (x : At) (w : DWord)
  /-- SETXP (R95) -/
  | setxp (x : At) (w : DWord)
  /-- VLD (R97) -/
  | vld (x : At) (w : DWord)
  /-- VLDS (R97) -/
  | vlds (x : At) (w : DWord)
  /-- VST (R97) -/
  | vst (x : At) (w : DWord)
  /-- VRQ (R119) -/
  | vrq (x : At) (w : DWord)
  /-- VADD (R120) -/
  | vadd (x : At) (w : DWord)
  /-- VSUB (R120) -/
  | vsub (x : At) (w : DWord)
  /-- VMUL (R120) -/
  | vmul (x : At) (w : DWord)
  /-- VFMA (R120) -/
  | vfma (x : At) (w : DWord)
  /-- VMAX (R120) -/
  | vmax (x : At) (w : DWord)
  /-- VMIN (R120) -/
  | vmin (x : At) (w : DWord)
  /-- VCVT (R97) -/
  | vcvt (x : At) (w : DWord)
  /-- VEXP (R120) -/
  | vexp (x : At) (w : DWord)
  /-- VRCP (R120) -/
  | vrcp (x : At) (w : DWord)
  /-- VRSQ (R120) -/
  | vrsq (x : At) (w : DWord)
  /-- VRED (R120) -/
  | vred (x : At) (w : DWord)
  /-- VROT (R97) -/
  | vrot (x : At) (w : DWord)
  /-- VQNT (R122) -/
  | vqnt (x : At) (w : DWord)
  /-- VSCS (R97) -/
  | vscs (x : At) (w : DWord)
  /-- VCRY (R121) -/
  | vcry (x : At) (w : DWord)
  /-- VNW (R130) -/
  | vnw (x : At) (w : DWord)
  /-- VMOVI (R97) -/
  | vmovi (x : At) (w : DWord)
  /-- SWR (R98) -/
  | swr (x : At) (w : DWord)
  /-- SWB (R98) -/
  | swb (x : At) (w : DWord)
  /-- SEMT (R98) -/
  | semt (x : At) (w : DWord)
  /-- ROW_LAND (R155) -/
  | rowLand (p : Nat)
  /-- REMOTE_READ_SERVE (R177) -/
  | remoteReadServe (k : Nat) (us : List Upset)
  /-- READ_REPLY_LAND (R79) -/
  | readReplyLand (k : Nat)
  /-- BAY_WRITE_ACK (R204) -/
  | bayWriteAck (k : Nat)
  /-- BAY_REFUSAL_NOTICE (R212) -/
  | bayRefusalNotice (k : Nat)
  /-- SCRATCHPAD_PATROL_READ (R151) -/
  | scratchpadPatrolRead (p bank : Nat) (u : Option Upset)
  /-- SPC_WIN_CTL_WRITE (R158) -/
  | spcWinCtlWrite (p w : Nat) (v : Word)
  /-- SPC_CNT_WRITE (R161) -/
  | spcCntWrite (p k : Nat) (v : Word)
  /-- NW_PART_ARRIVE (R130) -/
  | nwPartArrive (k : Nat)
  /-- RECIPE_REQUEST (R128) -/
  | recipeRequest (n st sel : Nat)
  /-- STG_MEAN_WRITE (R141) -/
  | stgMeanWrite (n st : Nat) (v : Word)
  /-- HOP_CRC_RETRY (R181) -/
  | hopCrcRetry (k d : Nat) (cluster : Bool)
  /-- ROUTE_SWAP_REQUEST (R192) -/
  | routeSwapRequest (d which : Nat) (v : Word)
  /-- DEFAULT_TABLE_SWAP (R187) -/
  | defaultTableSwap (d : Nat)
  /-- C0_TABLE_SWAP (R187) -/
  | c0TableSwap (d n : Nat)
  /-- EDGE_OVER_BUDGET (R191) -/
  | edgeOverBudget (link : Bool) (d n : Nat)
  /-- EDGE_BUDGET_RECOVER (R191) -/
  | edgeBudgetRecover (link : Bool) (d n : Nat)
  /-- BAY_READ_REQUEST (R204) -/
  | bayReadRequest (k : Nat) (us : List Upset)
  /-- BAY_WRITE_ROW (R204) -/
  | bayWriteRow (k : Nat)
  /-- BAY_REFRESH_TICK (R206) -/
  | bayRefreshTick (b : Nat)
  /-- BAY_PATROL_READ (R209) -/
  | bayPatrolRead (b : Nat) (u : Option Upset)
  /-- MAP_ALLOC (R216) -/
  | mapAlloc (acc : Nat)
  /-- MAP_FREE (R216) -/
  | mapFree (acc : Nat)
  /-- MAP_SETNEXT (R216) -/
  | mapSetnext (acc : Nat)
  /-- MAP_SETFILL (R216) -/
  | mapSetfill (acc : Nat)
  /-- PAGE_RELEASE (R216) -/
  | pageRelease (k : Nat)
  /-- MOVE_GO (R217) -/
  | moveGo (b : Nat)
  /-- MOVE_COPY_ROW (R218) -/
  | moveCopyRow (b : Nat)
  /-- MOVE_SWITCH (R218) -/
  | moveSwitch (b : Nat)
  /-- MOVE_ABORT (R219) -/
  | moveAbort (b : Nat)
  /-- LOAD_CHECK (R255) -/
  | loadCheck (n : Nat)
  /-- LOAD_LOAD (R256) -/
  | loadLoad (n : Nat)
  /-- LOAD_ACTIVATE (R260) -/
  | loadActivate (n : Nat)
  /-- LOAD_UNLOAD (R261) -/
  | loadUnload (n : Nat)
  /-- LOAD_ABORT (R258) -/
  | loadAbort
  /-- LOAD_JOB_END (R254) -/
  | loadJobEnd
  /-- LOAD_CHAN_WRITE (R268) -/
  | loadChanWrite (k : Nat) (v : Word)
  /-- REQ_SUBMIT (R299) -/
  | reqSubmit (acc e : Nat)
  /-- REQ_CANCEL (R298) -/
  | reqCancel (acc e : Nat)
  /-- REQ_PAUSE (R298) -/
  | reqPause (acc e : Nat)
  /-- REQ_RESUME (R298) -/
  | reqResume (acc e : Nat)
  /-- REQ_RELEASE (R298) -/
  | reqRelease (acc e : Nat)
  /-- REQ_DEADLINE (R298) -/
  | reqDeadline (acc e : Nat)
  /-- TENANT_SWAP_REQUEST (R325) -/
  | tenantSwapRequest (n : Nat)
  /-- PFX_CREATE (R338) -/
  | pfxCreate (acc n : Nat)
  /-- PFX_DESTROY (R341) -/
  | pfxDestroy (acc n : Nat)
  /-- PREFIX_FREE (R341) -/
  | prefixFree (h : Nat)
  /-- SHIP_PEER_WRITE (R356) -/
  | shipPeerWrite (acc n : Nat) (v : Word)
  /-- SHIP_OPEN_RECEIVE (R346) -/
  | shipOpenReceive (k : Nat)
  /-- SHIP_OPEN_DEQUEUE (R346) -/
  | shipOpenDequeue (n : Nat)
  /-- SHIP_DATA_RECEIVE (R347) -/
  | shipDataReceive (k : Nat)
  /-- SHIP_END_RECEIVE (R347) -/
  | shipEndReceive (k : Nat)
  /-- SHIP_GROUP_WAIT_EXPIRE (R347) -/
  | shipGroupWaitExpire (e : Nat)
  /-- SHIP_ACK_RECEIVE (R343) -/
  | shipAckReceive (k : Nat)
  /-- SHIP_NACK_RECEIVE (R343) -/
  | shipNackReceive (k : Nat)
  /-- SHIP_ABORT_RECEIVE (R348) -/
  | shipAbortReceive (k : Nat)
  /-- SHIP_LIMIT_EXPIRE (R343) -/
  | shipLimitExpire (e : Nat)
  /-- WGT_STAGE (R370) -/
  | wgtStage (n : Nat)
  /-- WGT_SWAP (R370) -/
  | wgtSwap (n : Nat)
  /-- WGT_RELOAD (R373) -/
  | wgtReload (n : Nat)
  /-- WGT_REPAIR (R367) -/
  | wgtRepair (n : Nat)
  /-- WGT_DISCARD (R372) -/
  | wgtDiscard (n : Nat)
  /-- WGT_ABORT (R378) -/
  | wgtAbort (n : Nat)
  /-- WGT_RESUME (R365) -/
  | wgtResume (n : Nat)
  /-- WGT_FILL_COMPLETE (R370) -/
  | wgtFillComplete (n : Nat)
  /-- WGT_RELOAD_COMPLETE (R373) -/
  | wgtReloadComplete (n : Nat)
  /-- WGT_GROUP_WAIT_EXPIRE (R365) -/
  | wgtGroupWaitExpire (n : Nat)
  /-- WREQ_RECEIVE (R366) -/
  | wreqReceive (k : Nat)
  /-- WDATA_RECEIVE (R365) -/
  | wdataReceive (k : Nat)
  /-- WEND_RECEIVE (R365) -/
  | wendReceive (k : Nat)
  /-- WREFUSE_RECEIVE (R365) -/
  | wrefuseReceive (k : Nat)
  /-- WABORT_RECEIVE (R366) -/
  | wabortReceive (k : Nat)
  /-- ADP_ADD (R375) -/
  | adpAdd (acc n : Nat)
  /-- ADP_REPLACE (R375) -/
  | adpReplace (acc n : Nat)
  /-- ADP_REMOVE (R375) -/
  | adpRemove (acc n : Nat)
  /-- PART_ENABLE_WRITE (R385) -/
  | partEnableWrite (acc n : Nat) (v : Word)
  /-- PART_SHARE_WRITE (R388) -/
  | partShareWrite (acc n : Nat) (v : Word)
  /-- PART_RST_SOFT (R392) -/
  | partRstSoft (n : Nat)
  /-- PART_RST_HARD (R392) -/
  | partRstHard (acc n : Nat)
  /-- PART_RESET_BEGIN (R394) -/
  | partResetBegin (n : Nat)
  /-- PART_RESET_DRAIN_END (R394) -/
  | partResetDrainEnd (n : Nat)
  /-- PART_RESET_RELEASE (R394) -/
  | partResetRelease (n : Nat)
  /-- PART_EVT_SET (R406) -/
  | partEvtSet (n : Nat)
  /-- VF_MAP_WRITE (R400) -/
  | vfMapWrite (acc i : Nat) (v : Word)
  /-- VF_FLR (R401) -/
  | vfFlr (v : Nat)
  /-- VF_FLR_COMPLETE (R401) -/
  | vfFlrComplete (v : Nat)
  /-- VF_FLR_TIMEOUT (R401) -/
  | vfFlrTimeout (v : Nat)
  /-- EVC_LEVEL_CHANGE (R411) -/
  | evcLevelChange (n : Nat)
  /-- EVC_CLAIM (R415) -/
  | evcClaim (c : Nat)
  /-- EVC_EOI (R416) -/
  | evcEoi (c src : Nat)
  /-- EVC_EOI_POP (R416) -/
  | evcEoiPop (c : Nat)
  /-- EVC_STUCK_CLEAR (R417) -/
  | evcStuckClear (n : Nat)
  /-- EXT_EVT_PIN_CHANGE (R419) -/
  | extEvtPinChange (k : Nat) (level : Bool)
  /-- PIN_FILTER_EXPIRE (R419) -/
  | pinFilterExpire (k : Nat)
  /-- PIN_POLARITY_WRITE (R426) -/
  | pinPolarityWrite (v : Nat)
  /-- PORT_TRAIN (R429) -/
  | portTrain (p offered works : Nat)
  /-- PORT_TRAIN_RETRY_EXPIRE (R429) -/
  | portTrainRetryExpire (p : Nat)
  /-- PCS_LOCK_LOSS (R429) -/
  | pcsLockLoss (p : Nat)
  /-- FRAME_RECEIVE (R432) -/
  | frameReceive (p : Nat) (a : Arrival)
  /-- PFC_RECEIVE (R433) -/
  | pfcReceive (p prio : Nat) (pause : Bool)
  /-- HELLO_RECEIVE (R436) -/
  | helloReceive (k : Nat)
  /-- HELLO_SEND_TIMER (R436) -/
  | helloSendTimer (p : Nat)
  /-- CONN_HELLO_TIMEOUT (R436) -/
  | connHelloTimeout (p m : Nat)
  /-- ACK_RECEIVE (R437) -/
  | ackReceive (k : Nat)
  /-- LINK_RTO_EXPIRE (R437) -/
  | linkRtoExpire (p m : Nat)
  /-- ROWS_FRAME_CLOSE (R439) -/
  | rowsFrameClose (ch : Nat)
  /-- ROWS_RECEIVE (R440) -/
  | rowsReceive (k : Nat)
  /-- CTRL_RECEIVE (R435) -/
  | ctrlReceive (k : Nat)
  /-- CTRLR_RECEIVE (R447) -/
  | ctrlrReceive (k : Nat)
  /-- EVENT_RECEIVE (R450) -/
  | eventReceive (k : Nat)
  /-- TIME_RECEIVE (R442) -/
  | timeReceive (k : Nat) (m : TimeMsg)
  /-- BEDSYNC_EDGE (R444) -/
  | bedsyncEdge
  /-- RESET_RECEIVE (R401) -/
  | resetReceive (k : Nat)
  /-- OUTPUT_RECEIVE (R455) -/
  | outputReceive (k : Nat)
  /-- PAGE_RECEIVE (R448) -/
  | pageReceive (k : Nat)
  /-- CMD_RECEIVE (R453) -/
  | cmdReceive (k : Nat)
  /-- HOST_BAR0_ACCESS (R446) -/
  | hostBar0Access (r : HostReq)
  /-- HOST_BAR2_ACCESS (R447) -/
  | hostBar2Access (r : HostReq)
  /-- HOST_BAR4_ACCESS (R448) -/
  | hostBar4Access (r : HostReq)
  /-- HOST_VF_ACCESS (R399) -/
  | hostVfAccess (v bar : Nat) (r : HostReq)
  /-- FORWARD_READ_TIMEOUT (R447) -/
  | forwardReadTimeout (tag : Nat)
  /-- LINK_HB_AP_HI_WRITE (R461) -/
  | linkHbApHiWrite (acc : Nat) (v : Word)
  /-- CMD_RECORD_TAKE (R453) -/
  | cmdRecordTake (f : Nat)
  /-- OUTPUT_QUEUE_DRAIN (R456) -/
  | outputQueueDrain (n cons : Nat)
  /-- PCIE_FUNDAMENTAL_RESET (R519) -/
  | pcieFundamentalReset
  /-- SAGE_REPORT (R472) -/
  | sageReport
  /-- SAGE_SELFTEST (R464) -/
  | sageSelftest (ok : Bool)
  /-- RESTART_DRAIN_END (R474) -/
  | restartDrainEnd (n : Nat)
  /-- CORE_PROBE_COMPLETE (R476) -/
  | coreProbeComplete (n p : Nat) (ok : Bool)
  /-- SPARE_RELOAD_COMPLETE (R478) -/
  | spareReloadComplete (n p : Nat) (bad : Bool)
  /-- RESTART_REPLAY_BEGIN (R474) -/
  | restartReplayBegin (n : Nat)
  /-- INVENTORY_FLASH_WRITE (R25) -/
  | inventoryFlashWrite
  /-- CC_LOCKSTEP_MISMATCH (R481) -/
  | ccLockstepMismatch (c : Nat)
  /-- CC_RESTART (R481) -/
  | ccRestart (c : Nat)
  /-- DIE_CLOCK_FAULT (R485) -/
  | dieClockFault (d : Nat) (tickLoss : Bool)
  /-- DIE_CLOCK_RECOVER (R485) -/
  | dieClockRecover (d : Nat) (bad : List Nat)
  /-- DIE_CLOCK_TIMEOUT (R485) -/
  | dieClockTimeout (d : Nat)
  /-- DIE_SWITCHOFF (R482) -/
  | dieSwitchoff (d : Nat)
  /-- FOLD_RUN (R483) -/
  | foldRun (n : Nat)
  /-- DIE_RESTORE (R509) -/
  | dieRestore (d : Nat) (bad : List Nat)
  /-- DIE_PWR_RESTORE_WRITE (R513) -/
  | diePwrRestoreWrite (d : Nat)
  /-- SUPPLY_VALID (R494) -/
  | supplyValid (aux hostPres : Bool)
  /-- SAG_BEGIN (R497) -/
  | sagBegin
  /-- SAG_END (R497) -/
  | sagEnd
  /-- SUPPLY_OUT_OF_RANGE (R498) -/
  | supplyOutOfRange
  /-- PWR_EN_CHANGE (R495) -/
  | pwrEnChange (level : Bool)
  /-- ORDERED_STOP (R499) -/
  | orderedStop (cause : Nat)
  /-- POWER_UP_STAGING (R502) -/
  | powerUpStaging
  /-- RAIL_FAULT (R501) -/
  | railFault (i : Nat)
  /-- THERMAL_CROSSING (R508) -/
  | thermalCrossing (kind unit threshold : Nat)
  /-- BRAKE (R507) -/
  | brake
  /-- ISLAND_RESET (R519) -/
  | islandReset (pin hostPres : Bool)
  /-- MOD_RESET (R520) -/
  | modReset (hostPres : Bool)
  /-- BOOT_VERIFY_DONE (R531) -/
  | bootVerifyDone (ok : Bool) (ms : Nat)
  /-- STARTUP_SELF_TEST (R517) -/
  | startupSelfTest (x : TestIn)
  /-- MODULE_READY (R515) -/
  | moduleReady (ms : Nat)
  /-- SVC_CONNECT (R532) -/
  | svcConnect
  /-- SVC_OFFER (R533) -/
  | svcOffer (h : List Byte)
  /-- SVC_SIGNATURE (R533) -/
  | svcSignature (g : List Byte)
  /-- SVC_BODY (R533) -/
  | svcBody (d : List Byte) (flash : Nat)
  /-- SVC_COMMIT (R533) -/
  | svcCommit
  /-- FW_ACTIVATE (R534) -/
  | fwActivate (svc : Bool)
  /-- FW_ACTIVATION_HELD (R534) -/
  | fwActivationHeld (ok : Bool) (us : Nat)
  /-- FW_CONFIRM (R537) -/
  | fwConfirm (svc : Bool)
  /-- FW_REVERT (R537) -/
  | fwRevert (svc : Bool)
  /-- FW_PROVISIONAL_TIMEOUT (R537) -/
  | fwProvisionalTimeout
  /-- SVC_STATUS (R532) -/
  | svcStatus
  /-- SVC_IDCERT (R542) -/
  | svcIdcert
  /-- SETTINGS_GET (R539) -/
  | settingsGet (acc : Option Nat) (key : Nat)
  /-- SETTINGS_PUT (R539) -/
  | settingsPut (acc : Option Nat) (key : Nat) (v : List Byte)
  /-- QUOTE_REQUEST (R545) -/
  | quoteRequest (svc : Bool) (nonce : List Byte)
  /-- QUOTE_COMPLETE (R544) -/
  | quoteComplete
  /-- ATTEST_KEY_ROTATE (R543) -/
  | attestKeyRotate
  /-- REGISTER_WRITE (R30) -/
  | registerWrite (acc : Nat) (page : Option Nat) (a : Nat) (v : Word) (enables : Nat)
  /-- LATCHING_READ (R59) -/
  | latchingRead (acc : Nat) (a : ReadAt)
  /-- PCIE_CONFIG_ACCESS (R516) -/
  | pcieConfigAccess (f : Nat) (r : CfgReq)
  /-- PCIE_LINK_UP (R461) -/
  | pcieLinkUp
  /-- PORT_LINK_UP (R429) -/
  | portLinkUp (p : Nat)
  /-- SVC_DISCONNECT (R533) -/
  | svcDisconnect
  /-- SVC_LINK_UP (R539) -/
  | svcLinkUp
  /-- FW_NV_WAIT_TIMEOUT (R534) -/
  | fwNvWaitTimeout
  /-- IO_DIE_FAULT (R458) -/
  | ioDieFault (k : Nat)
  /-- WREQ_SERVE_DONE (R366) -/
  | wreqServeDone (k : Nat)
  /-- WGT_HOME_READY (R373) -/
  | wgtHomeReady (n : Nat)
  /-- JTAG_TAP_CLOCK (R556) -/
  | jtagTapClock (trst rising tms tdi : Bool) (pins : List Bool)
  deriving DecidableEq, Repr

end Sys2Proof
end

