-- ==== Sys2Proof/Decode.lean ====
section
/-!
DEFINITION. Decoding of table words. No row of the command table gives a command any bits: commands reach the module as register
accesses, pins, frames and events (15_links_host, 98_reader), so no word spells one. The words an engine operation carries are read field by field
in `Machine/Operands.lean`.
-/

namespace Sys2Proof

/-- The command a table word spells: none, since no row of the table has bits. -/
def decodeTableWord (_nbits _w : Nat) : Option Instr := none

end Sys2Proof
end

