-- ==== Sys2Proof/Config.lean ====
section
/-!
DEFINITION. What the spec leaves to an implementation or leaves open: the free values. None has a body, so no proof
can see a value of one. A step that needs a free value applies it to the State's draw counter `oracle` (log entry 1).
-/

namespace Sys2Proof.Config

/-- A free number: which of several allowed outcomes comes about (log entries 13, 14). -/
opaque freeNat : Nat → Nat

/-- SHAKE256 of a byte string: byte `i` of its output (log entry 15). -/
opaque shake256 : List Byte → Nat → Byte

/-- XMSS verification of a signature over a message under a public key (log entry 15). -/
opaque xmssVerify : (key message signature : List Byte) → Bool

/-- Byte `i` of an XMSS signature of a message under a key at an index: key 0 is the identity key, 1 + k attestation key k
(log entry 15). -/
opaque xmssSign : (key index : Nat) → (message : List Byte) → (i : Nat) → Byte

/-- Zstandard decompression; none where the frame is not valid (log entry 15). -/
opaque zstdDecompress : List Byte → Option (List Byte)

/-- The vendor bouquet public key held in fuses (R530, log entry 5). -/
opaque vendorKey : List Byte

/-- Byte `i` of the identity certificate written at manufacture (R542, log entry 5). -/
opaque idCert : Nat → Byte

/-- Byte `i` of the certificate of attestation key 0 as delivered (R542, log entry 5). -/
opaque firstCert : Nat → Byte

/-- Byte `i` of OID, root and seed of attestation key `k` (R542, log entry 5). -/
opaque attestKey : (k i : Nat) → Byte

/-- Code of a TIME message in [3:0] of its word: 0 sync, 1 delay request, 2 delay response (R442, log entry 47). -/
opaque timeCode : Nat → Nat

/-- Payload of a TIME message that carries a tick number, a cycle and a hardware timestamp (R442, log entry 47). -/
opaque timePayload : (tick cycle stamp : Nat) → List Byte

/-- The TAP (R556, log entry 87): bits of an instruction beyond the two that IEEE 1149.1 asks for. -/
opaque jtagIrExtra : Nat

/-- Instruction of a value of the instruction register other than all ones: modulo 4, 0 BYPASS, 1 IDCODE, 2 and 3 boundary
scan that drives and that samples (log entry 87). -/
opaque jtagSelect : List Bool → Nat

/-- Bit `i` of what the instruction register captures, after its two fixed bits (log entry 87). -/
opaque jtagCapture : Nat → Bool

/-- Bit `i` of the IDCODE register after its lowest, which is 1 (log entry 87). -/
opaque jtagIdcode : Nat → Bool

end Sys2Proof.Config
end

