-- ==== Sys2Proof/Machine/Bits.lean ====
section
/-!
DEFINITION. Bit fields, byte order and the two kinds of sparse table the state is made of.

`rdAt` and `wrAt` are the memory form: keys strictly rising and no entry equal to what an unlisted
key reads as, so that equal memories are equal lists. `lookupD` and `put` are the record form: keys
strictly rising, one entry a key.
-/

namespace Sys2Proof.Machine

/-- Field of `len` bits from bit `lo` of a natural number. -/
def field (w lo len : Nat) : Nat := (w >>> lo) % 2 ^ len

/-- The same field of a bit vector. -/
def bits {n : Nat} (w : BitVec n) (lo len : Nat) : Nat := field w.toNat lo len

/-- `w` with the field of `len` bits from bit `lo` replaced by `v`, cut to `len` bits. -/
def setField (w lo len v : Nat) : Nat :=
  w % 2 ^ lo + (v % 2 ^ len) * 2 ^ lo + (w >>> (lo + len)) * 2 ^ (lo + len)

def setBits {n : Nat} (w : BitVec n) (lo len v : Nat) : BitVec n :=
  BitVec.ofNat n (setField w.toNat lo len v)

/-- A Bool as 0 or 1. -/
def b2n (b : Bool) : Nat := if b then 1 else 0

/-- Two's complement value of the low `len` bits. -/
def signed (w len : Nat) : Int :=
  if w % 2 ^ len < 2 ^ (len - 1) then (w % 2 ^ len : Nat) else ((w % 2 ^ len : Nat) : Int) - (2 ^ len : Nat)

/-- The low `len` bits of a two's complement number. -/
def unsigned (i : Int) (len : Nat) : Nat := (i % (2 ^ len : Nat)).toNat

/-- Bytes of a number, lowest first (R7). -/
def bytesOf : Nat → Nat → List Byte
  | 0, _ => []
  | k + 1, w => BitVec.ofNat 8 w :: bytesOf k (w >>> 8)

/-- The number that bytes spell, lowest first (R7). -/
def ofBytes : List Byte → Nat
  | [] => 0
  | b :: r => b.toNat + 256 * ofBytes r

/-- Byte `i` of a number. -/
def byteAt (w i : Nat) : Nat := field w (8 * i) 8

/-- Saturating addition below `2 ^ len`. -/
def satAdd (len a b : Nat) : Nat := if a + b < 2 ^ len then a + b else 2 ^ len - 1

def ceilDiv (a b : Nat) : Nat := (a + b - 1) / b

variable {β : Type}

/-- Read of a sparse memory: an unlisted key reads as `d k`. -/
def rdAt (d : Nat → β) : List (Nat × β) → Nat → β
  | [], k => d k
  | (i, v) :: r, k => if i = k then v else rdAt d r k

/-- Keys strictly rising. -/
def rising : List (Nat × β) → Bool
  | [] => true
  | [_] => true
  | (i, _) :: (j, v) :: r => decide (i < j) && rising ((j, v) :: r)

/-- The canonical form of a sparse memory. -/
def canon [DecidableEq β] (d : Nat → β) (m : List (Nat × β)) : Bool :=
  rising m && m.all (fun e => decide (e.2 ≠ d e.1))

/-- Read of a keyed table with one default. -/
def lookupD (d : β) : List (Nat × β) → Nat → β
  | [], _ => d
  | (i, v) :: r, k => if i = k then v else lookupD d r k

/-- Entry of a keyed table, if any. -/
def lookup? : List (Nat × β) → Nat → Option β
  | [], _ => none
  | (i, v) :: r, k => if i = k then some v else lookup? r k

/-- Write of a keyed table. -/
def put : List (Nat × β) → Nat → β → List (Nat × β)
  | [], k, v => [(k, v)]
  | (i, w) :: r, k, v =>
    if k < i then (k, v) :: (i, w) :: r
    else if k = i then (k, v) :: r
    else (i, w) :: put r k v

/-- Removal from a keyed table. -/
def del (m : List (Nat × β)) (k : Nat) : List (Nat × β) := m.filter (fun e => e.1 != k)

/-- Write of a sparse memory, keeping its canonical form. -/
def wrAt [DecidableEq β] (d : Nat → β) (m : List (Nat × β)) (k : Nat) (v : β) : List (Nat × β) :=
  if v = d k then del m k else put m k v

/-- The first `n` numbers that pass a test, from `lo` on, within `fuel` candidates. -/
def firstFrom (p : Nat → Bool) : Nat → Nat → Option Nat
  | _, 0 => none
  | lo, fuel + 1 => if p lo then some lo else firstFrom p (lo + 1) fuel

/-- Fold of a state change over a list. -/
def each {σ α : Type} (f : α → σ → σ) : List α → σ → σ
  | [], s => s
  | a :: r, s => each f r (f a s)

/-- Little-endian 32-bit words of a byte list, the last one padded with zeros. -/
def wordsOfNat : Nat → Nat → List Word
  | 0, _ => []
  | k + 1, w => BitVec.ofNat 32 w :: wordsOfNat k (w >>> 32)

/-- CRC-32C (Castagnoli), bit-reflected, one byte (R24, R432). -/
def crcByte (c b : Nat) : Nat :=
  (List.range 8).foldl (fun x _ => if x % 2 = 1 then (x >>> 1) ^^^ 0x82F63B78 else x >>> 1) (c ^^^ b)

/-- CRC-32C of bytes: initial value and final exclusive-or of all ones. -/
def crc32c (bs : List Byte) : Nat :=
  (bs.foldl (fun c b => crcByte c b.toNat) 0xFFFFFFFF) ^^^ 0xFFFFFFFF

end Sys2Proof.Machine
end

