-- ==== Sys2Proof/Machine/Arith.lean ====
section
/-!
DEFINITION. The numbers of 04_low_bit_arithmetic: binary32 and BF16 values (R120), operand codes and tile images
(R109 to R115), the MMA sum (R118), VRQ conversion (R119) and the carry quantiser (R121 to R124). Every result is
formed exactly and then rounded once.
-/

namespace Sys2Proof.Machine

/-! ## Binary32 and BF16 -/

/-- A floating-point value: `num neg m e` is `m * 2 ^ e` with its sign; `m = 0` is a signed zero. -/
inductive FV where
  | nan
  | inf (neg : Bool)
  | num (neg : Bool) (m : Nat) (e : Int)
  deriving DecidableEq, Repr

/-- A number format: significand bits with the hidden one, and width. BF16 is the upper half of binary32 (R120). -/
structure Fmt where
  prec : Nat
  width : Nat
  deriving DecidableEq, Repr

def fp32 : Fmt := ⟨24, 32⟩
def bf16 : Fmt := ⟨8, 16⟩

/-- The lane format of a vector operation (R97). -/
def laneFmt (is32 : Bool) : Fmt := if is32 then fp32 else bf16

/-- The value of an encoded lane; a subnormal reads as a zero of its sign (R120). -/
def FV.decode (f : Fmt) (w : Nat) : FV :=
  let frac := field w 0 (f.prec - 1)
  let ex := field w (f.prec - 1) 8
  let neg := decide (field w (f.width - 1) 1 = 1)
  if ex = 255 then (if frac = 0 then .inf neg else .nan)
  else if ex = 0 then .num neg 0 0
  else .num neg (frac + 2 ^ (f.prec - 1)) ((ex : Int) - 127 - ((f.prec - 1 : Nat) : Int))

/-- `m / 2 ^ k` rounded to nearest, ties to even. -/
def shrRNE (m k : Nat) : Nat :=
  let q := m >>> k
  let r := m % 2 ^ k
  let h := 2 ^ k / 2
  if k = 0 then m else if h < r ∨ (r = h ∧ q % 2 = 1) then q + 1 else q

/-- Encoding of a signed magnitude that has at most `prec` significant bits, or `2 ^ prec`. -/
def encodeExact (f : Fmt) (neg : Bool) (m : Nat) (e : Int) : Nat :=
  let sg := b2n neg * 2 ^ (f.width - 1)
  if m = 0 then sg
  else
    let l := Nat.log2 m
    let ex : Int := e + (l : Int) + 127
    if ex ≤ 0 then sg
    else if 255 ≤ ex then sg + 255 * 2 ^ (f.prec - 1)
    else
      let mant := if f.prec - 1 < l then m >>> (l - (f.prec - 1)) else m <<< ((f.prec - 1) - l)
      sg + ex.toNat * 2 ^ (f.prec - 1) + mant % 2 ^ (f.prec - 1)

/-- Rounding of an exact value to a format: nearest, ties to even; above the range infinity; below the normal range a
zero of its sign; the quiet NaN for NaN (R120). -/
def FV.encode (f : Fmt) : FV → Nat
  | .nan => 255 * 2 ^ (f.prec - 1) + 2 ^ (f.prec - 2)
  | .inf neg => b2n neg * 2 ^ (f.width - 1) + 255 * 2 ^ (f.prec - 1)
  | .num neg m e =>
    let l := Nat.log2 m
    if l < f.prec then encodeExact f neg m e
    else encodeExact f neg (shrRNE m (l + 1 - f.prec)) (e + ((l + 1 - f.prec : Nat) : Int))

/-- Rounded to a format and read again. -/
def FV.round (f : Fmt) (v : FV) : FV := FV.decode f (FV.encode f v)

/-- A signed integer times a power of two. -/
def FV.ofInt (i : Int) (e : Int) : FV := .num (decide (i < 0)) i.natAbs e

def sgn (neg : Bool) (m : Nat) : Int := if neg then -(m : Int) else (m : Int)

def FV.neg : FV → FV
  | .nan => .nan
  | .inf n => .inf (!n)
  | .num n m e => .num (!n) m e

/-- Exact sum; a zero sum of opposite signs is +0, as binary32 gives it. -/
def FV.add : FV → FV → FV
  | .nan, _ => .nan
  | _, .nan => .nan
  | .inf a, .inf b => if a = b then .inf a else .nan
  | .inf a, .num _ _ _ => .inf a
  | .num _ _ _, .inf b => .inf b
  | .num a m e, .num b k g =>
    let lo := if e ≤ g then e else g
    let x := sgn a (m <<< (e - lo).toNat) + sgn b (k <<< (g - lo).toNat)
    if x = 0 then .num (a && b) 0 0 else .num (decide (x < 0)) x.natAbs lo

/-- Exact product. -/
def FV.mul : FV → FV → FV
  | .nan, _ => .nan
  | _, .nan => .nan
  | .inf a, .inf b => .inf (a != b)
  | .inf a, .num b m _ => if m = 0 then .nan else .inf (a != b)
  | .num a m _, .inf b => if m = 0 then .nan else .inf (a != b)
  | .num a m e, .num b k g => .num (a != b) (m * k) (e + g)

/-- Signed rank that orders all values but NaN, with +0 above -0 (R120): the sign and the encoding in binary32. -/
def FV.rank (v : FV) : Int :=
  let w := FV.encode fp32 v
  if field w 31 1 = 1 then -((field w 0 31 : Nat) : Int) - 1 else (field w 0 31 : Nat)

def FV.isNan : FV → Bool
  | .nan => true
  | _ => false

def FV.isZero : FV → Bool
  | .num _ 0 _ => true
  | _ => false

def FV.isNeg : FV → Bool
  | .nan => false
  | .inf n => n
  | .num n m _ => n && decide (m ≠ 0)

def FV.lt (a b : FV) : Bool :=
  if a.isNan || b.isNan then false
  else if a.isZero && b.isZero then false
  else decide (a.rank < b.rank)

/-- Lane maximum or minimum: an operand unchanged, or the quiet NaN (R120). -/
def FV.pick (hi : Bool) (a b : FV) : FV :=
  if a.isNan || b.isNan then .nan
  else if decide (a.rank < b.rank) = hi then b else a

/-! ## Operations within 1 ulp of the exact result -/

/-- Integer square root by halving steps: the largest `r` of `k` bits with `r * r ≤ n`. -/
def isqrtBits (n : Nat) : Nat → Nat → Nat
  | 0, r => r
  | k + 1, r =>
    let t := r + 2 ^ k
    if t * t ≤ n then isqrtBits n k t else isqrtBits n k r

def isqrt (n : Nat) : Nat := isqrtBits n (Nat.log2 n / 2 + 1) 0

/-- The FP32 values within 1 ulp of `m * 2 ^ e` (R120), in units of half an ulp. `m` is the exact value cut off below, to at
least 40 bits; `exact` says that nothing was cut. Below a power of two the values lie half an ulp apart. -/
def nearList (m k : Nat) (exact : Bool) : List Nat :=
  let q := m >>> k
  if exact && decide (m % 2 ^ k = 0) then
    if q = 2 ^ 23 then [2 * q - 2, 2 * q - 1, 2 * q, 2 * q + 2] else [2 * q - 2, 2 * q, 2 * q + 2]
  else if q = 2 ^ 23 ∧ m % 2 ^ k < 2 ^ (k - 1) then [2 * q - 1, 2 * q, 2 * q + 2]
  else [2 * q, 2 * q + 2]

/-- One of the FP32 values within 1 ulp of `m * 2 ^ e`: which of them is the free number `pick` (log entry 13). -/
def nearUlp (pick : Nat) (m : Nat) (e : Int) (exact : Bool) : Nat :=
  let k := Nat.log2 m - 23
  let l := nearList m k exact
  FV.encode fp32 (.num false (l.getD (pick % l.length) 0) (e + (k : Int) - 1))

/-- 1 / x in FP32, within 1 ulp. -/
def vrcp (pick : Nat) : FV → Nat
  | .nan => FV.encode fp32 .nan
  | .inf n => FV.encode fp32 (.num n 0 0)
  | .num n m e =>
    if m = 0 then FV.encode fp32 (.inf n)
    else
      let s := 64 + Nat.log2 m
      nearUlp pick (2 ^ s / m) (-(s : Int) - e) (decide (2 ^ s % m = 0)) + b2n n * 2 ^ 31

/-- 1 / sqrt x in FP32, within 1 ulp. -/
def vrsq (pick : Nat) : FV → Nat
  | .nan => FV.encode fp32 .nan
  | .inf n => if n then FV.encode fp32 .nan else 0
  | .num n m e =>
    if m = 0 then FV.encode fp32 (.inf n)
    else if n then FV.encode fp32 .nan
    else
      let m' := if e % 2 = 0 then m else 2 * m
      let e' := if e % 2 = 0 then e else e - 1
      let s := 2 * (60 + Nat.log2 m')
      let r := isqrt (2 ^ s / m')
      nearUlp pick r (-(((s / 2 : Nat) : Int)) - e' / 2) (decide (r * r * m' = 2 ^ s))

/-- `2 ^ (f / 2 ^ 64)` for a 64-bit fraction, in units of `2 ^ -80`, cut off below: the product of the square roots
`2 ^ (1/2)`, `2 ^ (1/4)`, … that the fraction's bits select. -/
def exp2Frac : Nat → Nat → Nat → Nat → Nat
  | 0, _, _, acc => acc
  | k + 1, f, root, acc =>
    let root' := isqrt (root <<< 80)
    exp2Frac k (f * 2 % 2 ^ 64) root' (if 2 ^ 63 ≤ f then (acc * root') >>> 80 else acc)

/-- 2 ^ x in FP32, within 1 ulp; a result out of the format's range becomes infinity or zero. -/
def vexp (pick : Nat) : FV → Nat
  | .nan => FV.encode fp32 .nan
  | .inf n => if n then 0 else FV.encode fp32 (.inf false)
  | .num n m e =>
    if m = 0 then nearUlp pick (2 ^ 80) (-80) true
    else if (Nat.log2 m : Int) + e > 8 then (if n then 0 else FV.encode fp32 (.inf false))
    else
      let x64 : Int := sgn n (if 0 ≤ e + 64 then m <<< (e + 64).toNat else m >>> (-(e + 64)).toNat)
      let cut := decide (e + 64 < 0 ∧ m % 2 ^ (-(e + 64)).toNat ≠ 0)
      let x' := if n && cut then x64 - 1 else x64
      let i := x' / (2 ^ 64 : Nat)
      let f := (x' % (2 ^ 64 : Nat)).toNat
      nearUlp pick (exp2Frac 64 f (2 ^ 81) (2 ^ 80)) (i - 80) (decide (f = 0) && !cut)

/-! ## Lanes -/

/-- Lane `i` of a vector register, as encoded. -/
def lane (is32 : Bool) (v : VReg) (i : Nat) : Nat :=
  if is32 then bits v (32 * i) 32 else bits v (16 * i) 16

def laneCount (is32 : Bool) : Nat := if is32 then 32 else 64

/-- A vector register of encoded lanes, lane 0 lowest. -/
def ofLanes (is32 : Bool) (ls : List Nat) : VReg :=
  BitVec.ofNat 1024 (ls.foldr (fun x acc => x % 2 ^ (if is32 then 32 else 16) + acc <<< (if is32 then 32 else 16)) 0)

def laneV (is32 : Bool) (v : VReg) (i : Nat) : FV := FV.decode (laneFmt is32) (lane is32 v i)

/-- A lane-wise operation on values, rounded to the lane format. -/
def mapLanes (is32 : Bool) (f : Nat → FV) : VReg :=
  ofLanes is32 ((List.range (laneCount is32)).map (fun i => FV.encode (laneFmt is32) (f i)))

/-- An operation with an FP32 result in each lane: BF16 results are rounded from it (R120). -/
def mapLanes32 (is32 : Bool) (f : Nat → Nat) : VReg :=
  ofLanes is32 ((List.range (laneCount is32)).map
    (fun i => if is32 then f i else FV.encode bf16 (FV.decode fp32 (f i))))

/-- VMAX and VMIN (R120): the operand itself, or the quiet NaN. -/
def pickLanes (is32 hi : Bool) (a b : VReg) : VReg :=
  mapLanes is32 (fun i => FV.pick hi (laneV is32 a i) (laneV is32 b i))

/-- VRED sum: FP32, ascending lane order, a BF16 sum rounded once at the end (R120). -/
def redSum (is32 : Bool) (v : VReg) : Nat :=
  let s := (List.range (laneCount is32)).tail.foldl
    (fun a i => FV.round fp32 (FV.add a (laneV is32 v i))) (laneV is32 v 0)
  FV.encode (laneFmt is32) s

/-- Index of the lane VRED argmax chooses (R120). -/
def redArg (is32 : Bool) (v : VReg) : Nat :=
  match (List.range (laneCount is32)).find? (fun i => (laneV is32 v i).isNan) with
  | some i => i
  | none => (List.range (laneCount is32)).foldl
      (fun b i => if (laneV is32 v b).rank < (laneV is32 v i).rank then i else b) 0

/-- VRED max (R120). -/
def redMax (is32 : Bool) (v : VReg) : Nat := FV.encode (laneFmt is32) (laneV is32 v (redArg is32 v))

/-- Every lane the same encoded value. -/
def splat (is32 : Bool) (x : Nat) : VReg := ofLanes is32 (List.replicate (laneCount is32) x)

/-- VROT (R97): lane pairs of `a` turned by the cosines in `b` and the sines in `c`. -/
def rotate (is32 : Bool) (a b c : VReg) : VReg :=
  mapLanes is32 (fun i =>
    let j := 2 * (i / 2)
    let x0 := laneV is32 a j
    let x1 := laneV is32 a (j + 1)
    let co := laneV is32 b j
    let si := laneV is32 c j
    if i % 2 = 0 then FV.add (FV.mul x0 co) (FV.neg (FV.mul x1 si))
    else FV.add (FV.mul x0 si) (FV.mul x1 co))

/-! ## Weight and activation codes -/

/-- Code value of a weight element; MXFP4 gives twice the E2M1 value (R109, R111). -/
def codeValue (wfmt code : Nat) : Int :=
  match wfmt with
  | 0 => signed code 4
  | 1 => signed code 3
  | 2 => signed code 2
  | 3 => (code : Int) - 1
  | 4 =>
    let ex := field code 1 2
    let mag : Nat := if ex = 0 then field code 0 1 else (2 + field code 0 1) * 2 ^ (ex - 1)
    if field code 3 1 = 1 then -(mag : Int) else (mag : Int)
  | 5 => signed code 4
  | _ => signed code 8

/-- Trit `k` of a QT tile at byte `base` (R112); a byte from 243 on decodes as five trits of 1. -/
def trit (img base k : Nat) : Nat :=
  let b := byteAt img (base + k / 5)
  if 243 ≤ b then 1 else b / 3 ^ (k % 5) % 3

/-- The code of element (r, c) of tile `t` of an image held as one number (R112). -/
def tileCode (wfmt img t r c : Nat) : Nat :=
  match wfmt with
  | 0 | 4 | 5 => field (byteAt img (32 * r + c / 2)) (4 * (c % 2)) 4
  | 1 => field img (8 * 24 * r + 3 * c) 3
  | 2 => field (byteAt img (1024 * t + 16 * r + c / 4)) (2 * (c % 4)) 2
  | 3 => trit img (832 * t) (64 * r + c)
  | _ => byteAt img (64 * r + c)

/-- Rows of a tile image (R94). -/
def imageRows (wfmt blk : Nat) : Nat :=
  match wfmt with
  | 0 | 2 | 4 => 32
  | 1 => if blk = 0 then 25 else 26
  | 3 => if blk = 0 then 28 else 30
  | 5 => 33
  | _ => 65

/-- Tiles of an image (R112). -/
def imageTiles (wfmt : Nat) : Nat := if wfmt = 2 ∨ wfmt = 3 then 2 else 1

/-- Input blocks for each output (R114). -/
def blocksPer (wfmt blk : Nat) : Nat := imageTiles wfmt * (if blk = 0 then 1 else 2)

/-- Formats whose scales stand in the scale window (R94). -/
def windowFmt (wfmt : Nat) : Bool := decide (wfmt = 0 ∨ wfmt = 2 ∨ wfmt = 4)

/-- First byte of the scale area in the image (R112). -/
def scaleBase (wfmt : Nat) : Nat :=
  match wfmt with
  | 1 => 1536
  | 3 => 1664
  | 5 => 2048
  | _ => 4096

/-- Scale bytes that one MMA of a window format takes (R94). -/
def scaleBytes (wfmt blk : Nat) : Nat := 64 * blocksPer wfmt blk

/-- A scale byte as the array takes it: 0xFF reads as 0x00 (R110). -/
def scaleByte (b : Nat) : Nat := if b = 255 then 0 else b

/-- Activation element `i` of a chunk run held as one number (R115). -/
def actValue (a8 : Bool) (chunks i : Nat) : Int :=
  if a8 then signed (byteAt chunks i) 8 else signed (field chunks (4 * i) 4) 4

/-- X chunks an MMA uses (R94). -/
def chunksUsed (wfmt : Nat) (a8 : Bool) : Nat := imageTiles wfmt * (if a8 then 2 else 1)

/-- Round a dyadic number to an integer, nearest with ties to even. -/
def rneInt (i : Int) (e : Int) : Int :=
  if 0 ≤ e then i * (2 ^ e.toNat : Nat)
  else
    let q := shrRNE i.natAbs (-e).toNat
    if i < 0 then -(q : Int) else (q : Int)

/-- One term of R118, in units of `2 ^ -40`. -/
def mmaTerm (prod d : Int) : Int :=
  if d < -40 then 0
  else if 30 < d then (if prod = 0 then 0 else if prod < 0 then -(2 ^ 71 : Nat) else (2 ^ 71 : Nat))
  else prod * (2 ^ (d + 40).toNat : Nat)

/-- What a weight operand is read as. -/
structure Operand where
  wfmt : Nat
  blk : Nat
  turned : Bool
  a8 : Bool
  img : Nat
  scales : Nat
  chunks : Nat
  x : Nat
  ref : Nat
  deriving DecidableEq, Repr

/-- Scale byte that covers output `o` and input `i` (R114). -/
def Operand.scaleOf (w : Operand) (o i : Nat) : Nat :=
  scaleByte (if w.wfmt = 5 ∨ w.wfmt = 6 then byteAt w.scales (if w.turned then i else o)
    else byteAt w.scales (o * blocksPer w.wfmt w.blk + i / (if w.blk = 0 then 64 else 32)))

/-- T(o) of R118. -/
def Operand.sum (w : Operand) (o : Nat) : Int :=
  let m : Int := if w.wfmt = 4 then 1 else 0
  let total := (List.range (64 * imageTiles w.wfmt)).foldl (fun acc i =>
    let code := if w.turned then tileCode w.wfmt w.img (i / 64) (i % 64) o else tileCode w.wfmt w.img (i / 64) o (i % 64)
    let d : Int := (w.scaleOf o i : Int) + (w.x : Int) - 127 - (w.ref : Int) - m
    acc + mmaTerm (codeValue w.wfmt code * actValue w.a8 w.chunks i) d) (0 : Int)
  rneInt total (-40)

/-- INT32 clamp (R118), with whether it clamped. -/
def clamp32 (i : Int) : Int × Bool :=
  if i < -2147483648 then (-2147483648, true) else if 2147483647 < i then (2147483647, true) else (i, false)

/-- VRQ's conversion of one element (R119). -/
def rqToFp32 (ref : Nat) (a : Int) : Nat := FV.encode fp32 (FV.ofInt a ((ref : Int) - 127))

/-! ## The carry quantiser -/

/-- What one quantised element gives: code, error passed on, clamps. -/
structure Quant where
  q : Int
  err : FV
  clamped : Bool
  deriving DecidableEq, Repr

/-- `round_half_even(y * 2 ^ k)` of a finite value. -/
def rneScaled (neg : Bool) (m : Nat) (e k : Int) : Int := rneInt (sgn neg m) (e + k)

/-- Clamp of a value to ±half, where half = 2 ^ (X - 128). -/
def clampHalf (x : Nat) (v : FV) : FV :=
  let half := FV.num false 1 ((x : Int) - 128)
  let low := FV.num true 1 ((x : Int) - 128)
  if FV.lt v low then low else if FV.lt half v then half else v

/-- R122 for a sum `y` that is already an FP32 value: code, the new carry, and whether it counts as a clamp. The carry is an
FP32 value too: a subnormal half is a zero (R120). -/
def quantise (bits8 : Bool) (x : Nat) (y : FV) : Quant :=
  let hi : Int := if bits8 then 127 else 7
  let lo : Int := if bits8 then -128 else -8
  match y with
  | .nan => ⟨0, .num false 0 0, true⟩
  | .inf n =>
    let q := if n then lo else hi
    ⟨q, FV.round fp32 (clampHalf x (FV.round fp32 (FV.add y (FV.neg (FV.ofInt q ((x : Int) - 127)))))), true⟩
  | .num n m e =>
    let q0 := rneScaled n m e (127 - (x : Int))
    let q := if q0 < lo then lo else if hi < q0 then hi else q0
    ⟨q, FV.round fp32 (clampHalf x (FV.round fp32 (FV.add y (FV.neg (FV.ofInt q ((x : Int) - 127)))))), decide (q0 < lo ∨ hi < q0)⟩

/-- A run of chained elements (R121, R122): codes in order, the carry left, clamps. -/
def quantChain (bits8 : Bool) (x : Nat) : List FV → FV → List Int × FV × Nat
  | [], c => ([], c, 0)
  | v :: r, c =>
    let y := FV.round fp32 (FV.add v c)
    let k := quantise bits8 x y
    let (qs, c', n) := quantChain bits8 x r k.err
    (k.q :: qs, c', n + b2n k.clamped)

/-- Smallest exponent of 1 to 254 whose step reaches `m` with the top code; 254 if none (R123). -/
def blockExp (top : Nat) (m : FV) : Nat :=
  match m with
  | .inf _ => 254
  | _ => (((List.range 254).map (fun i : Nat => i + 1)).find?
      (fun e : Nat => !(FV.lt (FV.ofInt top ((e : Int) - 127)) m))).getD 254

/-- Magnitude of a value; NaN counts as nothing. -/
def FV.mag : FV → FV
  | .nan => .num false 0 0
  | .inf _ => .inf false
  | .num _ m e => .num false m e

/-- One block of 64 channels of R123: exponent, codes, residuals out (BF16), clamps. -/
def quantBlock (bits8 : Bool) (x r : List FV) : Nat × List Int × List Nat × Nat :=
  let y := (x.zip r).map (fun (a, b) => FV.round fp32 (FV.add a b))
  let m := y.foldl (fun a v => if FV.lt a v.mag then v.mag else a) (.num false 0 0)
  let e := blockExp (if bits8 then 127 else 7) m
  let ks := y.map (quantise bits8 e)
  let res := (y.zip ks).map (fun (v, k) =>
    match v with
    | .nan => 0
    | .inf _ => FV.encode bf16 k.err
    | .num _ _ _ => FV.encode bf16 (clampHalf e (FV.add v (FV.neg (FV.ofInt k.q ((e : Int) - 127))))))
  (e, ks.map (·.q), res, (ks.filter (·.clamped)).length)

/-- Codes packed into a row, element 0 lowest (R115). -/
def packCodes (bits8 : Bool) (qs : List Int) : Row :=
  let w := if bits8 then 8 else 4
  BitVec.ofNat 512 (qs.foldr (fun q acc => unsigned q w + acc <<< w) 0)

end Sys2Proof.Machine
end

