-- ==== Sys2Proof/Machine/RegMap.lean ====
section
/-!
DEFINITION. The register map of the control space (01_wafer_hierarchy R28 to R30): for every register of the
owning chapters its address, its instances, and its fields with their access codes (00_scope R9) and reset values
(R11). The access code `clr` is the spec's rw for a count that any write clears; `ent`, `ten` and `rt` are the tables
whose own rules say who writes them. A register marked `view` is computed from other state when it is read.
-/

namespace Sys2Proof.Machine

/-- One field of one register of the control space. -/
structure FieldRef where
  addr : Nat
  lo : Nat
  len : Nat
  deriving DecidableEq, Repr

/-- Access codes (R9). -/
inductive Access where
  | ro | rw | w1c | w1s | wo | rwo | rwl | clr | ent | ten | rt
  deriving DecidableEq, Repr

/-- A field as its table row gives it. -/
structure FieldDesc where
  hi : Nat
  lo : Nat
  acc : Access
  reset : Nat
  deriving DecidableEq, Repr

/-- Names of the registers of the control space. -/
inductive Reg where
  | IDENT_PART | IDENT_SERIAL_LO | IDENT_SERIAL_HI | IDENT_VERSION | IDENT_CAP | IDENT_INV_CORES | IDENT_INV_SPARE
  | IDENT_INV_SEQ | IDENT_INV_STAT | IDENT_ACC_ERR | IDENT_BOOT | IDENT_RST_CAUSE | IDENT_BOOT_MS | IDENT_INV_REC
  | IDENT_CORE_MAP | BEAT_TICK_LO | BEAT_TICK_HI | BEAT_MARK | BEAT_MARK_TICK | BEAT_TICK_SET_LO | BEAT_TICK_SET_HI
  | BEAT_TICK_CTL | BEAT_PLAN_LEN | BEAT_PLAN_CTL | BEAT_PLAN_ORIGIN_LO | BEAT_PLAN_ORIGIN_HI | BEAT_PLAN_REST
  | BEAT_CUR_LO | BEAT_CUR_HI | BEAT_CUR_START_LO | BEAT_CUR_START_HI | BEAT_STAT | BEAT_OVR | BEAT_OVR_TICK_LO
  | BEAT_OVR_TICK_HI | BEAT_STATS_LEN | BEAT_STATS_WIN | BEAT_CNT | BEAT_CNT_LAST | EVC_SRC_CFG | EVC_PTGT
  | EVC_CC_CLAIM | EVC_CC_EOI | EVC_CC_BASE | EVC_CC_STAT | EVC_CC_STK | EVC_HOST_CTL | EVC_STUCK_LIM
  | EVC_DEV_LATCH | EVC_HOST_DROP | EVC_PIN_CFG | EVC_PIN_STAT | EVC_PIN_LEVEL | EVC_PIN_SHORT | EVC_STUCK_MAP
  | EVC_PEND_MAP | SAGE_CTL | SAGE_STAT | SAGE_EVT | SAGE_LOG | SAGE_DET | SAGE_REC | SAGE_P_CTL | SAGE_P_STAT
  | SAGE_P_REPLAYS | SAGE_P_RESTARTS | SAGE_P_REMAPS | SAGE_P_WITHHELD | PWR_CAP | PWR_GOV | PWR_STAT
  | PWR_IN_LAST | PWR_AUX_LAST | PWR_EVT | PWR_SAG_CNT | PWR_BRAKE_CNT | PWR_REP_A | PWR_REP_B | FWU_STAT
  | FWU_CTL | FWU_LEFT | FWU_INACT_VER | FWU_INACT_INFO | FWU_EVT | FWU_PAUSE | FWU_SET_SEL | FWU_SET_DATA
  | FWU_SET_CMD | FWU_SET_RES | TRUST_CTL | TRUST_KEY | TRUST_RESV | TRUST_ID | TRUST_NONCE | TRUST_QUOTE
  | TRUST_IDCERT | LOAD_CTL | LOAD_STAT | LOAD_DETAIL | LOAD_SRC | LOAD_LEN_LO | LOAD_LEN_HI | LOAD_ORIGIN_LO
  | LOAD_ORIGIN_HI | LOAD_PROGRESS | LOAD_PSTATE | LOAD_CHAN | PART_RES_CTL | PART_RES_SLICE | PART_RES_QUOTA
  | PART_RES_USED | PART_RES_SHARE | PART_RES_SHARE_EFF | PART_RST | PART_RST_CNT | PART_RST_TICK | PART_RST_DROPS
  | PART_EVT | PART_EVT_SET | PART_RES_CL | PART_NW_CTL | PART_NW_LAST | PART_NW_LAST_TICK_LO | PART_NW_LAST_TICK_HI
  | PART_NW_REPLAYS | PART_NW_FLAGMAP | PART_STG_REC | PART_STG_NWCFG | PART_STG_MEAN | PART_STG_FLAGS
  | PART_STG_CLAMP | PART_STG_MISS | PART_STG_NORM | PART_RCP_CFG | PART_RCP_OFF | PART_RCP_PLAN | PART_KV_IDX
  | PART_PFX_ARG | PART_PFX_CMD | PART_PFX_RES | PART_PFX_SEL | PART_PFX_DATA | PART_SHIP_CTL | PART_SHIP_WAIT
  | PART_SHIP_BUF | PART_SHIP_SEL | PART_SHIP_PEER | PART_SHIP_SENT | PART_SHIP_RECEIVED | PART_SHIP_REBUILT
  | PART_SHIP_RESENT | PART_SHIP_FALLBACK | PART_SHIP_FAILED | PART_SHIP_DROPPED | PART_WGT_CTL | PART_WGT_STAT
  | PART_WGT_SRC | PART_WGT_NEW | PART_WGT_CUR | PART_WGT_SWAP_AT | PART_WGT_WAIT | PART_WGT_PEER | PART_WGT_ROWS
  | PART_WGT_REBUILT | PART_WGT_REREQ | PART_WGT_BAD | PART_WGT_HELDFLIP | PART_ADP_DIR | PART_ADP_ARG
  | PART_ADP_CMD | PART_ADP_RES | PART_ADP_SEL | PART_ADP_DATA | PART_VF_MAP | PART_VF_FLR | REQ_CMD
  | REQ_CMD_ARG_LO | REQ_CMD_ARG_HI | REQ_CMD_RES | REQ_STRAY | REQ_P_CTL | REQ_P_READ | REQ_P_TEN | REQ_P_STEP_LO
  | REQ_P_STEP_HI | REQ_P_COMMIT | REQ_P_QUEUED | REQ_P_LIVE | REQ_P_PAGES | REQ_P_CNT | REQ_P_CNT_LAST
  | LINK_P_CTL | LINK_P_STAT | LINK_P_EVT | LINK_P_RTO | LINK_P_FEC_CORR | LINK_P_FEC_UNC | LINK_P_RX_BAD
  | LINK_P_RESENT | LINK_P_RX_DROP | LINK_P_DUP | LINK_P_PFC_TX | LINK_P_PFC_RX | LINK_TLT_ADDR | LINK_TLT_ETYPE
  | LINK_TLT_VER | LINK_TLT_VLAN | LINK_TLT_MACPFX | LINK_BED_SLOT | LINK_IO_STAT | LINK_TS_CTL | LINK_TS_STAT
  | LINK_TS_OFFSET | LINK_TS_DELAY | LINK_TS_BSCOMP | LINK_HB_CTL | LINK_HB_AP_SEL | LINK_HB_AP_LO | LINK_HB_AP_HI
  | LINK_HB_TIMEOUT | LINK_HB_DISCARD | LINK_HB_FN_SEL | LINK_HB_CQ_LO | LINK_HB_CQ_HI | LINK_HB_FN_STAT
  | LINK_OW_SEL | LINK_OW_BASE_LO | LINK_OW_BASE_HI | LINK_OW_CTL | LINK_OW_PROD | LINK_OW_DROP | LINK_CH_CTL
  | LINK_CH_DEST | LINK_CH_BASE | LINK_CH_LIMIT | BAY_CTL | BAY_FREE | BAY_ECC_CNT | BAY_ECC_LAST | BAY_ECC_LAST_ROW
  | BAY_ECC_LAST_TICK | BAY_REFUSE | BAY_REFUSE_LAST | BAY_OWN_SEL | BAY_OWN_DATA | BAY_ROWS_RD | BAY_ROWS_RD_LAST
  | BAY_ROWS_WR | BAY_ROWS_WR_LAST | BAY_COPY_ROWS | BAY_COPY_ROWS_LAST | BAY_MOVE_CTL | BAY_MOVE_SLOT
  | BAY_MOVE_DST | BAY_MOVE_STAT | BAY_MOVE_DONE | BAY_MAP_ARG0 | BAY_MAP_ARG1 | BAY_MAP_CMD | BAY_MAP_RES
  | BAY_MAP_SLOTS | DIE_PWR_CTL | DIE_PWR_STAT | DIE_PWR_RTH | DIE_PWR_TEMP | DIE_PWR_OFFS | DIE_RT_CTL
  | DIE_RT_SWAP_AT | DIE_RT_C0BANK_LO | DIE_RT_C0BANK_HI | DIE_RT_C0SWAP_LO | DIE_RT_C0SWAP_HI | DIE_NET_RETRY
  | DIE_NET_DROP | DIE_NET_LAST | DIE_NET_LAST_TICK | DIE_EDGE_BUDGET_BAY | DIE_EDGE_BUDGET_LINK | DIE_EDGE_ROWS_BAY
  | DIE_EDGE_ROWS_BAY_LAST | DIE_EDGE_BP_BAY | DIE_EDGE_BP_BAY_LAST | DIE_EDGE_ROWS_LINK | DIE_EDGE_ROWS_LINK_LAST
  | DIE_EDGE_BP_LINK | DIE_EDGE_BP_LINK_LAST | DIE_EDGE_OVER_BAY_LO | DIE_EDGE_OVER_BAY_HI | DIE_EDGE_OVER_LINK_LO
  | DIE_EDGE_OVER_LINK_HI | DIE_RT_DEF | DIE_RT_C0 | DIE_XLT_SEL | DIE_XLT_DATA | DIE_CORE_CTL | DIE_CORE_STAT
  | DIE_CORE_PROG | DIE_CORE_PC_LM | DIE_CORE_PC_VS | DIE_CORE_SAT | DIE_CORE_TRAP | DIE_CORE_TRAP_TICK
  | DIE_CORE_SIG | DIE_CORE_SIG_HI | REQ_TABLE | PAGE_MAP | TENANT_CFG0 | TENANT_CFG1 | TENANT_STATE

  deriving DecidableEq, Repr

/-- A register, its base address, its dimensions (count and stride) and its fields. -/
structure RegDesc where
  reg : Reg
  base : Nat
  dims : List (Nat × Nat)
  fields : List FieldDesc
  view : Bool
  deriving DecidableEq, Repr

/-- IDENT_PART (R33). -/
def IDENT_PART : Nat := 0x0
def IDENT_PART_product : FieldRef := ⟨IDENT_PART, 16, 16⟩
def IDENT_PART_grade : FieldRef := ⟨IDENT_PART, 8, 8⟩
def IDENT_PART_stepping : FieldRef := ⟨IDENT_PART, 0, 8⟩
/-- IDENT_SERIAL_LO (R34). -/
def IDENT_SERIAL_LO : Nat := 0x4
def IDENT_SERIAL_LO_serial : FieldRef := ⟨IDENT_SERIAL_LO, 0, 32⟩
/-- IDENT_SERIAL_HI (R34). -/
def IDENT_SERIAL_HI : Nat := 0x8
def IDENT_SERIAL_HI_serial : FieldRef := ⟨IDENT_SERIAL_HI, 0, 32⟩
/-- IDENT_VERSION (R35). -/
def IDENT_VERSION : Nat := 0xC
def IDENT_VERSION_major : FieldRef := ⟨IDENT_VERSION, 24, 8⟩
def IDENT_VERSION_minor : FieldRef := ⟨IDENT_VERSION, 16, 8⟩
def IDENT_VERSION_build : FieldRef := ⟨IDENT_VERSION, 0, 16⟩
/-- IDENT_CAP (R36). -/
def IDENT_CAP : Nat := 0x10
def IDENT_CAP_diloth_max : FieldRef := ⟨IDENT_CAP, 24, 8⟩
def IDENT_CAP_diloth_min : FieldRef := ⟨IDENT_CAP, 16, 8⟩
def IDENT_CAP_tlt_versions : FieldRef := ⟨IDENT_CAP, 0, 3⟩
/-- IDENT_INV_CORES (R37). -/
def IDENT_INV_CORES : Nat := 0x20
def IDENT_INV_CORES_delivered : FieldRef := ⟨IDENT_INV_CORES, 16, 14⟩
def IDENT_INV_CORES_mappable : FieldRef := ⟨IDENT_INV_CORES, 0, 14⟩
/-- IDENT_INV_SPARE (R37). -/
def IDENT_INV_SPARE : Nat := 0x24
def IDENT_INV_SPARE_failed : FieldRef := ⟨IDENT_INV_SPARE, 16, 14⟩
def IDENT_INV_SPARE_reserve : FieldRef := ⟨IDENT_INV_SPARE, 0, 10⟩
/-- IDENT_INV_SEQ (R37). -/
def IDENT_INV_SEQ : Nat := 0x28
def IDENT_INV_SEQ_sequence : FieldRef := ⟨IDENT_INV_SEQ, 0, 32⟩
/-- IDENT_INV_STAT (R37). -/
def IDENT_INV_STAT : Nat := 0x2C
def IDENT_INV_STAT_none_valid : FieldRef := ⟨IDENT_INV_STAT, 2, 1⟩
def IDENT_INV_STAT_pending : FieldRef := ⟨IDENT_INV_STAT, 1, 1⟩
def IDENT_INV_STAT_valid : FieldRef := ⟨IDENT_INV_STAT, 0, 1⟩
/-- IDENT_ACC_ERR (R38). -/
def IDENT_ACC_ERR : Nat := 0x30
def IDENT_ACC_ERR_reserved_hits : FieldRef := ⟨IDENT_ACC_ERR, 16, 16⟩
def IDENT_ACC_ERR_partial_writes : FieldRef := ⟨IDENT_ACC_ERR, 0, 16⟩
/-- IDENT_BOOT (R525). -/
def IDENT_BOOT : Nat := 0x40
def IDENT_BOOT_phase : FieldRef := ⟨IDENT_BOOT, 28, 4⟩
def IDENT_BOOT_fail : FieldRef := ⟨IDENT_BOOT, 24, 4⟩
def IDENT_BOOT_bank : FieldRef := ⟨IDENT_BOOT, 23, 1⟩
/-- IDENT_RST_CAUSE (R526). -/
def IDENT_RST_CAUSE : Nat := 0x44
def IDENT_RST_CAUSE_perst : FieldRef := ⟨IDENT_RST_CAUSE, 4, 1⟩
def IDENT_RST_CAUSE_pwr_en : FieldRef := ⟨IDENT_RST_CAUSE, 3, 1⟩
def IDENT_RST_CAUSE_stop : FieldRef := ⟨IDENT_RST_CAUSE, 2, 1⟩
def IDENT_RST_CAUSE_pin : FieldRef := ⟨IDENT_RST_CAUSE, 1, 1⟩
def IDENT_RST_CAUSE_por : FieldRef := ⟨IDENT_RST_CAUSE, 0, 1⟩
/-- IDENT_BOOT_MS (R527). -/
def IDENT_BOOT_MS : Nat := 0x48
def IDENT_BOOT_MS_island : FieldRef := ⟨IDENT_BOOT_MS, 16, 16⟩
def IDENT_BOOT_MS_compute : FieldRef := ⟨IDENT_BOOT_MS, 0, 16⟩
/-- IDENT_INV_REC (R39). -/
def IDENT_INV_REC (i : Nat) : Nat := 0x1000 + 0x4 * i
/-- IDENT_CORE_MAP (R40). -/
def IDENT_CORE_MAP (i : Nat) : Nat := 0x8000 + 0x4 * i
/-- BEAT_TICK_LO (R60). -/
def BEAT_TICK_LO : Nat := 0x10000
/-- BEAT_TICK_HI (R60). -/
def BEAT_TICK_HI : Nat := 0x10004
/-- BEAT_MARK (R61). -/
def BEAT_MARK : Nat := 0x10008
/-- BEAT_MARK_TICK (R61). -/
def BEAT_MARK_TICK : Nat := 0x1000C
/-- BEAT_TICK_SET_LO (R62). -/
def BEAT_TICK_SET_LO : Nat := 0x10010
def BEAT_TICK_SET_LO_value : FieldRef := ⟨BEAT_TICK_SET_LO, 0, 32⟩
/-- BEAT_TICK_SET_HI (R62). -/
def BEAT_TICK_SET_HI : Nat := 0x10014
def BEAT_TICK_SET_HI_value : FieldRef := ⟨BEAT_TICK_SET_HI, 0, 32⟩
/-- BEAT_TICK_CTL (R62). -/
def BEAT_TICK_CTL : Nat := 0x10018
def BEAT_TICK_CTL_refused : FieldRef := ⟨BEAT_TICK_CTL, 2, 1⟩
def BEAT_TICK_CTL_load : FieldRef := ⟨BEAT_TICK_CTL, 1, 1⟩
def BEAT_TICK_CTL_run : FieldRef := ⟨BEAT_TICK_CTL, 0, 1⟩
/-- BEAT_PLAN_LEN (R63). -/
def BEAT_PLAN_LEN (i : Nat) : Nat := 0x11000 + 0x100 * i
def BEAT_PLAN_LEN_slip_limit (i : Nat) : FieldRef := ⟨BEAT_PLAN_LEN i, 24, 4⟩
def BEAT_PLAN_LEN_guard_units (i : Nat) : FieldRef := ⟨BEAT_PLAN_LEN i, 16, 7⟩
def BEAT_PLAN_LEN_ticks (i : Nat) : FieldRef := ⟨BEAT_PLAN_LEN i, 0, 9⟩
/-- BEAT_PLAN_CTL (R64). -/
def BEAT_PLAN_CTL (i : Nat) : Nat := 0x11004 + 0x100 * i
def BEAT_PLAN_CTL_lock (i : Nat) : FieldRef := ⟨BEAT_PLAN_CTL i, 31, 1⟩
def BEAT_PLAN_CTL_late (i : Nat) : FieldRef := ⟨BEAT_PLAN_CTL i, 5, 1⟩
def BEAT_PLAN_CTL_held (i : Nat) : FieldRef := ⟨BEAT_PLAN_CTL i, 4, 1⟩
def BEAT_PLAN_CTL_hold (i : Nat) : FieldRef := ⟨BEAT_PLAN_CTL i, 3, 1⟩
def BEAT_PLAN_CTL_stop (i : Nat) : FieldRef := ⟨BEAT_PLAN_CTL i, 2, 1⟩
def BEAT_PLAN_CTL_start (i : Nat) : FieldRef := ⟨BEAT_PLAN_CTL i, 1, 1⟩
def BEAT_PLAN_CTL_active (i : Nat) : FieldRef := ⟨BEAT_PLAN_CTL i, 0, 1⟩
/-- BEAT_PLAN_ORIGIN_LO (R65). -/
def BEAT_PLAN_ORIGIN_LO (i : Nat) : Nat := 0x11008 + 0x100 * i
def BEAT_PLAN_ORIGIN_LO_origin (i : Nat) : FieldRef := ⟨BEAT_PLAN_ORIGIN_LO i, 0, 32⟩
/-- BEAT_PLAN_ORIGIN_HI (R65). -/
def BEAT_PLAN_ORIGIN_HI (i : Nat) : Nat := 0x1100C + 0x100 * i
def BEAT_PLAN_ORIGIN_HI_origin (i : Nat) : FieldRef := ⟨BEAT_PLAN_ORIGIN_HI i, 0, 32⟩
/-- BEAT_PLAN_REST (R66). -/
def BEAT_PLAN_REST (i : Nat) : Nat := 0x11010 + 0x100 * i
def BEAT_PLAN_REST_rest (i : Nat) : FieldRef := ⟨BEAT_PLAN_REST i, 0, 6⟩
/-- BEAT_CUR_LO (R67). -/
def BEAT_CUR_LO (i : Nat) : Nat := 0x11014 + 0x100 * i
def BEAT_CUR_LO_count (i : Nat) : FieldRef := ⟨BEAT_CUR_LO i, 0, 32⟩
/-- BEAT_CUR_HI (R67). -/
def BEAT_CUR_HI (i : Nat) : Nat := 0x11018 + 0x100 * i
def BEAT_CUR_HI_count (i : Nat) : FieldRef := ⟨BEAT_CUR_HI i, 0, 16⟩
/-- BEAT_CUR_START_LO (R67). -/
def BEAT_CUR_START_LO (i : Nat) : Nat := 0x1101C + 0x100 * i
def BEAT_CUR_START_LO_tick (i : Nat) : FieldRef := ⟨BEAT_CUR_START_LO i, 0, 32⟩
/-- BEAT_CUR_START_HI (R67). -/
def BEAT_CUR_START_HI (i : Nat) : Nat := 0x11020 + 0x100 * i
def BEAT_CUR_START_HI_tick (i : Nat) : FieldRef := ⟨BEAT_CUR_START_HI i, 0, 32⟩
/-- BEAT_STAT (R68). -/
def BEAT_STAT (i : Nat) : Nat := 0x11024 + 0x100 * i
def BEAT_STAT_slip_used (i : Nat) : FieldRef := ⟨BEAT_STAT i, 4, 4⟩
def BEAT_STAT_in_rest (i : Nat) : FieldRef := ⟨BEAT_STAT i, 1, 1⟩
def BEAT_STAT_in_beat (i : Nat) : FieldRef := ⟨BEAT_STAT i, 0, 1⟩
/-- BEAT_OVR (R69). -/
def BEAT_OVR (i : Nat) : Nat := 0x11028 + 0x100 * i
def BEAT_OVR_valid (i : Nat) : FieldRef := ⟨BEAT_OVR i, 31, 1⟩
def BEAT_OVR_cause (i : Nat) : FieldRef := ⟨BEAT_OVR i, 28, 3⟩
def BEAT_OVR_engine (i : Nat) : FieldRef := ⟨BEAT_OVR i, 26, 2⟩
def BEAT_OVR_arrival_wait (i : Nat) : FieldRef := ⟨BEAT_OVR i, 25, 1⟩
def BEAT_OVR_logical (i : Nat) : FieldRef := ⟨BEAT_OVR i, 0, 14⟩
/-- BEAT_OVR_TICK_LO (R69). -/
def BEAT_OVR_TICK_LO (i : Nat) : Nat := 0x1102C + 0x100 * i
def BEAT_OVR_TICK_LO_tick (i : Nat) : FieldRef := ⟨BEAT_OVR_TICK_LO i, 0, 32⟩
/-- BEAT_OVR_TICK_HI (R69). -/
def BEAT_OVR_TICK_HI (i : Nat) : Nat := 0x11030 + 0x100 * i
def BEAT_OVR_TICK_HI_tick (i : Nat) : FieldRef := ⟨BEAT_OVR_TICK_HI i, 0, 32⟩
/-- BEAT_STATS_LEN (R70). -/
def BEAT_STATS_LEN (i : Nat) : Nat := 0x11034 + 0x100 * i
def BEAT_STATS_LEN_marks (i : Nat) : FieldRef := ⟨BEAT_STATS_LEN i, 0, 16⟩
/-- BEAT_STATS_WIN (R70). -/
def BEAT_STATS_WIN (i : Nat) : Nat := 0x11038 + 0x100 * i
def BEAT_STATS_WIN_windows (i : Nat) : FieldRef := ⟨BEAT_STATS_WIN i, 0, 32⟩
/-- BEAT_CNT (R71). -/
def BEAT_CNT (i j : Nat) : Nat := 0x11040 + 0x100 * i + 0x4 * j
def BEAT_CNT_count (i j : Nat) : FieldRef := ⟨BEAT_CNT i j, 0, 32⟩
/-- BEAT_CNT_LAST (R71). -/
def BEAT_CNT_LAST (i j : Nat) : Nat := 0x11060 + 0x100 * i + 0x4 * j
def BEAT_CNT_LAST_count (i j : Nat) : FieldRef := ⟨BEAT_CNT_LAST i j, 0, 32⟩
/-- EVC_SRC_CFG (R421). -/
def EVC_SRC_CFG (i : Nat) : Nat := 0x20000 + 0x4 * i
def EVC_SRC_CFG_enable (i : Nat) : FieldRef := ⟨EVC_SRC_CFG i, 31, 1⟩
def EVC_SRC_CFG_pend (i : Nat) : FieldRef := ⟨EVC_SRC_CFG i, 30, 1⟩
def EVC_SRC_CFG_stuck (i : Nat) : FieldRef := ⟨EVC_SRC_CFG i, 29, 1⟩
def EVC_SRC_CFG_level (i : Nat) : FieldRef := ⟨EVC_SRC_CFG i, 28, 1⟩
def EVC_SRC_CFG_priority (i : Nat) : FieldRef := ⟨EVC_SRC_CFG i, 16, 4⟩
def EVC_SRC_CFG_host (i : Nat) : FieldRef := ⟨EVC_SRC_CFG i, 11, 1⟩
def EVC_SRC_CFG_hvec (i : Nat) : FieldRef := ⟨EVC_SRC_CFG i, 7, 4⟩
def EVC_SRC_CFG_cc_en (i : Nat) : FieldRef := ⟨EVC_SRC_CFG i, 6, 1⟩
def EVC_SRC_CFG_cc (i : Nat) : FieldRef := ⟨EVC_SRC_CFG i, 0, 3⟩
/-- EVC_PTGT (R422). -/
def EVC_PTGT (i : Nat) : Nat := 0x21000 + 0x4 * i
def EVC_PTGT_host (i : Nat) : FieldRef := ⟨EVC_PTGT i, 8, 1⟩
def EVC_PTGT_cc (i : Nat) : FieldRef := ⟨EVC_PTGT i, 0, 8⟩
/-- EVC_CC_CLAIM (R423). -/
def EVC_CC_CLAIM (i : Nat) : Nat := 0x22000 + 0x100 * i
/-- EVC_CC_EOI (R423). -/
def EVC_CC_EOI (i : Nat) : Nat := 0x22004 + 0x100 * i
def EVC_CC_EOI_source (i : Nat) : FieldRef := ⟨EVC_CC_EOI i, 0, 10⟩
/-- EVC_CC_BASE (R423). -/
def EVC_CC_BASE (i : Nat) : Nat := 0x22008 + 0x100 * i
def EVC_CC_BASE_base (i : Nat) : FieldRef := ⟨EVC_CC_BASE i, 0, 4⟩
/-- EVC_CC_STAT (R424). -/
def EVC_CC_STAT (i : Nat) : Nat := 0x2200C + 0x100 * i
def EVC_CC_STAT_eoi_mismatch (i : Nat) : FieldRef := ⟨EVC_CC_STAT i, 2, 1⟩
def EVC_CC_STAT_eoi_empty (i : Nat) : FieldRef := ⟨EVC_CC_STAT i, 1, 1⟩
/-- EVC_CC_STK (R424). -/
def EVC_CC_STK (i j : Nat) : Nat := 0x22040 + 0x100 * i + 0x4 * j
/-- EVC_HOST_CTL (R425). -/
def EVC_HOST_CTL : Nat := 0x23000
def EVC_HOST_CTL_remind : FieldRef := ⟨EVC_HOST_CTL, 0, 1⟩
/-- EVC_STUCK_LIM (R425). -/
def EVC_STUCK_LIM : Nat := 0x23004
def EVC_STUCK_LIM_limit : FieldRef := ⟨EVC_STUCK_LIM, 0, 8⟩
/-- EVC_DEV_LATCH (R425). -/
def EVC_DEV_LATCH : Nat := 0x23008
def EVC_DEV_LATCH_latch : FieldRef := ⟨EVC_DEV_LATCH, 0, 4⟩
/-- EVC_HOST_DROP (R425). -/
def EVC_HOST_DROP : Nat := 0x2300C
def EVC_HOST_DROP_count : FieldRef := ⟨EVC_HOST_DROP, 0, 32⟩
/-- EVC_PIN_CFG (R426). -/
def EVC_PIN_CFG : Nat := 0x23010
def EVC_PIN_CFG_polarity : FieldRef := ⟨EVC_PIN_CFG, 0, 8⟩
/-- EVC_PIN_STAT (R426). -/
def EVC_PIN_STAT : Nat := 0x23014
def EVC_PIN_STAT_short : FieldRef := ⟨EVC_PIN_STAT, 8, 8⟩
def EVC_PIN_STAT_latch : FieldRef := ⟨EVC_PIN_STAT, 0, 8⟩
/-- EVC_PIN_LEVEL (R426). -/
def EVC_PIN_LEVEL : Nat := 0x23018
/-- EVC_PIN_SHORT (R426). -/
def EVC_PIN_SHORT (i : Nat) : Nat := 0x23020 + 0x4 * i
def EVC_PIN_SHORT_count (i : Nat) : FieldRef := ⟨EVC_PIN_SHORT i, 0, 16⟩
/-- EVC_STUCK_MAP (R427). -/
def EVC_STUCK_MAP (i : Nat) : Nat := 0x23100 + 0x4 * i
/-- EVC_PEND_MAP (R427). -/
def EVC_PEND_MAP (i : Nat) : Nat := 0x23200 + 0x4 * i
/-- SAGE_CTL (R490). -/
def SAGE_CTL : Nat := 0x30000
def SAGE_CTL_replays : FieldRef := ⟨SAGE_CTL, 16, 8⟩
def SAGE_CTL_repeat : FieldRef := ⟨SAGE_CTL, 0, 16⟩
/-- SAGE_STAT (R490). -/
def SAGE_STAT : Nat := 0x30004
def SAGE_STAT_ok : FieldRef := ⟨SAGE_STAT, 31, 1⟩
def SAGE_STAT_gate_open : FieldRef := ⟨SAGE_STAT, 30, 1⟩
def SAGE_STAT_selftests : FieldRef := ⟨SAGE_STAT, 0, 16⟩
/-- SAGE_EVT (R490). -/
def SAGE_EVT : Nat := 0x30008
def SAGE_EVT_latch : FieldRef := ⟨SAGE_EVT, 0, 8⟩
/-- SAGE_LOG (R491). -/
def SAGE_LOG : Nat := 0x30010
def SAGE_LOG_overflow : FieldRef := ⟨SAGE_LOG, 31, 1⟩
def SAGE_LOG_head : FieldRef := ⟨SAGE_LOG, 16, 6⟩
def SAGE_LOG_tail : FieldRef := ⟨SAGE_LOG, 0, 6⟩
/-- SAGE_DET (R491). -/
def SAGE_DET (i : Nat) : Nat := 0x30044 + 0x4 * i
def SAGE_DET_count (i : Nat) : FieldRef := ⟨SAGE_DET i, 0, 32⟩
/-- SAGE_REC (R492). -/
def SAGE_REC (i j : Nat) : Nat := 0x31000 + 0x10 * i + 0x4 * j
def SAGE_REC_word (i j : Nat) : FieldRef := ⟨SAGE_REC i j, 0, 32⟩
/-- SAGE_P_CTL (R493). -/
def SAGE_P_CTL (i : Nat) : Nat := 0x32000 + 0x20 * i
def SAGE_P_CTL_fold (i : Nat) : FieldRef := ⟨SAGE_P_CTL i, 31, 1⟩
/-- SAGE_P_STAT (R493). -/
def SAGE_P_STAT (i : Nat) : Nat := 0x32004 + 0x20 * i
def SAGE_P_STAT_state (i : Nat) : FieldRef := ⟨SAGE_P_STAT i, 28, 4⟩
def SAGE_P_STAT_response (i : Nat) : FieldRef := ⟨SAGE_P_STAT i, 24, 4⟩
def SAGE_P_STAT_die (i : Nat) : FieldRef := ⟨SAGE_P_STAT i, 17, 7⟩
/-- SAGE_P_REPLAYS (R493). -/
def SAGE_P_REPLAYS (i : Nat) : Nat := 0x32008 + 0x20 * i
def SAGE_P_REPLAYS_count (i : Nat) : FieldRef := ⟨SAGE_P_REPLAYS i, 0, 32⟩
/-- SAGE_P_RESTARTS (R493). -/
def SAGE_P_RESTARTS (i : Nat) : Nat := 0x3200C + 0x20 * i
def SAGE_P_RESTARTS_count (i : Nat) : FieldRef := ⟨SAGE_P_RESTARTS i, 0, 32⟩
/-- SAGE_P_REMAPS (R493). -/
def SAGE_P_REMAPS (i : Nat) : Nat := 0x32010 + 0x20 * i
def SAGE_P_REMAPS_count (i : Nat) : FieldRef := ⟨SAGE_P_REMAPS i, 0, 32⟩
/-- SAGE_P_WITHHELD (R493). -/
def SAGE_P_WITHHELD (i : Nat) : Nat := 0x32014 + 0x20 * i
def SAGE_P_WITHHELD_count (i : Nat) : FieldRef := ⟨SAGE_P_WITHHELD i, 0, 32⟩
/-- PWR_CAP (R511). -/
def PWR_CAP : Nat := 0x40000
def PWR_CAP_watts : FieldRef := ⟨PWR_CAP, 0, 14⟩
/-- PWR_GOV (R511). -/
def PWR_GOV : Nat := 0x40004
def PWR_GOV_enable : FieldRef := ⟨PWR_GOV, 31, 1⟩
def PWR_GOV_hyst : FieldRef := ⟨PWR_GOV, 16, 10⟩
def PWR_GOV_r_cap : FieldRef := ⟨PWR_GOV, 0, 6⟩
/-- PWR_STAT (R511). -/
def PWR_STAT : Nat := 0x40008
def PWR_STAT_main_valid : FieldRef := ⟨PWR_STAT, 31, 1⟩
def PWR_STAT_aux_valid : FieldRef := ⟨PWR_STAT, 30, 1⟩
def PWR_STAT_en : FieldRef := ⟨PWR_STAT, 29, 1⟩
def PWR_STAT_nv_inhibit : FieldRef := ⟨PWR_STAT, 28, 1⟩
def PWR_STAT_stopping : FieldRef := ⟨PWR_STAT, 27, 1⟩
def PWR_STAT_brake : FieldRef := ⟨PWR_STAT, 26, 1⟩
/-- PWR_IN_LAST (R511). -/
def PWR_IN_LAST : Nat := 0x4000C
def PWR_IN_LAST_volts : FieldRef := ⟨PWR_IN_LAST, 16, 16⟩
def PWR_IN_LAST_watts : FieldRef := ⟨PWR_IN_LAST, 0, 16⟩
/-- PWR_AUX_LAST (R511). -/
def PWR_AUX_LAST : Nat := 0x40010
def PWR_AUX_LAST_ma : FieldRef := ⟨PWR_AUX_LAST, 16, 16⟩
def PWR_AUX_LAST_volts : FieldRef := ⟨PWR_AUX_LAST, 0, 16⟩
/-- PWR_EVT (R511). -/
def PWR_EVT : Nat := 0x40014
def PWR_EVT_latch : FieldRef := ⟨PWR_EVT, 0, 8⟩
/-- PWR_SAG_CNT (R511). -/
def PWR_SAG_CNT : Nat := 0x40018
def PWR_SAG_CNT_count : FieldRef := ⟨PWR_SAG_CNT, 0, 32⟩
/-- PWR_BRAKE_CNT (R511). -/
def PWR_BRAKE_CNT : Nat := 0x4001C
def PWR_BRAKE_CNT_count : FieldRef := ⟨PWR_BRAKE_CNT, 0, 32⟩
/-- PWR_REP_A (R511). -/
def PWR_REP_A (i : Nat) : Nat := 0x41000 + 0x8 * i
def PWR_REP_A_peak (i : Nat) : FieldRef := ⟨PWR_REP_A i, 16, 16⟩
def PWR_REP_A_mean (i : Nat) : FieldRef := ⟨PWR_REP_A i, 0, 16⟩
/-- PWR_REP_B (R511). -/
def PWR_REP_B (i : Nat) : Nat := 0x41004 + 0x8 * i
def PWR_REP_B_mv (i : Nat) : FieldRef := ⟨PWR_REP_B i, 8, 12⟩
def PWR_REP_B_off_all (i : Nat) : FieldRef := ⟨PWR_REP_B i, 4, 1⟩
def PWR_REP_B_off_part (i : Nat) : FieldRef := ⟨PWR_REP_B i, 3, 1⟩
def PWR_REP_B_over_v (i : Nat) : FieldRef := ⟨PWR_REP_B i, 2, 1⟩
def PWR_REP_B_under_v (i : Nat) : FieldRef := ⟨PWR_REP_B i, 1, 1⟩
def PWR_REP_B_over_i (i : Nat) : FieldRef := ⟨PWR_REP_B i, 0, 1⟩
/-- FWU_STAT (R546). -/
def FWU_STAT : Nat := 0x50000
def FWU_STAT_state : FieldRef := ⟨FWU_STAT, 28, 4⟩
def FWU_STAT_bank : FieldRef := ⟨FWU_STAT, 27, 1⟩
def FWU_STAT_boot_fallback : FieldRef := ⟨FWU_STAT, 26, 1⟩
def FWU_STAT_inactive_valid : FieldRef := ⟨FWU_STAT, 25, 1⟩
def FWU_STAT_nv_wait : FieldRef := ⟨FWU_STAT, 24, 1⟩
def FWU_STAT_code : FieldRef := ⟨FWU_STAT, 8, 8⟩
def FWU_STAT_floor : FieldRef := ⟨FWU_STAT, 0, 7⟩
/-- FWU_CTL (R547). -/
def FWU_CTL : Nat := 0x50004
def FWU_CTL_activate : FieldRef := ⟨FWU_CTL, 31, 1⟩
def FWU_CTL_confirm : FieldRef := ⟨FWU_CTL, 30, 1⟩
def FWU_CTL_revert : FieldRef := ⟨FWU_CTL, 29, 1⟩
/-- FWU_LEFT (R547). -/
def FWU_LEFT : Nat := 0x50008
def FWU_LEFT_seconds : FieldRef := ⟨FWU_LEFT, 0, 11⟩
/-- FWU_INACT_VER (R547). -/
def FWU_INACT_VER : Nat := 0x5000C
def FWU_INACT_VER_version : FieldRef := ⟨FWU_INACT_VER, 0, 32⟩
/-- FWU_INACT_INFO (R547). -/
def FWU_INACT_INFO : Nat := 0x50010
def FWU_INACT_INFO_schema : FieldRef := ⟨FWU_INACT_INFO, 16, 16⟩
def FWU_INACT_INFO_rollback : FieldRef := ⟨FWU_INACT_INFO, 0, 7⟩
/-- FWU_EVT (R547). -/
def FWU_EVT : Nat := 0x50014
def FWU_EVT_latch : FieldRef := ⟨FWU_EVT, 0, 4⟩
/-- FWU_PAUSE (R547). -/
def FWU_PAUSE : Nat := 0x50018
def FWU_PAUSE_us : FieldRef := ⟨FWU_PAUSE, 0, 16⟩
/-- FWU_SET_SEL (R547). -/
def FWU_SET_SEL : Nat := 0x50020
def FWU_SET_SEL_key : FieldRef := ⟨FWU_SET_SEL, 0, 16⟩
/-- FWU_SET_DATA (R547). -/
def FWU_SET_DATA : Nat := 0x50024
def FWU_SET_DATA_value : FieldRef := ⟨FWU_SET_DATA, 0, 32⟩
/-- FWU_SET_CMD (R547). -/
def FWU_SET_CMD : Nat := 0x50028
def FWU_SET_CMD_op : FieldRef := ⟨FWU_SET_CMD, 0, 2⟩
/-- FWU_SET_RES (R547). -/
def FWU_SET_RES : Nat := 0x5002C
def FWU_SET_RES_status : FieldRef := ⟨FWU_SET_RES, 0, 8⟩
/-- TRUST_CTL (R548). -/
def TRUST_CTL : Nat := 0x60000
def TRUST_CTL_go : FieldRef := ⟨TRUST_CTL, 31, 1⟩
def TRUST_CTL_busy : FieldRef := ⟨TRUST_CTL, 30, 1⟩
def TRUST_CTL_result : FieldRef := ⟨TRUST_CTL, 24, 4⟩
/-- TRUST_KEY (R548). -/
def TRUST_KEY : Nat := 0x60004
def TRUST_KEY_key : FieldRef := ⟨TRUST_KEY, 22, 10⟩
def TRUST_KEY_next : FieldRef := ⟨TRUST_KEY, 0, 20⟩
/-- TRUST_RESV (R548). -/
def TRUST_RESV : Nat := 0x60008
def TRUST_RESV_end : FieldRef := ⟨TRUST_RESV, 0, 21⟩
/-- TRUST_ID (R548). -/
def TRUST_ID : Nat := 0x6000C
def TRUST_ID_next : FieldRef := ⟨TRUST_ID, 0, 11⟩
/-- TRUST_NONCE (R548). -/
def TRUST_NONCE (i : Nat) : Nat := 0x60010 + 0x4 * i
def TRUST_NONCE_nonce (i : Nat) : FieldRef := ⟨TRUST_NONCE i, 0, 32⟩
/-- TRUST_QUOTE (R548). -/
def TRUST_QUOTE (i : Nat) : Nat := 0x61000 + 0x4 * i
def TRUST_QUOTE_data (i : Nat) : FieldRef := ⟨TRUST_QUOTE i, 0, 32⟩
/-- TRUST_IDCERT (R548). -/
def TRUST_IDCERT (i : Nat) : Nat := 0x64000 + 0x4 * i
def TRUST_IDCERT_data (i : Nat) : FieldRef := ⟨TRUST_IDCERT i, 0, 32⟩
/-- LOAD_CTL (R263). -/
def LOAD_CTL : Nat := 0x70000
def LOAD_CTL_go : FieldRef := ⟨LOAD_CTL, 31, 1⟩
def LOAD_CTL_abort : FieldRef := ⟨LOAD_CTL, 30, 1⟩
def LOAD_CTL_op : FieldRef := ⟨LOAD_CTL, 24, 3⟩
def LOAD_CTL_partition : FieldRef := ⟨LOAD_CTL, 0, 6⟩
/-- LOAD_STAT (R264). -/
def LOAD_STAT : Nat := 0x70004
def LOAD_STAT_busy : FieldRef := ⟨LOAD_STAT, 31, 1⟩
def LOAD_STAT_phase : FieldRef := ⟨LOAD_STAT, 28, 3⟩
def LOAD_STAT_ignored : FieldRef := ⟨LOAD_STAT, 27, 1⟩
def LOAD_STAT_op : FieldRef := ⟨LOAD_STAT, 24, 3⟩
def LOAD_STAT_partition : FieldRef := ⟨LOAD_STAT, 16, 6⟩
def LOAD_STAT_code : FieldRef := ⟨LOAD_STAT, 0, 16⟩
/-- LOAD_DETAIL (R264). -/
def LOAD_DETAIL : Nat := 0x70008
def LOAD_DETAIL_section : FieldRef := ⟨LOAD_DETAIL, 24, 8⟩
def LOAD_DETAIL_record : FieldRef := ⟨LOAD_DETAIL, 0, 24⟩
/-- LOAD_SRC (R265). -/
def LOAD_SRC : Nat := 0x7000C
def LOAD_SRC_slot : FieldRef := ⟨LOAD_SRC, 0, 20⟩
/-- LOAD_LEN_LO (R265). -/
def LOAD_LEN_LO : Nat := 0x70010
def LOAD_LEN_LO_length : FieldRef := ⟨LOAD_LEN_LO, 0, 32⟩
/-- LOAD_LEN_HI (R265). -/
def LOAD_LEN_HI : Nat := 0x70014
def LOAD_LEN_HI_length : FieldRef := ⟨LOAD_LEN_HI, 0, 32⟩
/-- LOAD_ORIGIN_LO (R265). -/
def LOAD_ORIGIN_LO : Nat := 0x70018
def LOAD_ORIGIN_LO_origin : FieldRef := ⟨LOAD_ORIGIN_LO, 0, 32⟩
/-- LOAD_ORIGIN_HI (R265). -/
def LOAD_ORIGIN_HI : Nat := 0x7001C
def LOAD_ORIGIN_HI_origin : FieldRef := ⟨LOAD_ORIGIN_HI, 0, 32⟩
/-- LOAD_PROGRESS (R266). -/
def LOAD_PROGRESS : Nat := 0x70020
def LOAD_PROGRESS_rows : FieldRef := ⟨LOAD_PROGRESS, 0, 32⟩
/-- LOAD_PSTATE (R267). -/
def LOAD_PSTATE (i : Nat) : Nat := 0x70040 + 0x4 * i
/-- LOAD_CHAN (R268). -/
def LOAD_CHAN (i : Nat) : Nat := 0x70080 + 0x4 * i
def LOAD_CHAN_valid (i : Nat) : FieldRef := ⟨LOAD_CHAN i, 31, 1⟩
def LOAD_CHAN_channel (i : Nat) : FieldRef := ⟨LOAD_CHAN i, 0, 8⟩
/-- PART_RES_CTL (R402). -/
def PART_RES_CTL (i : Nat) : Nat := 0x100000 + 0x10000 * i
def PART_RES_CTL_enable (i : Nat) : FieldRef := ⟨PART_RES_CTL i, 31, 1⟩
def PART_RES_CTL_refused (i : Nat) : FieldRef := ⟨PART_RES_CTL i, 30, 1⟩
def PART_RES_CTL_cause (i : Nat) : FieldRef := ⟨PART_RES_CTL i, 27, 3⟩
def PART_RES_CTL_share_live (i : Nat) : FieldRef := ⟨PART_RES_CTL i, 3, 1⟩
def PART_RES_CTL_state (i : Nat) : FieldRef := ⟨PART_RES_CTL i, 0, 3⟩
/-- PART_RES_SLICE (R403). -/
def PART_RES_SLICE (i : Nat) : Nat := 0x100004 + 0x10000 * i
def PART_RES_SLICE_size (i : Nat) : FieldRef := ⟨PART_RES_SLICE i, 16, 10⟩
def PART_RES_SLICE_base (i : Nat) : FieldRef := ⟨PART_RES_SLICE i, 0, 9⟩
/-- PART_RES_QUOTA (R403). -/
def PART_RES_QUOTA (i : Nat) : Nat := 0x100008 + 0x10000 * i
def PART_RES_QUOTA_pages (i : Nat) : FieldRef := ⟨PART_RES_QUOTA i, 0, 20⟩
/-- PART_RES_USED (R403). -/
def PART_RES_USED (i : Nat) : Nat := 0x10000C + 0x10000 * i
def PART_RES_USED_pages (i : Nat) : FieldRef := ⟨PART_RES_USED i, 0, 20⟩
/-- PART_RES_SHARE (R404). -/
def PART_RES_SHARE (i : Nat) : Nat := 0x100010 + 0x10000 * i
def PART_RES_SHARE_class2 (i : Nat) : FieldRef := ⟨PART_RES_SHARE i, 16, 8⟩
def PART_RES_SHARE_link (i : Nat) : FieldRef := ⟨PART_RES_SHARE i, 8, 8⟩
def PART_RES_SHARE_bay (i : Nat) : FieldRef := ⟨PART_RES_SHARE i, 0, 8⟩
/-- PART_RES_SHARE_EFF (R404). -/
def PART_RES_SHARE_EFF (i : Nat) : Nat := 0x100014 + 0x10000 * i
def PART_RES_SHARE_EFF_class2 (i : Nat) : FieldRef := ⟨PART_RES_SHARE_EFF i, 16, 8⟩
def PART_RES_SHARE_EFF_link (i : Nat) : FieldRef := ⟨PART_RES_SHARE_EFF i, 8, 8⟩
def PART_RES_SHARE_EFF_bay (i : Nat) : FieldRef := ⟨PART_RES_SHARE_EFF i, 0, 8⟩
/-- PART_RST (R405). -/
def PART_RST (i : Nat) : Nat := 0x100020 + 0x10000 * i
def PART_RST_busy (i : Nat) : FieldRef := ⟨PART_RST i, 31, 1⟩
def PART_RST_step (i : Nat) : FieldRef := ⟨PART_RST i, 28, 3⟩
def PART_RST_hard (i : Nat) : FieldRef := ⟨PART_RST i, 1, 1⟩
def PART_RST_soft (i : Nat) : FieldRef := ⟨PART_RST i, 0, 1⟩
/-- PART_RST_CNT (R405). -/
def PART_RST_CNT (i : Nat) : Nat := 0x100024 + 0x10000 * i
def PART_RST_CNT_hard (i : Nat) : FieldRef := ⟨PART_RST_CNT i, 16, 16⟩
def PART_RST_CNT_soft (i : Nat) : FieldRef := ⟨PART_RST_CNT i, 0, 16⟩
/-- PART_RST_TICK (R405). -/
def PART_RST_TICK (i : Nat) : Nat := 0x100028 + 0x10000 * i
def PART_RST_TICK_tick (i : Nat) : FieldRef := ⟨PART_RST_TICK i, 0, 32⟩
/-- PART_RST_DROPS (R405). -/
def PART_RST_DROPS (i : Nat) : Nat := 0x10002C + 0x10000 * i
def PART_RST_DROPS_count (i : Nat) : FieldRef := ⟨PART_RST_DROPS i, 0, 32⟩
/-- PART_EVT (R406). -/
def PART_EVT (i : Nat) : Nat := 0x100030 + 0x10000 * i
def PART_EVT_pending (i : Nat) : FieldRef := ⟨PART_EVT i, 0, 8⟩
/-- PART_EVT_SET (R406). -/
def PART_EVT_SET (i : Nat) : Nat := 0x100034 + 0x10000 * i
def PART_EVT_SET_set (i : Nat) : FieldRef := ⟨PART_EVT_SET i, 0, 1⟩
/-- PART_RES_CL (R404). -/
def PART_RES_CL (i j : Nat) : Nat := 0x100080 + 0x10000 * i + 0x4 * j
def PART_RES_CL_clusters (i j : Nat) : FieldRef := ⟨PART_RES_CL i j, 0, 32⟩
/-- PART_NW_CTL (R136). -/
def PART_NW_CTL (i : Nat) : Nat := 0x108000 + 0x10000 * i
def PART_NW_CTL_half (i : Nat) : FieldRef := ⟨PART_NW_CTL i, 9, 1⟩
def PART_NW_CTL_enable (i : Nat) : FieldRef := ⟨PART_NW_CTL i, 8, 1⟩
def PART_NW_CTL_stages (i : Nat) : FieldRef := ⟨PART_NW_CTL i, 0, 8⟩
/-- PART_NW_LAST (R137). -/
def PART_NW_LAST (i : Nat) : Nat := 0x108004 + 0x10000 * i
def PART_NW_LAST_valid (i : Nat) : FieldRef := ⟨PART_NW_LAST i, 31, 1⟩
def PART_NW_LAST_replay (i : Nat) : FieldRef := ⟨PART_NW_LAST i, 30, 1⟩
def PART_NW_LAST_to (i : Nat) : FieldRef := ⟨PART_NW_LAST i, 27, 3⟩
def PART_NW_LAST_from (i : Nat) : FieldRef := ⟨PART_NW_LAST i, 24, 3⟩
def PART_NW_LAST_slot (i : Nat) : FieldRef := ⟨PART_NW_LAST i, 20, 4⟩
def PART_NW_LAST_stage (i : Nat) : FieldRef := ⟨PART_NW_LAST i, 0, 7⟩
/-- PART_NW_LAST_TICK_LO (R137). -/
def PART_NW_LAST_TICK_LO (i : Nat) : Nat := 0x108008 + 0x10000 * i
def PART_NW_LAST_TICK_LO_tick (i : Nat) : FieldRef := ⟨PART_NW_LAST_TICK_LO i, 0, 32⟩
/-- PART_NW_LAST_TICK_HI (R137). -/
def PART_NW_LAST_TICK_HI (i : Nat) : Nat := 0x10800C + 0x10000 * i
def PART_NW_LAST_TICK_HI_tick (i : Nat) : FieldRef := ⟨PART_NW_LAST_TICK_HI i, 0, 32⟩
/-- PART_NW_REPLAYS (R138). -/
def PART_NW_REPLAYS (i : Nat) : Nat := 0x108010 + 0x10000 * i
def PART_NW_REPLAYS_count (i : Nat) : FieldRef := ⟨PART_NW_REPLAYS i, 0, 32⟩
/-- PART_NW_FLAGMAP (R138). -/
def PART_NW_FLAGMAP (i j : Nat) : Nat := 0x108020 + 0x10000 * i + 0x4 * j
def PART_NW_FLAGMAP_flagged (i j : Nat) : FieldRef := ⟨PART_NW_FLAGMAP i j, 0, 32⟩
/-- PART_STG_REC (R139). -/
def PART_STG_REC (i j : Nat) : Nat := 0x109000 + 0x10000 * i + 0x20 * j
def PART_STG_REC_req (i j : Nat) : FieldRef := ⟨PART_STG_REC i j, 31, 1⟩
def PART_STG_REC_refused (i j : Nat) : FieldRef := ⟨PART_STG_REC i j, 30, 1⟩
def PART_STG_REC_overridden (i j : Nat) : FieldRef := ⟨PART_STG_REC i j, 29, 1⟩
def PART_STG_REC_sel (i j : Nat) : FieldRef := ⟨PART_STG_REC i j, 24, 3⟩
def PART_STG_REC_cur (i j : Nat) : FieldRef := ⟨PART_STG_REC i j, 16, 3⟩
def PART_STG_REC_changes (i j : Nat) : FieldRef := ⟨PART_STG_REC i j, 0, 16⟩
/-- PART_STG_NWCFG (R140). -/
def PART_STG_NWCFG (i j : Nat) : Nat := 0x109004 + 0x10000 * i + 0x20 * j
def PART_STG_NWCFG_ratio (i j : Nat) : FieldRef := ⟨PART_STG_NWCFG i j, 16, 16⟩
def PART_STG_NWCFG_shift (i j : Nat) : FieldRef := ⟨PART_STG_NWCFG i j, 12, 4⟩
def PART_STG_NWCFG_parts (i j : Nat) : FieldRef := ⟨PART_STG_NWCFG i j, 0, 9⟩
/-- PART_STG_MEAN (R141). -/
def PART_STG_MEAN (i j : Nat) : Nat := 0x109008 + 0x10000 * i + 0x20 * j
def PART_STG_MEAN_mu (i j : Nat) : FieldRef := ⟨PART_STG_MEAN i j, 0, 32⟩
/-- PART_STG_FLAGS (R142). -/
def PART_STG_FLAGS (i j : Nat) : Nat := 0x10900C + 0x10000 * i + 0x20 * j
def PART_STG_FLAGS_count (i j : Nat) : FieldRef := ⟨PART_STG_FLAGS i j, 0, 32⟩
/-- PART_STG_CLAMP (R142). -/
def PART_STG_CLAMP (i j : Nat) : Nat := 0x109010 + 0x10000 * i + 0x20 * j
def PART_STG_CLAMP_count (i j : Nat) : FieldRef := ⟨PART_STG_CLAMP i j, 0, 32⟩
/-- PART_STG_MISS (R142). -/
def PART_STG_MISS (i j : Nat) : Nat := 0x109014 + 0x10000 * i + 0x20 * j
def PART_STG_MISS_count (i j : Nat) : FieldRef := ⟨PART_STG_MISS i j, 0, 32⟩
/-- PART_STG_NORM (R142). -/
def PART_STG_NORM (i j : Nat) : Nat := 0x109018 + 0x10000 * i + 0x20 * j
def PART_STG_NORM_norm (i j : Nat) : FieldRef := ⟨PART_STG_NORM i j, 0, 32⟩
/-- PART_RCP_CFG (R143). -/
def PART_RCP_CFG (i j k : Nat) : Nat := 0x10A000 + 0x10000 * i + 0x80 * j + 0x10 * k
def PART_RCP_CFG_valid (i j k : Nat) : FieldRef := ⟨PART_RCP_CFG i j k, 31, 1⟩
def PART_RCP_CFG_two_beat (i j k : Nat) : FieldRef := ⟨PART_RCP_CFG i j k, 30, 1⟩
def PART_RCP_CFG_esc_en (i j k : Nat) : FieldRef := ⟨PART_RCP_CFG i j k, 29, 1⟩
def PART_RCP_CFG_esc (i j k : Nat) : FieldRef := ⟨PART_RCP_CFG i j k, 26, 3⟩
def PART_RCP_CFG_xexp8 (i j k : Nat) : FieldRef := ⟨PART_RCP_CFG i j k, 8, 8⟩
def PART_RCP_CFG_xexp4 (i j k : Nat) : FieldRef := ⟨PART_RCP_CFG i j k, 0, 8⟩
/-- PART_RCP_OFF (R143). -/
def PART_RCP_OFF (i j k : Nat) : Nat := 0x10A004 + 0x10000 * i + 0x80 * j + 0x10 * k
def PART_RCP_OFF_off1 (i j k : Nat) : FieldRef := ⟨PART_RCP_OFF i j k, 16, 14⟩
def PART_RCP_OFF_off0 (i j k : Nat) : FieldRef := ⟨PART_RCP_OFF i j k, 0, 14⟩
/-- PART_RCP_PLAN (R143). -/
def PART_RCP_PLAN (i j k : Nat) : Nat := 0x10A008 + 0x10000 * i + 0x80 * j + 0x10 * k
def PART_RCP_PLAN_plan1 (i j k : Nat) : FieldRef := ⟨PART_RCP_PLAN i j k, 16, 16⟩
def PART_RCP_PLAN_plan0 (i j k : Nat) : FieldRef := ⟨PART_RCP_PLAN i j k, 0, 16⟩
/-- PART_KV_IDX (R351). -/
def PART_KV_IDX (i : Nat) : Nat := 0x10E000 + 0x10000 * i
def PART_KV_IDX_ready (i : Nat) : FieldRef := ⟨PART_KV_IDX i, 31, 1⟩
def PART_KV_IDX_stride (i : Nat) : FieldRef := ⟨PART_KV_IDX i, 16, 4⟩
def PART_KV_IDX_rec (i : Nat) : FieldRef := ⟨PART_KV_IDX i, 0, 6⟩
/-- PART_PFX_ARG (R352). -/
def PART_PFX_ARG (i j : Nat) : Nat := 0x10E010 + 0x10000 * i + 0x4 * j
def PART_PFX_ARG_arg (i j : Nat) : FieldRef := ⟨PART_PFX_ARG i j, 0, 32⟩
/-- PART_PFX_CMD (R353). -/
def PART_PFX_CMD (i : Nat) : Nat := 0x10E020 + 0x10000 * i
def PART_PFX_CMD_op (i : Nat) : FieldRef := ⟨PART_PFX_CMD i, 28, 4⟩
/-- PART_PFX_RES (R353). -/
def PART_PFX_RES (i : Nat) : Nat := 0x10E024 + 0x10000 * i
def PART_PFX_RES_status (i : Nat) : FieldRef := ⟨PART_PFX_RES i, 28, 4⟩
def PART_PFX_RES_handle (i : Nat) : FieldRef := ⟨PART_PFX_RES i, 0, 10⟩
/-- PART_PFX_SEL (R354). -/
def PART_PFX_SEL (i : Nat) : Nat := 0x10E028 + 0x10000 * i
def PART_PFX_SEL_handle (i : Nat) : FieldRef := ⟨PART_PFX_SEL i, 0, 10⟩
/-- PART_PFX_DATA (R354). -/
def PART_PFX_DATA (i j : Nat) : Nat := 0x10E030 + 0x10000 * i + 0x4 * j
/-- PART_SHIP_CTL (R355). -/
def PART_SHIP_CTL (i : Nat) : Nat := 0x10E060 + 0x10000 * i
def PART_SHIP_CTL_enable (i : Nat) : FieldRef := ⟨PART_SHIP_CTL i, 31, 1⟩
def PART_SHIP_CTL_fallback (i : Nat) : FieldRef := ⟨PART_SHIP_CTL i, 30, 1⟩
def PART_SHIP_CTL_retries (i : Nat) : FieldRef := ⟨PART_SHIP_CTL i, 16, 4⟩
def PART_SHIP_CTL_limit (i : Nat) : FieldRef := ⟨PART_SHIP_CTL i, 0, 16⟩
/-- PART_SHIP_WAIT (R355). -/
def PART_SHIP_WAIT (i : Nat) : Nat := 0x10E064 + 0x10000 * i
def PART_SHIP_WAIT_ticks (i : Nat) : FieldRef := ⟨PART_SHIP_WAIT i, 0, 16⟩
/-- PART_SHIP_BUF (R355). -/
def PART_SHIP_BUF (i : Nat) : Nat := 0x10E068 + 0x10000 * i
def PART_SHIP_BUF_slots (i : Nat) : FieldRef := ⟨PART_SHIP_BUF i, 8, 8⟩
def PART_SHIP_BUF_rec (i : Nat) : FieldRef := ⟨PART_SHIP_BUF i, 0, 6⟩
/-- PART_SHIP_SEL (R356). -/
def PART_SHIP_SEL (i : Nat) : Nat := 0x10E06C + 0x10000 * i
def PART_SHIP_SEL_request (i : Nat) : FieldRef := ⟨PART_SHIP_SEL i, 0, 17⟩
/-- PART_SHIP_PEER (R356). -/
def PART_SHIP_PEER (i : Nat) : Nat := 0x10E070 + 0x10000 * i
/-- PART_SHIP_SENT (R357). -/
def PART_SHIP_SENT (i : Nat) : Nat := 0x10E080 + 0x10000 * i
def PART_SHIP_SENT_count (i : Nat) : FieldRef := ⟨PART_SHIP_SENT i, 0, 32⟩
/-- PART_SHIP_RECEIVED (R357). -/
def PART_SHIP_RECEIVED (i : Nat) : Nat := 0x10E084 + 0x10000 * i
def PART_SHIP_RECEIVED_count (i : Nat) : FieldRef := ⟨PART_SHIP_RECEIVED i, 0, 32⟩
/-- PART_SHIP_REBUILT (R357). -/
def PART_SHIP_REBUILT (i : Nat) : Nat := 0x10E088 + 0x10000 * i
def PART_SHIP_REBUILT_count (i : Nat) : FieldRef := ⟨PART_SHIP_REBUILT i, 0, 32⟩
/-- PART_SHIP_RESENT (R357). -/
def PART_SHIP_RESENT (i : Nat) : Nat := 0x10E08C + 0x10000 * i
def PART_SHIP_RESENT_count (i : Nat) : FieldRef := ⟨PART_SHIP_RESENT i, 0, 32⟩
/-- PART_SHIP_FALLBACK (R357). -/
def PART_SHIP_FALLBACK (i : Nat) : Nat := 0x10E090 + 0x10000 * i
def PART_SHIP_FALLBACK_count (i : Nat) : FieldRef := ⟨PART_SHIP_FALLBACK i, 0, 32⟩
/-- PART_SHIP_FAILED (R357). -/
def PART_SHIP_FAILED (i : Nat) : Nat := 0x10E094 + 0x10000 * i
def PART_SHIP_FAILED_count (i : Nat) : FieldRef := ⟨PART_SHIP_FAILED i, 0, 32⟩
/-- PART_SHIP_DROPPED (R357). -/
def PART_SHIP_DROPPED (i : Nat) : Nat := 0x10E098 + 0x10000 * i
def PART_SHIP_DROPPED_count (i : Nat) : FieldRef := ⟨PART_SHIP_DROPPED i, 0, 32⟩
/-- PART_WGT_CTL (R378). -/
def PART_WGT_CTL (i : Nat) : Nat := 0x10E100 + 0x10000 * i
def PART_WGT_CTL_go (i : Nat) : FieldRef := ⟨PART_WGT_CTL i, 31, 1⟩
def PART_WGT_CTL_abort (i : Nat) : FieldRef := ⟨PART_WGT_CTL i, 30, 1⟩
def PART_WGT_CTL_resume (i : Nat) : FieldRef := ⟨PART_WGT_CTL i, 29, 1⟩
def PART_WGT_CTL_op (i : Nat) : FieldRef := ⟨PART_WGT_CTL i, 26, 3⟩
def PART_WGT_CTL_source (i : Nat) : FieldRef := ⟨PART_WGT_CTL i, 24, 2⟩
def PART_WGT_CTL_home_only (i : Nat) : FieldRef := ⟨PART_WGT_CTL i, 23, 1⟩
def PART_WGT_CTL_retries (i : Nat) : FieldRef := ⟨PART_WGT_CTL i, 16, 4⟩
/-- PART_WGT_STAT (R379). -/
def PART_WGT_STAT (i : Nat) : Nat := 0x10E104 + 0x10000 * i
def PART_WGT_STAT_state (i : Nat) : FieldRef := ⟨PART_WGT_STAT i, 29, 3⟩
def PART_WGT_STAT_home_ready (i : Nat) : FieldRef := ⟨PART_WGT_STAT i, 28, 1⟩
def PART_WGT_STAT_damaged (i : Nat) : FieldRef := ⟨PART_WGT_STAT i, 27, 1⟩
def PART_WGT_STAT_result (i : Nat) : FieldRef := ⟨PART_WGT_STAT i, 16, 8⟩
def PART_WGT_STAT_group (i : Nat) : FieldRef := ⟨PART_WGT_STAT i, 0, 16⟩
/-- PART_WGT_SRC (R380). -/
def PART_WGT_SRC (i : Nat) : Nat := 0x10E108 + 0x10000 * i
def PART_WGT_SRC_slot (i : Nat) : FieldRef := ⟨PART_WGT_SRC i, 0, 20⟩
/-- PART_WGT_NEW (R380). -/
def PART_WGT_NEW (i : Nat) : Nat := 0x10E10C + 0x10000 * i
def PART_WGT_NEW_epoch (i : Nat) : FieldRef := ⟨PART_WGT_NEW i, 0, 32⟩
/-- PART_WGT_CUR (R380). -/
def PART_WGT_CUR (i : Nat) : Nat := 0x10E110 + 0x10000 * i
def PART_WGT_CUR_epoch (i : Nat) : FieldRef := ⟨PART_WGT_CUR i, 0, 32⟩
/-- PART_WGT_SWAP_AT (R380). -/
def PART_WGT_SWAP_AT (i : Nat) : Nat := 0x10E114 + 0x10000 * i
def PART_WGT_SWAP_AT_tick (i : Nat) : FieldRef := ⟨PART_WGT_SWAP_AT i, 0, 32⟩
/-- PART_WGT_WAIT (R380). -/
def PART_WGT_WAIT (i : Nat) : Nat := 0x10E118 + 0x10000 * i
def PART_WGT_WAIT_ticks (i : Nat) : FieldRef := ⟨PART_WGT_WAIT i, 0, 16⟩
/-- PART_WGT_PEER (R380). -/
def PART_WGT_PEER (i j : Nat) : Nat := 0x10E120 + 0x10000 * i + 0x4 * j
def PART_WGT_PEER_valid (i j : Nat) : FieldRef := ⟨PART_WGT_PEER i j, 31, 1⟩
def PART_WGT_PEER_module (i j : Nat) : FieldRef := ⟨PART_WGT_PEER i j, 0, 15⟩
/-- PART_WGT_ROWS (R380). -/
def PART_WGT_ROWS (i : Nat) : Nat := 0x10E130 + 0x10000 * i
def PART_WGT_ROWS_rows (i : Nat) : FieldRef := ⟨PART_WGT_ROWS i, 0, 32⟩
/-- PART_WGT_REBUILT (R380). -/
def PART_WGT_REBUILT (i : Nat) : Nat := 0x10E140 + 0x10000 * i
def PART_WGT_REBUILT_count (i : Nat) : FieldRef := ⟨PART_WGT_REBUILT i, 0, 32⟩
/-- PART_WGT_REREQ (R380). -/
def PART_WGT_REREQ (i : Nat) : Nat := 0x10E144 + 0x10000 * i
def PART_WGT_REREQ_count (i : Nat) : FieldRef := ⟨PART_WGT_REREQ i, 0, 32⟩
/-- PART_WGT_BAD (R380). -/
def PART_WGT_BAD (i : Nat) : Nat := 0x10E148 + 0x10000 * i
def PART_WGT_BAD_count (i : Nat) : FieldRef := ⟨PART_WGT_BAD i, 0, 32⟩
/-- PART_WGT_HELDFLIP (R380). -/
def PART_WGT_HELDFLIP (i : Nat) : Nat := 0x10E14C + 0x10000 * i
def PART_WGT_HELDFLIP_count (i : Nat) : FieldRef := ⟨PART_WGT_HELDFLIP i, 0, 32⟩
/-- PART_ADP_DIR (R381). -/
def PART_ADP_DIR (i : Nat) : Nat := 0x10E180 + 0x10000 * i
def PART_ADP_DIR_ready (i : Nat) : FieldRef := ⟨PART_ADP_DIR i, 31, 1⟩
def PART_ADP_DIR_rec (i : Nat) : FieldRef := ⟨PART_ADP_DIR i, 0, 6⟩
/-- PART_ADP_ARG (R381). -/
def PART_ADP_ARG (i j : Nat) : Nat := 0x10E184 + 0x10000 * i + 0x4 * j
def PART_ADP_ARG_arg (i j : Nat) : FieldRef := ⟨PART_ADP_ARG i j, 0, 32⟩
/-- PART_ADP_CMD (R382). -/
def PART_ADP_CMD (i : Nat) : Nat := 0x10E194 + 0x10000 * i
def PART_ADP_CMD_op (i : Nat) : FieldRef := ⟨PART_ADP_CMD i, 28, 4⟩
/-- PART_ADP_RES (R382). -/
def PART_ADP_RES (i : Nat) : Nat := 0x10E198 + 0x10000 * i
def PART_ADP_RES_status (i : Nat) : FieldRef := ⟨PART_ADP_RES i, 28, 4⟩
def PART_ADP_RES_epoch (i : Nat) : FieldRef := ⟨PART_ADP_RES i, 20, 8⟩
def PART_ADP_RES_handle (i : Nat) : FieldRef := ⟨PART_ADP_RES i, 0, 12⟩
/-- PART_ADP_SEL (R383). -/
def PART_ADP_SEL (i : Nat) : Nat := 0x10E19C + 0x10000 * i
def PART_ADP_SEL_handle (i : Nat) : FieldRef := ⟨PART_ADP_SEL i, 0, 12⟩
/-- PART_ADP_DATA (R383). -/
def PART_ADP_DATA (i j : Nat) : Nat := 0x10E1A0 + 0x10000 * i + 0x4 * j
/-- PART_VF_MAP (R407). -/
def PART_VF_MAP (i : Nat) : Nat := 0x10F000 + 0x4 * i
def PART_VF_MAP_valid (i : Nat) : FieldRef := ⟨PART_VF_MAP i, 31, 1⟩
def PART_VF_MAP_module (i : Nat) : FieldRef := ⟨PART_VF_MAP i, 16, 15⟩
def PART_VF_MAP_partition (i : Nat) : FieldRef := ⟨PART_VF_MAP i, 0, 6⟩
/-- PART_VF_FLR (R407). -/
def PART_VF_FLR (i : Nat) : Nat := 0x10F400 + 0x4 * i
def PART_VF_FLR_busy (i : Nat) : FieldRef := ⟨PART_VF_FLR i, 0, 32⟩
/-- REQ_CMD (R322). -/
def REQ_CMD : Nat := 0x500000
def REQ_CMD_op : FieldRef := ⟨REQ_CMD, 28, 4⟩
def REQ_CMD_index : FieldRef := ⟨REQ_CMD, 0, 17⟩
/-- REQ_CMD_ARG_LO (R322). -/
def REQ_CMD_ARG_LO : Nat := 0x500004
def REQ_CMD_ARG_LO_arg : FieldRef := ⟨REQ_CMD_ARG_LO, 0, 32⟩
/-- REQ_CMD_ARG_HI (R322). -/
def REQ_CMD_ARG_HI : Nat := 0x500008
def REQ_CMD_ARG_HI_arg : FieldRef := ⟨REQ_CMD_ARG_HI, 0, 32⟩
/-- REQ_CMD_RES (R322). -/
def REQ_CMD_RES : Nat := 0x50000C
def REQ_CMD_RES_status : FieldRef := ⟨REQ_CMD_RES, 28, 4⟩
def REQ_CMD_RES_field : FieldRef := ⟨REQ_CMD_RES, 24, 4⟩
def REQ_CMD_RES_index : FieldRef := ⟨REQ_CMD_RES, 0, 17⟩
/-- REQ_STRAY (R323). -/
def REQ_STRAY : Nat := 0x500010
def REQ_STRAY_ign_writes : FieldRef := ⟨REQ_STRAY, 16, 16⟩
def REQ_STRAY_records : FieldRef := ⟨REQ_STRAY, 0, 16⟩
/-- REQ_P_CTL (R324). -/
def REQ_P_CTL (i : Nat) : Nat := 0x501000 + 0x100 * i
def REQ_P_CTL_enable (i : Nat) : FieldRef := ⟨REQ_P_CTL i, 31, 1⟩
def REQ_P_CTL_plan_rec (i : Nat) : FieldRef := ⟨REQ_P_CTL i, 0, 6⟩
/-- REQ_P_READ (R324). -/
def REQ_P_READ (i : Nat) : Nat := 0x501004 + 0x100 * i
def REQ_P_READ_allow (i : Nat) : FieldRef := ⟨REQ_P_READ i, 0, 16⟩
/-- REQ_P_TEN (R325). -/
def REQ_P_TEN (i : Nat) : Nat := 0x501008 + 0x100 * i
def REQ_P_TEN_swap (i : Nat) : FieldRef := ⟨REQ_P_TEN i, 31, 1⟩
def REQ_P_TEN_refused (i : Nat) : FieldRef := ⟨REQ_P_TEN i, 30, 1⟩
def REQ_P_TEN_swaps (i : Nat) : FieldRef := ⟨REQ_P_TEN i, 0, 16⟩
/-- REQ_P_STEP_LO (R326). -/
def REQ_P_STEP_LO (i : Nat) : Nat := 0x50100C + 0x100 * i
def REQ_P_STEP_LO_step (i : Nat) : FieldRef := ⟨REQ_P_STEP_LO i, 0, 32⟩
/-- REQ_P_STEP_HI (R326). -/
def REQ_P_STEP_HI (i : Nat) : Nat := 0x501010 + 0x100 * i
def REQ_P_STEP_HI_step (i : Nat) : FieldRef := ⟨REQ_P_STEP_HI i, 0, 32⟩
/-- REQ_P_COMMIT (R326). -/
def REQ_P_COMMIT (i : Nat) : Nat := 0x501014 + 0x100 * i
def REQ_P_COMMIT_sum (i : Nat) : FieldRef := ⟨REQ_P_COMMIT i, 0, 32⟩
/-- REQ_P_QUEUED (R326). -/
def REQ_P_QUEUED (i : Nat) : Nat := 0x501018 + 0x100 * i
def REQ_P_QUEUED_count (i : Nat) : FieldRef := ⟨REQ_P_QUEUED i, 0, 17⟩
/-- REQ_P_LIVE (R326). -/
def REQ_P_LIVE (i : Nat) : Nat := 0x50101C + 0x100 * i
def REQ_P_LIVE_count (i : Nat) : FieldRef := ⟨REQ_P_LIVE i, 0, 17⟩
/-- REQ_P_PAGES (R326). -/
def REQ_P_PAGES (i : Nat) : Nat := 0x501020 + 0x100 * i
def REQ_P_PAGES_count (i : Nat) : FieldRef := ⟨REQ_P_PAGES i, 0, 20⟩
/-- REQ_P_CNT (R327). -/
def REQ_P_CNT (i j : Nat) : Nat := 0x501040 + 0x100 * i + 0x4 * j
def REQ_P_CNT_count (i j : Nat) : FieldRef := ⟨REQ_P_CNT i j, 0, 32⟩
/-- REQ_P_CNT_LAST (R327). -/
def REQ_P_CNT_LAST (i j : Nat) : Nat := 0x501060 + 0x100 * i + 0x4 * j
def REQ_P_CNT_LAST_count (i j : Nat) : FieldRef := ⟨REQ_P_CNT_LAST i j, 0, 32⟩
/-- LINK_P_CTL (R457). -/
def LINK_P_CTL (i : Nat) : Nat := 0x600000 + 0x8000 * i
def LINK_P_CTL_enable (i : Nat) : FieldRef := ⟨LINK_P_CTL i, 31, 1⟩
def LINK_P_CTL_retrain (i : Nat) : FieldRef := ⟨LINK_P_CTL i, 30, 1⟩
def LINK_P_CTL_modes (i : Nat) : FieldRef := ⟨LINK_P_CTL i, 0, 3⟩
/-- LINK_P_STAT (R457). -/
def LINK_P_STAT (i : Nat) : Nat := 0x600004 + 0x8000 * i
def LINK_P_STAT_up (i : Nat) : FieldRef := ⟨LINK_P_STAT i, 31, 1⟩
def LINK_P_STAT_mode (i : Nat) : FieldRef := ⟨LINK_P_STAT i, 29, 2⟩
/-- LINK_P_EVT (R457). -/
def LINK_P_EVT (i : Nat) : Nat := 0x600008 + 0x8000 * i
def LINK_P_EVT_latch (i : Nat) : FieldRef := ⟨LINK_P_EVT i, 0, 5⟩
/-- LINK_P_RTO (R457). -/
def LINK_P_RTO (i : Nat) : Nat := 0x60000C + 0x8000 * i
def LINK_P_RTO_us (i : Nat) : FieldRef := ⟨LINK_P_RTO i, 0, 16⟩
/-- LINK_P_FEC_CORR (R457). -/
def LINK_P_FEC_CORR (i : Nat) : Nat := 0x600010 + 0x8000 * i
def LINK_P_FEC_CORR_count (i : Nat) : FieldRef := ⟨LINK_P_FEC_CORR i, 0, 32⟩
/-- LINK_P_FEC_UNC (R457). -/
def LINK_P_FEC_UNC (i : Nat) : Nat := 0x600014 + 0x8000 * i
def LINK_P_FEC_UNC_count (i : Nat) : FieldRef := ⟨LINK_P_FEC_UNC i, 0, 32⟩
/-- LINK_P_RX_BAD (R457). -/
def LINK_P_RX_BAD (i : Nat) : Nat := 0x600018 + 0x8000 * i
def LINK_P_RX_BAD_count (i : Nat) : FieldRef := ⟨LINK_P_RX_BAD i, 0, 32⟩
/-- LINK_P_RESENT (R457). -/
def LINK_P_RESENT (i : Nat) : Nat := 0x60001C + 0x8000 * i
def LINK_P_RESENT_count (i : Nat) : FieldRef := ⟨LINK_P_RESENT i, 0, 32⟩
/-- LINK_P_RX_DROP (R457). -/
def LINK_P_RX_DROP (i : Nat) : Nat := 0x600020 + 0x8000 * i
def LINK_P_RX_DROP_count (i : Nat) : FieldRef := ⟨LINK_P_RX_DROP i, 0, 32⟩
/-- LINK_P_DUP (R457). -/
def LINK_P_DUP (i : Nat) : Nat := 0x600024 + 0x8000 * i
def LINK_P_DUP_count (i : Nat) : FieldRef := ⟨LINK_P_DUP i, 0, 32⟩
/-- LINK_P_PFC_TX (R457). -/
def LINK_P_PFC_TX (i : Nat) : Nat := 0x600028 + 0x8000 * i
def LINK_P_PFC_TX_count (i : Nat) : FieldRef := ⟨LINK_P_PFC_TX i, 0, 32⟩
/-- LINK_P_PFC_RX (R457). -/
def LINK_P_PFC_RX (i : Nat) : Nat := 0x60002C + 0x8000 * i
def LINK_P_PFC_RX_count (i : Nat) : FieldRef := ⟨LINK_P_PFC_RX i, 0, 32⟩
/-- LINK_TLT_ADDR (R458). -/
def LINK_TLT_ADDR : Nat := 0x604000
def LINK_TLT_ADDR_bed : FieldRef := ⟨LINK_TLT_ADDR, 16, 16⟩
def LINK_TLT_ADDR_address : FieldRef := ⟨LINK_TLT_ADDR, 0, 15⟩
/-- LINK_TLT_ETYPE (R458). -/
def LINK_TLT_ETYPE : Nat := 0x604004
def LINK_TLT_ETYPE_etype : FieldRef := ⟨LINK_TLT_ETYPE, 0, 16⟩
/-- LINK_TLT_VER (R458). -/
def LINK_TLT_VER : Nat := 0x604008
def LINK_TLT_VER_enabled : FieldRef := ⟨LINK_TLT_VER, 0, 3⟩
/-- LINK_TLT_VLAN (R458). -/
def LINK_TLT_VLAN : Nat := 0x60400C
def LINK_TLT_VLAN_vid : FieldRef := ⟨LINK_TLT_VLAN, 0, 12⟩
/-- LINK_TLT_MACPFX (R458). -/
def LINK_TLT_MACPFX : Nat := 0x604010
def LINK_TLT_MACPFX_prefix : FieldRef := ⟨LINK_TLT_MACPFX, 0, 24⟩
/-- LINK_BED_SLOT (R458). -/
def LINK_BED_SLOT (i : Nat) : Nat := 0x604100 + 0x4 * i
def LINK_BED_SLOT_valid (i : Nat) : FieldRef := ⟨LINK_BED_SLOT i, 31, 1⟩
def LINK_BED_SLOT_module (i : Nat) : FieldRef := ⟨LINK_BED_SLOT i, 0, 15⟩
/-- LINK_IO_STAT (R458). -/
def LINK_IO_STAT (i : Nat) : Nat := 0x604180 + 0x4 * i
def LINK_IO_STAT_fault (i : Nat) : FieldRef := ⟨LINK_IO_STAT i, 0, 1⟩
/-- LINK_TS_CTL (R459). -/
def LINK_TS_CTL : Nat := 0x604200
def LINK_TS_CTL_port : FieldRef := ⟨LINK_TS_CTL, 8, 5⟩
def LINK_TS_CTL_load : FieldRef := ⟨LINK_TS_CTL, 3, 1⟩
def LINK_TS_CTL_bedsync : FieldRef := ⟨LINK_TS_CTL, 2, 1⟩
def LINK_TS_CTL_role : FieldRef := ⟨LINK_TS_CTL, 0, 2⟩
/-- LINK_TS_STAT (R459). -/
def LINK_TS_STAT : Nat := 0x604204
def LINK_TS_STAT_aligned : FieldRef := ⟨LINK_TS_STAT, 31, 1⟩
def LINK_TS_STAT_number_diff : FieldRef := ⟨LINK_TS_STAT, 30, 1⟩
def LINK_TS_STAT_pin_missing : FieldRef := ⟨LINK_TS_STAT, 29, 1⟩
/-- LINK_TS_OFFSET (R459). -/
def LINK_TS_OFFSET : Nat := 0x604208
def LINK_TS_OFFSET_ps : FieldRef := ⟨LINK_TS_OFFSET, 0, 32⟩
/-- LINK_TS_DELAY (R459). -/
def LINK_TS_DELAY : Nat := 0x60420C
def LINK_TS_DELAY_ps : FieldRef := ⟨LINK_TS_DELAY, 0, 32⟩
/-- LINK_TS_BSCOMP (R459). -/
def LINK_TS_BSCOMP : Nat := 0x604210
def LINK_TS_BSCOMP_ps : FieldRef := ⟨LINK_TS_BSCOMP, 0, 20⟩
/-- LINK_HB_CTL (R461). -/
def LINK_HB_CTL : Nat := 0x604300
def LINK_HB_CTL_bridge : FieldRef := ⟨LINK_HB_CTL, 31, 1⟩
def LINK_HB_CTL_linkup : FieldRef := ⟨LINK_HB_CTL, 30, 1⟩
def LINK_HB_CTL_num_vfs : FieldRef := ⟨LINK_HB_CTL, 0, 9⟩
/-- LINK_HB_AP_SEL (R461). -/
def LINK_HB_AP_SEL : Nat := 0x604304
def LINK_HB_AP_SEL_entry : FieldRef := ⟨LINK_HB_AP_SEL, 0, 15⟩
/-- LINK_HB_AP_LO (R461). -/
def LINK_HB_AP_LO : Nat := 0x604308
/-- LINK_HB_AP_HI (R461). -/
def LINK_HB_AP_HI : Nat := 0x60430C
/-- LINK_HB_TIMEOUT (R461). -/
def LINK_HB_TIMEOUT : Nat := 0x604310
def LINK_HB_TIMEOUT_count : FieldRef := ⟨LINK_HB_TIMEOUT, 0, 32⟩
/-- LINK_HB_DISCARD (R461). -/
def LINK_HB_DISCARD : Nat := 0x604314
def LINK_HB_DISCARD_count : FieldRef := ⟨LINK_HB_DISCARD, 0, 32⟩
/-- LINK_HB_FN_SEL (R461). -/
def LINK_HB_FN_SEL : Nat := 0x604320
def LINK_HB_FN_SEL_function : FieldRef := ⟨LINK_HB_FN_SEL, 0, 9⟩
/-- LINK_HB_CQ_LO (R461). -/
def LINK_HB_CQ_LO : Nat := 0x604324
/-- LINK_HB_CQ_HI (R461). -/
def LINK_HB_CQ_HI : Nat := 0x604328
/-- LINK_HB_FN_STAT (R461). -/
def LINK_HB_FN_STAT : Nat := 0x60432C
/-- LINK_OW_SEL (R462). -/
def LINK_OW_SEL : Nat := 0x604400
def LINK_OW_SEL_partition : FieldRef := ⟨LINK_OW_SEL, 8, 6⟩
def LINK_OW_SEL_window : FieldRef := ⟨LINK_OW_SEL, 0, 8⟩
/-- LINK_OW_BASE_LO (R462). -/
def LINK_OW_BASE_LO : Nat := 0x604404
/-- LINK_OW_BASE_HI (R462). -/
def LINK_OW_BASE_HI : Nat := 0x604408
/-- LINK_OW_CTL (R462). -/
def LINK_OW_CTL : Nat := 0x60440C
/-- LINK_OW_PROD (R462). -/
def LINK_OW_PROD : Nat := 0x604410
/-- LINK_OW_DROP (R462). -/
def LINK_OW_DROP : Nat := 0x604414
/-- LINK_CH_CTL (R460). -/
def LINK_CH_CTL (i : Nat) : Nat := 0x605000 + 0x10 * i
def LINK_CH_CTL_open (i : Nat) : FieldRef := ⟨LINK_CH_CTL i, 31, 1⟩
def LINK_CH_CTL_dup (i : Nat) : FieldRef := ⟨LINK_CH_CTL i, 30, 1⟩
def LINK_CH_CTL_port (i : Nat) : FieldRef := ⟨LINK_CH_CTL i, 25, 5⟩
def LINK_CH_CTL_port2 (i : Nat) : FieldRef := ⟨LINK_CH_CTL i, 20, 5⟩
def LINK_CH_CTL_owner (i : Nat) : FieldRef := ⟨LINK_CH_CTL i, 14, 6⟩
/-- LINK_CH_DEST (R460). -/
def LINK_CH_DEST (i : Nat) : Nat := 0x605004 + 0x10 * i
def LINK_CH_DEST_module (i : Nat) : FieldRef := ⟨LINK_CH_DEST i, 17, 15⟩
def LINK_CH_DEST_logical (i : Nat) : FieldRef := ⟨LINK_CH_DEST i, 0, 14⟩
/-- LINK_CH_BASE (R460). -/
def LINK_CH_BASE (i : Nat) : Nat := 0x605008 + 0x10 * i
def LINK_CH_BASE_partition (i : Nat) : FieldRef := ⟨LINK_CH_BASE i, 26, 6⟩
def LINK_CH_BASE_row (i : Nat) : FieldRef := ⟨LINK_CH_BASE i, 0, 17⟩
/-- LINK_CH_LIMIT (R460). -/
def LINK_CH_LIMIT (i : Nat) : Nat := 0x60500C + 0x10 * i
def LINK_CH_LIMIT_rows (i : Nat) : FieldRef := ⟨LINK_CH_LIMIT i, 0, 17⟩
/-- BAY_CTL (R222). -/
def BAY_CTL (i : Nat) : Nat := 0x700000 + 0x8000 * i
def BAY_CTL_hot (i : Nat) : FieldRef := ⟨BAY_CTL i, 2, 1⟩
def BAY_CTL_patrol (i : Nat) : FieldRef := ⟨BAY_CTL i, 1, 1⟩
/-- BAY_FREE (R222). -/
def BAY_FREE (i : Nat) : Nat := 0x700004 + 0x8000 * i
/-- BAY_ECC_CNT (R223). -/
def BAY_ECC_CNT (i : Nat) : Nat := 0x700008 + 0x8000 * i
def BAY_ECC_CNT_uncorrected (i : Nat) : FieldRef := ⟨BAY_ECC_CNT i, 16, 16⟩
def BAY_ECC_CNT_corrected (i : Nat) : FieldRef := ⟨BAY_ECC_CNT i, 0, 16⟩
/-- BAY_ECC_LAST (R223). -/
def BAY_ECC_LAST (i : Nat) : Nat := 0x70000C + 0x8000 * i
def BAY_ECC_LAST_valid (i : Nat) : FieldRef := ⟨BAY_ECC_LAST i, 31, 1⟩
def BAY_ECC_LAST_patrol (i : Nat) : FieldRef := ⟨BAY_ECC_LAST i, 30, 1⟩
def BAY_ECC_LAST_page (i : Nat) : FieldRef := ⟨BAY_ECC_LAST i, 0, 16⟩
/-- BAY_ECC_LAST_ROW (R223). -/
def BAY_ECC_LAST_ROW (i : Nat) : Nat := 0x700010 + 0x8000 * i
def BAY_ECC_LAST_ROW_row (i : Nat) : FieldRef := ⟨BAY_ECC_LAST_ROW i, 0, 15⟩
/-- BAY_ECC_LAST_TICK (R223). -/
def BAY_ECC_LAST_TICK (i : Nat) : Nat := 0x700014 + 0x8000 * i
def BAY_ECC_LAST_TICK_tick (i : Nat) : FieldRef := ⟨BAY_ECC_LAST_TICK i, 0, 32⟩
/-- BAY_REFUSE (R224). -/
def BAY_REFUSE (i : Nat) : Nat := 0x700018 + 0x8000 * i
def BAY_REFUSE_count (i : Nat) : FieldRef := ⟨BAY_REFUSE i, 0, 32⟩
/-- BAY_REFUSE_LAST (R224). -/
def BAY_REFUSE_LAST (i : Nat) : Nat := 0x70001C + 0x8000 * i
def BAY_REFUSE_LAST_valid (i : Nat) : FieldRef := ⟨BAY_REFUSE_LAST i, 31, 1⟩
def BAY_REFUSE_LAST_cause (i : Nat) : FieldRef := ⟨BAY_REFUSE_LAST i, 28, 3⟩
def BAY_REFUSE_LAST_partition (i : Nat) : FieldRef := ⟨BAY_REFUSE_LAST i, 22, 6⟩
def BAY_REFUSE_LAST_write (i : Nat) : FieldRef := ⟨BAY_REFUSE_LAST i, 21, 1⟩
def BAY_REFUSE_LAST_page (i : Nat) : FieldRef := ⟨BAY_REFUSE_LAST i, 0, 16⟩
/-- BAY_OWN_SEL (R225). -/
def BAY_OWN_SEL (i : Nat) : Nat := 0x700020 + 0x8000 * i
def BAY_OWN_SEL_page (i : Nat) : FieldRef := ⟨BAY_OWN_SEL i, 0, 16⟩
/-- BAY_OWN_DATA (R225). -/
def BAY_OWN_DATA (i : Nat) : Nat := 0x700024 + 0x8000 * i
/-- BAY_ROWS_RD (R226). -/
def BAY_ROWS_RD (i : Nat) : Nat := 0x700040 + 0x8000 * i
def BAY_ROWS_RD_count (i : Nat) : FieldRef := ⟨BAY_ROWS_RD i, 0, 32⟩
/-- BAY_ROWS_RD_LAST (R226). -/
def BAY_ROWS_RD_LAST (i : Nat) : Nat := 0x700044 + 0x8000 * i
def BAY_ROWS_RD_LAST_count (i : Nat) : FieldRef := ⟨BAY_ROWS_RD_LAST i, 0, 32⟩
/-- BAY_ROWS_WR (R226). -/
def BAY_ROWS_WR (i : Nat) : Nat := 0x700048 + 0x8000 * i
def BAY_ROWS_WR_count (i : Nat) : FieldRef := ⟨BAY_ROWS_WR i, 0, 32⟩
/-- BAY_ROWS_WR_LAST (R226). -/
def BAY_ROWS_WR_LAST (i : Nat) : Nat := 0x70004C + 0x8000 * i
def BAY_ROWS_WR_LAST_count (i : Nat) : FieldRef := ⟨BAY_ROWS_WR_LAST i, 0, 32⟩
/-- BAY_COPY_ROWS (R226). -/
def BAY_COPY_ROWS (i : Nat) : Nat := 0x700050 + 0x8000 * i
def BAY_COPY_ROWS_count (i : Nat) : FieldRef := ⟨BAY_COPY_ROWS i, 0, 32⟩
/-- BAY_COPY_ROWS_LAST (R226). -/
def BAY_COPY_ROWS_LAST (i : Nat) : Nat := 0x700054 + 0x8000 * i
def BAY_COPY_ROWS_LAST_count (i : Nat) : FieldRef := ⟨BAY_COPY_ROWS_LAST i, 0, 32⟩
/-- BAY_MOVE_CTL (R227). -/
def BAY_MOVE_CTL (i : Nat) : Nat := 0x700060 + 0x8000 * i
def BAY_MOVE_CTL_go (i : Nat) : FieldRef := ⟨BAY_MOVE_CTL i, 31, 1⟩
def BAY_MOVE_CTL_abort (i : Nat) : FieldRef := ⟨BAY_MOVE_CTL i, 30, 1⟩
def BAY_MOVE_CTL_rate (i : Nat) : FieldRef := ⟨BAY_MOVE_CTL i, 16, 13⟩
/-- BAY_MOVE_SLOT (R227). -/
def BAY_MOVE_SLOT (i : Nat) : Nat := 0x700064 + 0x8000 * i
def BAY_MOVE_SLOT_slot (i : Nat) : FieldRef := ⟨BAY_MOVE_SLOT i, 0, 20⟩
/-- BAY_MOVE_DST (R227). -/
def BAY_MOVE_DST (i : Nat) : Nat := 0x700068 + 0x8000 * i
def BAY_MOVE_DST_page (i : Nat) : FieldRef := ⟨BAY_MOVE_DST i, 0, 16⟩
/-- BAY_MOVE_STAT (R227). -/
def BAY_MOVE_STAT (i : Nat) : Nat := 0x70006C + 0x8000 * i
def BAY_MOVE_STAT_state (i : Nat) : FieldRef := ⟨BAY_MOVE_STAT i, 30, 2⟩
def BAY_MOVE_STAT_result (i : Nat) : FieldRef := ⟨BAY_MOVE_STAT i, 27, 3⟩
def BAY_MOVE_STAT_cursor (i : Nat) : FieldRef := ⟨BAY_MOVE_STAT i, 0, 16⟩
/-- BAY_MOVE_DONE (R227). -/
def BAY_MOVE_DONE (i : Nat) : Nat := 0x700070 + 0x8000 * i
def BAY_MOVE_DONE_count (i : Nat) : FieldRef := ⟨BAY_MOVE_DONE i, 0, 32⟩
/-- BAY_MAP_ARG0 (R228). -/
def BAY_MAP_ARG0 : Nat := 0x707000
def BAY_MAP_ARG0_arg : FieldRef := ⟨BAY_MAP_ARG0, 0, 32⟩
/-- BAY_MAP_ARG1 (R228). -/
def BAY_MAP_ARG1 : Nat := 0x707004
def BAY_MAP_ARG1_slot : FieldRef := ⟨BAY_MAP_ARG1, 0, 20⟩
/-- BAY_MAP_CMD (R228). -/
def BAY_MAP_CMD : Nat := 0x707008
def BAY_MAP_CMD_op : FieldRef := ⟨BAY_MAP_CMD, 28, 4⟩
/-- BAY_MAP_RES (R228). -/
def BAY_MAP_RES : Nat := 0x70700C
def BAY_MAP_RES_status : FieldRef := ⟨BAY_MAP_RES, 28, 4⟩
def BAY_MAP_RES_slot : FieldRef := ⟨BAY_MAP_RES, 0, 20⟩
/-- BAY_MAP_SLOTS (R228). -/
def BAY_MAP_SLOTS : Nat := 0x707010
def BAY_MAP_SLOTS_free : FieldRef := ⟨BAY_MAP_SLOTS, 0, 21⟩
/-- DIE_PWR_CTL (R513). -/
def DIE_PWR_CTL (i : Nat) : Nat := 0x1000000 + 0x10000 * i
def DIE_PWR_CTL_compute (i : Nat) : FieldRef := ⟨DIE_PWR_CTL i, 31, 1⟩
def DIE_PWR_CTL_retention (i : Nat) : FieldRef := ⟨DIE_PWR_CTL i, 30, 1⟩
def DIE_PWR_CTL_hold_off (i : Nat) : FieldRef := ⟨DIE_PWR_CTL i, 3, 1⟩
def DIE_PWR_CTL_restore (i : Nat) : FieldRef := ⟨DIE_PWR_CTL i, 2, 1⟩
/-- DIE_PWR_STAT (R513). -/
def DIE_PWR_STAT (i : Nat) : Nat := 0x1000004 + 0x10000 * i
def DIE_PWR_STAT_state (i : Nat) : FieldRef := ⟨DIE_PWR_STAT i, 28, 4⟩
def DIE_PWR_STAT_tmax (i : Nat) : FieldRef := ⟨DIE_PWR_STAT i, 16, 8⟩
def DIE_PWR_STAT_evt (i : Nat) : FieldRef := ⟨DIE_PWR_STAT i, 0, 6⟩
/-- DIE_PWR_RTH (R513). -/
def DIE_PWR_RTH (i : Nat) : Nat := 0x1000008 + 0x10000 * i
def DIE_PWR_RTH_r_th (i : Nat) : FieldRef := ⟨DIE_PWR_RTH i, 0, 6⟩
/-- DIE_PWR_TEMP (R513). -/
def DIE_PWR_TEMP (i : Nat) : Nat := 0x100000C + 0x10000 * i
def DIE_PWR_TEMP_sensors (i : Nat) : FieldRef := ⟨DIE_PWR_TEMP i, 0, 32⟩
/-- DIE_PWR_OFFS (R513). -/
def DIE_PWR_OFFS (i : Nat) : Nat := 0x1000010 + 0x10000 * i
def DIE_PWR_OFFS_count (i : Nat) : FieldRef := ⟨DIE_PWR_OFFS i, 0, 32⟩
/-- DIE_RT_CTL (R192). -/
def DIE_RT_CTL (i : Nat) : Nat := 0x1004000 + 0x10000 * i
def DIE_RT_CTL_def_bank (i : Nat) : FieldRef := ⟨DIE_RT_CTL i, 3, 1⟩
def DIE_RT_CTL_def_swap (i : Nat) : FieldRef := ⟨DIE_RT_CTL i, 2, 1⟩
/-- DIE_RT_SWAP_AT (R192). -/
def DIE_RT_SWAP_AT (i : Nat) : Nat := 0x1004004 + 0x10000 * i
def DIE_RT_SWAP_AT_tick (i : Nat) : FieldRef := ⟨DIE_RT_SWAP_AT i, 0, 32⟩
/-- DIE_RT_C0BANK_LO (R193). -/
def DIE_RT_C0BANK_LO (i : Nat) : Nat := 0x1004008 + 0x10000 * i
def DIE_RT_C0BANK_LO_bank (i : Nat) : FieldRef := ⟨DIE_RT_C0BANK_LO i, 0, 32⟩
/-- DIE_RT_C0BANK_HI (R193). -/
def DIE_RT_C0BANK_HI (i : Nat) : Nat := 0x100400C + 0x10000 * i
def DIE_RT_C0BANK_HI_bank (i : Nat) : FieldRef := ⟨DIE_RT_C0BANK_HI i, 0, 32⟩
/-- DIE_RT_C0SWAP_LO (R193). -/
def DIE_RT_C0SWAP_LO (i : Nat) : Nat := 0x1004010 + 0x10000 * i
def DIE_RT_C0SWAP_LO_swap (i : Nat) : FieldRef := ⟨DIE_RT_C0SWAP_LO i, 0, 32⟩
/-- DIE_RT_C0SWAP_HI (R193). -/
def DIE_RT_C0SWAP_HI (i : Nat) : Nat := 0x1004014 + 0x10000 * i
def DIE_RT_C0SWAP_HI_swap (i : Nat) : FieldRef := ⟨DIE_RT_C0SWAP_HI i, 0, 32⟩
/-- DIE_NET_RETRY (R196). -/
def DIE_NET_RETRY (i : Nat) : Nat := 0x1004020 + 0x10000 * i
def DIE_NET_RETRY_die (i : Nat) : FieldRef := ⟨DIE_NET_RETRY i, 16, 16⟩
def DIE_NET_RETRY_cluster (i : Nat) : FieldRef := ⟨DIE_NET_RETRY i, 0, 16⟩
/-- DIE_NET_DROP (R196). -/
def DIE_NET_DROP (i : Nat) : Nat := 0x1004024 + 0x10000 * i
def DIE_NET_DROP_exhausted (i : Nat) : FieldRef := ⟨DIE_NET_DROP i, 24, 8⟩
def DIE_NET_DROP_closed (i : Nat) : FieldRef := ⟨DIE_NET_DROP i, 16, 8⟩
def DIE_NET_DROP_route (i : Nat) : FieldRef := ⟨DIE_NET_DROP i, 8, 8⟩
def DIE_NET_DROP_stray (i : Nat) : FieldRef := ⟨DIE_NET_DROP i, 0, 8⟩
/-- DIE_NET_LAST (R197). -/
def DIE_NET_LAST (i : Nat) : Nat := 0x1004028 + 0x10000 * i
def DIE_NET_LAST_valid (i : Nat) : FieldRef := ⟨DIE_NET_LAST i, 31, 1⟩
def DIE_NET_LAST_cause (i : Nat) : FieldRef := ⟨DIE_NET_LAST i, 28, 3⟩
def DIE_NET_LAST_class (i : Nat) : FieldRef := ⟨DIE_NET_LAST i, 26, 2⟩
def DIE_NET_LAST_kind (i : Nat) : FieldRef := ⟨DIE_NET_LAST i, 23, 3⟩
def DIE_NET_LAST_source (i : Nat) : FieldRef := ⟨DIE_NET_LAST i, 0, 14⟩
/-- DIE_NET_LAST_TICK (R197). -/
def DIE_NET_LAST_TICK (i : Nat) : Nat := 0x100402C + 0x10000 * i
def DIE_NET_LAST_TICK_tick (i : Nat) : FieldRef := ⟨DIE_NET_LAST_TICK i, 0, 32⟩
/-- DIE_EDGE_BUDGET_BAY (R198). -/
def DIE_EDGE_BUDGET_BAY (i j : Nat) : Nat := 0x1004100 + 0x10000 * i + 0x4 * j
def DIE_EDGE_BUDGET_BAY_rows (i j : Nat) : FieldRef := ⟨DIE_EDGE_BUDGET_BAY i j, 0, 16⟩
/-- DIE_EDGE_BUDGET_LINK (R198). -/
def DIE_EDGE_BUDGET_LINK (i j : Nat) : Nat := 0x1004200 + 0x10000 * i + 0x4 * j
def DIE_EDGE_BUDGET_LINK_rows (i j : Nat) : FieldRef := ⟨DIE_EDGE_BUDGET_LINK i j, 0, 16⟩
/-- DIE_EDGE_ROWS_BAY (R199). -/
def DIE_EDGE_ROWS_BAY (i : Nat) : Nat := 0x1004300 + 0x10000 * i
def DIE_EDGE_ROWS_BAY_count (i : Nat) : FieldRef := ⟨DIE_EDGE_ROWS_BAY i, 0, 32⟩
/-- DIE_EDGE_ROWS_BAY_LAST (R199). -/
def DIE_EDGE_ROWS_BAY_LAST (i : Nat) : Nat := 0x1004304 + 0x10000 * i
def DIE_EDGE_ROWS_BAY_LAST_count (i : Nat) : FieldRef := ⟨DIE_EDGE_ROWS_BAY_LAST i, 0, 32⟩
/-- DIE_EDGE_BP_BAY (R199). -/
def DIE_EDGE_BP_BAY (i : Nat) : Nat := 0x1004308 + 0x10000 * i
def DIE_EDGE_BP_BAY_count (i : Nat) : FieldRef := ⟨DIE_EDGE_BP_BAY i, 0, 32⟩
/-- DIE_EDGE_BP_BAY_LAST (R199). -/
def DIE_EDGE_BP_BAY_LAST (i : Nat) : Nat := 0x100430C + 0x10000 * i
def DIE_EDGE_BP_BAY_LAST_count (i : Nat) : FieldRef := ⟨DIE_EDGE_BP_BAY_LAST i, 0, 32⟩
/-- DIE_EDGE_ROWS_LINK (R199). -/
def DIE_EDGE_ROWS_LINK (i : Nat) : Nat := 0x1004310 + 0x10000 * i
def DIE_EDGE_ROWS_LINK_count (i : Nat) : FieldRef := ⟨DIE_EDGE_ROWS_LINK i, 0, 32⟩
/-- DIE_EDGE_ROWS_LINK_LAST (R199). -/
def DIE_EDGE_ROWS_LINK_LAST (i : Nat) : Nat := 0x1004314 + 0x10000 * i
def DIE_EDGE_ROWS_LINK_LAST_count (i : Nat) : FieldRef := ⟨DIE_EDGE_ROWS_LINK_LAST i, 0, 32⟩
/-- DIE_EDGE_BP_LINK (R199). -/
def DIE_EDGE_BP_LINK (i : Nat) : Nat := 0x1004318 + 0x10000 * i
def DIE_EDGE_BP_LINK_count (i : Nat) : FieldRef := ⟨DIE_EDGE_BP_LINK i, 0, 32⟩
/-- DIE_EDGE_BP_LINK_LAST (R199). -/
def DIE_EDGE_BP_LINK_LAST (i : Nat) : Nat := 0x100431C + 0x10000 * i
def DIE_EDGE_BP_LINK_LAST_count (i : Nat) : FieldRef := ⟨DIE_EDGE_BP_LINK_LAST i, 0, 32⟩
/-- DIE_EDGE_OVER_BAY_LO (R199). -/
def DIE_EDGE_OVER_BAY_LO (i : Nat) : Nat := 0x1004320 + 0x10000 * i
def DIE_EDGE_OVER_BAY_LO_over (i : Nat) : FieldRef := ⟨DIE_EDGE_OVER_BAY_LO i, 0, 32⟩
/-- DIE_EDGE_OVER_BAY_HI (R199). -/
def DIE_EDGE_OVER_BAY_HI (i : Nat) : Nat := 0x1004324 + 0x10000 * i
def DIE_EDGE_OVER_BAY_HI_over (i : Nat) : FieldRef := ⟨DIE_EDGE_OVER_BAY_HI i, 0, 32⟩
/-- DIE_EDGE_OVER_LINK_LO (R199). -/
def DIE_EDGE_OVER_LINK_LO (i : Nat) : Nat := 0x1004328 + 0x10000 * i
def DIE_EDGE_OVER_LINK_LO_over (i : Nat) : FieldRef := ⟨DIE_EDGE_OVER_LINK_LO i, 0, 32⟩
/-- DIE_EDGE_OVER_LINK_HI (R199). -/
def DIE_EDGE_OVER_LINK_HI (i : Nat) : Nat := 0x100432C + 0x10000 * i
def DIE_EDGE_OVER_LINK_HI_over (i : Nat) : FieldRef := ⟨DIE_EDGE_OVER_LINK_HI i, 0, 32⟩
/-- DIE_RT_DEF (R194). -/
def DIE_RT_DEF (i j : Nat) : Nat := 0x1004400 + 0x10000 * i + 0x4 * j
/-- DIE_RT_C0 (R194). -/
def DIE_RT_C0 (i j : Nat) : Nat := 0x1005000 + 0x10000 * i + 0x4 * j
/-- DIE_XLT_SEL (R195). -/
def DIE_XLT_SEL (i : Nat) : Nat := 0x1007400 + 0x10000 * i
def DIE_XLT_SEL_bank (i : Nat) : FieldRef := ⟨DIE_XLT_SEL i, 31, 1⟩
def DIE_XLT_SEL_cluster (i : Nat) : FieldRef := ⟨DIE_XLT_SEL i, 28, 3⟩
def DIE_XLT_SEL_logical (i : Nat) : FieldRef := ⟨DIE_XLT_SEL i, 0, 14⟩
/-- DIE_XLT_DATA (R195). -/
def DIE_XLT_DATA (i : Nat) : Nat := 0x1007404 + 0x10000 * i
/-- DIE_CORE_CTL (R102). -/
def DIE_CORE_CTL (p : Nat) : Nat := 0x1008000 + 0x10000 * (p / 128) + 0x1000 * (p / 16 % 8) + 0x100 * (p % 16)
def DIE_CORE_CTL_lock (p : Nat) : FieldRef := ⟨DIE_CORE_CTL p, 31, 1⟩
def DIE_CORE_CTL_freeze (p : Nat) : FieldRef := ⟨DIE_CORE_CTL p, 1, 1⟩
def DIE_CORE_CTL_member (p : Nat) : FieldRef := ⟨DIE_CORE_CTL p, 0, 1⟩
/-- DIE_CORE_STAT (R103). -/
def DIE_CORE_STAT (p : Nat) : Nat := 0x1008004 + 0x10000 * (p / 128) + 0x1000 * (p / 16 % 8) + 0x100 * (p % 16)
/-- DIE_CORE_PROG (R104). -/
def DIE_CORE_PROG (p i : Nat) : Nat := 0x1008008 + 0x10000 * (p / 128) + 0x1000 * (p / 16 % 8) + 0x100 * (p % 16) + 0x4 * i
def DIE_CORE_PROG_limit (p i : Nat) : FieldRef := ⟨DIE_CORE_PROG p i, 16, 15⟩
def DIE_CORE_PROG_base (p i : Nat) : FieldRef := ⟨DIE_CORE_PROG p i, 0, 14⟩
/-- DIE_CORE_PC_LM (R105). -/
def DIE_CORE_PC_LM (p : Nat) : Nat := 0x1008018 + 0x10000 * (p / 128) + 0x1000 * (p / 16 % 8) + 0x100 * (p % 16)
/-- DIE_CORE_PC_VS (R105). -/
def DIE_CORE_PC_VS (p : Nat) : Nat := 0x100801C + 0x10000 * (p / 128) + 0x1000 * (p / 16 % 8) + 0x100 * (p % 16)
/-- DIE_CORE_SAT (R106). -/
def DIE_CORE_SAT (p : Nat) : Nat := 0x1008020 + 0x10000 * (p / 128) + 0x1000 * (p / 16 % 8) + 0x100 * (p % 16)
def DIE_CORE_SAT_count (p : Nat) : FieldRef := ⟨DIE_CORE_SAT p, 0, 32⟩
/-- DIE_CORE_TRAP (R107). -/
def DIE_CORE_TRAP (p : Nat) : Nat := 0x1008024 + 0x10000 * (p / 128) + 0x1000 * (p / 16 % 8) + 0x100 * (p % 16)
def DIE_CORE_TRAP_valid (p : Nat) : FieldRef := ⟨DIE_CORE_TRAP p, 31, 1⟩
def DIE_CORE_TRAP_cause (p : Nat) : FieldRef := ⟨DIE_CORE_TRAP p, 28, 3⟩
def DIE_CORE_TRAP_engine (p : Nat) : FieldRef := ⟨DIE_CORE_TRAP p, 26, 2⟩
def DIE_CORE_TRAP_pc (p : Nat) : FieldRef := ⟨DIE_CORE_TRAP p, 0, 14⟩
/-- DIE_CORE_TRAP_TICK (R107). -/
def DIE_CORE_TRAP_TICK (p : Nat) : Nat := 0x1008028 + 0x10000 * (p / 128) + 0x1000 * (p / 16 % 8) + 0x100 * (p % 16)
def DIE_CORE_TRAP_TICK_tick (p : Nat) : FieldRef := ⟨DIE_CORE_TRAP_TICK p, 0, 32⟩
/-- DIE_CORE_SIG (R108). -/
def DIE_CORE_SIG (p : Nat) : Nat := 0x100802C + 0x10000 * (p / 128) + 0x1000 * (p / 16 % 8) + 0x100 * (p % 16)
/-- DIE_CORE_SIG_HI (R108). -/
def DIE_CORE_SIG_HI (p : Nat) : Nat := 0x1008030 + 0x10000 * (p / 128) + 0x1000 * (p / 16 % 8) + 0x100 * (p % 16)
/-- REQ_TABLE (R291). -/
def REQ_TABLE (i j : Nat) : Nat := 0x2000000 + 0x80 * i + 0x4 * j
/-- PAGE_MAP (R213). -/
def PAGE_MAP (i j : Nat) : Nat := 0x3000000 + 0x8 * i + 0x4 * j
def PAGE_MAP_word (i j : Nat) : FieldRef := ⟨PAGE_MAP i j, 0, 32⟩
/-- TENANT_CFG0 (R300). -/
def TENANT_CFG0 (i j : Nat) : Nat := 0x3800000 + 0x20 * i + 0x4 * j
/-- TENANT_CFG1 (R300). -/
def TENANT_CFG1 (i j : Nat) : Nat := 0x3820000 + 0x20 * i + 0x4 * j
/-- TENANT_STATE (R300). -/
def TENANT_STATE (i j : Nat) : Nat := 0x3840000 + 0x20 * i + 0x4 * j
def TENANT_STATE_word (i j : Nat) : FieldRef := ⟨TENANT_STATE i j, 0, 32⟩

/-- Registers of the IDENT block. -/
def regsIdent : List RegDesc := [
  ⟨.IDENT_PART, 0x0, [], [⟨31, 16, .ro, 150⟩, ⟨15, 8, .ro, 65⟩, ⟨7, 0, .ro, 0⟩], false⟩,
  ⟨.IDENT_SERIAL_LO, 0x4, [], [⟨31, 0, .ro, 0⟩], false⟩,
  ⟨.IDENT_SERIAL_HI, 0x8, [], [⟨31, 0, .ro, 0⟩], false⟩,
  ⟨.IDENT_VERSION, 0xC, [], [⟨31, 24, .ro, 0⟩, ⟨23, 16, .ro, 0⟩, ⟨15, 0, .ro, 0⟩], false⟩,
  ⟨.IDENT_CAP, 0x10, [], [⟨31, 24, .ro, 3⟩, ⟨23, 16, .ro, 2⟩, ⟨2, 0, .ro, 7⟩], false⟩,
  ⟨.IDENT_INV_CORES, 0x20, [], [⟨29, 16, .ro, 0⟩, ⟨13, 0, .ro, 0⟩], false⟩,
  ⟨.IDENT_INV_SPARE, 0x24, [], [⟨29, 16, .ro, 0⟩, ⟨9, 0, .ro, 0⟩], false⟩,
  ⟨.IDENT_INV_SEQ, 0x28, [], [⟨31, 0, .ro, 0⟩], false⟩,
  ⟨.IDENT_INV_STAT, 0x2C, [], [⟨2, 2, .ro, 0⟩, ⟨1, 1, .ro, 0⟩, ⟨0, 0, .ro, 0⟩], false⟩,
  ⟨.IDENT_ACC_ERR, 0x30, [], [⟨31, 16, .clr, 0⟩, ⟨15, 0, .clr, 0⟩], false⟩,
  ⟨.IDENT_BOOT, 0x40, [], [⟨31, 28, .ro, 0⟩, ⟨27, 24, .ro, 0⟩, ⟨23, 23, .ro, 0⟩], false⟩,
  ⟨.IDENT_RST_CAUSE, 0x44, [], [⟨4, 4, .w1c, 0⟩, ⟨3, 3, .w1c, 0⟩, ⟨2, 2, .w1c, 0⟩, ⟨1, 1, .w1c, 0⟩, ⟨0, 0, .w1c, 0⟩], false⟩,
  ⟨.IDENT_BOOT_MS, 0x48, [], [⟨31, 16, .ro, 0⟩, ⟨15, 0, .ro, 0⟩], false⟩,
  ⟨.IDENT_INV_REC, 0x1000, [(618, 0x4)], [⟨31, 0, .ro, 0⟩], true⟩,
  ⟨.IDENT_CORE_MAP, 0x8000, [(4608, 0x4)], [⟨31, 30, .ro, 0⟩, ⟨29, 16, .ro, 0⟩, ⟨15, 14, .ro, 0⟩, ⟨13, 0, .ro, 0⟩], true⟩]

/-- Registers of the BEAT block. -/
def regsBeat : List RegDesc := [
  ⟨.BEAT_TICK_LO, 0x10000, [], [⟨31, 0, .ro, 0⟩], true⟩,
  ⟨.BEAT_TICK_HI, 0x10004, [], [⟨31, 0, .ro, 0⟩], true⟩,
  ⟨.BEAT_MARK, 0x10008, [], [⟨31, 0, .ro, 0⟩], true⟩,
  ⟨.BEAT_MARK_TICK, 0x1000C, [], [⟨13, 0, .ro, 0⟩], true⟩,
  ⟨.BEAT_TICK_SET_LO, 0x10010, [], [⟨31, 0, .rw, 0⟩], false⟩,
  ⟨.BEAT_TICK_SET_HI, 0x10014, [], [⟨31, 0, .rw, 0⟩], false⟩,
  ⟨.BEAT_TICK_CTL, 0x10018, [], [⟨2, 2, .w1c, 0⟩, ⟨1, 1, .w1s, 0⟩, ⟨0, 0, .ro, 0⟩], false⟩,
  ⟨.BEAT_PLAN_LEN, 0x11000, [(64, 0x100)], [⟨27, 24, .rwl, 0⟩, ⟨22, 16, .rwl, 0⟩, ⟨8, 0, .rwl, 0⟩], false⟩,
  ⟨.BEAT_PLAN_CTL, 0x11004, [(64, 0x100)], [⟨31, 31, .rwo, 0⟩, ⟨5, 5, .w1c, 0⟩, ⟨4, 4, .ro, 0⟩, ⟨3, 3, .rw, 0⟩, ⟨2, 2, .w1s, 0⟩, ⟨1, 1, .w1s, 0⟩, ⟨0, 0, .ro, 0⟩], false⟩,
  ⟨.BEAT_PLAN_ORIGIN_LO, 0x11008, [(64, 0x100)], [⟨31, 0, .rwl, 0⟩], false⟩,
  ⟨.BEAT_PLAN_ORIGIN_HI, 0x1100C, [(64, 0x100)], [⟨31, 0, .rwl, 0⟩], false⟩,
  ⟨.BEAT_PLAN_REST, 0x11010, [(64, 0x100)], [⟨5, 0, .ro, 0⟩], false⟩,
  ⟨.BEAT_CUR_LO, 0x11014, [(64, 0x100)], [⟨31, 0, .ro, 0⟩], false⟩,
  ⟨.BEAT_CUR_HI, 0x11018, [(64, 0x100)], [⟨15, 0, .ro, 0⟩], false⟩,
  ⟨.BEAT_CUR_START_LO, 0x1101C, [(64, 0x100)], [⟨31, 0, .ro, 0⟩], false⟩,
  ⟨.BEAT_CUR_START_HI, 0x11020, [(64, 0x100)], [⟨31, 0, .ro, 0⟩], false⟩,
  ⟨.BEAT_STAT, 0x11024, [(64, 0x100)], [⟨7, 4, .ro, 0⟩, ⟨2, 2, .ro, 0⟩, ⟨1, 1, .ro, 0⟩, ⟨0, 0, .ro, 0⟩], true⟩,
  ⟨.BEAT_OVR, 0x11028, [(64, 0x100)], [⟨31, 31, .w1c, 0⟩, ⟨30, 28, .ro, 0⟩, ⟨27, 26, .ro, 0⟩, ⟨25, 25, .ro, 0⟩, ⟨13, 0, .ro, 0⟩], false⟩,
  ⟨.BEAT_OVR_TICK_LO, 0x1102C, [(64, 0x100)], [⟨31, 0, .ro, 0⟩], false⟩,
  ⟨.BEAT_OVR_TICK_HI, 0x11030, [(64, 0x100)], [⟨31, 0, .ro, 0⟩], false⟩,
  ⟨.BEAT_STATS_LEN, 0x11034, [(64, 0x100)], [⟨15, 0, .rw, 100⟩], false⟩,
  ⟨.BEAT_STATS_WIN, 0x11038, [(64, 0x100)], [⟨31, 0, .ro, 0⟩], false⟩,
  ⟨.BEAT_CNT, 0x11040, [(64, 0x100), (8, 0x4)], [⟨31, 0, .ro, 0⟩], false⟩,
  ⟨.BEAT_CNT_LAST, 0x11060, [(64, 0x100), (8, 0x4)], [⟨31, 0, .ro, 0⟩], false⟩]

/-- Registers of the EVC block. -/
def regsEvc : List RegDesc := [
  ⟨.EVC_SRC_CFG, 0x20000, [(1024, 0x4)], [⟨31, 31, .rw, 0⟩, ⟨30, 30, .rw, 0⟩, ⟨29, 29, .w1c, 0⟩, ⟨28, 28, .ro, 0⟩, ⟨27, 27, .ro, 0⟩, ⟨26, 26, .ro, 0⟩, ⟨19, 16, .rw, 0⟩, ⟨11, 11, .rw, 0⟩, ⟨10, 7, .rw, 0⟩, ⟨6, 6, .rw, 0⟩, ⟨2, 0, .rw, 0⟩], true⟩,
  ⟨.EVC_PTGT, 0x21000, [(64, 0x4)], [⟨8, 8, .rw, 0⟩, ⟨7, 0, .rw, 0⟩], false⟩,
  ⟨.EVC_CC_CLAIM, 0x22000, [(8, 0x100)], [⟨31, 31, .ro, 0⟩, ⟨19, 16, .ro, 0⟩, ⟨9, 0, .ro, 0⟩], true⟩,
  ⟨.EVC_CC_EOI, 0x22004, [(8, 0x100)], [⟨9, 0, .wo, 0⟩], false⟩,
  ⟨.EVC_CC_BASE, 0x22008, [(8, 0x100)], [⟨3, 0, .rw, 0⟩], false⟩,
  ⟨.EVC_CC_STAT, 0x2200C, [(8, 0x100)], [⟨31, 28, .ro, 0⟩, ⟨20, 16, .ro, 0⟩, ⟨2, 2, .w1c, 0⟩, ⟨1, 1, .w1c, 0⟩, ⟨0, 0, .ro, 0⟩], true⟩,
  ⟨.EVC_CC_STK, 0x22040, [(8, 0x100), (16, 0x4)], [⟨31, 31, .ro, 0⟩, ⟨19, 16, .ro, 0⟩, ⟨9, 0, .ro, 0⟩], true⟩,
  ⟨.EVC_HOST_CTL, 0x23000, [], [⟨0, 0, .rw, 1⟩], false⟩,
  ⟨.EVC_STUCK_LIM, 0x23004, [], [⟨7, 0, .rw, 64⟩], false⟩,
  ⟨.EVC_DEV_LATCH, 0x23008, [], [⟨3, 0, .w1c, 0⟩], false⟩,
  ⟨.EVC_HOST_DROP, 0x2300C, [], [⟨31, 0, .clr, 0⟩], false⟩,
  ⟨.EVC_PIN_CFG, 0x23010, [], [⟨7, 0, .rw, 255⟩], false⟩,
  ⟨.EVC_PIN_STAT, 0x23014, [], [⟨15, 8, .w1c, 0⟩, ⟨7, 0, .w1c, 0⟩], false⟩,
  ⟨.EVC_PIN_LEVEL, 0x23018, [], [⟨15, 8, .ro, 0⟩, ⟨7, 0, .ro, 0⟩], true⟩,
  ⟨.EVC_PIN_SHORT, 0x23020, [(8, 0x4)], [⟨15, 0, .clr, 0⟩], false⟩,
  ⟨.EVC_STUCK_MAP, 0x23100, [(32, 0x4)], [⟨31, 0, .w1c, 0⟩], true⟩,
  ⟨.EVC_PEND_MAP, 0x23200, [(32, 0x4)], [⟨31, 0, .ro, 0⟩], true⟩]

/-- Registers of the SAGE block. -/
def regsSage : List RegDesc := [
  ⟨.SAGE_CTL, 0x30000, [], [⟨23, 16, .rw, 4⟩, ⟨15, 0, .rw, 1000⟩], false⟩,
  ⟨.SAGE_STAT, 0x30004, [], [⟨31, 31, .ro, 0⟩, ⟨30, 30, .ro, 0⟩, ⟨15, 0, .ro, 0⟩], false⟩,
  ⟨.SAGE_EVT, 0x30008, [], [⟨7, 0, .w1c, 0⟩], false⟩,
  ⟨.SAGE_LOG, 0x30010, [], [⟨31, 31, .w1c, 0⟩, ⟨21, 16, .ro, 0⟩, ⟨5, 0, .rw, 0⟩], false⟩,
  ⟨.SAGE_DET, 0x30044, [(15, 0x4)], [⟨31, 0, .clr, 0⟩], false⟩,
  ⟨.SAGE_REC, 0x31000, [(64, 0x10), (4, 0x4)], [⟨31, 0, .ro, 0⟩], false⟩,
  ⟨.SAGE_P_CTL, 0x32000, [(64, 0x20)], [⟨31, 31, .rw, 1⟩], false⟩,
  ⟨.SAGE_P_STAT, 0x32004, [(64, 0x20)], [⟨31, 28, .ro, 0⟩, ⟨27, 24, .ro, 0⟩, ⟨23, 17, .ro, 127⟩], false⟩,
  ⟨.SAGE_P_REPLAYS, 0x32008, [(64, 0x20)], [⟨31, 0, .clr, 0⟩], false⟩,
  ⟨.SAGE_P_RESTARTS, 0x3200C, [(64, 0x20)], [⟨31, 0, .clr, 0⟩], false⟩,
  ⟨.SAGE_P_REMAPS, 0x32010, [(64, 0x20)], [⟨31, 0, .clr, 0⟩], false⟩,
  ⟨.SAGE_P_WITHHELD, 0x32014, [(64, 0x20)], [⟨31, 0, .clr, 0⟩], false⟩]

/-- Registers of the PWR block. -/
def regsPwr : List RegDesc := [
  ⟨.PWR_CAP, 0x40000, [], [⟨13, 0, .rw, 10400⟩], false⟩,
  ⟨.PWR_GOV, 0x40004, [], [⟨31, 31, .rw, 1⟩, ⟨25, 16, .rw, 300⟩, ⟨5, 0, .ro, 0⟩], false⟩,
  ⟨.PWR_STAT, 0x40008, [], [⟨31, 31, .ro, 0⟩, ⟨30, 30, .ro, 0⟩, ⟨29, 29, .ro, 0⟩, ⟨28, 28, .ro, 0⟩, ⟨27, 27, .ro, 0⟩, ⟨26, 26, .ro, 0⟩], false⟩,
  ⟨.PWR_IN_LAST, 0x4000C, [], [⟨31, 16, .ro, 0⟩, ⟨15, 0, .ro, 0⟩], false⟩,
  ⟨.PWR_AUX_LAST, 0x40010, [], [⟨31, 16, .ro, 0⟩, ⟨15, 0, .ro, 0⟩], false⟩,
  ⟨.PWR_EVT, 0x40014, [], [⟨7, 0, .w1c, 0⟩], false⟩,
  ⟨.PWR_SAG_CNT, 0x40018, [], [⟨31, 0, .clr, 0⟩], false⟩,
  ⟨.PWR_BRAKE_CNT, 0x4001C, [], [⟨31, 0, .clr, 0⟩], false⟩,
  ⟨.PWR_REP_A, 0x41000, [(243, 0x8)], [⟨31, 16, .ro, 0⟩, ⟨15, 0, .ro, 0⟩], false⟩,
  ⟨.PWR_REP_B, 0x41004, [(243, 0x8)], [⟨19, 8, .ro, 0⟩, ⟨4, 4, .ro, 0⟩, ⟨3, 3, .ro, 0⟩, ⟨2, 2, .ro, 0⟩, ⟨1, 1, .ro, 0⟩, ⟨0, 0, .ro, 0⟩], false⟩]

/-- Registers of the FWU block. -/
def regsFwu : List RegDesc := [
  ⟨.FWU_STAT, 0x50000, [], [⟨31, 28, .ro, 0⟩, ⟨27, 27, .ro, 0⟩, ⟨26, 26, .ro, 0⟩, ⟨25, 25, .ro, 0⟩, ⟨24, 24, .ro, 0⟩, ⟨15, 8, .ro, 0⟩, ⟨6, 0, .ro, 0⟩], false⟩,
  ⟨.FWU_CTL, 0x50004, [], [⟨31, 31, .w1s, 0⟩, ⟨30, 30, .w1s, 0⟩, ⟨29, 29, .w1s, 0⟩], false⟩,
  ⟨.FWU_LEFT, 0x50008, [], [⟨10, 0, .ro, 0⟩], false⟩,
  ⟨.FWU_INACT_VER, 0x5000C, [], [⟨31, 0, .ro, 0⟩], false⟩,
  ⟨.FWU_INACT_INFO, 0x50010, [], [⟨31, 16, .ro, 0⟩, ⟨6, 0, .ro, 0⟩], false⟩,
  ⟨.FWU_EVT, 0x50014, [], [⟨3, 0, .w1c, 0⟩], false⟩,
  ⟨.FWU_PAUSE, 0x50018, [], [⟨15, 0, .ro, 0⟩], false⟩,
  ⟨.FWU_SET_SEL, 0x50020, [], [⟨15, 0, .rw, 0⟩], false⟩,
  ⟨.FWU_SET_DATA, 0x50024, [], [⟨31, 0, .rw, 0⟩], false⟩,
  ⟨.FWU_SET_CMD, 0x50028, [], [⟨1, 0, .wo, 0⟩], false⟩,
  ⟨.FWU_SET_RES, 0x5002C, [], [⟨7, 0, .ro, 0⟩], false⟩]

/-- Registers of the TRUST block. -/
def regsTrust : List RegDesc := [
  ⟨.TRUST_CTL, 0x60000, [], [⟨31, 31, .w1s, 0⟩, ⟨30, 30, .ro, 0⟩, ⟨27, 24, .ro, 0⟩], false⟩,
  ⟨.TRUST_KEY, 0x60004, [], [⟨31, 22, .ro, 0⟩, ⟨19, 0, .ro, 0⟩], false⟩,
  ⟨.TRUST_RESV, 0x60008, [], [⟨20, 0, .ro, 0⟩], false⟩,
  ⟨.TRUST_ID, 0x6000C, [], [⟨10, 0, .ro, 0⟩], false⟩,
  ⟨.TRUST_NONCE, 0x60010, [(8, 0x4)], [⟨31, 0, .rw, 0⟩], false⟩,
  ⟨.TRUST_QUOTE, 0x61000, [(2002, 0x4)], [⟨31, 0, .ro, 0⟩], false⟩,
  ⟨.TRUST_IDCERT, 0x64000, [(737, 0x4)], [⟨31, 0, .ro, 0⟩], false⟩]

/-- Registers of the LOAD block. -/
def regsLoad : List RegDesc := [
  ⟨.LOAD_CTL, 0x70000, [], [⟨31, 31, .w1s, 0⟩, ⟨30, 30, .w1s, 0⟩, ⟨26, 24, .rw, 0⟩, ⟨5, 0, .rw, 0⟩], false⟩,
  ⟨.LOAD_STAT, 0x70004, [], [⟨31, 31, .ro, 0⟩, ⟨30, 28, .ro, 0⟩, ⟨27, 27, .w1c, 0⟩, ⟨26, 24, .ro, 0⟩, ⟨21, 16, .ro, 0⟩, ⟨15, 0, .ro, 0⟩], false⟩,
  ⟨.LOAD_DETAIL, 0x70008, [], [⟨31, 24, .ro, 0⟩, ⟨23, 0, .ro, 0⟩], false⟩,
  ⟨.LOAD_SRC, 0x7000C, [], [⟨19, 0, .rw, 0⟩], false⟩,
  ⟨.LOAD_LEN_LO, 0x70010, [], [⟨31, 0, .rw, 0⟩], false⟩,
  ⟨.LOAD_LEN_HI, 0x70014, [], [⟨31, 0, .rw, 0⟩], false⟩,
  ⟨.LOAD_ORIGIN_LO, 0x70018, [], [⟨31, 0, .rw, 0⟩], false⟩,
  ⟨.LOAD_ORIGIN_HI, 0x7001C, [], [⟨31, 0, .rw, 0⟩], false⟩,
  ⟨.LOAD_PROGRESS, 0x70020, [], [⟨31, 0, .ro, 0⟩], false⟩,
  ⟨.LOAD_PSTATE, 0x70040, [(4, 0x4)], [⟨31, 0, .ro, 0⟩], true⟩,
  ⟨.LOAD_CHAN, 0x70080, [(16, 0x4)], [⟨31, 31, .rw, 0⟩, ⟨7, 0, .rw, 0⟩], false⟩]

/-- Registers of the PART block. -/
def regsPart0 : List RegDesc := [
  ⟨.PART_RES_CTL, 0x100000, [(64, 0x10000)], [⟨31, 31, .rw, 0⟩, ⟨30, 30, .w1c, 0⟩, ⟨29, 27, .ro, 0⟩, ⟨3, 3, .ro, 0⟩, ⟨2, 0, .ro, 0⟩], false⟩,
  ⟨.PART_RES_SLICE, 0x100004, [(64, 0x10000)], [⟨25, 16, .rw, 0⟩, ⟨8, 0, .rw, 0⟩], false⟩,
  ⟨.PART_RES_QUOTA, 0x100008, [(64, 0x10000)], [⟨19, 0, .rw, 0⟩], false⟩,
  ⟨.PART_RES_USED, 0x10000C, [(64, 0x10000)], [⟨19, 0, .ro, 0⟩], false⟩,
  ⟨.PART_RES_SHARE, 0x100010, [(64, 0x10000)], [⟨23, 16, .rw, 0⟩, ⟨15, 8, .rw, 0⟩, ⟨7, 0, .rw, 0⟩], false⟩,
  ⟨.PART_RES_SHARE_EFF, 0x100014, [(64, 0x10000)], [⟨23, 16, .ro, 0⟩, ⟨15, 8, .ro, 0⟩, ⟨7, 0, .ro, 0⟩], false⟩,
  ⟨.PART_RST, 0x100020, [(64, 0x10000)], [⟨31, 31, .ro, 0⟩, ⟨30, 28, .ro, 0⟩, ⟨1, 1, .w1s, 0⟩, ⟨0, 0, .w1s, 0⟩], false⟩,
  ⟨.PART_RST_CNT, 0x100024, [(64, 0x10000)], [⟨31, 16, .clr, 0⟩, ⟨15, 0, .clr, 0⟩], false⟩,
  ⟨.PART_RST_TICK, 0x100028, [(64, 0x10000)], [⟨31, 0, .ro, 0⟩], false⟩,
  ⟨.PART_RST_DROPS, 0x10002C, [(64, 0x10000)], [⟨31, 0, .clr, 0⟩], false⟩,
  ⟨.PART_EVT, 0x100030, [(64, 0x10000)], [⟨7, 0, .w1c, 0⟩], false⟩,
  ⟨.PART_EVT_SET, 0x100034, [(64, 0x10000)], [⟨0, 0, .wo, 0⟩], false⟩,
  ⟨.PART_RES_CL, 0x100080, [(64, 0x10000), (18, 0x4)], [⟨31, 0, .rw, 0⟩], false⟩,
  ⟨.PART_NW_CTL, 0x108000, [(64, 0x10000)], [⟨9, 9, .ro, 0⟩, ⟨8, 8, .rw, 0⟩, ⟨7, 0, .ro, 0⟩], false⟩,
  ⟨.PART_NW_LAST, 0x108004, [(64, 0x10000)], [⟨31, 31, .w1c, 0⟩, ⟨30, 30, .ro, 0⟩, ⟨29, 27, .ro, 0⟩, ⟨26, 24, .ro, 0⟩, ⟨23, 20, .ro, 0⟩, ⟨6, 0, .ro, 0⟩], false⟩,
  ⟨.PART_NW_LAST_TICK_LO, 0x108008, [(64, 0x10000)], [⟨31, 0, .ro, 0⟩], false⟩,
  ⟨.PART_NW_LAST_TICK_HI, 0x10800C, [(64, 0x10000)], [⟨31, 0, .ro, 0⟩], false⟩,
  ⟨.PART_NW_REPLAYS, 0x108010, [(64, 0x10000)], [⟨31, 0, .clr, 0⟩], false⟩,
  ⟨.PART_NW_FLAGMAP, 0x108020, [(64, 0x10000), (4, 0x4)], [⟨31, 0, .w1c, 0⟩], false⟩,
  ⟨.PART_STG_REC, 0x109000, [(64, 0x10000), (128, 0x20)], [⟨31, 31, .w1s, 0⟩, ⟨30, 30, .w1c, 0⟩, ⟨29, 29, .w1c, 0⟩, ⟨26, 24, .rw, 0⟩, ⟨18, 16, .ro, 0⟩, ⟨15, 0, .ro, 0⟩], false⟩,
  ⟨.PART_STG_NWCFG, 0x109004, [(64, 0x10000), (128, 0x20)], [⟨31, 16, .rw, 1024⟩, ⟨15, 12, .rw, 6⟩, ⟨8, 0, .ro, 0⟩], false⟩,
  ⟨.PART_STG_MEAN, 0x109008, [(64, 0x10000), (128, 0x20)], [⟨31, 0, .rw, 0⟩], false⟩,
  ⟨.PART_STG_FLAGS, 0x10900C, [(64, 0x10000), (128, 0x20)], [⟨31, 0, .clr, 0⟩], false⟩,
  ⟨.PART_STG_CLAMP, 0x109010, [(64, 0x10000), (128, 0x20)], [⟨31, 0, .clr, 0⟩], false⟩]

def regsPart1 : List RegDesc := [
  ⟨.PART_STG_MISS, 0x109014, [(64, 0x10000), (128, 0x20)], [⟨31, 0, .clr, 0⟩], false⟩,
  ⟨.PART_STG_NORM, 0x109018, [(64, 0x10000), (128, 0x20)], [⟨31, 0, .ro, 0⟩], false⟩,
  ⟨.PART_RCP_CFG, 0x10A000, [(64, 0x10000), (128, 0x80), (8, 0x10)], [⟨31, 31, .ro, 0⟩, ⟨30, 30, .ro, 0⟩, ⟨29, 29, .ro, 0⟩, ⟨28, 26, .ro, 0⟩, ⟨15, 8, .ro, 0⟩, ⟨7, 0, .ro, 0⟩], false⟩,
  ⟨.PART_RCP_OFF, 0x10A004, [(64, 0x10000), (128, 0x80), (8, 0x10)], [⟨29, 16, .ro, 0⟩, ⟨13, 0, .ro, 0⟩], false⟩,
  ⟨.PART_RCP_PLAN, 0x10A008, [(64, 0x10000), (128, 0x80), (8, 0x10)], [⟨31, 16, .ro, 0⟩, ⟨15, 0, .ro, 0⟩], false⟩,
  ⟨.PART_KV_IDX, 0x10E000, [(64, 0x10000)], [⟨31, 31, .ro, 0⟩, ⟨19, 16, .ro, 0⟩, ⟨5, 0, .rw, 0⟩], false⟩,
  ⟨.PART_PFX_ARG, 0x10E010, [(64, 0x10000), (4, 0x4)], [⟨31, 0, .rw, 0⟩], false⟩,
  ⟨.PART_PFX_CMD, 0x10E020, [(64, 0x10000)], [⟨31, 28, .wo, 0⟩], false⟩,
  ⟨.PART_PFX_RES, 0x10E024, [(64, 0x10000)], [⟨31, 28, .ro, 0⟩, ⟨9, 0, .ro, 0⟩], false⟩,
  ⟨.PART_PFX_SEL, 0x10E028, [(64, 0x10000)], [⟨9, 0, .rw, 0⟩], false⟩,
  ⟨.PART_PFX_DATA, 0x10E030, [(64, 0x10000), (6, 0x4)], [⟨31, 0, .ro, 0⟩], true⟩,
  ⟨.PART_SHIP_CTL, 0x10E060, [(64, 0x10000)], [⟨31, 31, .rw, 0⟩, ⟨30, 30, .rw, 0⟩, ⟨19, 16, .rw, 3⟩, ⟨15, 0, .rw, 20⟩], false⟩,
  ⟨.PART_SHIP_WAIT, 0x10E064, [(64, 0x10000)], [⟨15, 0, .rw, 9375⟩], false⟩,
  ⟨.PART_SHIP_BUF, 0x10E068, [(64, 0x10000)], [⟨15, 8, .ro, 0⟩, ⟨5, 0, .rw, 0⟩], false⟩,
  ⟨.PART_SHIP_SEL, 0x10E06C, [(64, 0x10000)], [⟨16, 0, .rw, 0⟩], false⟩,
  ⟨.PART_SHIP_PEER, 0x10E070, [(64, 0x10000)], [⟨31, 17, .rw, 0⟩, ⟨16, 0, .rw, 0⟩], true⟩,
  ⟨.PART_SHIP_SENT, 0x10E080, [(64, 0x10000)], [⟨31, 0, .clr, 0⟩], false⟩,
  ⟨.PART_SHIP_RECEIVED, 0x10E084, [(64, 0x10000)], [⟨31, 0, .clr, 0⟩], false⟩,
  ⟨.PART_SHIP_REBUILT, 0x10E088, [(64, 0x10000)], [⟨31, 0, .clr, 0⟩], false⟩,
  ⟨.PART_SHIP_RESENT, 0x10E08C, [(64, 0x10000)], [⟨31, 0, .clr, 0⟩], false⟩,
  ⟨.PART_SHIP_FALLBACK, 0x10E090, [(64, 0x10000)], [⟨31, 0, .clr, 0⟩], false⟩,
  ⟨.PART_SHIP_FAILED, 0x10E094, [(64, 0x10000)], [⟨31, 0, .clr, 0⟩], false⟩,
  ⟨.PART_SHIP_DROPPED, 0x10E098, [(64, 0x10000)], [⟨31, 0, .clr, 0⟩], false⟩,
  ⟨.PART_WGT_CTL, 0x10E100, [(64, 0x10000)], [⟨31, 31, .w1s, 0⟩, ⟨30, 30, .w1s, 0⟩, ⟨29, 29, .w1s, 0⟩, ⟨28, 26, .rw, 0⟩, ⟨25, 24, .rw, 0⟩, ⟨23, 23, .rw, 0⟩, ⟨19, 16, .rw, 3⟩], false⟩]

def regsPart2 : List RegDesc := [
  ⟨.PART_WGT_STAT, 0x10E104, [(64, 0x10000)], [⟨31, 29, .ro, 0⟩, ⟨28, 28, .ro, 0⟩, ⟨27, 27, .ro, 0⟩, ⟨23, 16, .ro, 0⟩, ⟨15, 0, .ro, 0⟩], false⟩,
  ⟨.PART_WGT_SRC, 0x10E108, [(64, 0x10000)], [⟨19, 0, .rw, 0⟩], false⟩,
  ⟨.PART_WGT_NEW, 0x10E10C, [(64, 0x10000)], [⟨31, 0, .ro, 0⟩], false⟩,
  ⟨.PART_WGT_CUR, 0x10E110, [(64, 0x10000)], [⟨31, 0, .ro, 0⟩], false⟩,
  ⟨.PART_WGT_SWAP_AT, 0x10E114, [(64, 0x10000)], [⟨31, 0, .rw, 0⟩], false⟩,
  ⟨.PART_WGT_WAIT, 0x10E118, [(64, 0x10000)], [⟨15, 0, .rw, 9375⟩], false⟩,
  ⟨.PART_WGT_PEER, 0x10E120, [(64, 0x10000), (4, 0x4)], [⟨31, 31, .rw, 0⟩, ⟨14, 0, .rw, 0⟩], false⟩,
  ⟨.PART_WGT_ROWS, 0x10E130, [(64, 0x10000)], [⟨31, 0, .ro, 0⟩], false⟩,
  ⟨.PART_WGT_REBUILT, 0x10E140, [(64, 0x10000)], [⟨31, 0, .clr, 0⟩], false⟩,
  ⟨.PART_WGT_REREQ, 0x10E144, [(64, 0x10000)], [⟨31, 0, .clr, 0⟩], false⟩,
  ⟨.PART_WGT_BAD, 0x10E148, [(64, 0x10000)], [⟨31, 0, .clr, 0⟩], false⟩,
  ⟨.PART_WGT_HELDFLIP, 0x10E14C, [(64, 0x10000)], [⟨31, 0, .clr, 0⟩], false⟩,
  ⟨.PART_ADP_DIR, 0x10E180, [(64, 0x10000)], [⟨31, 31, .ro, 0⟩, ⟨5, 0, .rw, 0⟩], false⟩,
  ⟨.PART_ADP_ARG, 0x10E184, [(64, 0x10000), (4, 0x4)], [⟨31, 0, .rw, 0⟩], false⟩,
  ⟨.PART_ADP_CMD, 0x10E194, [(64, 0x10000)], [⟨31, 28, .wo, 0⟩], false⟩,
  ⟨.PART_ADP_RES, 0x10E198, [(64, 0x10000)], [⟨31, 28, .ro, 0⟩, ⟨27, 20, .ro, 0⟩, ⟨11, 0, .ro, 0⟩], false⟩,
  ⟨.PART_ADP_SEL, 0x10E19C, [(64, 0x10000)], [⟨11, 0, .rw, 0⟩], false⟩,
  ⟨.PART_ADP_DATA, 0x10E1A0, [(64, 0x10000), (4, 0x4)], [⟨31, 0, .ro, 0⟩], true⟩,
  ⟨.PART_VF_MAP, 0x10F000, [(256, 0x4)], [⟨31, 31, .rw, 0⟩, ⟨30, 16, .rw, 0⟩, ⟨5, 0, .rw, 0⟩], false⟩,
  ⟨.PART_VF_FLR, 0x10F400, [(8, 0x4)], [⟨31, 0, .ro, 0⟩], false⟩]

def regsPart : List RegDesc := regsPart0 ++ regsPart1 ++ regsPart2

/-- Registers of the REQ block. -/
def regsReq : List RegDesc := [
  ⟨.REQ_CMD, 0x500000, [], [⟨31, 28, .wo, 0⟩, ⟨16, 0, .wo, 0⟩], false⟩,
  ⟨.REQ_CMD_ARG_LO, 0x500004, [], [⟨31, 0, .rw, 0⟩], false⟩,
  ⟨.REQ_CMD_ARG_HI, 0x500008, [], [⟨31, 0, .rw, 0⟩], false⟩,
  ⟨.REQ_CMD_RES, 0x50000C, [], [⟨31, 28, .ro, 0⟩, ⟨27, 24, .ro, 0⟩, ⟨16, 0, .ro, 0⟩], false⟩,
  ⟨.REQ_STRAY, 0x500010, [], [⟨31, 16, .clr, 0⟩, ⟨15, 0, .clr, 0⟩], false⟩,
  ⟨.REQ_P_CTL, 0x501000, [(64, 0x100)], [⟨31, 31, .rw, 0⟩, ⟨5, 0, .rw, 0⟩], false⟩,
  ⟨.REQ_P_READ, 0x501004, [(64, 0x100)], [⟨15, 0, .rw, 0⟩], false⟩,
  ⟨.REQ_P_TEN, 0x501008, [(64, 0x100)], [⟨31, 31, .w1s, 0⟩, ⟨30, 30, .w1c, 0⟩, ⟨15, 0, .ro, 0⟩], false⟩,
  ⟨.REQ_P_STEP_LO, 0x50100C, [(64, 0x100)], [⟨31, 0, .ro, 0⟩], false⟩,
  ⟨.REQ_P_STEP_HI, 0x501010, [(64, 0x100)], [⟨31, 0, .ro, 0⟩], false⟩,
  ⟨.REQ_P_COMMIT, 0x501014, [(64, 0x100)], [⟨31, 0, .ro, 0⟩], false⟩,
  ⟨.REQ_P_QUEUED, 0x501018, [(64, 0x100)], [⟨16, 0, .ro, 0⟩], false⟩,
  ⟨.REQ_P_LIVE, 0x50101C, [(64, 0x100)], [⟨16, 0, .ro, 0⟩], false⟩,
  ⟨.REQ_P_PAGES, 0x501020, [(64, 0x100)], [⟨19, 0, .ro, 0⟩], false⟩,
  ⟨.REQ_P_CNT, 0x501040, [(64, 0x100), (8, 0x4)], [⟨31, 0, .ro, 0⟩], false⟩,
  ⟨.REQ_P_CNT_LAST, 0x501060, [(64, 0x100), (8, 0x4)], [⟨31, 0, .ro, 0⟩], false⟩]

/-- Registers of the LINK block. -/
def regsLink0 : List RegDesc := [
  ⟨.LINK_P_CTL, 0x600000, [(32, 0x8000)], [⟨31, 31, .rw, 0⟩, ⟨30, 30, .w1s, 0⟩, ⟨2, 0, .rw, 7⟩], false⟩,
  ⟨.LINK_P_STAT, 0x600004, [(32, 0x8000)], [⟨31, 31, .ro, 0⟩, ⟨30, 29, .ro, 0⟩, ⟨7, 0, .ro, 0⟩], true⟩,
  ⟨.LINK_P_EVT, 0x600008, [(32, 0x8000)], [⟨4, 0, .w1c, 0⟩], false⟩,
  ⟨.LINK_P_RTO, 0x60000C, [(32, 0x8000)], [⟨15, 0, .rw, 50⟩], false⟩,
  ⟨.LINK_P_FEC_CORR, 0x600010, [(32, 0x8000)], [⟨31, 0, .clr, 0⟩], false⟩,
  ⟨.LINK_P_FEC_UNC, 0x600014, [(32, 0x8000)], [⟨31, 0, .clr, 0⟩], false⟩,
  ⟨.LINK_P_RX_BAD, 0x600018, [(32, 0x8000)], [⟨31, 0, .clr, 0⟩], false⟩,
  ⟨.LINK_P_RESENT, 0x60001C, [(32, 0x8000)], [⟨31, 0, .clr, 0⟩], false⟩,
  ⟨.LINK_P_RX_DROP, 0x600020, [(32, 0x8000)], [⟨31, 0, .clr, 0⟩], false⟩,
  ⟨.LINK_P_DUP, 0x600024, [(32, 0x8000)], [⟨31, 0, .clr, 0⟩], false⟩,
  ⟨.LINK_P_PFC_TX, 0x600028, [(32, 0x8000)], [⟨31, 0, .clr, 0⟩], false⟩,
  ⟨.LINK_P_PFC_RX, 0x60002C, [(32, 0x8000)], [⟨31, 0, .clr, 0⟩], false⟩,
  ⟨.LINK_TLT_ADDR, 0x604000, [], [⟨31, 16, .rwo, 0⟩, ⟨14, 0, .rwo, 0⟩], false⟩,
  ⟨.LINK_TLT_ETYPE, 0x604004, [], [⟨15, 0, .rw, 34997⟩], false⟩,
  ⟨.LINK_TLT_VER, 0x604008, [], [⟨2, 0, .rw, 7⟩], false⟩,
  ⟨.LINK_TLT_VLAN, 0x60400C, [], [⟨11, 0, .rw, 0⟩], false⟩,
  ⟨.LINK_TLT_MACPFX, 0x604010, [], [⟨23, 0, .rw, 393216⟩], false⟩,
  ⟨.LINK_IO_STAT, 0x604180, [(8, 0x4)], [⟨0, 0, .w1c, 0⟩], false⟩,
  ⟨.LINK_BED_SLOT, 0x604100, [(64, 0x4)], [⟨31, 31, .rw, 0⟩, ⟨14, 0, .rw, 0⟩], false⟩,
  ⟨.LINK_TS_CTL, 0x604200, [], [⟨12, 8, .ro, 0⟩, ⟨3, 3, .rw, 1⟩, ⟨2, 2, .rw, 0⟩, ⟨1, 0, .rw, 0⟩], false⟩,
  ⟨.LINK_TS_STAT, 0x604204, [], [⟨31, 31, .ro, 0⟩, ⟨30, 30, .ro, 0⟩, ⟨29, 29, .ro, 0⟩], false⟩,
  ⟨.LINK_TS_OFFSET, 0x604208, [], [⟨31, 0, .ro, 0⟩], false⟩,
  ⟨.LINK_TS_DELAY, 0x60420C, [], [⟨31, 0, .ro, 0⟩], false⟩,
  ⟨.LINK_TS_BSCOMP, 0x604210, [], [⟨19, 0, .rw, 0⟩], false⟩]

def regsLink1 : List RegDesc := [
  ⟨.LINK_HB_CTL, 0x604300, [], [⟨31, 31, .ro, 0⟩, ⟨30, 30, .ro, 0⟩, ⟨8, 0, .ro, 0⟩], false⟩,
  ⟨.LINK_HB_AP_SEL, 0x604304, [], [⟨14, 0, .rw, 0⟩], false⟩,
  ⟨.LINK_HB_AP_LO, 0x604308, [], [⟨31, 0, .rw, 0⟩], true⟩,
  ⟨.LINK_HB_AP_HI, 0x60430C, [], [⟨31, 0, .rw, 0⟩], true⟩,
  ⟨.LINK_HB_TIMEOUT, 0x604310, [], [⟨31, 0, .clr, 0⟩], false⟩,
  ⟨.LINK_HB_DISCARD, 0x604314, [], [⟨31, 0, .clr, 0⟩], false⟩,
  ⟨.LINK_HB_FN_SEL, 0x604320, [], [⟨8, 0, .rw, 0⟩], false⟩,
  ⟨.LINK_HB_CQ_LO, 0x604324, [], [⟨31, 12, .rw, 0⟩], true⟩,
  ⟨.LINK_HB_CQ_HI, 0x604328, [], [⟨31, 0, .rw, 0⟩], true⟩,
  ⟨.LINK_HB_FN_STAT, 0x60432C, [], [⟨31, 31, .ro, 0⟩, ⟨23, 16, .ro, 0⟩, ⟨15, 0, .clr, 0⟩], true⟩,
  ⟨.LINK_OW_SEL, 0x604400, [], [⟨13, 8, .rw, 0⟩, ⟨7, 0, .rw, 0⟩], false⟩,
  ⟨.LINK_OW_BASE_LO, 0x604404, [], [⟨31, 12, .rw, 0⟩], true⟩,
  ⟨.LINK_OW_BASE_HI, 0x604408, [], [⟨31, 0, .rw, 0⟩], true⟩,
  ⟨.LINK_OW_CTL, 0x60440C, [], [⟨31, 31, .rw, 0⟩, ⟨3, 0, .rw, 0⟩], true⟩,
  ⟨.LINK_OW_PROD, 0x604410, [], [⟨31, 0, .ro, 0⟩], true⟩,
  ⟨.LINK_OW_DROP, 0x604414, [], [⟨31, 0, .clr, 0⟩], true⟩,
  ⟨.LINK_CH_CTL, 0x605000, [(256, 0x10)], [⟨31, 31, .rw, 0⟩, ⟨30, 30, .rw, 0⟩, ⟨29, 25, .rw, 0⟩, ⟨24, 20, .rw, 0⟩, ⟨19, 14, .rw, 0⟩], false⟩,
  ⟨.LINK_CH_DEST, 0x605004, [(256, 0x10)], [⟨31, 17, .rw, 0⟩, ⟨13, 0, .rw, 0⟩], false⟩,
  ⟨.LINK_CH_BASE, 0x605008, [(256, 0x10)], [⟨31, 26, .rw, 0⟩, ⟨16, 0, .rw, 0⟩], false⟩,
  ⟨.LINK_CH_LIMIT, 0x60500C, [(256, 0x10)], [⟨16, 0, .rw, 0⟩], false⟩]

def regsLink : List RegDesc := regsLink0 ++ regsLink1

/-- Registers of the BAY block. -/
def regsBay0 : List RegDesc := [
  ⟨.BAY_CTL, 0x700000, [(18, 0x8000)], [⟨2, 2, .ro, 0⟩, ⟨1, 1, .rw, 1⟩, ⟨0, 0, .ro, 0⟩], true⟩,
  ⟨.BAY_FREE, 0x700004, [(18, 0x8000)], [⟨15, 0, .ro, 0⟩], true⟩,
  ⟨.BAY_ECC_CNT, 0x700008, [(18, 0x8000)], [⟨31, 16, .clr, 0⟩, ⟨15, 0, .clr, 0⟩], false⟩,
  ⟨.BAY_ECC_LAST, 0x70000C, [(18, 0x8000)], [⟨31, 31, .w1c, 0⟩, ⟨30, 30, .ro, 0⟩, ⟨15, 0, .ro, 0⟩], false⟩,
  ⟨.BAY_ECC_LAST_ROW, 0x700010, [(18, 0x8000)], [⟨14, 0, .ro, 0⟩], false⟩,
  ⟨.BAY_ECC_LAST_TICK, 0x700014, [(18, 0x8000)], [⟨31, 0, .ro, 0⟩], false⟩,
  ⟨.BAY_REFUSE, 0x700018, [(18, 0x8000)], [⟨31, 0, .clr, 0⟩], false⟩,
  ⟨.BAY_REFUSE_LAST, 0x70001C, [(18, 0x8000)], [⟨31, 31, .w1c, 0⟩, ⟨30, 28, .ro, 0⟩, ⟨27, 22, .ro, 0⟩, ⟨21, 21, .ro, 0⟩, ⟨15, 0, .ro, 0⟩], false⟩,
  ⟨.BAY_OWN_SEL, 0x700020, [(18, 0x8000)], [⟨15, 0, .rw, 0⟩], false⟩,
  ⟨.BAY_OWN_DATA, 0x700024, [(18, 0x8000)], [⟨15, 15, .ro, 0⟩, ⟨14, 14, .ro, 0⟩, ⟨13, 13, .ro, 0⟩, ⟨12, 12, .ro, 0⟩, ⟨11, 11, .ro, 0⟩, ⟨5, 0, .ro, 0⟩], true⟩,
  ⟨.BAY_ROWS_RD, 0x700040, [(18, 0x8000)], [⟨31, 0, .ro, 0⟩], false⟩,
  ⟨.BAY_ROWS_RD_LAST, 0x700044, [(18, 0x8000)], [⟨31, 0, .ro, 0⟩], false⟩,
  ⟨.BAY_ROWS_WR, 0x700048, [(18, 0x8000)], [⟨31, 0, .ro, 0⟩], false⟩,
  ⟨.BAY_ROWS_WR_LAST, 0x70004C, [(18, 0x8000)], [⟨31, 0, .ro, 0⟩], false⟩,
  ⟨.BAY_COPY_ROWS, 0x700050, [(18, 0x8000)], [⟨31, 0, .ro, 0⟩], false⟩,
  ⟨.BAY_COPY_ROWS_LAST, 0x700054, [(18, 0x8000)], [⟨31, 0, .ro, 0⟩], false⟩,
  ⟨.BAY_MOVE_CTL, 0x700060, [(18, 0x8000)], [⟨31, 31, .w1s, 0⟩, ⟨30, 30, .w1s, 0⟩, ⟨28, 16, .rw, 512⟩], false⟩,
  ⟨.BAY_MOVE_SLOT, 0x700064, [(18, 0x8000)], [⟨19, 0, .rw, 0⟩], false⟩,
  ⟨.BAY_MOVE_DST, 0x700068, [(18, 0x8000)], [⟨15, 0, .rw, 0⟩], false⟩,
  ⟨.BAY_MOVE_STAT, 0x70006C, [(18, 0x8000)], [⟨31, 30, .ro, 0⟩, ⟨29, 27, .ro, 0⟩, ⟨15, 0, .ro, 0⟩], false⟩,
  ⟨.BAY_MOVE_DONE, 0x700070, [(18, 0x8000)], [⟨31, 0, .clr, 0⟩], false⟩,
  ⟨.BAY_MAP_ARG0, 0x707000, [], [⟨31, 0, .rw, 0⟩], false⟩,
  ⟨.BAY_MAP_ARG1, 0x707004, [], [⟨19, 0, .rw, 0⟩], false⟩,
  ⟨.BAY_MAP_CMD, 0x707008, [], [⟨31, 28, .wo, 0⟩], false⟩]

def regsBay1 : List RegDesc := [
  ⟨.BAY_MAP_RES, 0x70700C, [], [⟨31, 28, .ro, 0⟩, ⟨19, 0, .ro, 0⟩], false⟩,
  ⟨.BAY_MAP_SLOTS, 0x707010, [], [⟨20, 0, .ro, 1048575⟩], false⟩]

def regsBay : List RegDesc := regsBay0 ++ regsBay1

/-- Registers of the DIE block. -/
def regsDie0 : List RegDesc := [
  ⟨.DIE_PWR_CTL, 0x1000000, [(72, 0x10000)], [⟨31, 31, .ro, 0⟩, ⟨30, 30, .ro, 0⟩, ⟨3, 3, .ro, 0⟩, ⟨2, 2, .w1s, 0⟩], false⟩,
  ⟨.DIE_PWR_STAT, 0x1000004, [(72, 0x10000)], [⟨31, 28, .ro, 0⟩, ⟨23, 16, .ro, 0⟩, ⟨5, 0, .w1c, 0⟩], false⟩,
  ⟨.DIE_PWR_RTH, 0x1000008, [(72, 0x10000)], [⟨5, 0, .ro, 0⟩], false⟩,
  ⟨.DIE_PWR_TEMP, 0x100000C, [(72, 0x10000)], [⟨31, 0, .ro, 0⟩], false⟩,
  ⟨.DIE_PWR_OFFS, 0x1000010, [(72, 0x10000)], [⟨31, 0, .clr, 0⟩], false⟩,
  ⟨.DIE_RT_CTL, 0x1004000, [(72, 0x10000)], [⟨3, 3, .ro, 0⟩, ⟨2, 2, .w1s, 0⟩], false⟩,
  ⟨.DIE_RT_SWAP_AT, 0x1004004, [(72, 0x10000)], [⟨31, 0, .rw, 0⟩], false⟩,
  ⟨.DIE_RT_C0BANK_LO, 0x1004008, [(72, 0x10000)], [⟨31, 0, .ro, 0⟩], false⟩,
  ⟨.DIE_RT_C0BANK_HI, 0x100400C, [(72, 0x10000)], [⟨31, 0, .ro, 0⟩], false⟩,
  ⟨.DIE_RT_C0SWAP_LO, 0x1004010, [(72, 0x10000)], [⟨31, 0, .w1s, 0⟩], false⟩,
  ⟨.DIE_RT_C0SWAP_HI, 0x1004014, [(72, 0x10000)], [⟨31, 0, .w1s, 0⟩], false⟩,
  ⟨.DIE_NET_RETRY, 0x1004020, [(72, 0x10000)], [⟨31, 16, .clr, 0⟩, ⟨15, 0, .clr, 0⟩], false⟩,
  ⟨.DIE_NET_DROP, 0x1004024, [(72, 0x10000)], [⟨31, 24, .clr, 0⟩, ⟨23, 16, .clr, 0⟩, ⟨15, 8, .clr, 0⟩, ⟨7, 0, .clr, 0⟩], false⟩,
  ⟨.DIE_NET_LAST, 0x1004028, [(72, 0x10000)], [⟨31, 31, .w1c, 0⟩, ⟨30, 28, .ro, 0⟩, ⟨27, 26, .ro, 0⟩, ⟨25, 23, .ro, 0⟩, ⟨13, 0, .ro, 0⟩], false⟩,
  ⟨.DIE_NET_LAST_TICK, 0x100402C, [(72, 0x10000)], [⟨31, 0, .ro, 0⟩], false⟩,
  ⟨.DIE_EDGE_BUDGET_BAY, 0x1004100, [(72, 0x10000), (64, 0x4)], [⟨15, 0, .rw, 0⟩], false⟩,
  ⟨.DIE_EDGE_BUDGET_LINK, 0x1004200, [(72, 0x10000), (64, 0x4)], [⟨15, 0, .rw, 0⟩], false⟩,
  ⟨.DIE_EDGE_ROWS_BAY, 0x1004300, [(72, 0x10000)], [⟨31, 0, .ro, 0⟩], false⟩,
  ⟨.DIE_EDGE_ROWS_BAY_LAST, 0x1004304, [(72, 0x10000)], [⟨31, 0, .ro, 0⟩], false⟩,
  ⟨.DIE_EDGE_BP_BAY, 0x1004308, [(72, 0x10000)], [⟨31, 0, .ro, 0⟩], false⟩,
  ⟨.DIE_EDGE_BP_BAY_LAST, 0x100430C, [(72, 0x10000)], [⟨31, 0, .ro, 0⟩], false⟩,
  ⟨.DIE_EDGE_ROWS_LINK, 0x1004310, [(72, 0x10000)], [⟨31, 0, .ro, 0⟩], false⟩,
  ⟨.DIE_EDGE_ROWS_LINK_LAST, 0x1004314, [(72, 0x10000)], [⟨31, 0, .ro, 0⟩], false⟩,
  ⟨.DIE_EDGE_BP_LINK, 0x1004318, [(72, 0x10000)], [⟨31, 0, .ro, 0⟩], false⟩]

def regsDie1 : List RegDesc := [
  ⟨.DIE_EDGE_BP_LINK_LAST, 0x100431C, [(72, 0x10000)], [⟨31, 0, .ro, 0⟩], false⟩,
  ⟨.DIE_EDGE_OVER_BAY_LO, 0x1004320, [(72, 0x10000)], [⟨31, 0, .w1c, 0⟩], false⟩,
  ⟨.DIE_EDGE_OVER_BAY_HI, 0x1004324, [(72, 0x10000)], [⟨31, 0, .w1c, 0⟩], false⟩,
  ⟨.DIE_EDGE_OVER_LINK_LO, 0x1004328, [(72, 0x10000)], [⟨31, 0, .w1c, 0⟩], false⟩,
  ⟨.DIE_EDGE_OVER_LINK_HI, 0x100432C, [(72, 0x10000)], [⟨31, 0, .w1c, 0⟩], false⟩,
  ⟨.DIE_RT_DEF, 0x1004400, [(72, 0x10000), (64, 0x4)], [⟨31, 0, .rt, 0⟩], true⟩,
  ⟨.DIE_RT_C0, 0x1005000, [(72, 0x10000), (2304, 0x4)], [⟨31, 0, .rt, 0⟩], true⟩,
  ⟨.DIE_XLT_SEL, 0x1007400, [(72, 0x10000)], [⟨31, 31, .rw, 0⟩, ⟨30, 28, .rw, 0⟩, ⟨13, 0, .rw, 0⟩], false⟩,
  ⟨.DIE_XLT_DATA, 0x1007404, [(72, 0x10000)], [⟨15, 15, .ro, 0⟩, ⟨13, 0, .ro, 0⟩], true⟩,
  ⟨.DIE_CORE_CTL, 0x1008000, [(72, 0x10000), (8, 0x1000), (16, 0x100)], [⟨31, 31, .rwo, 0⟩, ⟨1, 1, .rw, 0⟩, ⟨0, 0, .rwl, 0⟩], false⟩,
  ⟨.DIE_CORE_STAT, 0x1008004, [(72, 0x10000), (8, 0x1000), (16, 0x100)], [⟨31, 28, .ro, 0⟩, ⟨27, 24, .ro, 0⟩, ⟨23, 20, .ro, 0⟩, ⟨19, 15, .ro, 0⟩], true⟩,
  ⟨.DIE_CORE_PROG, 0x1008008, [(72, 0x10000), (8, 0x1000), (16, 0x100), (4, 0x4)], [⟨30, 16, .rwl, 0⟩, ⟨13, 0, .rwl, 0⟩], false⟩,
  ⟨.DIE_CORE_PC_LM, 0x1008018, [(72, 0x10000), (8, 0x1000), (16, 0x100)], [⟨29, 16, .ro, 0⟩, ⟨13, 0, .ro, 0⟩], true⟩,
  ⟨.DIE_CORE_PC_VS, 0x100801C, [(72, 0x10000), (8, 0x1000), (16, 0x100)], [⟨29, 16, .ro, 0⟩, ⟨13, 0, .ro, 0⟩], true⟩,
  ⟨.DIE_CORE_SAT, 0x1008020, [(72, 0x10000), (8, 0x1000), (16, 0x100)], [⟨31, 0, .clr, 0⟩], false⟩,
  ⟨.DIE_CORE_TRAP, 0x1008024, [(72, 0x10000), (8, 0x1000), (16, 0x100)], [⟨31, 31, .w1c, 0⟩, ⟨30, 28, .ro, 0⟩, ⟨27, 26, .ro, 0⟩, ⟨13, 0, .ro, 0⟩], false⟩,
  ⟨.DIE_CORE_TRAP_TICK, 0x1008028, [(72, 0x10000), (8, 0x1000), (16, 0x100)], [⟨31, 0, .ro, 0⟩], false⟩,
  ⟨.DIE_CORE_SIG, 0x100802C, [(72, 0x10000), (8, 0x1000), (16, 0x100)], [⟨23, 0, .ro, 0⟩], true⟩,
  ⟨.DIE_CORE_SIG_HI, 0x1008030, [(72, 0x10000), (8, 0x1000), (16, 0x100)], [⟨23, 0, .ro, 0⟩], true⟩]

def regsDie : List RegDesc := regsDie0 ++ regsDie1

/-- Registers of the TABLE block. -/
def regsTable : List RegDesc := [
  ⟨.REQ_TABLE, 0x2000000, [(131072, 0x80), (32, 0x4)], [⟨31, 0, .ent, 0⟩], false⟩,
  ⟨.PAGE_MAP, 0x3000000, [(1048576, 0x8), (2, 0x4)], [⟨31, 0, .ro, 0⟩], false⟩,
  ⟨.TENANT_CFG0, 0x3800000, [(4096, 0x20), (8, 0x4)], [⟨31, 0, .ten, 0⟩], false⟩,
  ⟨.TENANT_CFG1, 0x3820000, [(4096, 0x20), (8, 0x4)], [⟨31, 0, .ten, 0⟩], false⟩,
  ⟨.TENANT_STATE, 0x3840000, [(4096, 0x20), (8, 0x4)], [⟨31, 0, .ro, 0⟩], false⟩]

/-- The registers of the block that holds an address (R28); none in the reserved ranges. -/
def blockRegs (a : Nat) : List RegDesc :=
  if a < 0x10000 then regsIdent
  else if a < 0x20000 then regsBeat
  else if a < 0x30000 then regsEvc
  else if a < 0x40000 then regsSage
  else if a < 0x50000 then regsPwr
  else if a < 0x60000 then regsFwu
  else if a < 0x70000 then regsTrust
  else if a < 0x100000 then regsLoad
  else if a < 0x500000 then regsPart
  else if a < 0x600000 then regsReq
  else if a < 0x700000 then regsLink
  else if a < 0x790000 then regsBay
  else if 0x1000000 ≤ a ∧ a < 0x1480000 then regsDie
  else if 0x2000000 ≤ a ∧ a < 0x4000000 then regsTable
  else []

/-- Indices of an offset in nested dimensions, if the offset is exactly an instance. -/
def dimIdx : List (Nat × Nat) → Nat → Option (List Nat)
  | [], 0 => some []
  | [], _ + 1 => none
  | (n, st) :: r, off =>
    if off / st < n then (dimIdx r (off % st)).map (fun l => off / st :: l) else none

/-- The first register of a list that an address is an instance of, with its indices. -/
def findIn : List RegDesc → Nat → Option (RegDesc × List Nat)
  | [], _ => none
  | d :: r, a =>
    if a < d.base then findIn r a
    else match dimIdx d.dims (a - d.base) with
      | some ix => some (d, ix)
      | none => findIn r a

/-- The register at an address. -/
def findReg (a : Nat) : Option (RegDesc × List Nat) := findIn (blockRegs a) a

/-- The reset value of a register's fields (R11). -/
def resetOf (fs : List FieldDesc) : Nat := fs.foldl (fun n f => n + f.reset * 2 ^ f.lo) 0

/-- What a control-space word that nothing has changed reads as: its register's reset value. -/
def resetWord (a : Nat) : Word :=
  match findReg a with
  | some (d, _) => BitVec.ofNat 32 (resetOf d.fields)
  | none => 0

end Sys2Proof.Machine
end

