-- ==== Sys2Proof/Machine/CpMap.lean ====
section
/-!
DEFINITION. The control page of a core (05_scratchpad R162 to R171): offsets within the page, fields, access codes and
reset values. `FieldRef.addr` is here an offset in the page.
-/

namespace Sys2Proof.Machine

/-- Names of the registers of the control page. -/
inductive CpReg where
  | SPC_REGION | SPC_WIN_BASE | SPC_WIN_LIMIT | SPC_WIN_CTL | SPC_CTL | SPC_DROPS | SPC_CNTERR | SPC_ECC_CNT | SPC_ECC_LAST | SPC_ECC_LAST_TICK | SPC_LAND_LAST | SPC_LAND_LAST_TICK | SPC_PATROL | SPC_CNT_EN_LO | SPC_CNT_EN_HI | SPC_CNT | SPC_CNT_INIT
  deriving DecidableEq, Repr

/-- SPC_REGION (R163). -/
def SPC_REGION (i : Nat) : Nat := 0x0 + 0x4 * i
def SPC_REGION_valid (i : Nat) : FieldRef := ⟨SPC_REGION i, 31, 1⟩
def SPC_REGION_hashed (i : Nat) : FieldRef := ⟨SPC_REGION i, 30, 1⟩
def SPC_REGION_wro (i : Nat) : FieldRef := ⟨SPC_REGION i, 29, 1⟩
def SPC_REGION_limit (i : Nat) : FieldRef := ⟨SPC_REGION i, 12, 12⟩
def SPC_REGION_base (i : Nat) : FieldRef := ⟨SPC_REGION i, 0, 12⟩
/-- SPC_WIN_BASE (R164). -/
def SPC_WIN_BASE (i : Nat) : Nat := 0x40 + 0x10 * i
def SPC_WIN_BASE_base (i : Nat) : FieldRef := ⟨SPC_WIN_BASE i, 0, 17⟩
/-- SPC_WIN_LIMIT (R164). -/
def SPC_WIN_LIMIT (i : Nat) : Nat := 0x44 + 0x10 * i
def SPC_WIN_LIMIT_limit (i : Nat) : FieldRef := ⟨SPC_WIN_LIMIT i, 0, 17⟩
/-- SPC_WIN_CTL (R164). -/
def SPC_WIN_CTL (i : Nat) : Nat := 0x48 + 0x10 * i
def SPC_WIN_CTL_open (i : Nat) : FieldRef := ⟨SPC_WIN_CTL i, 31, 1⟩
def SPC_WIN_CTL_weights (i : Nat) : FieldRef := ⟨SPC_WIN_CTL i, 26, 1⟩
def SPC_WIN_CTL_sage (i : Nat) : FieldRef := ⟨SPC_WIN_CTL i, 25, 1⟩
def SPC_WIN_CTL_link (i : Nat) : FieldRef := ⟨SPC_WIN_CTL i, 24, 1⟩
def SPC_WIN_CTL_intake (i : Nat) : FieldRef := ⟨SPC_WIN_CTL i, 23, 1⟩
def SPC_WIN_CTL_host (i : Nat) : FieldRef := ⟨SPC_WIN_CTL i, 22, 1⟩
def SPC_WIN_CTL_count (i : Nat) : FieldRef := ⟨SPC_WIN_CTL i, 6, 1⟩
def SPC_WIN_CTL_counter (i : Nat) : FieldRef := ⟨SPC_WIN_CTL i, 0, 6⟩
/-- SPC_CTL (R165). -/
def SPC_CTL : Nat := 0xC0
def SPC_CTL_lock : FieldRef := ⟨SPC_CTL, 31, 1⟩
/-- SPC_DROPS (R166). -/
def SPC_DROPS : Nat := 0xC4
def SPC_DROPS_out_of_window : FieldRef := ⟨SPC_DROPS, 16, 16⟩
def SPC_DROPS_read_only : FieldRef := ⟨SPC_DROPS, 0, 16⟩
/-- SPC_CNTERR (R166). -/
def SPC_CNTERR : Nat := 0xC8
def SPC_CNTERR_disabled : FieldRef := ⟨SPC_CNTERR, 16, 16⟩
def SPC_CNTERR_overflow : FieldRef := ⟨SPC_CNTERR, 0, 16⟩
/-- SPC_ECC_CNT (R167). -/
def SPC_ECC_CNT : Nat := 0xCC
def SPC_ECC_CNT_uncorrected : FieldRef := ⟨SPC_ECC_CNT, 16, 16⟩
def SPC_ECC_CNT_corrected : FieldRef := ⟨SPC_ECC_CNT, 0, 16⟩
/-- SPC_ECC_LAST (R167). -/
def SPC_ECC_LAST : Nat := 0xD0
def SPC_ECC_LAST_valid : FieldRef := ⟨SPC_ECC_LAST, 31, 1⟩
def SPC_ECC_LAST_patrol : FieldRef := ⟨SPC_ECC_LAST, 30, 1⟩
def SPC_ECC_LAST_word : FieldRef := ⟨SPC_ECC_LAST, 27, 3⟩
def SPC_ECC_LAST_row : FieldRef := ⟨SPC_ECC_LAST, 0, 17⟩
/-- SPC_ECC_LAST_TICK (R167). -/
def SPC_ECC_LAST_TICK : Nat := 0xD4
def SPC_ECC_LAST_TICK_tick : FieldRef := ⟨SPC_ECC_LAST_TICK, 0, 32⟩
/-- SPC_LAND_LAST (R168). -/
def SPC_LAND_LAST : Nat := 0xD8
def SPC_LAND_LAST_valid : FieldRef := ⟨SPC_LAND_LAST, 31, 1⟩
def SPC_LAND_LAST_cause : FieldRef := ⟨SPC_LAND_LAST, 28, 3⟩
def SPC_LAND_LAST_writer : FieldRef := ⟨SPC_LAND_LAST, 25, 3⟩
def SPC_LAND_LAST_counter : FieldRef := ⟨SPC_LAND_LAST, 17, 6⟩
def SPC_LAND_LAST_row : FieldRef := ⟨SPC_LAND_LAST, 0, 17⟩
/-- SPC_LAND_LAST_TICK (R168). -/
def SPC_LAND_LAST_TICK : Nat := 0xDC
def SPC_LAND_LAST_TICK_tick : FieldRef := ⟨SPC_LAND_LAST_TICK, 0, 32⟩
/-- SPC_PATROL (R169). -/
def SPC_PATROL : Nat := 0xE0
def SPC_PATROL_enable : FieldRef := ⟨SPC_PATROL, 31, 1⟩
def SPC_PATROL_passes : FieldRef := ⟨SPC_PATROL, 0, 16⟩
/-- SPC_CNT_EN_LO (R170). -/
def SPC_CNT_EN_LO : Nat := 0xE8
def SPC_CNT_EN_LO_enable : FieldRef := ⟨SPC_CNT_EN_LO, 0, 32⟩
/-- SPC_CNT_EN_HI (R170). -/
def SPC_CNT_EN_HI : Nat := 0xEC
def SPC_CNT_EN_HI_enable : FieldRef := ⟨SPC_CNT_EN_HI, 0, 32⟩
/-- SPC_CNT (R171). -/
def SPC_CNT (i : Nat) : Nat := 0x100 + 0x4 * i
def SPC_CNT_value (i : Nat) : FieldRef := ⟨SPC_CNT i, 0, 24⟩
/-- SPC_CNT_INIT (R171). -/
def SPC_CNT_INIT (i : Nat) : Nat := 0x200 + 0x4 * i
def SPC_CNT_INIT_init (i : Nat) : FieldRef := ⟨SPC_CNT_INIT i, 0, 24⟩

/-- A control-page register with its base, its dimensions and its fields. -/
structure CpDesc where
  reg : CpReg
  base : Nat
  dims : List (Nat × Nat)
  fields : List FieldDesc
  deriving DecidableEq, Repr

def cpRegs : List CpDesc := [
  ⟨.SPC_REGION, 0x0, [(16, 0x4)], [⟨31, 31, .rwl, 0⟩, ⟨30, 30, .rwl, 0⟩, ⟨29, 29, .rwl, 0⟩, ⟨23, 12, .rwl, 0⟩, ⟨11, 0, .rwl, 0⟩]⟩,
  ⟨.SPC_WIN_BASE, 0x40, [(8, 0x10)], [⟨16, 0, .rw, 0⟩]⟩,
  ⟨.SPC_WIN_LIMIT, 0x44, [(8, 0x10)], [⟨16, 0, .rw, 0⟩]⟩,
  ⟨.SPC_WIN_CTL, 0x48, [(8, 0x10)], [⟨31, 31, .rw, 0⟩, ⟨26, 26, .rw, 0⟩, ⟨25, 25, .rw, 0⟩, ⟨24, 24, .rw, 0⟩, ⟨23, 23, .rw, 0⟩, ⟨22, 22, .rw, 0⟩, ⟨6, 6, .rw, 0⟩, ⟨5, 0, .rw, 0⟩]⟩,
  ⟨.SPC_CTL, 0xC0, [], [⟨31, 31, .rwo, 0⟩]⟩,
  ⟨.SPC_DROPS, 0xC4, [], [⟨31, 16, .clr, 0⟩, ⟨15, 0, .clr, 0⟩]⟩,
  ⟨.SPC_CNTERR, 0xC8, [], [⟨31, 16, .clr, 0⟩, ⟨15, 0, .clr, 0⟩]⟩,
  ⟨.SPC_ECC_CNT, 0xCC, [], [⟨31, 16, .clr, 0⟩, ⟨15, 0, .clr, 0⟩]⟩,
  ⟨.SPC_ECC_LAST, 0xD0, [], [⟨31, 31, .w1c, 0⟩, ⟨30, 30, .ro, 0⟩, ⟨29, 27, .ro, 0⟩, ⟨16, 0, .ro, 0⟩]⟩,
  ⟨.SPC_ECC_LAST_TICK, 0xD4, [], [⟨31, 0, .ro, 0⟩]⟩,
  ⟨.SPC_LAND_LAST, 0xD8, [], [⟨31, 31, .w1c, 0⟩, ⟨30, 28, .ro, 0⟩, ⟨27, 25, .ro, 0⟩, ⟨22, 17, .ro, 0⟩, ⟨16, 0, .ro, 0⟩]⟩,
  ⟨.SPC_LAND_LAST_TICK, 0xDC, [], [⟨31, 0, .ro, 0⟩]⟩,
  ⟨.SPC_PATROL, 0xE0, [], [⟨31, 31, .rw, 1⟩, ⟨15, 0, .clr, 0⟩]⟩,
  ⟨.SPC_CNT_EN_LO, 0xE8, [], [⟨31, 0, .rwl, 0⟩]⟩,
  ⟨.SPC_CNT_EN_HI, 0xEC, [], [⟨31, 0, .rwl, 0⟩]⟩,
  ⟨.SPC_CNT, 0x100, [(64, 0x4)], [⟨23, 0, .rw, 0⟩]⟩,
  ⟨.SPC_CNT_INIT, 0x200, [(64, 0x4)], [⟨23, 0, .rwl, 0⟩]⟩]

/-- The control-page register at an offset, with its index. -/
def findCpIn : List CpDesc → Nat → Option (CpDesc × List Nat)
  | [], _ => none
  | d :: r, a =>
    if a < d.base then findCpIn r a
    else match dimIdx d.dims (a - d.base) with
      | some ix => some (d, ix)
      | none => findCpIn r a

def findCp (a : Nat) : Option (CpDesc × List Nat) := findCpIn cpRegs a

/-- What a control-page word that nothing has changed reads as. -/
def cpResetWord (a : Nat) : Word :=
  match findCp a with
  | some (d, _) => BitVec.ofNat 32 (resetOf d.fields)
  | none => 0

end Sys2Proof.Machine
end

