-- ==== Sys2Proof/Machine/State.lean ====
section
/-!
DEFINITION. The state of the module: every register, memory, queue and mode the spec gives it, as plain data. Sparse
memories and the control space are in the canonical form of `wrAt`; record tables are keyed lists in rising order.
`INVENTORY.md` names for each field the rule that gives it.
-/

namespace Sys2Proof.Machine

/-- A row of a stage buffer that is not free (R79): pending when the data is absent, valid when it is there. -/
structure SbRow where
  data : Option Row
  deriving DecidableEq, Repr

/-- An entry of the result queue: 64 elements and their reference exponent (R119). -/
structure RqEntry where
  ref : Nat
  elems : List Int
  deriving DecidableEq, Repr

/-- An accumulator: 64 INT32 elements and the reference exponent (R116). -/
structure Acc where
  ref : Nat
  elems : List Int
  deriving DecidableEq, Repr

/-- An open loop (R76): first and last word of the body and the runs still to come after this one. -/
structure LoopFrame where
  first : Nat
  last : Nat
  left : Nat
  deriving DecidableEq, Repr

/-- One engine (R72 to R76, R90). `ready` is the cycle in which the occupancy of its last instruction has elapsed,
`heldSum` the cycles of this beat in which it was held (R47), `heldAt` and `heldFor` the first cycle and the length of the last
hold within an instruction (R149, R153), `out` whether its region kept it from beginning the beat (R104). -/
structure Eng where
  areg : List (Nat × AReg)
  wamt : Nat
  pc : Nat
  loops : List LoopFrame
  ready : Nat
  heldSum : Nat
  heldAt : Nat
  heldFor : Nat
  eob : Bool
  eobAt : Nat
  trapped : Bool
  out : Bool
  residue : Bool
  deriving DecidableEq, Repr

/-- Who writes a row into a core through its landing path (R156, R168). -/
inductive Writer where
  | core | host | intake | link | sage | loader
  deriving DecidableEq, Repr

/-- The effects that reach their place some cycles after the issue (R75). `readEnd` is the end of a local read of the load
engine (R84): nothing else changes with it. `areg` writes a field of an address register, `carry` says whether a VQNT gives
the carry on (R121), `collect` appends to the scale collector and `emptied` empties it (R97), `tag` sets the standby tag (R369). -/
inductive Eff where
  | areg (e : Engine) (r lo len v : Nat)
  | wamt (e : Engine) (v : Nat)
  | pad (e : Option Engine) (row : Nat) (d : Row)
  | sb (i : Nat) (d : Row)
  | sbFree (i : Nat)
  | rqPush (q : RqEntry)
  | rqSpace
  | xqPush (d : Row)
  | xqSpace (n : Nat)
  | sig (i : Nat) (n : Nat)
  | cnt (n row : Nat) (w : Writer)
  | x (chunk : Nat) (d : BitVec 256)
  | xptr (v : Nat)
  | acc (a : Nat) (t : List Int)
  | scale (rows : List Row)
  | vreg (r : Nat) (v : VReg)
  | carry (c : Word) (chain : Bool)
  | collect (l : List Byte)
  | emptied
  | tally (n : Nat)
  | tagFree (i : Nat)
  | tag (epoch : Nat)
  | winCtl (w : Nat) (v : Word)
  | readEnd
  deriving DecidableEq, Repr

/-- An effect and the first cycle that sees it. The list of a core is in rising order of `due`, effects of one cycle
in the order of their issue, so the later-issued one prevails (R75). -/
structure Pend where
  due : Nat
  eff : Eff
  deriving DecidableEq, Repr

/-- A bank access granted (R152): cycle, bank and the place of its claimant in the order of R152. -/
structure Claim where
  cycle : Nat
  bank : Nat
  prio : Nat
  deriving DecidableEq, Repr

/-- A row an access claims: its physical row, its place in the instruction, its bank. -/
structure Want where
  row : Nat
  pos : Nat
  bank : Nat
  deriving DecidableEq, Repr

/-- What an access does with its rows: LDA, LDL and LDS with the stage-buffer row of each, MXL, MMA with its operand but
for the image, MSCW, VLD, the writes of VST, MDR, VQNT and VSCS, the sends, SEMT. -/
inductive RowUse where
  | areg (r word : Nat)
  | stage (targets : List Nat)
  | xstore (first : Nat)
  | image (acc : Nat) (o : Operand)
  | scale
  | vec (r : Nat)
  | write (rows : List (Nat × Row))
  | send (n : Nat)
  | token (word : Nat)
  deriving DecidableEq, Repr

/-- An access under way (R153): the cycle of its next claim, the claim cycles still to come with their rows, the rows
read, and the cycles from its last claim to its effect. -/
structure Run where
  eng : Engine
  next : Nat
  period : Nat
  groups : List (List Want)
  got : List (Nat × Row)
  use : RowUse
  lat : Nat
  deriving DecidableEq, Repr

/-- A row waiting in the landing buffer (R155). -/
structure Landing where
  row : Nat
  data : Row
  writer : Writer
  counter : Nat
  since : Nat
  op : Nat := 0
  deriving DecidableEq, Repr

/-- A remote tag in use (R87): the engine that holds it, the word of its instruction, the stage-buffer row of its first
row, the rows asked for and those still outstanding. -/
structure Tag where
  engine : Engine
  pc : Nat
  sb : Nat
  rows : Nat
  left : Nat
  deriving DecidableEq, Repr

/-- Upset words of a stored row. -/
structure Mark where
  words : List Nat
  fatal : List Nat
  deriving DecidableEq, Repr

/-- A weight range of a core with its shadow range and selector (R247, R369); without shadow ranges it never flips. -/
structure WRange where
  first : Nat
  rows : Nat
  shadow : Nat
  home : Nat
  flipped : Bool
  deriving DecidableEq, Repr

/-- Packet kinds of R180. -/
inductive Kind where
  | write | readReq | readReply | bayWrite | bayAck | control | controlReply
  deriving DecidableEq, Repr

/-- A packet in flight (R180). `due` is the earliest cycle of its arrival (R174, R177), `fails` the CRC failures on the crossing
`failKey` it last failed at (R181), `total` the rows of its instruction, `writer` the unit behind source 0x3FFF, `enter` the die
at which a Bay's or an I/O die's packet enters the carrier: none for a packet of a core or of the steward, `late` a row whose
claim on the scratchpad is still to come (R153), `path` the dies of its route with the cycles in which it enters their routers
(R187), `seqs` its sequence numbers on the lanes between them, `op` the cycle in which its SWB or LDB issued, which tells the uses
of one tag apart (R204, R212). -/
structure Packet where
  cls : Nat
  kind : Kind
  part : Nat
  source : Nat
  node : Nat
  core : Nat
  page : Nat
  row : Nat
  counter : Nat
  tag : Nat
  rows : Nat
  total : Nat
  writer : Writer
  data : Row
  due : Nat
  fails : Nat
  failKey : Nat := 0
  enter : Option Nat := none
  late : Bool := false
  path : List (Nat × Nat) := []
  seqs : List Nat := []
  op : Nat := 0
  deriving DecidableEq, Repr

/-- A remote read that a core serves (R177): its request, the next row to claim, the cycle of that claim, and the claims that
the row has lost. -/
structure RemoteRead where
  request : Packet
  row : Nat
  next : Nat
  lost : Nat
  deriving DecidableEq, Repr

/-- One core (R72). `beat` is the cycle in which its working beat began, `prog` the word offset of the beat's programs
(R126), `x4` and `x8` the activation exponents taken for the beat (R117), `runs` the accesses to the scratchpad that have
claims still to make (R153), `claims` the claims granted, `inject` the first cycle in which the send engine no longer holds
the injection port (R87), `serves` the remote reads it serves (R177), `froze` the cycle in which its freeze began (R102), `fixes`
the rows that the patrol of a bank has corrected and not written back (R151), `fill` the epoch of a fill of its standby ranges that
runs and the rows it still wants (R370). -/
structure Core where
  le : Eng
  me : Eng
  ve : Eng
  se : Eng
  inBeat : Bool
  beat : Nat
  prog : Nat
  sb : List (Nat × SbRow)
  rq : List RqEntry
  rqUsed : Nat
  xq : List Row
  xqUsed : Nat
  sig : List (Nat × Nat)
  xstore : List (Nat × BitVec 256)
  xptr : Nat
  acc : List (Nat × Acc)
  scale : List Row
  sptr : Nat
  vreg : List (Nat × VReg)
  carry : Word
  collector : List Byte
  tally : Nat
  x4 : Nat
  x8 : Nat
  tags : List (Nat × Tag)
  pend : List Pend
  runs : List Run
  claims : List Claim
  inject : Nat
  serves : List RemoteRead
  froze : Nat
  fixes : List (Nat × Nat)
  landing : List Landing
  pad : List Host.Cell
  marks : List (Nat × Mark)
  patrol : List (Nat × Nat)
  imem : List (Nat × DWord)
  cp : List (Nat × Word)
  ranges : List WRange
  standby : Option Nat
  fill : Option (Nat × Nat)
  deriving DecidableEq, Repr

/-- An engine after a core reset (R101). -/
def Eng.reset : Eng :=
  { areg := [], wamt := 1, pc := 0, loops := [], ready := 0, heldSum := 0, heldAt := 0, heldFor := 0, eob := false,
    eobAt := 0, trapped := false, out := false, residue := false }

/-- A core after start-up has cleared it (R517). -/
def Core.reset : Core :=
  { le := Eng.reset, me := Eng.reset, ve := Eng.reset, se := Eng.reset, inBeat := false, beat := 0, prog := 0,
    sb := [], rq := [], rqUsed := 0, xq := [], xqUsed := 0, sig := [], xstore := [], xptr := 0, acc := [], scale := [],
    sptr := 0, vreg := [], carry := 0, collector := [], tally := 0, x4 := 0, x8 := 0, tags := [], pend := [],
    runs := [], claims := [], inject := 0, serves := [], froze := 0, fixes := [], landing := [], pad := [], marks := [], patrol := [], imem := [], cp := [],
    ranges := [], standby := none, fill := none }

/-- A watcher part on its way to the watch unit, or kept there: `due` is the earliest cycle of its arrival (R130). -/
structure Part130 where
  part : Nat
  stage : Nat
  logical : Nat
  seq : Nat
  slot : Nat
  sum : Word
  tally : Nat
  beat : Nat
  issued : Nat
  due : Nat
  deriving DecidableEq, Repr

/-- A snapshot of the inventory flags that a default table was computed from (R185): bit masks of the usable dies, Bays
and I/O dies; none where no table has been installed. -/
structure FlagSnap where
  dies : Nat
  bays : Nat
  ios : Nat
  deriving DecidableEq, Repr

/-- One bank of a die's default table: the snapshot the steward computed it from and the entries written since. -/
structure DefBank where
  snap : Option FlagSnap
  ovr : List (Nat × Byte)
  deriving DecidableEq, Repr

/-- The in-memory inventory record (R24). Masks and flags not listed are those of a good unit; counts are derived. -/
structure Inv where
  grade : Nat
  serial : DWord
  delivered : Nat
  sequence : Nat
  good : List (Nat × Nat)
  failed : List (Nat × Nat)
  dieFlags : List (Nat × Nat)
  bayFlags : List (Nat × Nat)
  ioFlags : List (Nat × Nat)
  portFlags : List (Nat × Nat)
  deriving DecidableEq, Repr

/-- A flash slot as it stands (R24, R25): the record in it, the three counts stored beside its masks, and whether magic,
version and CRC are right. -/
structure InvSlot where
  record : Inv
  mappable : Nat
  failed : Nat
  reserve : Nat
  crcOk : Bool
  deriving DecidableEq, Repr

/-- A frame sent on a connection and not acknowledged, with the times it has been sent and the
partition on whose behalf it goes (R437, R396). -/
structure Unacked where
  frame : Frame
  sends : Nat
  owner : Option Nat := none
  deriving DecidableEq, Repr

/-- A frame that waits to be sent: the partition on whose behalf it goes, and whether it takes its number as it leaves, which
it has already where it is sent again (R433, R437). -/
structure Queued where
  owner : Option Nat
  frame : Frame
  fresh : Bool
  deriving DecidableEq, Repr

/-- A connection (R436, R437): version, bed of the peer, sequence numbers, frames received since the last ACK, frames
unacknowledged and frames held beyond 512. -/
structure Conn where
  version : Nat
  bed : Nat
  nextTx : Nat
  nextRx : Nat
  since : Nat
  unacked : List Unacked
  held : List Queued
  deriving DecidableEq, Repr

/-- Where a port stands in its training (R429): down and not training, training, waiting to train again, trained in a
mode and waiting for lock, up. -/
inductive PortPhase where
  | off | training | waiting | trained (mode : Nat) | up
  deriving DecidableEq, Repr

/-- A port: its phase, the priorities paused by the peer, those for which XOFF is out, and frames waiting for egress. -/
structure Port where
  phase : PortPhase
  paused : Nat
  xoff : Nat
  egress : List Queued
  deriving DecidableEq, Repr

def Port.reset : Port := { phase := .off, paused := 0, xoff := 0, egress := [] }

/-- A frame received and accepted, waiting for the command of its kind. -/
structure Rx where
  port : Nat
  frame : Frame
  deriving DecidableEq, Repr

/-- State of the time slave (R443, R444): consecutive marks within and above 20 ns, marks since the last exchange and
the last BEDSYNC edge, the difference of the master's tick number, and the master it has heard from. -/
structure SyncSt where
  good : Nat
  bad : Nat
  missed : Nat
  noEdge : Nat
  diff : Int
  fresh : Bool
  master : Option Nat
  deriving DecidableEq, Repr

def SyncSt.reset : SyncSt := { good := 0, bad := 0, missed := 0, noEdge := 0, diff := 0, fresh := true, master := none }

/-- What a TLT frame carries before its payload (R431, R432, R434): MAC addresses, VLAN id and PCP of the tag, EtherType, and the 32
bytes of the TLT header. -/
structure WireHead where
  dst : Nat
  src : Nat
  vid : Nat
  pcp : Nat
  etype : Nat
  header : List Byte
  deriving DecidableEq, Repr

/-- What the module sends out (log entry 2). -/
inductive Emission where
  | readData (acc addr : Nat) (value : Word)
  | pageData (acc : Nat) (bytes : List Byte)
  | msix (fn vector addr data : Nat)
  | pin (name : String) (level : Bool)
  | hostWrite (module fn addr : Nat) (words : List Word)
  | frame (port : Nat) (head : WireHead) (f : Frame)
  | pfc (port prio : Nat) (pause : Bool)
  | service (status : Nat) (payload : List Byte)
  | tcp (accepted : Bool)
  | config (fn : Nat) (retry : Bool)
  | jtag (tdo : Bool)
  deriving DecidableEq, Repr

/-- A step in flight of a request (R287): its number, whether it is a chunk, whether it yields token records, and the `k`
that stands for 0 in them (R315), and its positions, which a later bound counts (R310). -/
structure Flight where
  step : Nat
  chunk : Bool
  yields : Bool
  k0 : Nat
  size : Nat
  deriving DecidableEq, Repr

/-- What the engine keeps of a request beside its entry: the exact sum of its debits in 1/256 unit (R302), its steps in
flight, whether it holds pages and the counts of R304, the peer word (R342), and the shipping outcome that waits for
the next planning boundary: 1 complete, 2 fall back (R347, R349), 3 fall back with no answer due. -/
structure ReqSt where
  debit : Nat
  flights : List Flight
  pages : Bool
  admitted : Bool
  outcome : Nat
  since : Nat
  deriving DecidableEq, Repr

def ReqSt.reset : ReqSt := { debit := 0, flights := [], pages := false, admitted := false, outcome := 0, since := 0 }

/-- A reserved step (R311): request, target plan, beats, chunk or decode, its first own prompt position (chunk), slots,
the bound on its context, and the read records still to write as (plan, part, first position, positions). -/
structure Resv where
  req : Nat
  step : Nat
  m : Nat
  chunk : Bool
  from_ : Nat
  slots : Nat
  bound : Nat
  parts : List (Nat × Nat × Nat × Nat)
  deriving DecidableEq, Repr

/-- A delivery record (R455) without its phase: window, word, host_tag, emit tick. -/
structure OutRec where
  window : Nat
  word : Nat
  hostTag : Nat
  tick : Nat
  deriving DecidableEq, Repr

/-- An output window (R455, R456, R462): ring address, size code, open, records written, and the host's consumer index as
last read. -/
structure Window where
  base : Nat
  size : Nat
  isOpen : Bool
  prod : Nat
  cons : Nat
  deriving DecidableEq, Repr

def Window.reset : Window := { base := 0, size := 0, isOpen := false, prod := 0, cons := 0 }

/-- A prefix handle (R337). -/
structure Pfx where
  owner : Nat
  destroying : Bool
  shared : Bool
  model : Nat
  epoch : Nat
  positions : Nat
  head : Nat
  pages : Nat
  key : Nat
  queued : Nat
  refs : Nat
  deriving DecidableEq, Repr

/-- An epoch of an adapter handle (R374, R376): number, first slot, pages, rank, refs, and whether it is resident. -/
structure AdpEpoch where
  epoch : Nat
  head : Nat
  pages : Nat
  rank : Nat
  refs : Nat
  resident : Bool
  deriving DecidableEq, Repr

/-- An adapter handle (R374): its owner, the model id it is made for, the current epoch, and the two epoch slots. -/
structure Adp where
  owner : Nat
  model : Nat
  removing : Bool
  force : Bool
  cur : Nat
  slot0 : Option AdpEpoch
  slot1 : Option AdpEpoch
  deriving DecidableEq, Repr

/-- A shipment being sent (R343): number, peer module and request, the next group, whether OPEN is unanswered, and the
mark count of the last message received. -/
structure ShipOut where
  ship : Nat
  module : Nat
  peer : Nat
  group : Nat
  opened : Bool
  since : Nat
  deriving DecidableEq, Repr

/-- A shipment being received (R346, R347): number, sender, its request, pages, parity slot, the group, the messages got as
2048 * shard + offset / 128, the tick from which the group's wait counts, the NACKs sent, the OPEN's payload. -/
structure ShipIn where
  ship : Nat
  module : Nat
  sreq : Nat
  pages : Nat
  parity : Nat
  group : Nat
  got : List Nat
  first : Option Nat
  nacks : Nat
  done : Bool
  start : List Byte
  deriving DecidableEq, Repr

/-- The other side of a shipment: module, its request, the shipment number (R344). -/
structure ShipPeer where
  module : Nat
  req : Nat
  ship : Nat
  deriving DecidableEq, Repr

/-- An OPEN that waits for a parity slot (R346): partition, request, module and message. -/
structure ShipWait where
  part : Nat
  req : Nat
  module : Nat
  message : List Byte
  deriving DecidableEq, Repr

/-- A page move in progress (R218). -/
structure Move where
  slot : Nat
  old : Nat
  new : Nat
  deriving DecidableEq, Repr

/-- One Bay (R200 to R219): memory, owner entries, the pages returned since the last compute reset (most recent
first), the lowest page never taken since, pages above it that a move has taken, the rows of each SWB already written,
the row marks, the patrol position, the rows patrolled and copied in their last tick, the move in progress, and the tick
of the last refresh. -/
structure Bay where
  mem : List Host.Cell
  owner : List (Nat × Half)
  returned : List Nat
  fresh : Nat
  taken : List Nat
  written : List (Nat × Nat)
  dead : List (Nat × Nat)
  marks : List (Nat × Mark)
  patrol : Nat
  patrolTick : Nat
  patrolled : Nat
  copyTick : Nat
  copied : Nat
  move : Option Move
  refreshed : Option Nat
  deriving DecidableEq, Repr

def Bay.reset : Bay :=
  { mem := [], owner := [], returned := [], fresh := 0, taken := [], written := [], dead := [], marks := [], patrol := 0,
    patrolTick := 0, patrolled := 0, copyTick := 0, copied := 0, move := none,
    refreshed := none }

/-- A page on its way back to a free stack (R216): release points still to come, the cycle of the
last one counted, and whether the mover, not a FREE, gave the page up. -/
structure Retiring where
  bay : Nat
  page : Nat
  part : Nat
  left : Nat
  last : Nat
  mover : Bool
  deriving DecidableEq, Repr

/-- A report on its way to Sage (R463, R492). `unit` is the die, Bay, port or control core where no core is named. -/
structure Report where
  cls : Nat
  stamp : Nat
  part : Option Nat
  core : Option Nat
  unit : Nat
  logical : Option Nat
  detail : Nat
  page : Nat
  patrol : Bool
  deriving DecidableEq, Repr

/-- What interval a partition is in (R46). -/
inductive Interval where
  | none | working | rest | hold
  deriving DecidableEq, Repr

/-- A token record in the emit gate with the core that gave it (R468). -/
structure GateRec where
  core : Nat
  word : DWord
  deriving DecidableEq, Repr

/-- A working beat whose tokens are not yet released (R52, R469): its number since the start, the tick it began in, its step
(R289), whether it is a B beat, whether it ran at half pace, its records and its fault set. -/
structure BeatRec where
  index : Nat
  start : Nat
  step : Nat
  second : Bool
  half : Bool
  gate : List GateRec
  faults : List Report
  deriving DecidableEq, Repr

/-- A core under probe in a restart or a die restore (R476): the class of its report, its logical id, the cycle its probe
ends, its verdict once there (true is a pass), the place in its SPARE record of the candidate taken, that candidate's
core, the cycle its reload ends, and whether the routes have been switched and the reload is done. -/
structure Probe where
  core : Nat
  cls : Nat
  logical : Option Nat
  ends : Nat
  verdict : Option Bool
  cand : Nat
  spare : Option Nat
  reload : Nat
  swapped : Bool
  reloaded : Bool
  deriving DecidableEq, Repr

/-- A restart in progress (R474): the cycle of A, whether the drain has ended, the probes, the cycle in which the routes of its
remaps switch (R478), and the beats to replay. -/
structure Restart where
  a : Nat
  drained : Bool
  probes : List Probe
  swapAt : Option Nat
  beats : List (Nat × Bool)
  deriving DecidableEq, Repr

/-- An entry of the weight manifest (R247). -/
structure WEntry where
  logical : Nat
  first : Nat
  rows : Nat
  shadow : Nat
  home : Nat
  deriving DecidableEq, Repr

/-- The weight manifest (R247). -/
structure Wman where
  model : Nat
  epoch : Nat
  shared : Bool
  shadowed : Bool
  rows : Nat
  entries : List WEntry
  deriving DecidableEq, Repr

/-- A class 0 flow (R186, R243). -/
structure Flow where
  source : Nat
  dest : Nat
  rows : Nat
  path : Nat
  hops : Nat
  set : Nat
  deriving DecidableEq, Repr

/-- A candidate for a placed logical id (R245). -/
structure Cand where
  kind : Nat
  set : Nat
  target : Nat
  deriving DecidableEq, Repr

/-- A spare-map record (R245). -/
structure SpareRec where
  logical : Nat
  cands : List Cand
  deriving DecidableEq, Repr

/-- A move of a fold plan (R246). -/
structure FoldMove where
  source : Nat
  target : Nat
  first : Nat
  rows : Nat
  deriving DecidableEq, Repr

/-- A fold plan of a die (R246). -/
structure Fold where
  die : Nat
  set : Nat
  moves : List FoldMove
  overrides : List (Nat × Nat)
  deriving DecidableEq, Repr

/-- The serving settings (R249). -/
structure Serve where
  slots : Nat
  chunkMax : Nat
  lookahead : Nat
  span : Nat
  stageIn : Nat
  stageOut : Nat
  watch : Nat
  kvRows : Nat
  spanPos : Nat
  deriving DecidableEq, Repr

/-- A record of the CORE section (R238). -/
structure CoreRec where
  image : Nat
  stage : Nat
  conf : Nat
  prog : List Word
  deriving DecidableEq, Repr

/-- What the module keeps of a loaded layout (R229 to R259): stage and core counts, the logical core count N, the FRAME
clusters with their counts, the retained stream, the sections by type (offset and size), the PAGES lists, and the parsed
records. -/
structure Layout where
  version : Nat
  stages : Nat
  cores : Nat
  total : Nat
  frame : List (Nat × Nat)
  src : Nat
  len : Nat
  secs : List (Nat × Nat × Nat)
  recs : List CoreRec
  images : List (Nat × Nat)
  pages : List Nat
  serve : Serve
  wman : Option Wman
  home : Option Nat
  flows : List Flow
  spares : List SpareRec
  folds : List Fold
  flowSet : Nat
  deriving DecidableEq, Repr

/-- A weight job (R365 to R373): its op (0 for phase 5 of a LOAD), the copy it builds, its source, the group being fetched
and those after it, the peer asked, the failed requests of the group, the 128-row units received, the parity rows
received, and the tick of the group's last message. -/
structure WgtJob where
  op : Nat
  home : Nat
  source : Nat
  homeOnly : Bool
  group : Nat
  left : List Nat
  peer : Nat
  tries : Nat
  got : List Nat
  par : List (Nat × Row)
  since : Nat
  ready : Bool
  deriving DecidableEq, Repr

/-- A swap wave (R370): the step of its first flip, once its planning boundary has come, and the next stage to flip. -/
structure Wave where
  step : Option Nat
  stage : Nat
  deriving DecidableEq, Repr

/-- State of a partition that is no register: the interval (R46), the cycle it began in, whether the sequencer has found
it ended (R48), an overrun (R49), the rest pattern (R50), the hold (R51) and whether it waits for a flip (R371), half pace (R129), the stats window (R57), the
beats whose tokens are not released, newest first (R469), the logical ids and stages, the replay and restart (R470 to
R474), the steps begun, the occupied slots of plans (R289, R307) and the plan rows on their way to their page (R306: the cycle from
which they stand there, slot, row, data), reserved steps (R311), the effective read allowance and
index and directory records (R324, R351, R381), the delivery queue (R456), the last beat evaluated (R131), the number and step of the
last A beat (R129), a watcher replay that is to begin (R135), the writes of μ that wait for an evaluation (R141), the ticks of
recipe requests (R128), core symptoms that fault no beat (R472), the dies it is stalled for and whether its beat was
abandoned for it (R482, R485), the die it is folded for, the recipes and the placed ids from before (R483, R484) and
whether it is to unfold, the modules whose bridge
waits for its reset (R401), and the cycle before which a hard reset does not end (R394). -/
structure PartSt where
  interval : Interval
  began : Nat
  ended : Bool
  overrun : Bool
  rest : Nat
  restIdx : Nat
  restNew : Bool
  owed : Nat
  holdClr : Option Nat
  flipHold : Bool
  second : Bool
  winEnd : Nat
  beats : List BeatRec
  logical : List (Nat × Nat)
  stageOf : List (Nat × Nat)
  replay : List (Nat × Bool)
  replays : Nat
  restart : Option Restart
  recent : List Report
  excused : List (Nat × Nat × Nat)
  drain : Option Nat
  layout : Option Layout
  wgt : Option WgtJob
  staged : Option Nat
  wave : Option Wave
  steps : Nat
  plans : List (Nat × Nat)
  planRows : List (Nat × Nat × Nat × Nat)
  resvs : List Resv
  allow : Nat
  kvRec : Nat
  adpRec : Nat
  outq : List OutRec
  evaluated : Nat
  pairA : Option (Nat × Nat)
  nwReplay : Bool
  means : List (Nat × Word)
  recReq : List (Nat × Nat)
  symptoms : List Report
  stall : List Nat
  lost : Bool
  folded : Option Nat
  foldRec : List (Nat × Nat)
  foldIds : List (Nat × Nat)
  unfold : Bool
  rstFor : List Nat
  rstDue : Nat
  deriving DecidableEq, Repr

def PartSt.reset : PartSt :=
  { interval := .none, began := 0, ended := false, overrun := false, rest := 0, restIdx := 0, restNew := false, owed := 0
    holdClr := none, flipHold := false, second := false, winEnd := 0, beats := [], logical := [], stageOf := [], replay := [], replays := 0
    restart := none, recent := [], excused := [], drain := none, layout := none, wgt := none, staged := none, wave := none
    steps := 0, plans := [], planRows := [], resvs := [], allow := 0, kvRec := 0, adpRec := 0, outq := [], evaluated := 0, pairA := none, nwReplay := false, means := []
    recReq := []
    symptoms := [], stall := [], lost := false, folded := none, foldRec := [], foldIds := [], unfold := false, rstFor := [], rstDue := 0 }

/-- A home copy in the Bays (R358, R359): identity, rows, the first slot of its page list, owner, and its marks. A copy
under construction is not `complete`. -/
structure Home where
  model : Nat
  epoch : Nat
  rows : Nat
  head : Nat
  owner : Nat
  shared : Bool
  damaged : Bool
  complete : Bool
  deriving DecidableEq, Repr

/-- The loader's job (R254 to R261): its partition, the code it will end with, the section and record concerned, the good
masks of the FRAME clusters as checked, the layout it has bound, the lists it has allocated, the home copy it builds,
the words RELOC patches, and
the LOAD_CHAN writes that wait for its end. -/
structure Job where
  op : Nat
  part : Nat
  code : Nat
  section_ : Nat
  record : Nat
  masks : List (Nat × Nat)
  layout : Option Layout
  lists : List Nat
  newHome : Option Nat
  patches : List (Nat × Nat)
  chan : List (Nat × Word)
  deriving DecidableEq, Repr

/-- A weight request from a peer (R366): module, job, model, epoch, group, and the copy that answers it. -/
structure Serving where
  module : Nat
  job : Nat
  model : Nat
  epoch : Nat
  group : Nat
  home : Nat
  deriving DecidableEq, Repr

/-- An entry of a control core's stack above the base (R412): its source and its priority at the claim; `gone` once a
partition reset has withdrawn the source (R395). -/
structure StackEnt where
  source : Nat
  prio : Nat
  gone : Bool
  deriving DecidableEq, Repr

/-- What the event controller decides on in a cycle: the levels seen, the stacks, the stopped cores and its registers as they stood at
the start of the cycle (R411). -/
structure EvcView where
  seen : Nat
  stks : List (Nat × List StackEnt)
  stopped : List Nat
  regs : List (Nat × Word)
  deriving DecidableEq, Repr

/-- The event controller beside its registers: masks over the 1,024 sources of the levels seen (R411) and of the sources
host-deliverable when last looked at (R418); the stacks without their base, top first; re-entries since the last mark
(R417); end-of-interrupts that wait (R416); control cores stopped (R481); masks over the pins of the input levels, the
filtered levels and the filters that run (R419); the cycle in which something of it last changed, and the view at its start. -/
structure Evc where
  seen : Nat
  hostSent : Nat
  stks : List (Nat × List StackEnt)
  reentry : List (Nat × Nat)
  eois : List (Nat × Nat)
  stopped : List Nat
  pinIn : Nat
  pinFilt : Nat
  pinRuns : Nat
  was : Option (Nat × EvcView)
  deriving DecidableEq, Repr

def Evc.reset : Evc :=
  { seen := 0, hostSent := 0, stks := [], reentry := [], eois := [], stopped := [], pinIn := 0xFF, pinFilt := 0, pinRuns := 0, was := none }

/-- An entry of a function's MSI-X table (R418, R450): address, data, mask bit, and the source whose message is pending. -/
structure MsixEnt where
  addr : Nat
  data : Nat
  masked : Bool
  pend : Option Nat
  deriving DecidableEq, Repr

def MsixEnt.reset : MsixEnt := { addr := 0, data := 0, masked := true, pend := none }

/-- A function of the endpoint (R446, R450, R452): its configuration bits, MSI-X table entries (address, data, masked,
pending source), and its command window: bytes written by offset, rows complete that wait for earlier posted writes with the
first access number they do not wait for (R449), rows counted and not taken, records taken, the taken record that waits for
its result, the completion ring, and the writes discarded. -/
structure PciFn where
  memEn : Bool
  master : Bool
  msixEn : Bool
  msixMask : Bool
  msix : List (Nat × MsixEnt)
  bytes : List (Nat × Byte)
  waiting : List (Nat × Nat)
  counted : List Nat
  taken : Nat
  busy : Option (List Byte)
  cq : Nat
  cqSet : Bool
  errors : Nat
  deriving DecidableEq, Repr

def PciFn.reset : PciFn :=
  { memEn := false, master := false, msixEn := false, msixMask := false, msix := [], bytes := [], waiting := [], counted := []
    taken := 0, busy := none, cq := 0, cqSet := false, errors := 0 }

/-- An access forwarded over TLT that waits for its reply (R447 to R449): number, accessor, address the host asked for, module,
whether it is a PAGE, whether it is a write, the offset within the module's control space, and the bytes asked for. -/
structure Fwd where
  tag : Nat
  acc : Nat
  addr : Nat
  module : Nat
  page : Bool
  write : Bool
  off : Nat
  bytes : Nat
  deriving DecidableEq, Repr

/-- A write of rows to a core for the data aperture that has not been acknowledged (R449): its number, the module it came from, the
partition and the number that the module gave it. -/
structure PageAck where
  op : Nat
  module : Nat
  part : Nat
  tag : Nat
  deriving DecidableEq, Repr

/-- The host bridge (R445 to R461): data-aperture entries, functions, reads under way, the next number of one, and the VFs
whose function reset has its partition's answer (R401), the memory enable of the virtual functions, and the writes to cores that
have not been acknowledged. -/
structure Hb where
  aper : List (Nat × DWord)
  fns : List (Nat × PciFn)
  fwds : List Fwd
  nextTag : Nat
  flrDone : List Nat
  vfMem : Bool
  acks : List PageAck
  deriving DecidableEq, Repr

def Hb.reset : Hb := { aper := [], fns := [], fwds := [], nextTag := 0, flrDone := [], vfMem := false, acks := [] }

/-- Sage beside its registers: fault records written (R492), the mark of each control core's last mismatch and the control cores
that stay stopped (R481). -/
structure SageSt where
  seq : Nat
  cc : List (Nat × Nat)
  dead : List Nat
  deriving DecidableEq, Repr

/-- A compute die's part in a switch-off (R482, R485, R508, R509): why it is flagged or off (4 heat, 5 rail, 6 clock; 0
not), the tick of the flag, the cycle it went off, the marks of its switch-offs for heat, and the marks it has been cool. -/
structure DieSt where
  cause : Nat
  flagged : Option Nat
  offAt : Nat
  heat : List Nat
  cool : Nat
  deriving DecidableEq, Repr

def DieSt.reset : DieSt := { cause := 0, flagged := none, offAt := 0, heat := [], cool := 0 }

/-- Power (R494 to R509): supplies valid, PWR_EN, the inhibit, whether a power-up may begin, the brake's partitions, the
thermal rest values of the Bays, the dies, the cause of the last stop (0 none, 1 PWR_EN, 2 another), the last mark worked
plus one, whether r_cap falls after a brake, and the levels last driven on MOD_READY_N, MOD_FAULT_N, THERM_WARN_N and
BEDSYNC_OUT (true where driven to its active level). -/
structure Pwr where
  main : Bool
  aux : Bool
  en : Bool
  inhibit : Bool
  armed : Bool
  braked : List Nat
  bayRth : List (Nat × Nat)
  dies : List (Nat × DieSt)
  stop : Nat
  marked : Nat
  decay : Bool
  ready : Bool
  fault : Bool
  therm : Bool
  bedOut : Bool
  deriving DecidableEq, Repr

def Pwr.reset : Pwr :=
  { main := false, aux := false, en := false, inhibit := false, armed := false, braked := [], bayRth := [], dies := []
    stop := 0, marked := 0, decay := false, ready := false, fault := false, therm := false, bedOut := false }

/-- What a bank's header and body come to (R529, R530): `code` is 0, or the first of codes 0x01, 0x02, 0x05 to 0x08 that the
bouquet fails whatever the module. -/
structure Bank where
  code : Nat
  product : Nat
  grades : Nat
  stepping : Nat
  rollback : Nat
  version : Nat
  schema : Nat
  dilMin : Nat
  dilMax : Nat
  tlt : Nat
  digest : List Byte
  deriving DecidableEq, Repr

/-- A transfer over the service port (R533): 1 offered, 2 signed, 3 body under way; the header's bytes and the body so far. -/
structure Transfer where
  stage : Nat
  bank : Bank
  length : Nat
  header : List Byte
  body : List Byte
  deriving DecidableEq, Repr

/-- A settings record (R538): schema version, sequence, and values by key. -/
structure SetRec where
  schema : Nat
  seq : Nat
  vals : List (Nat × List Byte)
  deriving DecidableEq, Repr

/-- An activation or a fall-back under way (R534, R537): its target bank; whether it waits for a non-volatile write; whether
the holds are set. -/
structure Activation where
  target : Nat
  back : Bool
  waits : Bool
  deriving DecidableEq, Repr

/-- Flash and fuses (R25, R528, R531, R538, R541 to R543): inventory slots (none where a slot is blank), banks, the boot record, whether the inactive bank is
staged, settings records with
the older one kept until confirmation, the rollback floor, and the reserved ends of the attestation keys. -/
structure Flash where
  inv0 : Option InvSlot
  inv1 : Option InvSlot
  bankA : Option Bank
  bankB : Option Bank
  confirmed : Nat
  provisional : Option Nat
  staged : Bool
  settings : SetRec
  older : Option SetRec
  floor : Nat
  keyEnd : Nat
  keyNo : Nat
  idEnd : Nat
  cert : List Byte
  deriving DecidableEq, Repr

/-- Firmware and trust beside their registers: the bank that runs, the settings in force and those whose write waits, the service
port, a transfer, an activation, the marks since a provisional period began, loader and weight jobs that wait for the
end of a pause, quotes that wait (nonce, and whether the service port asked), the one being signed (its body), a power cap that
waits for the next mark, a key being made, the next attestation index, and the last quote. -/
structure Fw where
  running : Nat
  settings : SetRec
  link : Bool
  conn : Bool
  transfer : Option Transfer
  act : Option Activation
  paused : Bool
  since : Nat
  confirmWaits : Bool
  jobs : List (Nat × Nat)
  quotes : List (List Byte × Bool)
  signing : Option (List Byte × Bool)
  capDue : Option Nat
  newKey : Bool
  index : Nat
  quote : List Byte
  ip : List Byte
  deriving DecidableEq, Repr

/-- States of the TAP controller of IEEE 1149.1 (R556). -/
inductive Tap where
  | reset | idle | selDr | capDr | shiftDr | exit1Dr | pauseDr | exit2Dr | updDr | selIr | capIr | shiftIr | exit1Ir
  | pauseIr | exit2Ir | updIr
  deriving DecidableEq, Repr

/-- The TAP (R556): state, instruction (0 BYPASS, 1 IDCODE, 2 and 3 boundary scan with and without driving the pins), the
shift registers (bits, next out first), and the boundary cells driven. -/
structure Jtag where
  tap : Tap
  ir : Nat
  irShift : List Bool
  shift : List Bool
  cells : List Bool
  deriving DecidableEq, Repr

/-- The record delivered in flash (log entry 5): every core, die, Bay, I/O die and port good. -/
def Inv.factory : Inv :=
  { grade := 0x41, serial := 0, delivered := 8640, sequence := 0, good := [], failed := [], dieFlags := [], bayFlags := []
    ioFlags := [], portFlags := [] }

/-- The bouquet delivered in bank A (log entry 5). -/
def Bank.factory : Bank :=
  { code := 0, product := 0x96, grades := 3, stepping := 0, rollback := 0, version := 0x01000000, schema := 1, dilMin := 2
    dilMax := 3, tlt := 7, digest := [] }

def Flash.factory : Flash :=
  { inv0 := some ⟨Inv.factory, 8640, 0, 576, true⟩, inv1 := none, bankA := some Bank.factory, bankB := none, confirmed := 0, provisional := none, staged := false
    settings := ⟨1, 0, []⟩, older := none, floor := 0, keyEnd := 0, keyNo := 0, idEnd := 0, cert := [] }

def Fw.reset : Fw :=
  { running := 0, settings := ⟨1, 0, []⟩, link := false, conn := false, transfer := none, act := none
    paused := false, since := 0, confirmWaits := false, jobs := [], quotes := [], signing := none, capDue := none, newKey := false, index := 0, quote := [], ip := [] }

def Jtag.reset : Jtag := { tap := .reset, ir := 1, irShift := [], shift := [], cells := [] }


/-- What has happened to control-space words in one cycle (R10): bits that hardware set and amounts that it counted, by
address, and the writes to words with w1s bits, in order, each with the word as it stood. -/
structure Now where
  cycle : Nat
  set : List (Nat × Word)
  asked : List (Nat × Word × Word)
  deriving DecidableEq, Repr

/-- Turn of a partition with a share at an arbiter (R390): the grants since its turn began and those it got. -/
structure Turn where
  grants : Nat
  got : Nat
  deriving DecidableEq, Repr

/-- The state of the module. `now` is the model's own record of the present cycle, from which R10 is decided. -/
structure State where
  pending : List Instr
  outbox : List Emission
  oracle : Nat
  tick : Nat
  cycle : Nat
  ctl : List (Nat × Word)
  banked : List (Nat × Word)
  latches : List (Nat × Word)
  inv : Option Inv
  parts : List (Nat × PartSt)
  cores : List (Nat × Core)
  net : List Packet
  lanes : List (Nat × Nat)
  watch : List Part130
  rtDef : List (Nat × DefBank)
  xlat : List (Nat × List (Nat × Nat))
  credits : List (Nat × Int)
  ovr : List Nat
  overAt : List (Nat × Nat)
  turns : List (Nat × Turn)
  rotors : List (Nat × Nat)
  classTurn : List (Nat × Nat)
  bays : List (Nat × Bay)
  retiring : List Retiring
  reports : List Report
  homes : List (Nat × Home)
  job : Option Job
  serving : List Serving
  wreqs : List Serving
  ports : List (Nat × Port)
  conns : List (Nat × Conn)
  rx : List Rx
  frameNo : List (Nat × Nat)
  seen : List (Nat × Nat × Nat)
  sync : SyncSt
  reqs : List (Nat × ReqSt)
  tenants : List (Nat × Nat)
  tenHeld : List Nat
  windows : List (Nat × Window)
  bridge : Option Nat
  pfxs : List (Nat × Pfx)
  adps : List (Nat × Adp)
  peers : List (Nat × Word)
  shipNo : Nat
  shipOut : List (Nat × ShipOut)
  shipIn : List (Nat × ShipIn)
  shipWait : List ShipWait
  kept : List Part130
  evc : Evc
  hb : Hb
  sage : SageSt
  pwr : Pwr
  flash : Flash
  fw : Fw
  jtag : Jtag
  now : Now
  deriving DecidableEq, Repr

/-- Faults of the model: none of the spec's commands ends the machine without an effect, so no step raises one. -/
inductive Fault where
  /-- Raised by nothing: kept so that the type is a closed inductive. Safe. -/
  | none
  deriving DecidableEq, Repr

/-- Refusals of the model. -/
inductive Refusal where
  /-- A command that has no meaning yet, by its mnemonic. Safe. -/
  | notModelled (mnemonic : String)
  /-- An engine operation whose word spells another operation or breaks R78: undefined as an instruction, and no loader
  lets it reach an engine. Safe. -/
  | undefinedWord
  deriving DecidableEq, Repr

def State.reset : State :=
  { pending := [], outbox := [], oracle := 0, tick := 0, cycle := 0, ctl := [], banked := [], latches := [],
    inv := none, parts := [], cores := [], net := [], lanes := [], watch := [], rtDef := [], xlat := [], credits := [], ovr := [], overAt := [], turns := []
    rotors := [], classTurn := [], bays := [], retiring := [], reports := [], homes := [], job := none, serving := [], wreqs := [], ports := [], conns := [], rx := [],
    frameNo := [], seen := [], sync := SyncSt.reset, reqs := [], tenants := [], tenHeld := [], windows := [], bridge := none,
    pfxs := [], adps := [], peers := [], shipNo := 0, shipOut := [], shipIn := [], shipWait := [], kept := []
    evc := Evc.reset, hb := Hb.reset, sage := ⟨0, [], []⟩, pwr := Pwr.reset, flash := Flash.factory, fw := Fw.reset, jtag := Jtag.reset
    now := ⟨0, [], []⟩ }

end Sys2Proof.Machine
end

