-- ==== Sys2Proof/Machine/Ops.lean ====
section
/-!
DEFINITION. The named operations over State that every family shares: control-space words and fields, the keyed
records, counters, reports to Sage, free values, the clock, the inventory's counts and the partitions' core sets.
-/

namespace Sys2Proof.Machine

/-- The control-space word of a register whose home is the control space. -/
def State.rd (s : State) (a : Nat) : Word := rdAt resetWord s.ctl a

def State.wr (s : State) (a : Nat) (v : Word) : State := { s with ctl := wrAt resetWord s.ctl a v }

/-- A field of a register. -/
def State.get (s : State) (f : FieldRef) : Nat := bits (s.rd f.addr) f.lo f.len

def State.on (s : State) (f : FieldRef) : Bool := s.get f != 0

def State.set (s : State) (f : FieldRef) (v : Nat) : State := s.wr f.addr (setBits (s.rd f.addr) f.lo f.len v)

def State.setOn (s : State) (f : FieldRef) (b : Bool) : State := s.set f (b2n b)

/-! ### What happens in one cycle (R10) -/

/-- The record of the present cycle; that of an earlier one is over. -/
def State.present (s : State) : Now := if s.now.cycle = s.cycle then s.now else ⟨s.cycle, [], []⟩

/-- Hardware has set bits of a word, or counted in it, in the present cycle: the word's record becomes `g` of what it was. -/
def State.strike (s : State) (a : Nat) (g : Word → Word) : State :=
  { s with now := { s.present with set := put s.present.set a (g (lookupD 0 s.present.set a)) } }

/-- Bits of a word that hardware has set, and amounts that it has counted there, in the present cycle. -/
def State.struck (s : State) (a : Nat) : Word := lookupD 0 s.present.set a

/-- A write of the present cycle to a word with bits that a write sets (w1s). -/
def State.ask (s : State) (a : Nat) (w : Word) : State :=
  { s with now := { s.present with asked := s.present.asked ++ [(a, w, s.rd a)] } }

/-- A write of the present cycle that sets one field of a word. -/
def State.askFor (s : State) (f : FieldRef) : State := s.ask f.addr (setBits 0 f.lo f.len 1)

/-- The last write of the present cycle that set the field while it was set: its action runs, and is asked for again. -/
def State.askedWord (s : State) (f : FieldRef) : Option Word :=
  (s.present.asked.reverse.find? (fun e => e.1 == f.addr && bits e.2.1 f.lo f.len != 0 && bits e.2.2 f.lo f.len != 0)).map (·.2.1)

def State.asked (s : State) (f : FieldRef) : Bool := (s.askedWord f).isSome

/-- A count kept beside the control space, under its own key past the control space's addresses: the same for it. -/
def State.counts (s : State) (key n : Nat) : State := s.strike key (fun w => BitVec.ofNat 32 (satAdd 32 w.toNat n))

/-- A bit that hardware sets: a write of this cycle does not clear it (R10). -/
def State.raise (s : State) (f : FieldRef) : State :=
  (s.setOn f true).strike f.addr (fun w => setBits w f.lo f.len 1)

/-- A w1c bit that a write clears, unless hardware has set it in this cycle (R10). -/
def State.clear (s : State) (f : FieldRef) : State := if bits (s.struck f.addr) f.lo f.len != 0 then s else s.setOn f false

/-- A w1s bit that hardware clears when its action ends: a write of this cycle that set it once more leaves it set, and the action
starts again (R9, R10). -/
def State.done (s : State) (f : FieldRef) : State := if s.asked f then s else s.setOn f false

/-- A count that saturates at its largest value; what it counts in the cycle of a clearing write stays (R10, R38). -/
def State.bump (s : State) (f : FieldRef) (n : Nat) : State :=
  (s.set f (satAdd f.len (s.get f) n)).strike f.addr (fun w => setBits w f.lo f.len (satAdd f.len (bits w f.lo f.len) n))

/-- A count that wraps. -/
def State.incr (s : State) (f : FieldRef) : State := s.set f (s.get f + 1)

/-- Hardware sets bit `i` of a register at an address. -/
def State.setBit (s : State) (a i : Nat) : State :=
  (s.wr a (setBits (s.rd a) i 1 1)).strike a (fun w => setBits w i 1 1)

def State.clrBit (s : State) (a i : Nat) : State := s.wr a (setBits (s.rd a) i 1 0)

def State.bitOn (s : State) (a i : Nat) : Bool := (s.rd a).getLsbD i

/-- A value held in a _LO and _HI pair. -/
def State.pair (s : State) (lo hi : Nat) : Nat := (s.rd lo).toNat + 2 ^ 32 * (s.rd hi).toNat

def State.setPair (s : State) (lo hi v : Nat) : State :=
  (s.wr lo (BitVec.ofNat 32 v)).wr hi (BitVec.ofNat 32 (v >>> 32))

def State.core (s : State) (p : Nat) : Core := lookupD Core.reset s.cores p

def State.setCore (s : State) (p : Nat) (c : Core) : State := { s with cores := put s.cores p c }

def State.onCore (s : State) (p : Nat) (f : Core → Core) : State := s.setCore p (f (s.core p))

def State.part (s : State) (n : Nat) : PartSt := lookupD PartSt.reset s.parts n

def State.setPart (s : State) (n : Nat) (q : PartSt) : State := { s with parts := put s.parts n q }

def State.onPart (s : State) (n : Nat) (f : PartSt → PartSt) : State := s.setPart n (f (s.part n))

def State.bay (s : State) (b : Nat) : Bay := lookupD Bay.reset s.bays b

def State.setBay (s : State) (b : Nat) (y : Bay) : State := { s with bays := put s.bays b y }

def State.onBay (s : State) (b : Nat) (f : Bay → Bay) : State := s.setBay b (f (s.bay b))

def State.emit (s : State) (e : Emission) : State := { s with outbox := s.outbox ++ [e] }

/-- A free value (log entry 1): the number drawn and the state with the draw counter advanced. -/
def State.draw (s : State) : Nat × State := (Config.freeNat s.oracle, { s with oracle := s.oracle + 1 })

/-- A report raised to Sage, waiting for SAGE_REPORT (R463). -/
def State.report (s : State) (r : Report) : State := { s with reports := s.reports ++ [r] }

/-- Low 32 bits of the present tick, as stamps in 32-bit registers hold it (R55). -/
def State.stamp (s : State) : Nat := s.tick % 2 ^ 32

/-- First cycle of the tick after the present one. -/
def State.tickEnd (s : State) : Nat := (s.cycle / 256 + 1) * 256

/-- The clock moved to a cycle of the present tick; it never moves back. -/
def State.at (s : State) (t : Nat) : State := { s with cycle := if s.cycle < t then t else s.cycle }

/-- Whether the tick counter runs (R41). -/
def State.running (s : State) : Bool := s.on BEAT_TICK_CTL_run

/-- A tick is at or after a 32-bit swap tick (R192). -/
def State.atOrAfter (s : State) (v : Nat) : Bool := decide ((s.tick + 2 ^ 32 - v % 2 ^ 32) % 2 ^ 32 < 2 ^ 31)

/-- Record in a register pair whose bit 31 is `valid`, if no earlier record is held: the first-event registers. -/
def State.recordFirst (s : State) (a v : Nat) : State :=
  if s.bitOn a 31 then s else (s.wr a (BitVec.ofNat 32 (2 ^ 31 + v % 2 ^ 31))).strike a (fun w => setBits w 31 1 1)

/-! ## Inventory (R21 to R26) -/

def popcount (len w : Nat) : Nat := (List.range len).foldl (fun n i => n + field w i 1) 0

def Inv.goodMask (v : Inv) (g : Nat) : Nat := lookupD 0xFFFF v.good g

def Inv.failedMask (v : Inv) (g : Nat) : Nat := lookupD 0 v.failed g

/-- die_flags: columns 0 and 7 have a Bay controller (R24). -/
def Inv.dieFlag (v : Inv) (d : Nat) : Nat := lookupD (if d % 8 = 0 ∨ d % 8 = 7 then 7 else 3) v.dieFlags d

def Inv.bayFlag (v : Inv) (b : Nat) : Nat := lookupD 1 v.bayFlags b

def Inv.ioFlag (v : Inv) (k : Nat) : Nat := lookupD 1 v.ioFlags k

def Inv.portFlag (v : Inv) (p : Nat) : Nat := lookupD 0xF v.portFlags p

def Inv.isGood (v : Inv) (p : Nat) : Bool := decide (p < 9216) && (v.goodMask (p / 16)).testBit (p % 16)

def Inv.isFailed (v : Inv) (p : Nat) : Bool := decide (p < 9216) && (v.failedMask (p / 16)).testBit (p % 16)

/-- Mappable count of a cluster, min(g, 15) (R21). -/
def Inv.mapCount (v : Inv) (g : Nat) : Nat := min (popcount 16 (v.goodMask g)) 15

/-- Module counts of R21: mappable, reserve, failed in service. -/
def Inv.mappable (v : Inv) : Nat := (List.range 576).foldl (fun n g => n + v.mapCount g) 0

def Inv.reserve (v : Inv) : Nat := (List.range 576).foldl (fun n g => n + b2n (v.goodMask g == 0xFFFF)) 0

def Inv.failedCount (v : Inv) : Nat := (List.range 576).foldl (fun n g => n + popcount 16 (v.failedMask g)) 0

/-- The slot that a record is written to flash as (R24). -/
def Inv.stored (v : Inv) : InvSlot := ⟨v, v.mappable, v.failedCount, v.reserve, true⟩

/-- A slot holds a valid record (R24): its CRC is right, its counts agree with its masks, and no core is both good and
failed. -/
def InvSlot.valid (x : InvSlot) : Bool :=
  x.crcOk && x.mappable == x.record.mappable && x.failed == x.record.failedCount && x.reserve == x.record.reserve &&
    (List.range 576).all (fun g => x.record.goodMask g &&& x.record.failedMask g == 0)

/-- The record that a slot holds, if it is valid. -/
def storedRecord (x : Option InvSlot) : Option Inv := (x.filter InvSlot.valid).map (·.record)

/-- Good cores of a cluster in ascending id (R22). -/
def Inv.goodCores (v : Inv) (g : Nat) : List Nat :=
  ((List.range 16).filter (fun i => (v.goodMask g).testBit i)).map (fun i => 16 * g + i)

/-- Marking of a core failed in service (R25): from good_mask to failed_mask, sequence up by one. A core outside
good_mask stays as it is (R26). -/
def Inv.markFailed (v : Inv) (p : Nat) : Inv :=
  if v.isGood p then
    { v with
      good := put v.good (p / 16) (v.goodMask (p / 16) - 2 ^ (p % 16))
      failed := put v.failed (p / 16) (v.failedMask (p / 16) ||| 2 ^ (p % 16))
      sequence := (v.sequence + 1) % 2 ^ 32 }
  else v

/-- Snapshot of the flags that routes depend on (R185). -/
def Inv.snap (v : Inv) : FlagSnap :=
  { dies := (List.range 72).foldl (fun n d => n + b2n ((v.dieFlag d).testBit 1) * 2 ^ d) 0
    bays := (List.range 18).foldl (fun n d => n + b2n ((v.bayFlag d).testBit 0) * 2 ^ d) 0
    ios := (List.range 8).foldl (fun n d => n + b2n ((v.ioFlag d).testBit 0) * 2 ^ d) 0 }

/-- The record's registers of R37, filled while IDENT_INV_STAT.valid is set. -/
def State.showInv (s : State) : State :=
  match s.inv with
  | some v =>
    ((((s.set IDENT_INV_CORES_delivered v.delivered).set IDENT_INV_CORES_mappable v.mappable).set
      IDENT_INV_SPARE_failed v.failedCount).set IDENT_INV_SPARE_reserve v.reserve).set IDENT_INV_SEQ_sequence v.sequence
  | none => s

/-- A core marked failed in service: the in-memory record at once, pending until the flash holds it (R25). -/
def State.markFailed (s : State) (p : Nat) : State :=
  match s.inv with
  | some v =>
    if v.isGood p then
      ((({ s with inv := some (v.markFailed p) }).setOn IDENT_INV_STAT_pending true).showInv).setBit EVC_DEV_LATCH 2
    else s
  | none => s

def State.isGood (s : State) (p : Nat) : Bool :=
  match s.inv with
  | some v => v.isGood p
  | none => false

/-- A die's routers and lanes are usable (die_flags[1]). -/
def State.dieUsable (s : State) (d : Nat) : Bool :=
  match s.inv with
  | some v => decide (d < 72) && (v.dieFlag d).testBit 1
  | none => false

def State.bayUsable (s : State) (b : Nat) : Bool :=
  match s.inv with
  | some v => decide (b < 18) && (v.bayFlag b).testBit 0
  | none => false

/-! ## Partitions and their cores -/

/-- Whether a partition's resource record holds a global cluster (R384). -/
def State.holdsCluster (s : State) (n g : Nat) : Bool := s.bitOn (PART_RES_CL n (g / 32)) (g % 32)

/-- The enabled partition that owns a cluster (R385). -/
def State.clusterOwner (s : State) (g : Nat) : Option Nat :=
  firstFrom (fun n => s.on (PART_RES_CTL_enable n) && s.holdsCluster n g) 0 64

def State.ownerOfCore (s : State) (p : Nat) : Option Nat := s.clusterOwner (p / 16)

/-- The clusters of a partition, ascending. -/
def State.clusters (s : State) (n : Nat) : List Nat := (List.range 576).filter (fun g => s.holdsCluster n g)

/-- Every physical core of a partition. -/
def State.partCores (s : State) (n : Nat) : List Nat :=
  (s.clusters n).flatMap (fun g => (List.range 16).map (fun i => 16 * g + i))

/-- The logical id a core holds, if any. -/
def State.logicalOf (s : State) (n p : Nat) : Option Nat :=
  ((s.part n).logical.find? (fun e => e.2 == p)).map (·.1)

def State.physOf (s : State) (n l : Nat) : Option Nat := lookup? (s.part n).logical l

/-- The core of a logical id below the N of the layout loaded (R440, R448). -/
def State.boundCore (s : State) (n l : Nat) : Option Nat :=
  match (s.part n).layout with
  | some lay => if lay.total ≤ l then none else s.physOf n l
  | none => none

/-- Cores that hold a placed logical id (R102.member). -/
def State.members (s : State) (n : Nat) : List Nat :=
  ((s.part n).logical.map (·.2)).filter (fun p => s.on (DIE_CORE_CTL_member p))

/-- Whether PART_EVT of a partition is held at 0 by a reset (R395). -/
def State.evtHeld (s : State) (n : Nat) : Bool := s.on (PART_RST_busy n) && decide (1 ≤ s.get (PART_RST_step n))

/-- An event source of a partition is raised (R391). -/
def State.partEvt (s : State) (n i : Nat) : State := if s.evtHeld n then s else s.setBit (PART_EVT n) i

/-- An event of a unit that the EVC latches (R410): 0 loader, 1 bridge, 2 inventory, 3 stuck. -/
def State.devLatch (s : State) (i : Nat) : State := s.setBit EVC_DEV_LATCH i

/-- The rails of a die's compute domain are on (R513). -/
def State.railsOn (s : State) (d : Nat) : Bool := s.on (DIE_PWR_CTL_compute d)

/-- Accessors of the control space (R32): 0 to 7 the control cores, 8 the physical function, 8 + v VF v, 265 + m the module m
that forwards over TLT. -/
def accessors : Nat := 33033

/-- Units with a temperature: kind 0 a die, 1 a Bay, 2 an I/O die, 3 the steward (R508). -/
def unitOk (kind unit : Nat) : Bool :=
  match kind with
  | 0 => decide (unit < 72)
  | 1 => decide (unit < 18)
  | 2 => decide (unit < 8)
  | _ => kind == 3

/-! ## Access to the control space (R221, R393, R461, R516) -/

/-- An address in a block of the compute domains. -/
def computeBlock (a : Nat) : Bool := decide (0x10000 ≤ a ∧ a < 0x20000) || decide (0x70000 ≤ a)

/-- Phase 6: the blocks of the compute domains answer. -/
def State.powered (s : State) : Bool := s.get IDENT_BOOT_phase == 6

/-- The partition whose reset, while it is busy, has writes to an address ignored (R393). -/
def resetGuard (a : Nat) : Option Nat :=
  if 0x11000 ≤ a ∧ a < 0x15000 then some ((a - 0x11000) / 0x100)
  else if 0x501000 ≤ a ∧ a < 0x505000 then some ((a - 0x501000) / 0x100)
  else if 0x100000 ≤ a ∧ a < 0x500000 then
    let o := (a - 0x100000) % 0x10000
    if o < 0x18 ∨ o = 0x20 ∨ o = 0x30 ∨ (0x80 ≤ o ∧ o < 0xC8) then none else some ((a - 0x100000) / 0x10000)
  else none

/-- Registers of an edge port that a die lacks (R198, 06_carrier_network above R192), by the offset in the die's block. -/
def noPort (d o : Nat) : Bool :=
  let bay := decide (0x4100 ≤ o ∧ o < 0x4200) || decide (0x4300 ≤ o ∧ o < 0x4310) || decide (0x4320 ≤ o ∧ o < 0x4328)
  let link := decide (0x4200 ≤ o ∧ o < 0x4300) || decide (0x4310 ≤ o ∧ o < 0x4320) || decide (0x4328 ≤ o ∧ o < 0x4330)
  (bay && !decide (d % 8 = 0 ∨ d % 8 = 7)) || (link && !decide (d < 8 ∨ 64 ≤ d))

/-- Registers that read as zero and ignore writes: those of a Bay that is not usable, except the map unit's, the bridge's on a
module that is none, those of a core that is not good and of an edge port that is not there (R102, R198, R221, R461). -/
def State.hidden (s : State) (a : Nat) : Bool :=
  let o := a % 0x10000
  let d := (a - 0x1000000) / 0x10000
  (decide (0x700000 ≤ a ∧ a < 0x790000) && !decide (0x707000 ≤ a ∧ a < 0x707014) && !s.bayUsable ((a - 0x700000) / 0x8000)) ||
    (decide (0x604304 ≤ a ∧ a < 0x604400) && !s.on LINK_HB_CTL_bridge) ||
    (decide (0x1000000 ≤ a ∧ a < 0x1480000) &&
      (noPort d o ||
        (decide (0x8000 ≤ o) && !s.isGood (128 * d + 16 * ((o - 0x8000) / 0x1000) + o % 0x1000 / 0x100))))

/-- A write that reaches a register: it takes effect, is ignored, or is counted as an access to a block that is off. -/
def State.writeAt (s : State) (a : Nat) (f : State → State) : State :=
  if computeBlock a && !s.powered then s.bump IDENT_ACC_ERR_reserved_hits 1
  else if s.hidden a || (resetGuard a).any (fun n => s.on (PART_RST_busy n)) then s
  else f s

end Sys2Proof.Machine
end

