-- ==== Sys2Proof/Machine/Network.lean ====
section
/-!
DEFINITION. The carrier network of 06_carrier_network: the lanes between dies, the default and class 0 route tables,
the walk of a packet through them, route latency, drops, edge credits and budgets, and the commands of its family.
-/

namespace Sys2Proof.Machine

/-! ## Lanes and routes -/

/-- The die that an output code 1 to 8 of a die leads to, if the lane exists (R172). -/
def neighbour (d code : Nat) : Option Nat :=
  let row := d / 8
  let col := d % 8
  match code with
  | 1 => if 1 ≤ row then some (d - 8) else none
  | 2 => if col < 7 then some (d + 1) else none
  | 3 => if row < 8 then some (d + 8) else none
  | 4 => if 1 ≤ col then some (d - 1) else none
  | 5 => if 3 ≤ row then some (d - 24) else none
  | 6 => if col + 3 < 8 then some (d + 3) else none
  | 7 => if row + 3 < 9 then some (d + 24) else none
  | 8 => if 3 ≤ col then some (d - 3) else none
  | _ => none

/-- The neighbours of a die in a set of dies. -/
def neighboursIn (dies d : Nat) : List Nat :=
  ((List.range 9).filterMap (neighbour d)).filter (fun x => dies.testBit x)

/-- Breadth-first layers from a die: the dies at each distance, at most eight crossings (R175, R185). -/
def layers (dies : Nat) : Nat → List Nat → Nat → List (List Nat)
  | 0, cur, _ => [cur]
  | k + 1, cur, seen =>
    let next := (cur.flatMap (neighboursIn dies)).foldl
      (fun (acc : List Nat × Nat) x => if acc.2.testBit x then acc else (acc.1 ++ [x], acc.2 + 2 ^ x)) ([], seen)
    cur :: layers dies k next.1 next.2

/-- Distance from each die to `dst` in the usable graph, if at most 8. -/
def distance (dies dst d : Nat) : Option Nat :=
  if dies.testBit dst then (layers dies 8 [dst] (2 ^ dst)).findIdx? (fun l => l.contains d) else none

/-- Die of a Bay's controller (R18). -/
def bayDie (b : Nat) : Nat := if b < 9 then 8 * b else 8 * (b - 9) + 7

/-- The entry at die `d` towards die `dst`: valid in bit 7 and the output code (R185, R194). -/
def dieEntry (dies d dst loc : Nat) : Nat :=
  if d = dst then (if dies.testBit d then 0x80 + loc else 0)
  else match distance dies dst d with
    | none => 0
    | some 0 => 0
    | some (k + 1) =>
      match (List.range 9).find? (fun c => (neighbour d c).any
        (fun x => dies.testBit x && distance dies dst x == some k)) with
      | some c => 0x80 + c
      | none => 0

/-- Default entry of node `n` at die `d` (R185). Of dies 67 and 68 R185 says, taken by its words, that each routes the steward's
entry to the other; here both give it output 11 (log entry 26). -/
def defEntry (f : FlagSnap) (d n : Nat) : Nat :=
  if n < 72 then dieEntry f.dies d n 0
  else if n < 90 then (if f.bays.testBit (n - 72) then dieEntry f.dies d (bayDie (n - 72)) 9 else 0)
  else if n < 98 then
    let k := n - 90
    let dst := if k < 4 then 2 * k + d % 2 else 64 + 2 * (k - 4) + d % 2
    if f.ios.testBit k then dieEntry f.dies d dst 10 else 0
  else if n = 98 then
    (if d = 67 ∨ d = 68 then (if f.dies.testBit d then 0x8B else 0)
     else dieEntry f.dies d (if d % 2 = 0 then 67 else 68) 11)
  else 0

/-- An entry of a bank of a die's default table. -/
def State.defAt (s : State) (d bank n : Nat) : Nat :=
  let b := lookupD ⟨none, []⟩ s.rtDef (2 * d + bank)
  match lookup? b.ovr n with
  | some v => v.toNat
  | none => match b.snap with
    | some f => defEntry f d n
    | none => 0

/-- Address of the word that holds a class 0 entry (R194). -/
def c0Addr (d bank p n : Nat) : Nat := 0x1005000 + 0x10000 * d + 0x1200 * bank + (0x48 * p + n) / 4 * 4

def State.c0At (s : State) (d bank p n : Nat) : Nat := bits (s.rd (c0Addr d bank p n)) (8 * ((0x48 * p + n) % 4)) 8

/-- Active bank of a partition's class 0 and translation tables in a die (R193). -/
def State.c0Bank (s : State) (d p : Nat) : Nat :=
  b2n (s.bitOn (if p < 32 then DIE_RT_C0BANK_LO d else DIE_RT_C0BANK_HI d) (p % 32))

/-- The route entry a packet meets at a die: class 0 to a die by the partition's table, all else by the default one. -/
def State.entryAt (s : State) (cls part d node : Nat) : Nat :=
  if cls = 0 ∧ node < 72 then s.c0At d (s.c0Bank d part) part node
  else s.defAt d (s.get (DIE_RT_CTL_def_bank d)) node

/-- I/O die attached to a die, if any (R19). -/
def ioOf (d : Nat) : Option Nat := if d < 8 then some (d / 2) else if 64 ≤ d ∧ d < 72 then some (4 + (d - 64) / 2) else none

/-- R565: where an entry sends a packet: to the next die, to its end, or nowhere. -/
inductive Hop where
  | next (d : Nat)
  | done
  | drop
  deriving DecidableEq, Repr

def State.hop (s : State) (e d node hops : Nat) : Hop :=
  let out := e % 16
  if e < 128 then .drop
  else if out = 0 then (if node = d then .done else .drop)
  else if out ≤ 8 then
    (match neighbour d out with
     | some x => if s.dieUsable x && decide (hops < 8) then .next x else .drop
     | none => .drop)
  else if out = 9 then (if 72 ≤ node ∧ node < 90 ∧ bayDie (node - 72) = d then .done else .drop)
  else if out = 10 then (if 90 ≤ node ∧ node < 98 ∧ ioOf d = some (node - 90) then .done else .drop)
  else if out = 11 then (if node = 98 ∧ (d = 67 ∨ d = 68) then .done else .drop)
  else .drop

/-- A route walked: the dies whose routers it enters, in order, or the die that drops the packet with cause 3. -/
inductive Route where
  | ok (dies : List Nat)
  | lost (die : Nat)
  deriving DecidableEq, Repr

/-- Die-to-die crossings of a route (R174). -/
def crossings (dies : List Nat) : Nat := dies.length - 1

/-- The route from a die on, for a packet that has made `hops` die crossings. -/
def State.walk (s : State) (cls part node : Nat) : Nat → Nat → Nat → Route
  | 0, d, _ => .lost d
  | fuel + 1, d, hops =>
    match s.hop (s.entryAt cls part d node) d node hops with
    | .done => .ok [d]
    | .drop => .lost d
    | .next x => match s.walk cls part node fuel x (hops + 1) with
      | .ok l => .ok (d :: l)
      | .lost e => .lost e

/-- Destination node of a physical core. -/
def nodeOf (p : Nat) : Nat := p / 128

/-- Crossings between cluster and die routers (R174). -/
def clusterHops (source node core : Nat) : Nat :=
  if source = 0x3FFF then (if node < 72 then 1 else 0)
  else if node < 72 then (if source / 16 = core / 16 then 0 else 2)
  else 1

/-- Entry die of a packet from the steward (R566). -/
def State.stewardEntry (s : State) (node : Nat) : Nat :=
  let odd : Nat := if node < 72 then node % 2 else if node < 90 then bayDie (node - 72) % 2 else (node - 90) % 2
  let d := if odd = 0 then 67 else 68
  if s.dieUsable d then d else (if d = 67 then 68 else 67)

/-- The route of a packet from its core, from the die of the Bay that sends it, or from the steward's entry die: no crossing
where both ends lie in one cluster. -/
def State.route (s : State) (cls part source node core : Nat) (enter : Option Nat) : Route :=
  if source ≠ 0x3FFF ∧ node < 72 ∧ source / 16 = core / 16 then .ok []
  else s.walk cls part node 10 (enter.getD (if source = 0x3FFF then s.stewardEntry node else source / 128)) 0

/-- Route latency L (R174). -/
def routeLatency (hc hd : Nat) : Nat := 30 + 2 * hc + 6 * hd

/-- Time of a read request to its target (R177). -/
def requestLatency (hc hd : Nat) : Nat := 10 + 2 * hc + 6 * hd

/-! ## Drops (R183, R196, R197) -/

def kindCode : Kind → Nat
  | .write => 0 | .readReq => 1 | .readReply => 2 | .bayWrite => 3 | .bayAck => 4 | .control => 5 | .controlReply => 6

/-- Whether a partition is being reset (R394). -/
def State.resetting (s : State) (n : Nat) : Bool := s.evtHeld n

/-- A packet, row or frame that a reset drops: counted, and the tag of its operation released (R396). -/
def State.resetDrop (s : State) (n : Nat) (tag : Option (Nat × Nat)) : State :=
  let s1 := s.bump (PART_RST_DROPS_count n) 1
  match tag with
  | some (p, t) => s1.onCore p (fun c => { c with tags := del c.tags t })
  | none => s1

/-- Core and tag that an operation's packet belongs to. -/
def Packet.opTag (p : Packet) : Option (Nat × Nat) :=
  match p.kind with
  | .readReq | .bayWrite => if p.writer = .core ∧ p.source < 9216 then some (p.source, p.tag) else none
  | .readReply | .bayAck => some (p.core, p.tag)
  | _ => none

/-- A packet dropped by a router of a die: counted, recorded, raised to Sage. -/
def State.netDrop (s : State) (d cause : Nat) (p : Packet) : State :=
  let f := if cause = 1 then DIE_NET_DROP_exhausted d else if cause = 2 then DIE_NET_DROP_closed d
    else if cause = 3 then DIE_NET_DROP_route d else DIE_NET_DROP_stray d
  let s1 := s.bump f 1
  let s2 := if s1.on (DIE_NET_LAST_valid d) then s1
    else (s1.recordFirst (DIE_NET_LAST d)
      (cause * 2 ^ 28 + p.cls * 2 ^ 26 + kindCode p.kind * 2 ^ 23 + p.source)).wr (DIE_NET_LAST_TICK d)
        (BitVec.ofNat 32 s.stamp)
  let s3 := match (if cause ≠ 4 then none else if s.resetting p.part then some p.part
      else (s.ownerOfCore p.core).filter s.resetting) with
    | some n => s2.resetDrop n p.opTag
    | none => s2
  s3.report ⟨5, s.tick, some p.part, if p.source = 0x3FFF then none else some p.source, d, none, cause, 0, false⟩

/-- Sequence number of the next packet on the lane from one die to another, and the lane counted on (R180). -/
def State.laneSeq (s : State) (d x : Nat) : Nat × State :=
  let k := 72 * d + x
  let n := lookupD 0 s.lanes k
  (n, { s with lanes := put s.lanes k ((n + 1) % 256) })

/-- The lanes that a route takes give their sequence numbers. -/
def State.lanesOf (s : State) : List Nat → List Nat × State
  | d :: x :: l =>
    let n := s.laneSeq d x
    let r := n.2.lanesOf (x :: l)
    (n.1 :: r.1, r.2)
  | _ => ([], s)

/-- The cycles in which a packet enters the routers of its dies, the first of them in cycle `t`: 6 cycles a crossing (R174; where
on the way the fixed cycles of L fall, log entry 120). -/
def entries (t : Nat) : List Nat → List (Nat × Nat)
  | [] => []
  | d :: l => (d, t) :: entries (t + 6) l

/-- A packet put into the network in cycle `t`, its last byte injected: on its way, or dropped on a bad route. -/
def State.inject (s : State) (p : Packet) (t : Nat) : State :=
  match s.route p.cls p.part p.source p.node p.core p.enter with
  | .ok dies =>
    let hc := clusterHops p.source p.node p.core
    let hd := crossings dies
    let lat := if p.kind = .readReq then requestLatency hc hd else routeLatency hc hd
    let q := s.lanesOf dies
    { q.2 with net := q.2.net ++ [{ p with due := t + lat, path := entries (t + 2 * b2n (decide (p.source ≠ 0x3FFF))) dies, seqs := q.1 }] }
  | .lost d => s.netDrop d 3 p

/-! ### The packet on the lane (R180) -/

/-- Die crossings that a packet has taken by cycle `t`. -/
def Packet.hops (p : Packet) (t : Nat) : Nat := (p.path.filter (fun x => decide (x.2 ≤ t))).length - 1

/-- The header as it stands in cycle `t`: the fields of R180 from bit 0 up. -/
def Packet.header (p : Packet) (t : Nat) : Nat :=
  let h := p.hops t
  let page := match p.kind with
    | .bayWrite | .bayAck => p.page
    | .readReq => if 72 ≤ p.node then p.page else 0
    | _ => 0
  p.seqs.getD (h - 1) 0 % 2 ^ 8 * 2 ^ 17 + p.rows % 2 ^ 6 * 2 ^ 25 + h % 2 ^ 4 * 2 ^ 31 + p.tag % 2 ^ 4 * 2 ^ 35 +
    p.counter % 2 ^ 6 * 2 ^ 39 + p.row % 2 ^ 17 * 2 ^ 45 + page % 2 ^ 20 * 2 ^ 62 +
    (if p.node < 72 then p.core % 2 ^ 14 else 0) * 2 ^ 82 + p.node % 2 ^ 7 * 2 ^ 96 + p.source % 2 ^ 14 * 2 ^ 103 +
    p.part % 2 ^ 6 * 2 ^ 117 + kindCode p.kind * 2 ^ 123 + p.cls % 4 * 2 ^ 126

/-- Kinds that carry a row. -/
def Kind.payload : Kind → Bool
  | .write | .readReply | .bayWrite => true
  | _ => false

/-- Header and payload as the lane carries them. -/
def Packet.bytes (p : Packet) (t : Nat) : List Byte :=
  bytesOf 16 (p.header t) ++ (if p.kind.payload then bytesOf 64 p.data.toNat else [])

/-- The trailer (R180), which every crossing checks (R181). -/
def Packet.trailer (p : Packet) (t : Nat) : Nat := crc32c (p.bytes t)

/-! ### Rows in flight at a swap (R187) -/

/-- The dies that a packet has entered before cycle `t`, and those it has still to enter. -/
def Packet.split (p : Packet) (t : Nat) : List (Nat × Nat) × List (Nat × Nat) :=
  (p.path.filter (fun x => decide (x.2 < t)), p.path.filter (fun x => decide (t ≤ x.2)))

/-- A packet in flight when tables of die `d` swap: from there on it follows the bank now active, if it enters that router from
now on; its new route, or the die that drops it. -/
def State.rerouted (s : State) (d : Nat) (p : Packet) : Packet ⊕ Nat :=
  let later := (p.split s.cycle).2
  match later.find? (fun x => x.1 == d) with
  | none => .inl p
  | some x =>
    let before := p.path.filter (fun y => decide (y.2 < x.2))
    match s.walk p.cls p.part p.node 10 d before.length with
    | .lost e => .inr e
    | .ok dies =>
      let path := before ++ entries x.2 dies
      .inl { p with path := path, due := p.due + 6 * path.length - 6 * p.path.length }

/-- The packets in flight that a swap in die `d` concerns follow the new tables. -/
def State.reroute (s : State) (d : Nat) (f : Packet → Bool) : State :=
  s.net.foldl (fun (t : State) p =>
    match (if f p then s.rerouted d p else .inl p) with
    | .inl q => { t with net := t.net ++ [q] }
    | .inr e => t.netDrop e 3 p) { s with net := [] }

/-- The check of the destination's routers for a packet bound for a core (R183, R396): none where it is delivered. -/
def State.deliveryDrop (s : State) (p : Packet) : Option Nat :=
  let owner := s.ownerOfCore p.core
  if !s.railsOn (p.core / 128) then some 2
  else if owner.any s.resetting ∨ owner ≠ some p.part then some 4
  else if p.kind = .readReply ∧ (lookup? (s.core p.core).tags p.tag).isNone then some 5
  else none

def eraseAt {α : Type} : List α → Nat → List α
  | [], _ => []
  | _ :: r, 0 => r
  | a :: r, k + 1 => a :: eraseAt r k

def replaceAt {α : Type} : List α → Nat → α → List α
  | [], _, _ => []
  | _ :: r, 0, x => x :: r
  | a :: r, k + 1, x => a :: replaceAt r k x

def State.dropNet (s : State) (k : Nat) : State := { s with net := eraseAt s.net k }

/-! ## Edge ports (R189 to R191) -/

/-- Key of an edge port: a Bay port is its die, a link attachment 72 plus its die. -/
def edgePort (link : Bool) (d : Nat) : Nat := if link then 72 + d else d

/-- Whether a die has the port (R189). -/
def hasPort (link : Bool) (d : Nat) : Bool :=
  if link then decide (d < 8 ∨ (64 ≤ d ∧ d < 72)) else decide (d < 72 ∧ (d % 8 = 0 ∨ d % 8 = 7))

def State.budget (s : State) (port part : Nat) : Nat :=
  if port < 72 then s.get (DIE_EDGE_BUDGET_BAY_rows port part) else s.get (DIE_EDGE_BUDGET_LINK_rows (port - 72) part)

def State.credit (s : State) (port part : Nat) : Int := lookupD 0 s.credits (64 * port + part)

/-- Register of the over-budget bits of a port (R199). -/
def overReg (link : Bool) (d part : Nat) : Nat :=
  if link then (if part < 32 then DIE_EDGE_OVER_LINK_LO d else DIE_EDGE_OVER_LINK_HI d)
  else (if part < 32 then DIE_EDGE_OVER_BAY_LO d else DIE_EDGE_OVER_BAY_HI d)

/-- A port is over budget for a partition: its credit stands at 0 or below (R191). -/
def State.overBudget (s : State) (port part : Nat) : Bool :=
  (lookup? s.credits (64 * port + part)).any (fun c => decide (c ≤ 0))

/-- The cycles that a port has been over budget for some partition are counted up to now, and the count goes on while it is
(R199). -/
def State.countPort (s : State) (port : Nat) : State :=
  let s1 := match lookup? s.overAt port with
    | some t => s.bump (if port < 72 then DIE_EDGE_BP_BAY_count port else DIE_EDGE_BP_LINK_count (port - 72)) (s.cycle - t)
    | none => s
  { s1 with
    overAt := if (List.range 64).any (s1.overBudget port) then put s1.overAt port s1.cycle else del s1.overAt port }

/-- A credit stored. While it stands at 0 or below the partition's bit is set, and the port counts its cycles (R191, R199). -/
def State.setCredit (s : State) (port part : Nat) (c : Int) : State :=
  let s1 := { s with credits := put s.credits (64 * port + part) c }
  let s2 := if c ≤ 0 then s1.setBit (overReg (decide (72 ≤ port)) (port % 72) part) (part % 32) else s1
  s2.countPort port

/-- Credit refill at cycle 0 of a tick: min(cap, credit + budget) with cap 8 x budget (R190). -/
def refilled (budget : Nat) (c : Int) : Int := if 8 * (budget : Int) < c + budget then 8 * (budget : Int) else c + budget

/-- The ports and partitions whose budget register holds something or that hold a credit. -/
def State.creditKeys (s : State) : List Nat :=
  ((s.ctl.filterMap (fun (e : Nat × Word) =>
    let d := (e.1 - 0x1000000) / 0x10000
    let o := (e.1 - 0x1000000) % 0x10000
    if e.1 < 0x1000000 ∨ 0x1480000 ≤ e.1 then none
    else if 0x4100 ≤ o ∧ o < 0x4200 then some (64 * d + (o - 0x4100) / 4)
    else if 0x4200 ≤ o ∧ o < 0x4300 then some (64 * (72 + d) + (o - 0x4200) / 4)
    else none)) ++ s.credits.map (·.1)).eraseDups

def State.refillCredits (s : State) : State :=
  each (fun k (t : State) =>
    t.setCredit (k / 64) (k % 64) (refilled (t.budget (k / 64) (k % 64)) (t.credit (k / 64) (k % 64)))) s.creditKeys s

/-- `n` rows, or a request for them, charged to the partition's credit at a port (R190). -/
def State.charge (s : State) (link : Bool) (d part n : Nat) : State :=
  s.setCredit (edgePort link d) part (s.credit (edgePort link d) part - (n : Int))

/-- Rows that a port has passed (R189, R199). -/
def State.portRows (s : State) (link : Bool) (d n : Nat) : State :=
  s.bump (if link then DIE_EDGE_ROWS_LINK_count d else DIE_EDGE_ROWS_BAY_count d) n

/-- Rows pass a port: credit, counters (R190, R199). -/
def State.passPort (s : State) (link : Bool) (d part n : Nat) : State := (s.charge link d part n).portRows link d n

/-- Whether a row or request of a partition may pass a port now; class 3 counts against no budget (R189, R190). -/
def State.mayPass (s : State) (link : Bool) (d : Nat) (p : Packet) : Bool :=
  p.cls == 3 || decide (0 < s.credit (edgePort link d) p.part)

/-- Whether the engines of a partition are held at the use of a port (R191). -/
def State.portHeld (s : State) (port part : Nat) : Bool := s.ovr.contains (64 * port + part)

/-! ## Bank swaps (R187) -/

/-- Swap of a die's default tables; the new standby bank mirrors the new active one. -/
def State.swapDefault (s : State) (d : Nat) : State :=
  let nb := 1 - s.get (DIE_RT_CTL_def_bank d)
  let b := lookupD ⟨none, []⟩ s.rtDef (2 * d + nb)
  ((({ s with rtDef := put s.rtDef (2 * d + 1 - nb) b }).set (DIE_RT_CTL_def_bank d) nb).done (DIE_RT_CTL_def_swap d)).reroute d
    (fun p => p.cls != 0 || decide (72 ≤ p.node))

def State.xlatAt (s : State) (d bank part : Nat) : List (Nat × Nat) := lookupD [] s.xlat (128 * d + 64 * bank + part)

def State.setXlat (s : State) (d bank part : Nat) (t : List (Nat × Nat)) : State :=
  { s with xlat := put s.xlat (128 * d + 64 * bank + part) t }

/-- Swap of a partition's class 0 and translation tables in a die. -/
def State.swapC0 (s : State) (d part : Nat) : State :=
  let nb := 1 - s.c0Bank d part
  let s1 := each (fun k (t : State) => t.wr (c0Addr d (1 - nb) part (4 * k)) (t.rd (c0Addr d nb part (4 * k)))) (List.range 18) s
  let s2 := s1.setXlat d (1 - nb) part (s1.xlatAt d nb part)
  let a := if part < 32 then DIE_RT_C0BANK_LO d else DIE_RT_C0BANK_HI d
  let w := if part < 32 then DIE_RT_C0SWAP_LO d else DIE_RT_C0SWAP_HI d
  ((s2.wr a (setBits (s2.rd a) (part % 32) 1 nb)).done ⟨w, part % 32, 1⟩).reroute d
    (fun p => p.cls == 0 && decide (p.node < 72) && p.part == part)

def State.c0SwapSet (s : State) (d part : Nat) : Bool :=
  s.bitOn (if part < 32 then DIE_RT_C0SWAP_LO d else DIE_RT_C0SWAP_HI d) (part % 32)

/-- Physical core of a logical id by the active translation table of a core's die (R184). -/
def State.translate (s : State) (p part logical : Nat) : Option Nat :=
  lookup? (s.xlatAt (p / 128) (s.c0Bank (p / 128) part) part) logical

/-- The default tables of every die computed from the inventory: into both banks before the tick counter starts, later
into the standby banks with one swap tick and the swap requested on every die (R185, R187). Which tick the steward writes there
R185 does not say: the present one, so that every die swaps at the next mark (log entry 121). -/
def State.installRoutes (s : State) : State :=
  match s.inv with
  | none => s
  | some v =>
    let b : DefBank := ⟨some v.snap, []⟩
    if !s.running then
      { s with rtDef := (List.range 144).map (fun k => (k, b)) }
    else
      each (fun d (t : State) =>
        ((({ t with rtDef := put t.rtDef (2 * d + 1 - t.get (DIE_RT_CTL_def_bank d)) b }).set
          (DIE_RT_SWAP_AT_tick d) s.stamp).setOn (DIE_RT_CTL_def_swap d) true)) (List.range 72) s

/-- A write to a word of a default table: both banks before the tick counter starts, else the standby bank only. -/
def State.writeDefWord (s : State) (d k : Nat) (v : Word) : State :=
  let bank := k / 32
  let active := s.get (DIE_RT_CTL_def_bank d)
  let wrBank := fun (t : State) (bk : Nat) =>
    let b := lookupD ⟨none, []⟩ t.rtDef (2 * d + bk)
    let o := (List.range 4).foldl (fun m i => put m (4 * (k % 32) + i) (BitVec.ofNat 8 (bits v (8 * i) 8 &&& 0x8F))) b.ovr
    { t with rtDef := put t.rtDef (2 * d + bk) { b with ovr := o } }
  if !s.running then wrBank (wrBank s 0) 1
  else if bank = active then s else wrBank s bank

/-- The word of a default table as read. -/
def State.readDefWord (s : State) (d k : Nat) : Word :=
  BitVec.ofNat 32 ((List.range 4).foldl (fun n i => n + s.defAt d (k / 32) (4 * (k % 32) + i) * 2 ^ (8 * i)) 0)

/-- A write to a word of a class 0 table: entries of the standby bank of their partition only (R187, R194). -/
def State.writeC0Word (s : State) (d k : Nat) (v : Word) : State :=
  let bank := k / 1152
  let part := (k % 1152) / 18
  if bank = s.c0Bank d part then s else s.wr (DIE_RT_C0 d k) (v &&& 0x8F8F8F8F)

/-! ## Commands of the family -/

/-- A packet fails its CRC at a crossing: discarded and sent again from the hop buffer, 8 cycles later at a cluster crossing
and 16 at a die crossing; dropped with cause 1 on the fourth failure on one crossing (R181). -/
def State.hopRetry (s : State) (k d : Nat) (cluster : Bool) : State :=
  match s.net[k]? with
  | none => s
  | some p =>
    let key := 2 * d + b2n cluster + 1
    let n := if p.failKey = key then p.fails else 0
    if 3 ≤ n then (s.netDrop d 1 p).dropNet k
    else
      let w := if cluster then 8 else 16
      let q : Packet :=
        { p with
          fails := n + 1, failKey := key, due := p.due + w
          path := p.path.map (fun x => if s.cycle ≤ x.2 then (x.1, x.2 + w) else x) }
      ({ s with net := replaceAt s.net k q }).bump
        (if cluster then DIE_NET_RETRY_cluster d else DIE_NET_RETRY_die d) 1

/-- DIE_RT_CTL.def_swap, or bits of DIE_RT_C0SWAP, written with 1 (R192, R193). -/
def State.routeSwapRequest (s : State) (d which : Nat) (v : Word) : State :=
  match which with
  | 0 => if v.getLsbD 2 then (s.ask (DIE_RT_CTL d) v).setOn (DIE_RT_CTL_def_swap d) true else s
  | 1 => (s.ask (DIE_RT_C0SWAP_LO d) v).wr (DIE_RT_C0SWAP_LO d) (s.rd (DIE_RT_C0SWAP_LO d) ||| v)
  | _ => (s.ask (DIE_RT_C0SWAP_HI d) v).wr (DIE_RT_C0SWAP_HI d) (s.rd (DIE_RT_C0SWAP_HI d) ||| v)

/-- R187: the default tables of a die swap at the first mark at or after its swap tick. -/
def State.canSwapDefault (s : State) (d : Nat) : Bool :=
  s.on (DIE_RT_CTL_def_swap d) && s.tick % 9375 == 0 && s.atOrAfter (s.get (DIE_RT_SWAP_AT_tick d))

/-- Whether a partition is held, not active, or in a restart (R187, R216). -/
def State.quiet (s : State) (n : Nat) : Bool :=
  !s.on (BEAT_PLAN_CTL_active n) || s.on (BEAT_PLAN_CTL_held n) || (s.part n).overrun || (s.part n).restart.isSome

/-- Whether the present cycle is a beat boundary of a partition: the interval that runs began in it. -/
def State.atBoundary (s : State) (n : Nat) : Bool := (s.part n).interval != .none && (s.part n).began == s.cycle

/-- R187: a partition's tables in a die swap at its boundary, or at any tick while it is quiet. -/
def State.canSwapC0 (s : State) (d n : Nat) : Bool :=
  s.c0SwapSet d n && s.cycle % 256 == 0 && s.atOrAfter (s.get (DIE_RT_SWAP_AT_tick d)) && (s.quiet n || s.atBoundary n)

/-- R191: a port that is over budget for a partition, and has not signalled it. -/
def State.canOver (s : State) (link : Bool) (d part : Nat) : Bool :=
  hasPort link d && s.overBudget (edgePort link d) part && !s.portHeld (edgePort link d) part

def State.edgeOver (s : State) (link : Bool) (d part : Nat) : State :=
  ({ s with ovr := s.ovr ++ [64 * edgePort link d + part] }).setBit (overReg link d part) (part % 32)

/-- The counts of R199 brought up to now, as a window ends. -/
def State.countOver (s : State) : State := each (fun (e : Nat × Nat) (t : State) => t.countPort e.1) s.overAt s

def State.edgeRecover (s : State) (link : Bool) (d part : Nat) : State :=
  { s with ovr := s.ovr.filter (· != 64 * edgePort link d + part) }

/-- A clearing write leaves a bit that stands for a port still over budget (R199). -/
def State.stillOver (s : State) (link : Bool) (d : Nat) : State :=
  each (fun part (t : State) =>
    if t.overBudget (edgePort link d) part then t.setBit (overReg link d part) (part % 32) else t) (List.range 64) s

end Sys2Proof.Machine
end

