-- ==== Sys2Proof/Machine/CoreCommon.lean ====
section
/-!
DEFINITION. What the engines of a core share (03_core_engines, 05_scratchpad): the control page, rows and banks,
effects that land after their latency, bank claims, corrected and uncorrectable reads, waits, traps, the flow of a
program, and the issue of one instruction.
-/

namespace Sys2Proof.Machine

/-! ## Engines, registers, control page -/

def Core.eng (c : Core) : Engine → Eng
  | .load => c.le
  | .matrix => c.me
  | .vector => c.ve
  | .send => c.se

def Core.setEng (c : Core) (e : Engine) (x : Eng) : Core :=
  match e with
  | .load => { c with le := x }
  | .matrix => { c with me := x }
  | .vector => { c with ve := x }
  | .send => { c with se := x }

def Core.onEng (c : Core) (e : Engine) (f : Eng → Eng) : Core := c.setEng e (f (c.eng e))

def engineCode : Engine → Nat
  | .load => 0 | .matrix => 1 | .vector => 2 | .send => 3

def engineOfCode : Nat → Engine
  | 0 => .load | 1 => .matrix | 2 => .vector | _ => .send

/-- Place of an engine in the order of bank grants (R152). -/
def enginePrio : Engine → Nat
  | .matrix => 3 | .load => 4 | .vector => 5 | .send => 6

/-- An address register; A0 reads as zero (R72). -/
def Core.areg (c : Core) (e : Engine) (r : Nat) : AReg := if r = 0 then 0 else lookupD 0 (c.eng e).areg r

def Core.cpRd (c : Core) (a : Nat) : Word := rdAt cpResetWord c.cp a
def Core.cpWr (c : Core) (a : Nat) (v : Word) : Core := { c with cp := wrAt cpResetWord c.cp a v }
def Core.cpGet (c : Core) (f : FieldRef) : Nat := bits (c.cpRd f.addr) f.lo f.len
def Core.cpOn (c : Core) (f : FieldRef) : Bool := c.cpGet f != 0
def Core.cpSet (c : Core) (f : FieldRef) (v : Nat) : Core := c.cpWr f.addr (setBits (c.cpRd f.addr) f.lo f.len v)
def Core.cpBump (c : Core) (f : FieldRef) (n : Nat) : Core := c.cpSet f (satAdd f.len (c.cpGet f) n)

/-- Key of a control-page word in the record of the present cycle, past the keys of the control space. -/
def cpKey (p a : Nat) : Nat := 2 ^ 36 + 2 ^ 12 * p + a

/-- A count of a control page rises in cycle `t`: in the present cycle a clearing write leaves it (R162). -/
def State.cpCount (s : State) (p : Nat) (f : FieldRef) (n t : Nat) : State :=
  let s1 := s.setCore p ((s.core p).cpBump f n)
  if t = s.cycle then
    s1.strike (cpKey p f.addr) (fun w => setBits w f.lo f.len (satAdd f.len (bits w f.lo f.len) n))
  else s1

/-- Whether an arrival counter is enabled (R159). -/
def Core.cntOn (c : Core) (n : Nat) : Bool := (c.cpRd (if n < 32 then SPC_CNT_EN_LO else SPC_CNT_EN_HI)).getLsbD (n % 32)

/-- Visible value of an arrival counter; a disabled one reads as 0 (R161). -/
def Core.cnt (c : Core) (n : Nat) : Nat := if c.cntOn n then c.cpGet (SPC_CNT_value n) else 0

/-! ## Rows, regions, banks (R144 to R147) -/

def trapRow : Nat := 0x18000

/-- The canonical form of a scratchpad's or a Bay's memory: addresses rise and no listed byte is 0, which is what an unlisted
byte reads as (log entry 3). -/
def Memory.wf (m : List Host.Cell) : Bool := canon (fun _ => 0) m

def padByte (m : List Host.Cell) (a : Nat) : Byte := rdAt (fun _ => 0) m a

def padRow (m : List Host.Cell) (row : Nat) : Row :=
  BitVec.ofNat 512 (ofBytes ((List.range 64).map (fun i => padByte m (64 * row + i))))

def padSetRow (m : List Host.Cell) (row : Nat) (d : Row) : List Host.Cell :=
  (List.range 64).foldl (fun m i => wrAt (fun _ => 0) m (64 * row + i) (BitVec.ofNat 8 (byteAt d.toNat i))) m

/-- The valid region descriptor that covers a row, if any (R146). -/
def Core.region (c : Core) (row : Nat) : Option Nat :=
  (List.range 16).find? (fun n => c.cpOn (SPC_REGION_valid n) &&
    decide (c.cpGet (SPC_REGION_base n) ≤ row / 32 ∧ row / 32 < c.cpGet (SPC_REGION_limit n)))

def Core.weightRow (c : Core) (row : Nat) : Bool := (c.region row).any (fun n => c.cpOn (SPC_REGION_wro n))

/-- Bank of a row (R145, R147). -/
def Core.bank (c : Core) (row : Nat) : Nat :=
  let q := row / 32
  if (c.region row).any (fun n => c.cpOn (SPC_REGION_hashed n)) then
    (row % 32) ^^^ (q % 32) ^^^ (q / 32 % 32) ^^^ (q / 1024 % 4)
  else row % 32

/-! ## Effects in flight (R75) -/

/-- What the landing of an effect tells the rest of the module. -/
inductive Note where
  | sat (n : Nat)
  | overflow (counter row : Nat) (w : Writer)
  deriving DecidableEq, Repr

/-- Adds of one MMA into an accumulator, with the elements that clamped (R118). -/
def accAdd (a : Acc) (t : List Int) : Acc × Nat :=
  let r := ((if a.elems = [] then List.replicate 64 0 else a.elems).zip t).map (fun (x, y) => clamp32 (x + y))
  ({ a with elems := r.map (·.1) }, (r.filter (·.2)).length)

def Core.accOf (c : Core) (a : Nat) : Acc := lookupD ⟨0, []⟩ c.acc a

def Acc.list (a : Acc) : List Int := if a.elems = [] then List.replicate 64 0 else a.elems

/-- Whether a physical row lies in a standby range of the core (R369). -/
def Core.inStandby (c : Core) (row : Nat) : Bool :=
  c.ranges.any (fun r =>
    let a := if r.flipped then r.first else r.shadow
    decide (r.shadow ≠ r.first ∧ a ≤ row ∧ row < a + r.rows))

/-- A write to a window control: every field where open was clear, only open where it was set (R158). -/
def Core.writeWinCtl (c : Core) (w : Nat) (v : Word) : Core :=
  if (c.cpRd (SPC_WIN_CTL w)).getLsbD 31 then c.cpSet (SPC_WIN_CTL_open w) (bits v 31 1)
  else c.cpWr (SPC_WIN_CTL w) (v &&& 0x87C0007F)

def Core.apply (c : Core) : Eff → Core × List Note
  | .areg e r lo len v =>
    (if r = 0 then c
     else c.onEng e (fun x => { x with areg := put x.areg r (setBits (lookupD 0 x.areg r) lo len v) }), [])
  | .wamt e v => (c.onEng e (fun x => { x with wamt := v }), [])
  | .pad _ row d =>
    ({ c with
       pad := padSetRow c.pad row d, marks := del c.marks row, fixes := c.fixes.filter (fun x => x.2 != row)
       standby := if c.inStandby row then none else c.standby }, [])
  | .sb i d => (if lookup? c.sb i = some ⟨none⟩ then { c with sb := put c.sb i ⟨some d⟩ } else c, [])
  | .sbFree i => ({ c with sb := del c.sb i }, [])
  | .rqPush q => ({ c with rq := c.rq ++ [q] }, [])
  | .rqSpace => ({ c with rqUsed := c.rqUsed - 1 }, [])
  | .xqPush d => ({ c with xq := c.xq ++ [d] }, [])
  | .xqSpace n => ({ c with xqUsed := c.xqUsed - n }, [])
  | .sig i n => ({ c with sig := put c.sig i (lookupD 0 c.sig i + n) }, [])
  | .cnt n row w =>
    if !c.cntOn n then (c, [])
    else if c.cpGet (SPC_CNT_value n) = 0xFFFFFF then (c, [.overflow n row w])
    else (c.cpSet (SPC_CNT_value n) (c.cpGet (SPC_CNT_value n) + 1), [])
  | .x chunk d => ({ c with xstore := put c.xstore (chunk % 512) d }, [])
  | .xptr v => ({ c with xptr := v % 512 }, [])
  | .acc a t =>
    let r := accAdd (c.accOf a) t
    ({ c with acc := put c.acc a r.1 }, if r.2 = 0 then [] else [.sat r.2])
  | .scale rows => ({ c with scale := rows, sptr := 0 }, [])
  | .vreg r v => ({ c with vreg := put c.vreg (r % 32) v }, [])
  | .carry v _ => ({ c with carry := v }, [])
  | .collect l => ({ c with collector := c.collector ++ l }, [])
  | .emptied => ({ c with collector := [] }, [])
  | .tally n => ({ c with tally := satAdd 16 c.tally n }, [])
  | .tag e => ({ c with standby := some e }, [])
  | .tagFree i => ({ c with tags := del c.tags i }, [])
  | .winCtl w v => (c.writeWinCtl w v, [])
  | .readEnd => (c, [])

/-- Insertion after every effect due no later. -/
def insertPend : List Pend → Pend → List Pend
  | [], p => [p]
  | q :: r, p => if p.due < q.due then p :: q :: r else q :: insertPend r p

def Core.later (c : Core) (due : Nat) (e : Eff) : Core := { c with pend := insertPend c.pend ⟨due, e⟩ }

def Core.laters (c : Core) (l : List (Nat × Eff)) : Core := l.foldl (fun c p => c.later p.1 p.2) c

/-- Effects due by cycle `t` take place, in order; what they tell goes with the cycle of each. -/
def settleList : List Pend → Nat → Core → Core × List (Nat × Note)
  | [], _, c => ({ c with pend := [] }, [])
  | p :: r, t, c =>
    if p.due ≤ t then
      let x := c.apply p.eff
      let y := settleList r t x.1
      (y.1, x.2.map (fun n => (p.due, n)) ++ y.2)
    else ({ c with pend := p :: r }, [])

def Core.settle (c : Core) (t : Nat) : Core × List (Nat × Note) := settleList c.pend t c

def writerCode : Writer → Nat
  | .core => 0 | .host => 1 | .intake => 2 | .link => 3 | .sage => 4 | .loader => 5

/-- A first-event record of a control page, whose bit 31 is `valid`, with its stamp: kept if none is held; a clearing write of its own
cycle leaves it (R10). -/
def State.cpRecord (s : State) (p a stamp v t : Nat) : State :=
  let c := s.core p
  if (c.cpRd a).getLsbD 31 then s
  else
    let s1 := s.setCore p ((c.cpWr a (BitVec.ofNat 32 (2 ^ 31 + v))).cpWr stamp (BitVec.ofNat 32 s.stamp))
    if t = s.cycle then s1.strike (cpKey p a) (fun w => setBits w 31 1 1) else s1

/-- A landing event of cycle `t`: counted by the caller, recorded in SPC_LAND_LAST and raised to Sage (R156, R159, R168). -/
def State.landEvent (s : State) (p cause counter row : Nat) (w : Writer) (t : Nat) : State :=
  (s.cpRecord p SPC_LAND_LAST SPC_LAND_LAST_TICK (cause * 2 ^ 28 + writerCode w * 2 ^ 25 + counter * 2 ^ 17 + row) t).report
    ⟨8, s.tick, s.ownerOfCore p, some p, 0, none, cause, 0, false⟩

/-- What an effect of cycle `t` tells: a saturation of the present cycle outlives a clearing write, an earlier one does not
(R106). -/
def State.note (s : State) (p t : Nat) : Note → State
  | .sat n =>
    if t = s.cycle then s.bump (DIE_CORE_SAT_count p) n
    else s.set (DIE_CORE_SAT_count p) (satAdd 32 (s.get (DIE_CORE_SAT_count p)) n)
  | .overflow k row w => (s.cpCount p SPC_CNTERR_overflow 1 t).landEvent p 4 k row w t

/-- The core's effects due by cycle `t` take place. -/
def State.effects (s : State) (p t : Nat) : State :=
  let x := (s.core p).settle t
  each (fun (n : Nat × Note) (u : State) => u.note p n.1 n.2) x.2 (s.setCore p x.1)

/-! ## Bank claims (R152 to R154) -/

/-- Whether every bank of a group is free in a cycle for a claimant of this place in the order. -/
def Core.banksFree (c : Core) (t prio : Nat) (banks : List Nat) : Bool :=
  !(c.claims.any (fun k => k.cycle == t && banks.contains k.bank && decide (k.prio < prio)))

/-- A row put into the first claim cycle that does not claim its bank yet: rows that meet on different banks share the extra
cycle. R153 counts one for each further row on a bank, and does not say how several banks combine (log entry 114). -/
def placeWant (x : Want) : List (List Want) → List (List Want)
  | [] => [[x]]
  | g :: r => if g.any (fun y => y.bank == x.bank) then g :: placeWant x r else (g ++ [x]) :: r

/-- Claim cycles of a group: one, and one more for each further row on a bank (R153). -/
def spread (g : List Want) : List (List Want) := g.foldl (fun l x => placeWant x l) []

/-- Rows with their places, counted from `n`, and their banks. -/
def Core.wants (c : Core) (n : Nat) (rows : List Nat) : List Want :=
  ((List.range rows.length).zip rows).map (fun x => ⟨x.2, n + x.1, c.bank x.2⟩)

/-- Claim cycles of an instruction's groups of rows. -/
def Core.claimCycles (c : Core) : Nat → List (List Nat) → List (List Want)
  | _, [] => []
  | n, g :: r => spread (c.wants n g) ++ c.claimCycles (n + g.length) r

def wantBanks (g : List Want) : List Nat := g.map (·.bank)

/-- An engine held for `n` cycles of a running instruction from cycle `t` on (R47, R153). -/
def Core.hold (c : Core) (e : Engine) (t n : Nat) : Core :=
  c.onEng e (fun x => { x with ready := x.ready + n, heldSum := x.heldSum + n, heldAt := t, heldFor := n })

/-- Engines behind the claimant that had been granted one of its banks in the cycle lose it: held one cycle more. -/
def Core.displace (c : Core) (t prio : Nat) (banks : List Nat) : Core :=
  [Engine.matrix, .load, .vector, .send].foldl (fun c e =>
    if decide (prio < enginePrio e) &&
        c.claims.any (fun k => k.cycle == t && banks.contains k.bank && k.prio == enginePrio e) then c.hold e t 1
    else c) c

/-- The claims of a group granted in cycle `t`. -/
def Core.claim (c : Core) (t prio : Nat) (banks : List Nat) : Core :=
  let c1 := c.displace t prio banks
  { c1 with claims := c1.claims ++ banks.map (fun b => ⟨t, b, prio⟩) }

/-- Claims of past cycles forgotten. -/
def Core.prune (c : Core) (t : Nat) : Core := { c with claims := c.claims.filter (fun k => decide (t ≤ k.cycle)) }

/-! ## Check bytes (R148 to R151) -/

def addMark (m : List (Nat × Mark)) (u : Upset) : List (Nat × Mark) :=
  let k := lookupD ⟨[], []⟩ m u.row
  put m u.row (if u.fatal then { k with fatal := (u.word :: k.fatal).eraseDups }
    else { k with words := (u.word :: k.words).eraseDups })

/-- The stored row after an upset: the bits of an uncorrectable word as they now stand (R150). -/
def upsetRow (d : Row) (u : Upset) : Row :=
  if u.fatal then d ^^^ (BitVec.ofNat 512 u.flip.toNat <<< (64 * u.word)) else d

def Core.upset (c : Core) (u : Upset) : Core :=
  { c with
    marks := addMark c.marks u
    pad := if u.fatal && decide (u.row < trapRow) then padSetRow c.pad u.row (upsetRow (padRow c.pad u.row) u) else c.pad }

def State.upset (s : State) (p : Nat) (us : List Upset) : State :=
  if us = [] then s else s.onCore p (fun c => us.foldl Core.upset c)

/-- Smallest of a list, 0 if empty. -/
def least : List Nat → Nat
  | [] => 0
  | a :: r => r.foldl min a

/-- A row read: corrected and written back in the next three cycles, which the patrol does in its next free one (R149, R151); or
reported as uncorrectable, and returned as it stands (R150). Whether it was corrected is the second part. -/
def State.eccRow (s : State) (p row t : Nat) (patrol : Bool) : State × Bool :=
  let c := s.core p
  match lookup? c.marks row with
  | none => (s, false)
  | some k =>
    if k.fatal = [] then
      let s1 := s.cpCount p SPC_ECC_CNT_corrected 1 t
      (s1.onCore p (fun c =>
        if patrol then { c with fixes := put c.fixes (c.bank row) row }
        else { c with
          marks := del c.marks row
          claims := c.claims ++ [1, 2, 3].map (fun i => (⟨t + i, c.bank row, 1⟩ : Claim)) }), true)
    else
      let s1 := s.cpCount p SPC_ECC_CNT_uncorrected 1 t
      let s2 := s1.cpRecord p SPC_ECC_LAST SPC_ECC_LAST_TICK (b2n patrol * 2 ^ 30 + least k.fatal * 2 ^ 27 + row) t
      (s2.report ⟨1, s.tick, s.ownerOfCore p, some p, 0, none, row, 0, patrol⟩, false)

/-- Rows read in one claim cycle: the state, and 3 cycles if any of them was corrected (R149). -/
def State.eccGroup (s : State) (p t : Nat) (rows : List Nat) : State × Nat :=
  let r := rows.foldl (fun (x : State × Bool) row =>
    let y := x.1.eccRow p row t false
    (y.1, x.2 || y.2)) (s, false)
  (r.1, if r.2 then 3 else 0)

/-! ## Accesses under way (R149, R152, R153) -/

/-- Rows as one number, the first lowest. -/
def rowsNum (l : List Row) : Nat := l.foldr (fun r acc => r.toNat + acc <<< 512) 0

/-- Two rows as one vector register, the first row lowest. -/
def twoRows (l : List Row) : VReg := BitVec.ofNat 1024 (rowsNum l)

/-- The two 32-byte chunks of a row, the lower first (R115). -/
def rowChunks (d : Row) : List (BitVec 256) := [BitVec.ofNat 256 d.toNat, BitVec.ofNat 256 (d.toNat >>> 256)]

/-- Rows written into the X store from a first chunk upwards, the index wrapping from 511 to 0 (R95). -/
def Core.writeX (c : Core) (due first : Nat) (rows : List Row) : Core :=
  let ch := rows.flatMap rowChunks
  ((List.range ch.length).zip ch).foldl (fun c x => c.later due (.x ((first + x.1) % 512) x.2)) c

/-- An operand whose image has been read: where the image carries its scales, they are taken from it (R94, R114). -/
def Operand.withImage (o : Operand) (img : Nat) : Operand :=
  { o with img := img, scales := if windowFmt o.wfmt then o.scales else img >>> (8 * scaleBase o.wfmt) }

/-- What an access does once its last row is read, or for a write granted. -/
def Core.finish (c : Core) (r : Run) (due : Nat) : Core :=
  let rows := r.got.map (·.2)
  match r.use with
  | .areg k word => c.later due (.areg r.eng k 0 48 (field (rowsNum rows) (64 * word) 48))
  | .stage _ => c.later due .readEnd
  | .xstore first => c.writeX due first rows
  | .image a o => c.later due (.acc a ((List.range 64).map (o.withImage (rowsNum rows)).sum))
  | .scale => c.later due (.scale rows)
  | .vec k => c.later due (.vreg k (twoRows rows))
  | .write l => c.laters (l.map (fun x => (due, .pad (some r.eng) x.1 x.2)))
  | .send _ => c
  | .token _ => c

/-- A token record to the emit gate: at most 64 per partition and beat, one more is dropped (R468). -/
def State.emitToken (s : State) (n p : Nat) (word : DWord) : State :=
  let q := s.part n
  match q.beats with
  | [] => s
  | b :: r =>
    if b.gate.length < 64 then s.setPart n { q with beats := { b with gate := b.gate ++ [⟨p, word⟩] } :: r }
    else s.setBit SAGE_EVT 6

/-- SEMT's record, handed over with its row. -/
def State.handOver (s : State) (p : Nat) (r : Run) : State :=
  match r.use with
  | .token word => s.emitToken ((s.ownerOfCore p).getD 0) p
      (BitVec.ofNat 64 (rowsNum (r.got.map (·.2)) >>> (64 * word)))
  | _ => s

/-- A row of the send engine of a core that is still to be read. -/
def sendLate (p : Nat) (k : Packet) : Bool := k.late && k.source == p && k.kind != .readReply

/-- Packets whose rows are still to be read leave `n` cycles later. -/
def State.shiftLate (s : State) (f : Packet → Bool) (n : Nat) : State :=
  { s with net := s.net.map (fun k =>
      if f k then { k with due := k.due + n, path := k.path.map (fun x => (x.1, x.2 + n)) } else k) }

/-- The rest of an access moves back by `n` cycles from cycle `t` on, and its engine is held for them (R149, R153). -/
def State.delay (s : State) (p : Nat) (r : Run) (t n : Nat) : State :=
  let s1 := s.onCore p (fun c => c.hold r.eng t n)
  match r.use with
  | .send _ => (s1.shiftLate (sendLate p) n).onCore p (fun c => { c with inject := c.inject + n })
  | _ => s1

/-- The data of the rows of an SWR or SWB of `n` rows that are read now. -/
def State.fillRows (s : State) (p n : Nat) (rows : List (Nat × Row)) : State :=
  { s with net := s.net.map (fun k =>
      if sendLate p k then
        (match lookup? rows (n - 1 - k.rows) with
         | some d => { k with data := d, late := false }
         | none => k)
      else k) }

def RowUse.writes : RowUse → Bool
  | .write _ => true
  | _ => false

/-- What the rows of one claim cycle give at once: stage-buffer rows valid after their latency, rows sent. -/
def State.passRows (s : State) (p : Nat) (r : Run) (u : Nat) (rows : List (Nat × Row)) : State :=
  match r.use with
  | .stage ts => s.onCore p (fun c => c.laters (rows.map (fun x => (u + r.lat, Eff.sb (ts.getD x.1 0) x.2))))
  | .send n => s.fillRows p n rows
  | _ => s

def State.setRun (s : State) (p : Nat) (e : Engine) (r : Option Run) : State :=
  s.onCore p (fun c => { c with runs := c.runs.filter (fun x => x.eng != e) ++ r.toList })

/-- The next claim cycle of an access is granted in cycle `u`: its rows are read as they stand, corrected where they need it,
and handed on; the access goes on, or has its effect (R149, R153). -/
def State.grant (s : State) (p : Nat) (r : Run) (u : Nat) : State :=
  match r.groups with
  | [] => s.setRun p r.eng none
  | g :: rest =>
    let pad := (s.core p).pad
    let rows := if r.use.writes then [] else g.map (fun w => (w.pos, padRow pad w.row))
    let s1 := s.onCore p (fun c => c.claim u (enginePrio r.eng) (wantBanks g))
    let ecc := if r.use.writes then (s1, 0) else s1.eccGroup p u (g.map (·.row))
    let s2 := if ecc.2 = 0 then ecc.1 else ecc.1.delay p r (u + 1) ecc.2
    let s3 := s2.passRows p r (u + ecc.2) rows
    let r1 : Run :=
      { r with
        next := u + ecc.2 + r.period, groups := rest, got := rows.foldl (fun m x => put m x.1 x.2) r.got }
    match rest with
    | [] => ((s3.setRun p r.eng none).onCore p (fun c => c.finish r1 (u + ecc.2 + r.lat))).handOver p r1
    | _ => s3.setRun p r.eng (some r1)

/-- An engine's access claims in cycle `u`: granted, or lost for this cycle (R152). -/
def State.runAt (s : State) (p u : Nat) (e : Engine) : State :=
  match (s.core p).runs.find? (fun r => r.eng == e && r.next == u) with
  | none => s
  | some r =>
    if (s.core p).banksFree u (enginePrio e) (wantBanks (r.groups.headD [])) then s.grant p r u
    else (s.delay p r u 1).setRun p e (some { r with next := u + 1 })

/-- The physical row of an engine's access: main and shadow rows of a flipped weight range change places (R369). -/
def mapRow : List WRange → Nat → Nat
  | [], row => row
  | r :: rest, row =>
    if r.flipped = true ∧ r.first ≤ row ∧ row < r.first + r.rows then row - r.first + r.shadow
    else if r.flipped = true ∧ r.shadow ≤ row ∧ row < r.shadow + r.rows then row - r.shadow + r.first
    else mapRow rest row

/-! ### Remote reads (R177) -/

/-- Reply rows of a read that are still to be read by the core that serves it. -/
def replyLate (p : Nat) (q : Packet) (k : Packet) : Bool :=
  k.late && k.kind == .readReply && k.source == p && k.core == q.source && k.tag == q.tag

/-- The claim of the next row of a remote read in cycle `u`: granted, read and handed to the cluster's router, or lost (R152,
R177). -/
def State.serveRow (s : State) (p u : Nat) (x : RemoteRead) : State :=
  let q := x.request
  let c := s.core p
  let row := mapRow c.ranges ((q.row + x.row) % 2 ^ 17)
  let early := decide (8 ≤ x.lost)
  let others := c.serves.filter (fun y => !(y.request.source == q.source && y.request.tag == q.tag))
  if c.banksFree u (if early then 3 else 9) [c.bank row] then
    let data := padRow c.pad row
    let ecc := (s.onCore p (fun c =>
      let c1 := if early then c.displace u 2 [c.bank row] else c
      { c1 with claims := c1.claims ++ [⟨u, c.bank row, if early then 1 else 8⟩] })).eccRow p row u false
    let s1 := if ecc.2 then ecc.1.shiftLate (replyLate p q) 3 else ecc.1
    let s2 : State :=
      { s1 with net := s1.net.map (fun k =>
          if replyLate p q k && k.total - 1 - k.rows == x.row then { k with data := data, late := false } else k) }
    s2.onCore p (fun c =>
      { c with serves := if x.row < q.rows then
          others ++ [{ x with row := x.row + 1, next := u + 2 + (if ecc.2 then 3 else 0), lost := 0 }]
        else others })
  else
    (s.shiftLate (replyLate p q) 1).onCore p (fun c =>
      { c with serves := others ++ [{ x with next := u + 1, lost := x.lost + 1 }] })

/-- The claims of cycle `u` of the remote reads a core serves, of those promoted or of the others. -/
def State.serveReads (s : State) (p u : Nat) (early : Bool) : State :=
  ((s.core p).serves.filter (fun x => x.next == u && decide (8 ≤ x.lost) == early)).foldl (fun s x => s.serveRow p u x) s

/-- The claims of cycle `u` of accesses under way: of the promoted remote reads, of the engines before a place in the order of
R152, and of the other remote reads if they come before it. -/
def State.runCycle (s : State) (p u below : Nat) : State :=
  if (s.core p).runs = [] && (s.core p).serves = [] then s
  else
    let s1 := s.serveReads p u true
    let s2 := [Engine.matrix, .load, .vector, .send].foldl (fun s e => if enginePrio e < below then s.runAt p u e else s) s1
    if 8 < below then s2.serveReads p u false else s2

/-- Cycle of the next claim of an access under way. -/
def Core.nextRun (c : Core) : Option Nat :=
  match c.runs.map (·.next) ++ c.serves.map (·.next) with
  | [] => none
  | t :: l => some (l.foldl min t)

/-- The accesses under way up to cycle `t`, each claim in its cycle. -/
def State.runTo (p t : Nat) : Nat → State → State
  | 0, s => s
  | fuel + 1, s =>
    match (s.core p).nextRun with
    | none => s
    | some u => if u < t then State.runTo p t fuel ((s.effects p u).runCycle p u 10) else s

/-- A core as it stands at the start of cycle `t`: every claim before it made, every effect due by it in place. -/
def State.settle (s : State) (p t : Nat) : State := (State.runTo p t t s).effects p t

/-- The same, with the claims of cycle `t` itself of the engines before a place in the order of R152. -/
def State.ahead (s : State) (p t below : Nat) : State := (s.settle p t).runCycle p t below

/-- Packet `k` as it leaves its source: if its row is still to be read, the source's claims up to its arrival are made. -/
def State.fresh (k : Nat) : Nat → State → State
  | 0, s => s
  | fuel + 1, s =>
    match s.net[k]? with
    | some pk => if pk.late then State.fresh k fuel (s.settle pk.source pk.due) else s
    | none => s

/-- Packet `k`, were its row read by now, is due in this tick: it is made ready. -/
def State.freshDue (s : State) (k : Nat) : State :=
  match s.net[k]? with
  | some pk => if pk.late && decide (pk.due < s.tickEnd) then State.fresh k 512 s else s
  | none => s

/-- Every packet that a test accepts, that is due by a cycle and whose row is still to be read, is made ready. -/
def State.freshAll (s : State) (f : Packet → Bool) (t : Nat) : State :=
  (List.range s.net.length).foldl (fun s k =>
    match s.net[k]? with
    | some pk => if pk.late && f pk && decide (pk.due ≤ t) then State.fresh k 512 s else s
    | none => s) s

/-! ## Program flow (R76) -/

/-- Word after the one just issued, closing loops whose last word it is. -/
def nextPc : List LoopFrame → Nat → Nat × List LoopFrame
  | [], w => (w + 1, [])
  | f :: r, w =>
    if f.last = w then
      (if 0 < f.left then (f.first, { f with left := f.left - 1 } :: r) else nextPc r w)
    else (w + 1, f :: r)

/-! ## Issue (R74, R90, R99) -/

/-- What an instruction needs and does, as it stands in a given cycle: the rows it claims in groups of one claim cycle, what
it does with them `lat` cycles after the last claim, and its other effects. -/
structure Plan where
  trap : Option Nat := none
  ready : Bool := true
  groups : List (List Nat) := []
  use : RowUse := .scale
  lat : Nat := 0
  period : Nat := 1
  occ : Nat := 1
  cnt : Option Nat := none
  amount : Nat := 0
  take : Bool := false
  jump : Option (Nat × List LoopFrame) := none
  effect : Nat → State → State := fun _ s => s

def noPlan : Plan := {}

/-- The wait of R90 added to a plan; not for instructions that use bits [55:50] as an operand. -/
def withWait (c : Core) (e : Engine) (w : DWord) (p : Plan) : Plan :=
  let k := bits w 50 6
  match bits w 48 2 with
  | 0 => p
  | 1 => { p with cnt := some k, amount := 1, take := true }
  | 2 => { p with cnt := some k, amount := (c.eng e).wamt, take := true }
  | _ => { p with cnt := some k, amount := (c.eng e).wamt, take := false }

/-- Cause 3 where the wait names a disabled counter, else the plan's own cause (R99). -/
def Plan.cause (p : Plan) (c : Core) : Option Nat :=
  match p.trap with
  | some k => some k
  | none => match p.cnt with
    | some k => if c.cntOn k then none else some 3
    | none => none

def Plan.free (p : Plan) (c : Core) (e : Engine) (t : Nat) : Bool :=
  p.ready && (match p.cnt with | some k => decide (p.amount ≤ c.cnt k) | none => true) &&
    (match p.groups with
      | [] => true
      | g :: _ => c.banksFree t (enginePrio e) (wantBanks ((spread (c.wants 0 g)).headD [])))

/-- Whether an engine may issue at all: in a working beat that it began, not frozen, not ended, not trapped (R46, R99, R102,
R104). -/
def State.mayRun (s : State) (p : Nat) (e : Engine) : Bool :=
  let c := s.core p
  c.inBeat && !(c.eng e).eob && !(c.eng e).trapped && !(c.eng e).out && !s.on (DIE_CORE_CTL_freeze p)

/-- First cycle from `t` on in which the occupancy of the instruction before has elapsed and this one traps or issues, with the
core as it then stands, after the claims that come before it in the cycle (R74, R99, R152). -/
def State.issueCycle (s : State) (p : Nat) (e : Engine) (plan : State → Nat → Plan) : Nat → Nat → Option (State × Nat)
  | 0, _ => none
  | fuel + 1, t =>
    let u := s.ahead p t (enginePrio e)
    let c := u.core p
    if (c.eng e).ready ≤ t ∧ (((plan u t).cause c).isSome ∨ (plan u t).free c e t) then some (u, t)
    else s.issueCycle p e plan fuel (t + 1)

/-- A trap: recorded, raised, the engine stops for the beat (R99, R107). Of two traps of one cycle the one of the engine with the
lower number is recorded. -/
def State.trap (s : State) (p : Nat) (e : Engine) (pc cause : Nat) : State :=
  let s1 := s.onCore p (fun c => c.onEng e (fun x => { x with trapped := true }))
  let v := cause * 2 ^ 28 + engineCode e * 2 ^ 26 + pc
  let s2 := if s1.on (DIE_CORE_TRAP_valid p) then
      (if (s1.struck (DIE_CORE_TRAP p)).getLsbD 31 && decide (engineCode e < s1.get (DIE_CORE_TRAP_engine p)) then
        s1.wr (DIE_CORE_TRAP p) (BitVec.ofNat 32 (2 ^ 31 + v))
      else s1)
    else (s1.recordFirst (DIE_CORE_TRAP p) v).wr (DIE_CORE_TRAP_TICK p) (BitVec.ofNat 32 s.stamp)
  s2.report ⟨7, s.tick, s.ownerOfCore p, some p, 0, none, cause, 0, false⟩

/-- The instruction issues in cycle `t`: the wait's subtraction, the hold so far, the program flow, its effects, then its first
claim. -/
def State.issueAt (s : State) (p : Nat) (e : Engine) (t : Nat) (pl : Plan) (mismatch : Bool) : State :=
  let s0 := s.at t
  let c0 := (s0.core p).prune t
  let cycles := c0.claimCycles 0 pl.groups
  let extra := cycles.length - pl.groups.length
  let c1 := match pl.cnt with
    | some k => if pl.take then c0.cpSet (SPC_CNT_value k) (c0.cpGet (SPC_CNT_value k) - pl.amount) else c0
    | none => c0
  let s1 := pl.effect t (s0.setCore p (c1.onEng e (fun x =>
    let np := match pl.jump with | some j => j | none => nextPc x.loops x.pc
    { x with
      pc := np.1 % 16384, loops := np.2, ready := t + pl.occ + extra
      heldSum := x.heldSum + (t - x.ready) + extra, residue := x.residue || mismatch })))
  if cycles = [] then s1 else s1.grant p ⟨e, t, pl.period, cycles, [], pl.use, pl.lat⟩ t

/-- One instruction of an engine: it traps in the first cycle after the occupancy of the one before, or issues in the
first cycle of this tick that its wait and its interlocks allow, or is held (R74, R99). -/
def State.issue (s : State) (x : At) (e : Engine) (plan : State → Nat → Plan) : State :=
  if 9216 ≤ x.core ∨ !s.mayRun x.core e then s
  else
    let s0 := s.upset x.core x.upsets
    match s0.issueCycle x.core e plan (s0.tickEnd - s0.cycle) s0.cycle with
    | none => s0
    | some (u, t) =>
      let c := u.core x.core
      match (plan u t).cause c with
      | some k =>
        ((u.at t).onCore x.core (fun c => c.onEng e (fun y => { y with heldSum := y.heldSum + (t - y.ready) }))).trap
          x.core e (c.eng e).pc k
      | none => u.issueAt x.core e t (plan u t) x.mismatch

/-- Plan clock of an engine in cycle `t` (R47): it stands while the engine is held or its core is frozen since cycle `froze`
(R102), and runs on after a trap. -/
def Core.planClock (c : Core) (e : Engine) (t : Nat) (frozen : Bool) : Nat :=
  let x := c.eng e
  let now := if frozen then min t c.froze else t
  (if x.trapped || x.out then now else min now x.ready) - c.beat - x.heldSum

/-- Freeze of a core set or cleared. While it stands the plan clocks stand, also of an engine in the occupancy of an instruction
or trapped (R102): when it ends, the cycles of it in which the clock would have run are added to those in which it stood. -/
def State.setFreeze (s : State) (p : Nat) (b : Bool) : State :=
  if s.on (DIE_CORE_CTL_freeze p) = b then s
  else
    let s1 := s.setOn (DIE_CORE_CTL_freeze p) b
    if b then s1.onCore p (fun c => { c with froze := s.cycle })
    else
      (s1.settle p s.cycle).onCore p (fun c =>
        let from_ := max c.froze c.beat
        let stood := fun (x : Eng) =>
          { x with heldSum := x.heldSum + ((if x.trapped || x.out then s.cycle else min s.cycle x.ready) - from_) }
        { c with le := stood c.le, me := stood c.me, ve := stood c.ve, se := stood c.se })

/-! ## Operands shared by the engines -/

/-- Kind of an address (R86): 0 local, 1 remote, 2 Bay, 3 link. -/
def kindOf (a : AReg) : Nat := bits a 46 2

/-- Effective row of a scratchpad or link address: the carry out of bit 16 is lost (R86). -/
def effRow (a : AReg) (off : Nat) : Nat := (bits a 0 17 + off) % 2 ^ 17

/-- Effective row within a Bay page (R86). -/
def effBayRow (a : AReg) (off : Nat) : Nat := (bits a 0 15 + off) % 2 ^ 15

/-- Consecutive scratchpad rows of an access. -/
def rowsFrom (r n : Nat) : List Nat := (List.range n).map (fun j => (r + j) % 2 ^ 17)

def Core.live (c : Core) (row : Nat) : Nat := mapRow c.ranges row

def Core.liveRows (c : Core) (r n : Nat) : List Nat := (rowsFrom r n).map c.live

/-- Consecutive stage-buffer rows, wrapping within the buffer (R80). -/
def sbRows (buf row n : Nat) : List Nat := (List.range n).map (fun j => 512 * buf + (row + j) % 512)

def Core.sbAllFree (c : Core) (l : List Nat) : Bool := l.all (fun i => (lookup? c.sb i).isNone)

def Core.sbAllValid (c : Core) (l : List Nat) : Bool := l.all (fun i => ((lookup? c.sb i).any (fun r => r.data.isSome)))

def Core.sbData (c : Core) (i : Nat) : Row := match lookup? c.sb i with | some ⟨some d⟩ => d | _ => 0

/-- Release of valid rows, free for a read from the next cycle on (R79). -/
def Core.release (c : Core) (t : Nat) (l : List Nat) : Core :=
  c.laters ((l.filter (fun i => (lookup? c.sb i).any (fun r => r.data.isSome))).map (fun i => (t + 1, Eff.sbFree i)))

/-- Traps of a read of scratchpad rows: a register that is not of the local kind, or the trap region (R86, R99). -/
def readTrap (a : AReg) (rows : List Nat) : Option Nat :=
  if kindOf a ≠ 0 then some 5 else if rows.any (fun r => decide (trapRow ≤ r)) then some 1 else none

/-- Traps of a write by the core's own engine: also the weight-read-only rows (R156). -/
def Core.writeTrap (c : Core) (a : AReg) (rows : List Nat) : Option Nat :=
  match readTrap a rows with
  | some k => some k
  | none => if rows.any c.weightRow then some 2 else none

/-- Lowest free remote tag (R87). -/
def Core.freeTag (c : Core) : Option Nat := (List.range 16).find? (fun i => (lookup? c.tags i).isNone)

/-- Port of the Bay that a Bay address names. -/
def bayPort (b : Nat) : Nat := edgePort false (bayDie b)

/-- Groups of `n` elements. -/
def chunksOf {α : Type} (n : Nat) : Nat → List α → List (List α)
  | 0, _ => []
  | _ + 1, [] => []
  | fuel + 1, l => l.take n :: chunksOf n fuel (l.drop n)

/-- Reads of the load engine in flight: remote and Bay reads by their tags, local reads until their last row is valid
(R84). -/
def Core.readsOut (c : Core) : Nat :=
  (c.tags.filter (fun g => g.2.engine == .load)).length + (c.pend.filter (fun q => q.eff == .readEnd)).length

end Sys2Proof.Machine
end

