-- ==== Sys2Proof/Machine/Operands.lean ====
section
/-!
DEFINITION. The instruction word of R88 to R98: opcodes, the fields each operation uses, and the checks of R78 that the
loader makes on a word (opcode of the engine, reserved fields zero, defined formats and classes, wait mode).
-/

namespace Sys2Proof.Machine

def opcode (w : DWord) : Nat := bits w 56 8

/-- Mask of a field [hi:lo]. -/
def fmask (hi lo : Nat) : Nat := (2 ^ (hi - lo + 1) - 1) * 2 ^ lo

/-- Operand bits [47:0] that an operation uses (R92 to R98); bits outside are reserved and must be zero. -/
def usedMask (op : Nat) : Nat :=
  match op with
  | 0x00 => fmask 16 0
  | 0x01 => 0
  | 0x02 => fmask 23 0
  | 0x03 => fmask 23 0
  | 0x04 => fmask 29 0
  | 0x05 => fmask 47 44 + fmask 29 0
  | 0x06 => fmask 15 0
  | 0x07 => fmask 47 46 + fmask 5 0
  | 0x08 => fmask 47 46 + fmask 5 0
  | 0x09 => fmask 47 44 + fmask 32 0
  | 0x0A => fmask 47 42 + fmask 31 0
  | 0x0B => fmask 47 37 + fmask 16 0
  | 0x0C => fmask 43 27
  | 0x10 => fmask 47 27 + fmask 16 0
  | 0x11 => fmask 47 0
  | 0x12 => fmask 47 27 + fmask 18 0
  | 0x13 => fmask 47 27 + fmask 18 0
  | 0x40 => fmask 43 31 + fmask 26 0
  | 0x41 => fmask 47 22 + fmask 16 0
  | 0x42 => fmask 47 43 + fmask 26 23 + fmask 16 0
  | 0x43 => fmask 47 45 + fmask 7 0
  | 0x44 => fmask 26 23 + fmask 16 0
  | 0x45 => fmask 8 0
  | 0xC0 => fmask 47 30 + fmask 16 0
  | 0xC1 => fmask 47 30 + fmask 16 0
  | 0xC2 => fmask 47 44 + fmask 39 37 + fmask 16 0
  | _ => fmask 47 0

def engineCodeOf : Engine → Nat
  | .load => 0 | .matrix => 1 | .vector => 2 | .send => 3

/-- The opcode belongs to the common operations or to the engine (R91, R92 to R98). -/
def opcodeOk (e : Engine) (op : Nat) : Bool :=
  decide (op ≤ 0x0C) ||
    match e with
    | .load => decide (0x10 ≤ op ∧ op ≤ 0x13)
    | .matrix => decide (0x40 ≤ op ∧ op ≤ 0x45)
    | .vector => decide (0x80 ≤ op ∧ op ≤ 0x94)
    | .send => decide (0xC0 ≤ op ∧ op ≤ 0xC2)

/-- Operations that use bits [55:50] as an operand and so take no wait (R90). -/
def usesCounter (op : Nat) : Bool := decide (op = 0x02 ∨ op = 0xC0)

/-- Codes of the operand fields that R78 and R92 let pass. An amount, count, stride or number of entries outside the range a
table gives is no code: the operation runs with it (log entry 104). -/
def operandsOk (e : Engine) (w : DWord) : Bool :=
  match opcode w with
  | 0x04 => decide (1 ≤ bits w 16 14)
  | 0x05 => decide (1 ≤ bits w 16 14)
  | 0x07 => decide (bits w 46 2 ≠ engineCodeOf e)
  | 0x08 => decide (bits w 46 2 ≠ engineCodeOf e)
  | 0x0A => decide (bits w 42 2 ≤ 2)
  | 0x12 => decide (bits w 17 2 ≤ 2)
  | 0x13 => decide (bits w 17 2 = 1)
  | 0x40 => decide (bits w 41 3 ≤ 2)
  | 0x41 =>
    let f := bits w 33 3
    let blk := bits w 32 1
    decide (f ≠ 7 ∧ (f = 5 ∨ f = 6 → blk = 0) ∧ (f = 4 → blk = 1) ∧ (f = 6 → bits w 28 1 = 1))
  | 0x8A => decide (bits w 17 6 ≤ 1)
  | 0x8E => decide (bits w 17 6 ≤ 2)
  | 0x90 => decide (bits w 20 3 ≤ 3)
  | 0x92 => decide (bits w 17 6 ≤ 1)
  | 0xC0 => decide (bits w 32 2 ≤ 2)
  | 0xC1 => decide (bits w 32 2 = 1)
  | _ => true

/-- A word passes the checks of R78 that look at the word alone. -/
def wordOk (e : Engine) (w : DWord) : Bool :=
  opcodeOk e (opcode w) && operandsOk e w && decide ((w.toNat % 2 ^ 48) &&& (2 ^ 48 - 1 - usedMask (opcode w)) = 0) &&
    (!usesCounter (opcode w) || decide (bits w 48 2 = 0))

/-- A word that spells the operation `op` and passes R78. -/
def spells (e : Engine) (op : Nat) (w : DWord) : Bool := decide (opcode w = op) && wordOk e w

/-! ## Program regions (R78) -/

/-- Word `i` of a region given as a list. -/
def wordAt (ws : List DWord) (i : Nat) : DWord := ws.getD i 0

/-- Loop bodies of a region: (first, last) word of each LOOP and LOOPR. -/
def loopBodies (ws : List DWord) : List (Nat × Nat) :=
  (List.range ws.length).filterMap (fun i =>
    let w := wordAt ws i
    if opcode w = 0x04 ∨ opcode w = 0x05 then some (i + 1, i + bits w 16 14) else none)

/-- Target of a BR at word `i`. -/
def brTarget (ws : List DWord) (i : Nat) : Int := (i : Int) + signed (bits (wordAt ws i) 0 16) 16

def inBody (b : Nat × Nat) (i : Int) : Bool := decide ((b.1 : Int) ≤ i ∧ i ≤ (b.2 : Int))

/-- The checks of R78 on a whole region. R78 lists no check of loop bodies that overlap without one lying inside the other, for
which the nesting of R76 has no meaning: such a region is refused (log entry 118). -/
def regionOk (e : Engine) (ws : List DWord) : Bool :=
  let n := ws.length
  let bodies := loopBodies ws
  decide (1 ≤ n) && ws.all (wordOk e) && bodies.all (fun b => decide (b.2 < n)) &&
    (List.range n).all (fun i =>
      if opcode (wordAt ws i) = 0x06 then
        decide (0 ≤ brTarget ws i ∧ brTarget ws i < n) &&
          bodies.all (fun b => inBody b i == inBody b (brTarget ws i))
      else true) &&
    (List.range n).all (fun i => decide ((bodies.filter (fun b => inBody b i)).length ≤ 4)) &&
    bodies.all (fun a => bodies.all (fun b => decide (a.2 < b.1 ∨ b.2 < a.1 ∨ (a.1 ≤ b.1 ∧ b.2 ≤ a.2) ∨ (b.1 ≤ a.1 ∧ a.2 ≤ b.2)))) &&
    (List.range n).all (fun i => opcode (wordAt ws i) != 0x01 || bodies.all (fun b => !inBody b i)) &&
    (opcode (wordAt ws (n - 1)) == 0x01 || opcode (wordAt ws (n - 1)) == 0x06)

end Sys2Proof.Machine
end

