-- ==== Sys2Proof/Machine/CoreOps.lean ====
section
/-!
DEFINITION. The common operations of the engines (03_core_engines R92): NOP, EOB, WAIT, SETW, LOOP, LOOPR, BR, SIG, SWT,
SETA, ADDA, LDA and SBREL. A word that breaks R78 never reaches an engine, and is refused by name.
-/

namespace Sys2Proof.Machine

/-- The outcome of an engine operation: its effect, or the refusal of a word that spells something else or breaks R78. -/
def engineStep (ok : Bool) (s : State) : Host.Outcome State Fault Refusal :=
  if ok then .next s else .refused .undefinedWord

/-- Residue mismatches recorded against an engine are reported (R466). -/
def State.reportResidue (s : State) (p : Nat) (e : Engine) : State :=
  if ((s.core p).eng e).residue then
    (s.onCore p (fun c => c.onEng e (fun x => { x with residue := false }))).report
      ⟨(if e = .matrix then 3 else 4), s.tick, s.ownerOfCore p, some p, 0, none, 0, 0, false⟩
  else s

def planNop (e : Engine) (w : DWord) (p : Nat) (s : State) (_ : Nat) : Plan :=
  withWait (s.core p) e w { occ := bits w 0 17 + 1 }

/-- EOB (R77): the load engine waits for its reads, the send engine for its injections and acknowledgements. R77 does not say
whether EOB may issue in the very cycle in which the last row lands; it waits for the tag, which is released in the next cycle
(06_carrier_network, the read from stage 40; log entry 115). -/
def planEob (e : Engine) (w : DWord) (p : Nat) (s : State) (t : Nat) : Plan :=
  let c := s.core p
  let mine := c.tags.any (fun g => g.2.engine == e)
  withWait c e w
    { ready := match e with
        | .load => !mine
        | .send => !mine && decide (c.inject ≤ t)
        | _ => true
      jump := some ((c.eng e).pc, (c.eng e).loops)
      effect := fun t s =>
        (s.onCore p (fun c => c.onEng e (fun x => { x with eob := true, eobAt := t }))).reportResidue p e }

def planWait (w : DWord) (_ : State) (_ : Nat) : Plan :=
  { cnt := some (bits w 50 6), amount := bits w 0 24, take := true }

def planSetw (e : Engine) (w : DWord) (p : Nat) (s : State) (_ : Nat) : Plan :=
  withWait (s.core p) e w
    { effect := fun t s => s.onCore p (fun c => c.later (t + 1) (.wamt e (bits w 0 24))) }

/-- A loop of `count` runs of the `body` words after this one; none at a count of 0 (R76, R92). -/
def enterLoop (x : Eng) (body count : Nat) : Nat × List LoopFrame :=
  if count = 0 then nextPc x.loops (x.pc + body)
  else (x.pc + 1, ⟨x.pc + 1, x.pc + body, count - 1⟩ :: x.loops)

def planLoop (e : Engine) (w : DWord) (p : Nat) (s : State) (_ : Nat) : Plan :=
  let c := s.core p
  withWait c e w { jump := some (enterLoop (c.eng e) (bits w 16 14) (bits w 0 16 + 1)) }

def planLoopr (e : Engine) (w : DWord) (p : Nat) (s : State) (_ : Nat) : Plan :=
  let c := s.core p
  let n := min (bits (c.areg e (bits w 44 4)) 0 16) (bits w 0 16 + 1)
  withWait c e w { jump := some (enterLoop (c.eng e) (bits w 16 14) n) }

def planBr (e : Engine) (w : DWord) (p : Nat) (s : State) (_ : Nat) : Plan :=
  let c := s.core p
  let x := c.eng e
  withWait c e w { occ := 2, jump := some (((x.pc : Int) + signed (bits w 0 16) 16).toNat, x.loops) }

/-- Index of the signal counter of an ordered pair (R83). -/
def sigIndex (p c : Nat) : Nat := 4 * p + c

/-- Additions to a signal counter that are not yet visible. -/
def Core.sigComing (c : Core) (i : Nat) : Nat :=
  c.pend.foldl (fun n q => match q.eff with | .sig j k => if j = i then n + k else n | _ => n) 0

/-- First cycle in which every scratchpad write an engine has issued is readable (R83). -/
def Core.writesDone (c : Core) (e : Engine) : Nat :=
  c.pend.foldl (fun n q => match q.eff with | .pad (some f) _ _ => if f = e then max n q.due else n | _ => n) 0

def planSig (e : Engine) (w : DWord) (p : Nat) (s : State) (_ : Nat) : Plan :=
  let c := s.core p
  let i := sigIndex (engineCode e) (bits w 46 2)
  withWait c e w
    { ready := decide (lookupD 0 c.sig i + c.sigComing i + bits w 0 6 ≤ 63)
      effect := fun t s => s.onCore p (fun c => c.later (max (t + 2) (c.writesDone e)) (.sig i (bits w 0 6))) }

def planSwt (e : Engine) (w : DWord) (p : Nat) (s : State) (_ : Nat) : Plan :=
  let c := s.core p
  let i := sigIndex (bits w 46 2) (engineCode e)
  withWait c e w
    { ready := decide (bits w 0 6 ≤ lookupD 0 c.sig i)
      effect := fun _ s => s.onCore p (fun c => { c with sig := put c.sig i (lookupD 0 c.sig i - bits w 0 6) }) }

/-- SETA (R92) writes the half it names. Where an LDA lands in the same cycle, R75 lets the later-issued one prevail and does not
say what becomes of the bits that it does not name: they take the LDA's (log entry 116). -/
def planSeta (e : Engine) (w : DWord) (p : Nat) (s : State) (_ : Nat) : Plan :=
  let c := s.core p
  let r := bits w 44 4
  let f := if bits w 32 1 = 0 then (0, 32) else (32, 16)
  withWait c e w { effect := fun t s => s.onCore p (fun c => c.later (t + 1) (.areg e r f.1 f.2 (bits w 0 f.2))) }

/-- Bits of the field that ADDA adds to: the row, [14:0] of a Bay address and [16:0] of another; page [39:20]; core [45:32]
(R86, R92). -/
def addaField (a : AReg) : Nat → Nat × Nat
  | 0 => (0, if kindOf a = 2 then 15 else 17)
  | 1 => (20, 20)
  | _ => (32, 14)

/-- ADDA (R92) adds to the field as it stands at its issue and writes that field alone (log entry 116). -/
def planAdda (e : Engine) (w : DWord) (p : Nat) (s : State) (_ : Nat) : Plan :=
  let c := s.core p
  let r := bits w 44 4
  let f := addaField (c.areg e r) (bits w 42 2)
  let v := bits (c.areg e r) f.1 f.2 + bits w 0 32
  withWait c e w { effect := fun t s => s.onCore p (fun c => c.later (t + 1) (.areg e r f.1 f.2 v)) }

def planLda (e : Engine) (w : DWord) (p : Nat) (s : State) (_ : Nat) : Plan :=
  let c := s.core p
  let a := c.areg e (bits w 40 4)
  let row := c.live (effRow a (bits w 0 17))
  withWait c e w
    { trap := readTrap a [row]
      groups := [[row]], use := .areg (bits w 44 4) (bits w 37 3), lat := 6 }

def planSbrel (e : Engine) (w : DWord) (p : Nat) (s : State) (_ : Nat) : Plan :=
  withWait (s.core p) e w
    { effect := fun t s => s.onCore p (fun c =>
        c.release t (sbRows (bits w 42 2) (bits w 33 9) (bits w 27 6 + 1))) }

/-! ## Meanings -/

def execNop (e : Engine) (x : At) (w : DWord) (s : State) : Host.Outcome State Fault Refusal :=
  engineStep (spells e 0x00 w) (s.issue x e (planNop e w x.core))

def execEob (e : Engine) (x : At) (w : DWord) (s : State) : Host.Outcome State Fault Refusal :=
  engineStep (spells e 0x01 w) (s.issue x e (planEob e w x.core))

def execWait (e : Engine) (x : At) (w : DWord) (s : State) : Host.Outcome State Fault Refusal :=
  engineStep (spells e 0x02 w) (s.issue x e (planWait w))

def execSetw (e : Engine) (x : At) (w : DWord) (s : State) : Host.Outcome State Fault Refusal :=
  engineStep (spells e 0x03 w) (s.issue x e (planSetw e w x.core))

def execLoop (e : Engine) (x : At) (w : DWord) (s : State) : Host.Outcome State Fault Refusal :=
  engineStep (spells e 0x04 w) (s.issue x e (planLoop e w x.core))

def execLoopr (e : Engine) (x : At) (w : DWord) (s : State) : Host.Outcome State Fault Refusal :=
  engineStep (spells e 0x05 w) (s.issue x e (planLoopr e w x.core))

def execBr (e : Engine) (x : At) (w : DWord) (s : State) : Host.Outcome State Fault Refusal :=
  engineStep (spells e 0x06 w) (s.issue x e (planBr e w x.core))

def execSig (e : Engine) (x : At) (w : DWord) (s : State) : Host.Outcome State Fault Refusal :=
  engineStep (spells e 0x07 w) (s.issue x e (planSig e w x.core))

def execSwt (e : Engine) (x : At) (w : DWord) (s : State) : Host.Outcome State Fault Refusal :=
  engineStep (spells e 0x08 w) (s.issue x e (planSwt e w x.core))

def execSeta (e : Engine) (x : At) (w : DWord) (s : State) : Host.Outcome State Fault Refusal :=
  engineStep (spells e 0x09 w) (s.issue x e (planSeta e w x.core))

def execAdda (e : Engine) (x : At) (w : DWord) (s : State) : Host.Outcome State Fault Refusal :=
  engineStep (spells e 0x0A w) (s.issue x e (planAdda e w x.core))

def execLda (e : Engine) (x : At) (w : DWord) (s : State) : Host.Outcome State Fault Refusal :=
  engineStep (spells e 0x0B w) (s.issue x e (planLda e w x.core))

def execSbrel (e : Engine) (x : At) (w : DWord) (s : State) : Host.Outcome State Fault Refusal :=
  engineStep (spells e 0x0C w) (s.issue x e (planSbrel e w x.core))

end Sys2Proof.Machine
end

