-- ==== Sys2Proof/Machine/Scratchpad.lean ====
section
/-!
DEFINITION. The landing path, windows, arrival counters and control page of a core (05_scratchpad R149 to R171), remote
reads and their replies (06_carrier_network R177), the answers of the Bays (07_bays R204, R212), and the core reset
(03_core_engines R101).
-/

namespace Sys2Proof.Machine

/-! ## Windows and landing (R155 to R161) -/

/-- Bit of SPC_WIN_CTL that admits a writer (R164). -/
def writerBit : Writer → Nat
  | .host => 22 | .intake => 23 | .link => 24 | .sage => 25 | .core => 31 | .loader => 31

/-- Whether window `w` admits a row of a privileged writer (R157). -/
def Core.admits (c : Core) (w row : Nat) (by_ : Writer) : Bool :=
  let k := c.cpRd (SPC_WIN_CTL w)
  k.getLsbD 31 && k.getLsbD (writerBit by_) && decide (c.cpGet (SPC_WIN_BASE_base w) ≤ row) &&
    decide (row < c.cpGet (SPC_WIN_LIMIT_limit w)) && (!c.weightRow row || k.getLsbD 26)

/-- Lowest window that admits the row (R157). -/
def Core.window (c : Core) (row : Nat) (by_ : Writer) : Option Nat :=
  if trapRow ≤ row then none else (List.range 8).find? (fun w => c.admits w row by_)

/-- A counter raised for a row that lands in cycle `t`: visible from `t + 2`; an event if the counter is disabled. -/
def State.raiseCnt (s : State) (p k row t : Nat) (w : Writer) : State :=
  if (s.core p).cntOn k then s.onCore p (fun c => c.later (t + 2) (.cnt k row w))
  else (s.cpCount p SPC_CNTERR_disabled 1 t).landEvent p 3 k row w t

/-- A row of a fill of the standby ranges has landed in cycle `t`, or been dropped: after the last one the core's tag is set, a dropped
row ends the fill without it (R369, R370). -/
def Core.filled (c : Core) (t : Nat) (ok : Bool) : Core :=
  match c.fill with
  | none => c
  | some (e, n) =>
    if !ok then { c with fill := none }
    else if n ≤ 1 then { c with fill := none }.later (t + 1) (.tag e)
    else { c with fill := some (e, n - 1) }

/-- A row lands in cycle `t` (R156 to R160): checked, written, counted; its data readable from `t + 1`. SPC_LAND_LAST.counter has
a meaning for causes 3 and 4 only (R168): with cause 2 it holds the counter the SWR named, with cause 1 zero (log entry 119). -/
def State.land (s : State) (p t : Nat) (l : Landing) : State :=
  let c := s.core p
  let put := fun (s : State) => s.onCore p (fun c =>
    let c1 := c.later (t + 1) (.pad none l.row l.data)
    if l.writer = .intake then c1.filled t true else c1)
  match l.writer with
  | .loader => if trapRow ≤ l.row then s else put s
  | .core =>
    if c.weightRow l.row then (s.cpCount p SPC_DROPS_read_only 1 t).landEvent p 2 l.counter l.row .core t
    else (put s).raiseCnt p l.counter l.row t .core
  | w =>
    match c.window l.row w with
    | none =>
      (if w = .intake then s.onCore p (fun c => c.filled t false) else s).cpCount p SPC_DROPS_out_of_window 1 t
        |>.landEvent p 1 0 l.row w t
    | some k =>
      let ctl := c.cpRd (SPC_WIN_CTL k)
      if ctl.getLsbD 6 then (put s).raiseCnt p (bits ctl 0 6) l.row t w else put s

/-- The packet of the network that a test accepts and that arrives first, if it is due by a cycle; of those that arrive together
the one sent first. -/
def findDue (f : Packet → Bool) (t : Nat) (l : List Packet) : Option Nat :=
  (((List.range l.length).zip l).filter (fun x => f x.2 && decide (x.2.due ≤ t))).foldl
    (fun (b : Option (Nat × Nat)) x => match b with
      | some y => if x.2.due < y.2 then some (x.1, x.2.due) else b
      | none => some (x.1, x.2.due)) none |>.map (·.1)

def isWriteTo (p : Nat) (k : Packet) : Bool := k.kind == .write && decide (k.node < 72) && k.core == p

/-- Rows that have arrived by cycle `t` enter the landing buffer while it has room, those that found it full in cycle `since`;
those a router drops are dropped. -/
def State.admitRows (s : State) (p t since : Nat) : Nat → State
  | 0 => s
  | fuel + 1 =>
    if 8 ≤ (s.core p).landing.length then s
    else match findDue (isWriteTo p) t s.net with
      | none => s
      | some k =>
        match s.net[k]? with
        | none => s
        | some pk =>
          match s.deliveryDrop pk with
          | some cause => ((s.netDrop (p / 128) cause pk).dropNet k).admitRows p t since fuel
          | none =>
            ((s.dropNet k).onCore p (fun c => { c with landing := c.landing ++
              [⟨pk.row, pk.data, pk.writer, pk.counter, max pk.due since, pk.op⟩] })).admitRows p t since fuel

/-- A row that has lost in 8 consecutive cycles is promoted (R155). -/
def Landing.promoted (l : Landing) (t : Nat) : Bool := decide (l.since + 8 ≤ t)

/-- Whether row `i` of the buffer may be written in cycle `t`: it is there, no older row wants its bank, fewer than four rows
have been written in the cycle, the bank is free for its place in the order. -/
def Core.mayLand (c : Core) (t i : Nat) : Bool :=
  match c.landing[i]? with
  | none => false
  | some l =>
    let b := c.bank l.row
    let prio := if l.promoted t then 2 else 7
    decide (l.since ≤ t) && (c.landing.take i).all (fun o => c.bank o.row != b) &&
      decide ((c.claims.filter (fun k => k.cycle == t && (k.prio == 2 || k.prio == 7))).length < 4) &&
      c.banksFree t prio [b] && !(c.claims.any (fun k => k.cycle == t && k.bank == b && k.prio == prio))

/-- The oldest row, promoted or not, that may be written in cycle `t`. -/
def Core.nextLanding (c : Core) (t : Nat) (pro : Bool) : Option Nat :=
  (List.range c.landing.length).find? (fun i => (c.landing[i]?).any (fun l => l.promoted t == pro) && c.mayLand t i)

/-- First cycle from `t` on in which a row of the buffer is written, with the row and the state in which its claim is made:
promoted rows before the engines, the others after them (R152). -/
def State.landCycle (s : State) (p : Nat) : Nat → Nat → Option (State × Nat × Nat)
  | 0, _ => none
  | fuel + 1, t =>
    let u := (s.admitRows p t 0 8).settle p t
    match (u.core p).nextLanding t true with
    | some i => some (u, t, i)
    | none =>
      let v := u.runCycle p t 7
      match (v.core p).nextLanding t false with
      | some i => some (v, t, i)
      | none => s.landCycle p fuel (t + 1)

/-- ROW_LAND: the next row of the landing buffer lands in the first cycle of this tick that grants it. -/
def State.rowLand (s : State) (p : Nat) : State :=
  let s0 := s.freshAll (isWriteTo p) (s.tickEnd - 1)
  match s0.landCycle p (s0.tickEnd - s0.cycle) s0.cycle with
  | none => s0.admitRows p s0.cycle 0 8
  | some (v, t, i) =>
    let u := v.at t
    let c := (u.core p).prune t
    match c.landing[i]? with
    | none => u
    | some l =>
      let prio := if l.promoted t then 2 else 7
      let c1 := c.displace t prio [c.bank l.row]
      let c2 : Core :=
        { c1 with
          claims := c1.claims ++ [⟨t, c.bank l.row, prio⟩]
          landing := eraseAt c1.landing i }
      ((u.setCore p c2).land p t l).admitRows p t (t + 1) 8

/-! ## Remote reads (R177) -/

/-- The reply rows of a read, one row every 2 cycles from cycle `t` on, injected by the router of the die `enter`, or by that of
the cluster: their data, or rows that are still to be read (R177). -/
def State.reply (s : State) (pk : Packet) (source : Nat) (enter : Option Nat) (rows : List (Option Row)) (t : Nat) : State :=
  ((List.range rows.length).zip rows).foldl (fun s x =>
    let q : Packet :=
      { pk with
        kind := .readReply, source := source, node := nodeOf pk.source, core := pk.source, row := 0
        rows := rows.length - 1 - x.1, total := rows.length, data := x.2.getD 0, late := x.2.isNone, enter := enter }
    s.inject q (t + 2 * x.1)) s

/-- The first row of the read of a request is claimed: the core's accesses up to the cycle in this tick that grants it, and the
clock there (R177). -/
def State.serveFirst (s : State) (p : Nat) (q : Packet) : Nat → Nat → State
  | 0, _ => s
  | fuel + 1, t =>
    let u := s.ahead p t 10
    if (u.core p).serves.any (fun x => x.request.source == q.source && x.request.tag == q.tag && x.row == 0) then
      State.serveFirst s p q fuel (t + 1)
    else u.at t

/-- REMOTE_READ_SERVE: the request `k` of the network is taken up on the landing path of its target core. Each of its rows makes a
claim of its own, one row in 2 cycles, and leaves the cluster's router once it is read. -/
def State.remoteServe (s : State) (k : Nat) (us : List Upset) : State :=
  match s.net[k]? with
  | none => s
  | some pk =>
    if pk.kind ≠ .readReq ∨ 72 ≤ pk.node ∨ s.tickEnd ≤ pk.due then s
    else
      let p := pk.core
      let s0 := s.at pk.due
      match s0.deliveryDrop pk with
      | some cause => (s0.netDrop (p / 128) cause pk).dropNet k
      | none =>
        let u := ((s0.upset p us).settle p s0.cycle).dropNet k
        let v := u.onCore p (fun c => { c with serves := c.serves ++ [⟨pk, 0, s0.cycle, s0.cycle - pk.due⟩] })
        (v.reply pk p none (List.replicate (pk.rows + 1) none) s0.cycle).serveFirst p pk (s0.tickEnd - s0.cycle) s0.cycle

/-- READ_REPLY_LAND: a reply row lands in its stage-buffer row, valid one cycle later; with the last row the tag is released then
(R79, R87). -/
def State.replyLand (s : State) (k : Nat) : State :=
  match s.net[k]? with
  | none => s
  | some pk =>
    if pk.kind ≠ .readReply ∨ s.tickEnd ≤ pk.due then s
    else
      let p := pk.core
      let s0 := (s.at pk.due).dropNet k
      match s0.deliveryDrop pk with
      | some cause => s0.netDrop (p / 128) cause pk
      | none => s0.onCore p (fun c =>
          match lookup? c.tags pk.tag with
          | none => c
          | some g =>
            let j := pk.total - 1 - pk.rows
            let i := g.sb / 512 * 512 + (g.sb % 512 + j) % 512
            let c1 := c.later (s0.cycle + 1) (.sb i pk.data)
            if g.left ≤ 1 then c1.later (s0.cycle + 1) (.tagFree pk.tag)
            else { c1 with tags := put c1.tags pk.tag { g with left := g.left - 1 } })

/-- BAY_WRITE_ACK: an acknowledgement arrives and frees the send engine's tag (R204), unless the destination's routers drop it
(R183). -/
def State.bayAck (s : State) (k : Nat) : State :=
  match s.net[k]? with
  | none => s
  | some pk =>
    if pk.kind ≠ .bayAck ∨ s.tickEnd ≤ pk.due then s
    else
      let s0 := (s.at pk.due).dropNet k
      match s0.deliveryDrop pk with
      | some cause => s0.netDrop (pk.core / 128) cause pk
      | none => s0.onCore pk.core (fun c => { c with tags := del c.tags pk.tag })

/-- An engine that stands held since the end of its last instruction, up to now: the cycles count (R47). -/
def Core.countHeld (c : Core) (e : Engine) (t : Nat) : Core :=
  if c.inBeat && !(c.eng e).eob && !(c.eng e).trapped && !(c.eng e).out then
    c.onEng e (fun x => { x with heldSum := x.heldSum + (t - x.ready) })
  else c

/-- BAY_REFUSAL_NOTICE: the engine that holds the tag traps with cause 4 at the refused word and frees the tag (R212), unless
the destination's routers drop the notice (R183). -/
def State.refusalNotice (s : State) (k : Nat) : State :=
  match s.net[k]? with
  | none => s
  | some pk =>
    if pk.kind ≠ .control ∨ s.tickEnd ≤ pk.due then s
    else
      let s0 := ((s.at pk.due).dropNet k).settle pk.core (s.at pk.due).cycle
      match s0.deliveryDrop pk with
      | some cause => s0.netDrop (pk.core / 128) cause pk
      | none =>
        match lookup? (s0.core pk.core).tags pk.tag with
        | none => s0
        | some g =>
          (s0.onCore pk.core (fun c => { c.countHeld g.engine s0.cycle with tags := del c.tags pk.tag })).trap
            pk.core g.engine g.pc 4

/-! ## Patrol (R151) -/

/-- The row of a bank at a row-in-bank. -/
def Core.rowAt (c : Core) (bank q : Nat) : Nat :=
  ((List.range 32).map (fun i => 32 * q + i)).find? (fun r => c.bank r == bank) |>.getD (32 * q + bank)

/-- A patrol's claim on a bank. -/
def Core.patrolClaim (c : Core) (t bank : Nat) : Core := { c with claims := c.claims ++ [⟨t, bank, 9⟩] }

/-- SCRATCHPAD_PATROL_READ: in a cycle without another claim on the bank, the patrol writes back the row that it has corrected, or
reads its next row. -/
def State.padPatrol (s : State) (p bank : Nat) (u : Option Upset) : State :=
  let v := s.ahead p s.cycle 10
  let c := v.core p
  if c.cpOn SPC_PATROL_enable && decide (bank < 32) && !(c.claims.any (fun k => k.cycle == s.cycle && k.bank == bank)) then
    match lookup? c.fixes bank with
    | some row =>
      v.onCore p (fun c =>
        { c.patrolClaim s.cycle bank with marks := del c.marks row, fixes := del c.fixes bank })
    | none =>
      let n := lookupD 0 c.patrol bank
      let row := c.rowAt bank (n % 3072)
      let s1 := v.upset p (match u with | some x => [{ x with row := row }] | none => [])
      let s2 := (s1.eccRow p row s.cycle true).1
      let s3 := s2.onCore p (fun c => { c.patrolClaim s.cycle bank with patrol := put c.patrol bank (n + 1) })
      if (n + 1) % 3072 = 0 ∧ (List.range 32).all (fun b => decide ((n + 1) / 3072 ≤ lookupD 0 (s3.core p).patrol b / 3072)) then
        s3.cpCount p SPC_PATROL_passes 1 s.cycle
      else s3
  else s

/-! ## Control page writes (R158, R161, R164) -/

/-- Whether the control page may write a counter now (R161). -/
def State.cntWritable (s : State) (p : Nat) : Bool :=
  s.on (DIE_CORE_CTL_freeze p) || (match s.ownerOfCore p with
    | some n => !s.on (BEAT_PLAN_CTL_active n)
    | none => true)

/-- A write to a counter, enabled or not (R161, R171): what has become visible before counts no more, what becomes visible later is
added. -/
def State.writeCnt (s : State) (p k : Nat) (v : Word) : State :=
  let u := s.settle p s.cycle
  if u.cntWritable p then u.onCore p (fun c => c.cpSet (SPC_CNT_value k) (bits v 0 24)) else u

/-- A write to a window control takes effect with the next cycle: a row that lands in this one is checked against the windows as
they stand (R158). -/
def State.writeWinCtl (s : State) (p w : Nat) (v : Word) : State :=
  (s.settle p s.cycle).onCore p (fun c => c.later (s.cycle + 1) (.winCtl w v))

/-! ## Core reset (R101) -/

/-- Counters that are enabled take their SPC_CNT_INIT values (R161). -/
def Core.initCounters (c : Core) : Core :=
  (List.range 64).foldl (fun c n => if c.cntOn n then c.cpSet (SPC_CNT_value n) (c.cpGet (SPC_CNT_INIT_init n)) else c) c

/-- A row is written at once, with check bytes of its own (R148). -/
def Core.writeRow (c : Core) (row : Nat) (d : Row) : Core := (c.apply (.pad none row d)).1

/-- A core reset: engine state to zero, free or empty, WAMT to 1, tags released; scratchpad, programs and the rest of
the control page unchanged. Writes already issued to the scratchpad stand; rows not read yet are not sent. -/
def Core.clear (c : Core) : Core :=
  let c1 := c.pend.foldl (fun c q => match q.eff with
    | .pad _ r d => c.writeRow r d
    | .winCtl w v => c.writeWinCtl w v
    | _ => c) c
  let c2 := c.runs.foldl (fun c r => match r.use with | .write l => l.foldl (fun c x => c.writeRow x.1 x.2) c | _ => c) c1
  { Core.reset with
    pad := c2.pad, marks := c2.marks, fixes := c2.fixes, patrol := c.patrol, imem := c.imem, cp := c2.cp
    ranges := c.ranges, standby := c2.standby, serves := c.serves, froze := c.froze
    claims := c.claims }.initCounters

def State.coreReset (s : State) (p : Nat) : State :=
  let u := s.settle p s.cycle
  { u with net := u.net.filter (fun k => !sendLate p k) }.onCore p Core.clear |>.setOn (DIE_CORE_CTL_lock p) false

/-- Reset of a core's control page (R162): every field at its reset value. -/
def State.pageReset (s : State) (p : Nat) : State :=
  s.onCore p (fun c =>
    { c with
      cp := []
      pend := c.pend.filter (fun q => match q.eff with | .cnt _ _ _ => false | .winCtl _ _ => false | _ => true) })

/-! ## Meanings -/

def execRowLand (p : Nat) (s : State) : Host.Outcome State Fault Refusal :=
  .next (if p < 9216 then s.rowLand p else s)

def execRemoteReadServe (k : Nat) (us : List Upset) (s : State) : Host.Outcome State Fault Refusal :=
  .next (s.remoteServe k us)

def execReadReplyLand (k : Nat) (s : State) : Host.Outcome State Fault Refusal := .next (s.replyLand k)

def execBayWriteAck (k : Nat) (s : State) : Host.Outcome State Fault Refusal := .next (s.bayAck k)

def execBayRefusalNotice (k : Nat) (s : State) : Host.Outcome State Fault Refusal := .next (s.refusalNotice k)

def execScratchpadPatrolRead (p bank : Nat) (u : Option Upset) (s : State) : Host.Outcome State Fault Refusal :=
  .next (if p < 9216 ∧ bank < 32 then s.padPatrol p bank u else s)

def execSpcWinCtlWrite (p w : Nat) (v : Word) (s : State) : Host.Outcome State Fault Refusal :=
  .next (if p < 9216 ∧ w < 8 ∧ s.powered then s.writeWinCtl p (w % 8) v else s)

def execSpcCntWrite (p k : Nat) (v : Word) (s : State) : Host.Outcome State Fault Refusal :=
  .next (if p < 9216 ∧ k < 64 ∧ s.powered then s.writeCnt p (k % 64) v else s)

end Sys2Proof.Machine
end

