-- ==== Sys2Proof/Machine/Shares.lean ====
section
/-!
DEFINITION. How an arbiter divides its grants among the partitions that wait at it, by their effective shares (13_partitions
R390): which partition is served next, and what the grant leaves behind.
-/

namespace Sys2Proof.Machine

/-- Arbiter of a Bay controller. -/
def bayArbiter (b : Nat) : Nat := b

/-- Arbiter of a port's egress scheduler. -/
def linkArbiter (port : Nat) : Nat := 32 + port

/-- The first member of a list with the least measure. -/
def firstLeast (f : Nat → Nat) : List Nat → Option Nat
  | [] => none
  | a :: l => match firstLeast f l with
    | none => some a
    | some b => if f b < f a then some b else some a

/-- A partition with share `e` may have its next grant: it has had no more than `e` of each 256 (R390). -/
def Turn.due (t : Turn) (e : Nat) : Bool := decide (256 * t.got ≤ e * t.grants)

/-- Grants within which its next grant must come, so that of any run of G grants throughout which it waits it gets at least
⌊G × e ÷ 256⌋ − 1 (R390). -/
def Turn.slack (t : Turn) (e : Nat) : Nat := ceilDiv (256 * (t.got + 1)) e - t.grants

def State.turn (s : State) (arb n : Nat) : Turn := lookupD ⟨0, 0⟩ s.turns (64 * arb + n)

/-- The partition with a share that is served next: of those whose next grant is due the one with the least slack, else, so that
no capacity idles, of all of them. -/
def State.pickShared (s : State) (arb : Nat) (share : Nat → Nat) (l : List Nat) : Option Nat :=
  let ready := l.filter (fun n => (s.turn arb n).due (share n))
  firstLeast (fun n => (s.turn arb n).slack (share n)) (if ready = [] then l else ready)

/-- The partition without a share that is served next: the one that follows the last one served in ascending rotation. -/
def State.pickRotor (s : State) (arb : Nat) (l : List Nat) : Option Nat :=
  match lookup? s.rotors arb with
  | none => l.head?
  | some last => match l.find? (fun n => decide (last < n)) with
    | some n => some n
    | none => l.head?

/-- The partition that an arbiter serves next, of those that wait in ascending order; one without a share only while none with a
share waits (R390). -/
def State.pick (s : State) (arb : Nat) (share : Nat → Nat) (waiting : List Nat) : Option Nat :=
  let shared := waiting.filter (fun n => share n != 0)
  if shared = [] then s.pickRotor arb waiting else s.pickShared arb share shared

/-- A turn after one more grant, which the partition got or not. A grant that was not due yet begins the turn anew. -/
def Turn.next (t : Turn) (e : Nat) (won : Bool) : Turn :=
  if won && !t.due e then ⟨0, 0⟩ else ⟨t.grants + 1, t.got + b2n won⟩

/-- The grant of an arbiter to partition `n`: the turns of those that wait, and of those whose last grant came early, go on; the
others end. -/
def State.granted (s : State) (arb : Nat) (share : Nat → Nat) (waiting : List Nat) (n : Nat) : State :=
  if share n = 0 then { s with rotors := put s.rotors arb n }
  else
    each (fun m (t : State) =>
      let key := 64 * arb + m
      if waiting.contains m && share m != 0 then
        { t with turns := put t.turns key ((t.turn arb m).next (share m) (m == n)) }
      else match lookup? t.turns key with
        | none => t
        | some x =>
          let y := x.next (share m) false
          { t with turns := if y.due (share m) then del t.turns key else put t.turns key y }) (List.range 64) s

/-- Classes 1 and 2 of a partition at a Bay: three grants of class 1 to one of class 2 while both wait (R203). -/
def State.classPick (s : State) (key : Nat) (one two : Bool) : Nat :=
  if one && (!two || decide (lookupD 0 s.classTurn key < 3)) then 1 else 2

def State.classGrant (s : State) (key cls : Nat) (both : Bool) : State :=
  { s with classTurn := if both && cls == 1 then put s.classTurn key (lookupD 0 s.classTurn key + 1) else del s.classTurn key }

end Sys2Proof.Machine
end

