-- ==== Sys2Proof/Machine/Bays.lean ====
section
/-!
DEFINITION. The Bays, the page map, the map unit and the page mover (07_bays).
-/

namespace Sys2Proof.Machine

/-! ## Rows of a Bay -/

def pagesPerBay : Nat := 45776
def noSlot : Nat := 0xFFFFF

def bayRow (y : Bay) (page row : Nat) : Row :=
  BitVec.ofNat 512 (ofBytes ((List.range 64).map (fun i => padByte y.mem (2097152 * page + 64 * row + i))))

def Bay.setRow (y : Bay) (page row : Nat) (d : Row) : Bay :=
  { y with
    mem := (List.range 64).foldl
      (fun m i => wrAt (fun _ => 0) m (2097152 * page + 64 * row + i) (BitVec.ofNat 8 (byteAt d.toNat i))) y.mem
    marks := del y.marks (32768 * page + row) }

/-! ## Owner entries (R211, R225) -/

def Bay.own (y : Bay) (page : Nat) : Half := lookupD 0 y.owner page
def Bay.setOwn (y : Bay) (page : Nat) (v : Half) : Bay := { y with owner := put y.owner page v }

def ownEntry (part : Nat) (ro shared moving : Bool) : Half :=
  BitVec.ofNat 16 (2 ^ 15 + b2n ro * 2 ^ 14 + b2n shared * 2 ^ 13 + b2n moving * 2 ^ 11 + part % 64)

def Bay.setOwnBit (y : Bay) (page i : Nat) (b : Bool) : Bay := y.setOwn page (setBits (y.own page) i 1 (b2n b))

/-- Cause of a refusal of a Bay-kind packet (R211). -/
def Bay.refuses (y : Bay) (pk : Packet) (write : Bool) : Option Nat :=
  let o := y.own pk.page
  let core := decide (pk.source ≠ 0x3FFF)
  if pagesPerBay ≤ pk.page then some 4
  else if !o.getLsbD 15 then some 1
  else if core && decide (bits o 0 6 ≠ pk.part) && (write || !o.getLsbD 13) then some 1
  else if core && write && o.getLsbD 14 then some 2
  else if write && o.getLsbD 12 then some 3
  else none

/-- A refused operation: counted, recorded, raised; a notice to a core that sent it (R212). -/
def State.bayRefuse (s : State) (b cause : Nat) (pk : Packet) (write : Bool) : State :=
  let s1 := (s.bump (BAY_REFUSE_count b) 1).recordFirst (BAY_REFUSE_LAST b)
    (cause * 2 ^ 28 + pk.part * 2 ^ 22 + b2n write * 2 ^ 21 + pk.page % 2 ^ 16)
  let core := decide (pk.source ≠ 0x3FFF)
  let s2 := s1.report ⟨8, s.tick, some pk.part, none, b,
    (if core then s.logicalOf pk.part pk.source else none), 8 + cause, pk.page, false⟩
  if core then
    let n : Packet :=
      { pk with
        cls := 3, kind := .control, source := 0x3FFF, node := nodeOf pk.source, core := pk.source, due := 0, fails := 0
        enter := some (bayDie b), writer := .sage }
    s2.inject n s.cycle
  else s2

/-! ## Page map slots (R213) -/

def State.slot (s : State) (i : Nat) : Nat := s.pair (PAGE_MAP i 0) (PAGE_MAP i 1)
def State.setSlot (s : State) (i v : Nat) : State := s.setPair (PAGE_MAP i 0) (PAGE_MAP i 1) v
def slotValid (v : Nat) : Bool := v.testBit 5
def slotPage (v : Nat) : Nat := field v 44 20
def slotNext (v : Nat) : Nat := field v 24 20
def slotFill (v : Nat) : Nat := field v 12 12
def slotEpoch (v : Nat) : Nat := field v 6 6

def State.slotLive (s : State) (i : Nat) : Bool := decide (i < noSlot) && slotValid (s.slot i)

/-- The slots of a list from its head on, at most `fuel`; a slot that is not valid ends it (R216). -/
def State.listFrom (s : State) : Nat → Nat → List Nat
  | 0, _ => []
  | fuel + 1, i => if s.slotLive i then i :: s.listFrom fuel (slotNext (s.slot i)) else []

/-- A home copy with an uncorrectable row in one of its pages is damaged, in every partition that names it (R367). -/
def State.damage (s : State) (b page : Nat) : State :=
  each (fun (h : Nat × Home) (t : State) =>
    if (t.listFrom noSlot h.2.head).any (fun i => slotPage (t.slot i) == pagesPerBay * b + page) then
      each (fun (q : Nat × PartSt) (u : State) =>
        if q.2.layout.any (fun l => l.home == some h.1) then u.setOn (PART_WGT_STAT_damaged q.1) true else u) t.parts
        { t with homes := put t.homes h.1 { h.2 with damaged := true } }
    else t) s.homes s

/-! ## Check code (R207, R208) -/

/-- A row read in a Bay: corrected or reported; `byPart` is the reading partition, if a core reads. -/
def State.bayEcc (s : State) (b page row : Nat) (patrol : Bool) (byPart : Option Nat) : State :=
  let y := s.bay b
  match lookup? y.marks (32768 * page + row) with
  | none => s
  | some k =>
    if k.fatal = [] then
      (s.setBay b { y with marks := del y.marks (32768 * page + row) }).bump (BAY_ECC_CNT_corrected b) 1
    else
      let s1 := s.bump (BAY_ECC_CNT_uncorrected b) 1
      let s2 := if s1.on (BAY_ECC_LAST_valid b) then s1
        else (((s1.recordFirst (BAY_ECC_LAST b) (b2n patrol * 2 ^ 30 + page)).wr (BAY_ECC_LAST_ROW b)
          (BitVec.ofNat 32 row)).wr (BAY_ECC_LAST_TICK b) (BitVec.ofNat 32 s.stamp))
      (s2.damage b page).report ⟨2, s.tick, byPart, none, b, none, row, page, patrol⟩

/-- Upsets in rows of a page: the rows marked, the bits of an uncorrectable word as they now stand (R207, R208). -/
def State.bayUpset (s : State) (b page : Nat) (us : List Upset) : State :=
  if us = [] then s
  else s.onBay b (fun y => us.foldl (fun (y : Bay) u =>
    let z := if u.fatal then y.setRow page u.row (upsetRow (bayRow y page u.row) u) else y
    { z with marks := addMark y.marks { u with row := 32768 * page + u.row } }) y)

/-! ## Serving (R203 to R206) -/

/-- Bay `b` refreshes in this tick (R54, R206). -/
def State.refreshing (s : State) (b : Nat) : Bool := s.running && s.tick % 18 == b

/-- The Bay serves packets of a source now: usable, not refreshing, and before the tick counter runs only the steward's. -/
def State.bayServes (s : State) (b : Nat) (pk : Packet) : Bool :=
  s.bayUsable b && !s.refreshing b && (s.running || pk.source == 0x3FFF)

/-- Insertion by arrival, behind those that arrived in the same cycle and left earlier. -/
def insertDue : List (Nat × Packet) → Nat × Packet → List (Nat × Packet)
  | [], x => [x]
  | y :: r, x => if x.2.due < y.2.due then x :: y :: r else y :: insertDue r x

/-- What a Bay has queued in cycle `t`, in the order of arrival: of those that its port has let in, the first 64 read requests and
256 write rows (R190, R203). -/
def State.bayQueue (s : State) (b t : Nat) : List (Nat × Packet) :=
  let l := (((List.range s.net.length).zip s.net).filter (fun x =>
    x.2.node == 72 + b && decide (x.2.due ≤ t) && !x.2.late && s.mayPass false (bayDie b) x.2)).foldl insertDue []
  let reads := (l.filter (fun x => x.2.kind == .readReq)).take 64
  let writes := (l.filter (fun x => x.2.kind == .bayWrite)).take 256
  l.filter (fun x => reads.any (fun y => y.1 == x.1) || writes.any (fun y => y.1 == x.1))

/-- Rows of a page that a read request or a write row names. -/
def Packet.pageRows (p : Packet) : List Nat :=
  if p.kind = .readReq then (List.range (p.rows + 1)).map (fun j => (p.row + j) % 32768) else [p.row % 32768]

/-- Two operations on one row of a page, of which one writes: they keep the order of their arrival (R205). -/
def conflict (p q : Packet) : Bool :=
  p.page == q.page && (p.kind == .bayWrite || q.kind == .bayWrite) && p.pageRows.any (fun r => q.pageRows.contains r)

/-- The queued work that waits for no earlier operation on one of its rows. -/
def clearOf : List (Nat × Packet) → List (Nat × Packet) → List (Nat × Packet)
  | _, [] => []
  | before, x :: r => (if before.any (fun y => conflict y.2 x.2) then [] else [x]) ++ clearOf (before ++ [x]) r

def State.bayShare (s : State) (n : Nat) : Nat := s.get (PART_RES_SHARE_EFF_bay n)

/-- The packet that a Bay serves next in cycle `t`, with the grant accounted: of the partition that its weight gives the grant,
class 1 before class 2 three to one, the oldest first (R203, R390). -/
def State.bayNext (s : State) (b t : Nat) : Option (Nat × State) :=
  let l := clearOf [] (s.bayQueue b t)
  let waiting := (List.range 64).filter (fun n => l.any (fun x => x.2.part == n))
  match s.pick (bayArbiter b) s.bayShare waiting with
  | none => none
  | some n =>
    let mine := l.filter (fun x => x.2.part == n)
    let two := fun (x : Nat × Packet) => x.2.cls == 2
    let key := 64 * bayArbiter b + n
    let cls := s.classPick key (mine.any (fun x => !two x)) (mine.any two)
    let s1 := (s.granted (bayArbiter b) s.bayShare waiting n).classGrant key cls (mine.any (fun x => !two x) && mine.any two)
    (mine.find? (fun x => two x == (cls == 2))).map (fun x => (x.1, s1))

/-- Packet `k` taken up by its Bay, which serves it next: the clock at its arrival, the packet gone from the network. -/
def State.bayTake (s : State) (k : Nat) (kind : Kind) : Option (State × Nat × Packet) :=
  match s.net[k]? with
  | none => none
  | some pk =>
    let b := pk.node - 72
    let s0 := s.at pk.due
    if pk.kind == kind && decide (72 ≤ pk.node ∧ pk.node < 90) && decide (pk.due < s.tickEnd) && s0.bayServes b pk then
      match s0.bayNext b s0.cycle with
      | some (j, t) => if j = k then some (t.dropNet k, b, pk) else none
      | none => none
    else none

/-- Rows count against the partition's budget; those of class 3 against none (R189, R190). -/
def State.bayCharge (s : State) (b n : Nat) (pk : Packet) : State :=
  if pk.cls = 3 then s else s.charge false (bayDie b) pk.part n

/-- Rows of a page read: checked, counted at the Bay and at its port (R207, R208, R226). -/
def State.bayRows (s : State) (b page : Nat) (rows : List Nat) (byPart : Option Nat) : State :=
  ((each (fun r (t : State) => t.bayEcc b page r false byPart) rows s).bump (BAY_ROWS_RD_count b) rows.length).portRows false
    (bayDie b) rows.length

/-- BAY_READ_REQUEST: the controller serves request `k` and injects its reply rows, or refuses it. -/
def State.bayRead (s : State) (k : Nat) (us : List Upset) : State :=
  match s.bayTake k .readReq with
  | none => s
  | some (t, b, pk) =>
    let s0 := t.bayCharge b (pk.rows + 1) pk
    match (s0.bay b).refuses pk false with
    | some cause => s0.bayRefuse b cause pk false
    | none =>
      let s1 := s0.bayUpset b pk.page us
      let data := pk.pageRows.map (fun r => some (bayRow (s1.bay b) pk.page r))
      let s2 := s1.bayRows b pk.page pk.pageRows (some pk.part)
      s2.reply pk 0x3FFF (some (bayDie b)) data s2.cycle

/-- A row written in a Bay, mirrored where a move has already copied it (R218 step 3). -/
def State.bayStore (s : State) (b page row : Nat) (d : Row) : State :=
  let y := s.bay b
  let y1 := y.setRow page row d
  let y2 := match y.move with
    | some m => if m.old = page ∧ row < s.get (BAY_MOVE_STAT_cursor b) then y1.setRow m.new row d else y1
    | none => y1
  (s.setBay b y2).bump (BAY_ROWS_WR_count b) 1

/-- Key of one SWB at a Bay: the cycle of its issue, its core and its tag. -/
def Packet.opKey (p : Packet) : Nat := 2 ^ 18 * p.op + 16 * p.source + p.tag

/-- BAY_WRITE_ROW: the controller writes arriving row `k`; the last row of an SWB is acknowledged (R204). With a refused row the
whole SWB is refused, once; its rows still to come are dropped (R212). -/
def State.bayWrite (w : State) (k : Nat) : State :=
  match (w.freshDue k).bayTake k .bayWrite with
  | none => w.freshDue k
  | some (t, b, pk) =>
    let s0 := (t.bayCharge b 1 pk).portRows false (bayDie b) 1
    let y := s0.bay b
    let key := pk.opKey
    let n := lookupD 0 y.written key + 1
    match lookup? y.dead key with
    | some left => s0.onBay b (fun y => { y with dead := if left ≤ 1 then del y.dead key else put y.dead key (left - 1) })
    | none =>
      match y.refuses pk true with
      | some cause =>
        (s0.onBay b (fun y =>
          { y with
            written := del y.written key
            dead := if pk.total ≤ n then y.dead else put y.dead key (pk.total - n) })).bayRefuse b cause pk true
      | none =>
        let s1 := s0.bayStore b pk.page (pk.row % 32768) pk.data
        if n < pk.total then s1.onBay b (fun y => { y with written := put y.written key n })
        else
          let s2 := s1.onBay b (fun y => { y with written := del y.written key })
          let a : Packet :=
            { pk with
              kind := .bayAck, source := 0x3FFF, node := nodeOf pk.source, core := pk.source, due := 0, fails := 0
              enter := some (bayDie b) }
          s2.inject a s2.cycle

/-! ## Accesses by the units (R211): source 0x3FFF, carried at once (log entry 40) -/

/-- What a unit's row of a Bay is for: the request engine's work in class 1, bulk traffic in class 2 (R178), or class 2 that counts
against no edge budget, which is the loader's (R256) and what is written to home pages (R364). -/
inductive UnitUse where
  | kv
  | bulk
  | uncharged
  deriving DecidableEq, Repr

/-- A packet of a unit for a row of a Bay page, which belongs to the page's owner. -/
def State.unitPacket (s : State) (u : UnitUse) (b page row : Nat) (write : Bool) : Packet :=
  { cls := if u = .kv then 1 else 2, kind := if write then .bayWrite else .readReq, part := bits ((s.bay b).own page) 0 6, source := 0x3FFF
    node := 72 + b, core := 0, page := page, row := row, counter := 0, tag := 0, rows := 0, total := 1, writer := .sage
    data := 0, due := s.cycle, fails := 0 }

/-- A row of a unit charged to the budget of its partition, if it counts against one. -/
def State.unitCharge (s : State) (u : UnitUse) (b : Nat) (pk : Packet) : State :=
  if u = .uncharged then s else s.bayCharge b 1 pk

/-- A row that a unit reads: checked, charged and counted, or refused. -/
def State.unitRead (s : State) (u : UnitUse) (b page row : Nat) : State :=
  let pk := s.unitPacket u b page row false
  let s0 := s.unitCharge u b pk
  match (s0.bay b).refuses pk false with
  | some cause => s0.bayRefuse b cause pk false
  | none => s0.bayRows b page [row] none

/-- A row that a unit writes, or the refusal of it. -/
def State.unitWrite (s : State) (u : UnitUse) (b page row : Nat) (d : Row) : State :=
  let pk := s.unitPacket u b page row true
  let s0 := (s.unitCharge u b pk).portRows false (bayDie b) 1
  match (s0.bay b).refuses pk true with
  | some cause => s0.bayRefuse b cause pk true
  | none => s0.bayStore b page row d

/-! ### Page lists (R229) -/

/-- Global page that holds byte `x` of a list of slots, by a lookup of the slot as it stands (R211, R214). -/
def State.listPage (s : State) (slots : List Nat) (x : Nat) : Option Nat :=
  (slots[x / 2097152]?).map (fun i => slotPage (s.slot i))

def State.listByte (s : State) (slots : List Nat) (x : Nat) : Nat :=
  match s.listPage slots x with
  | some g => (padByte (s.bay (g / pagesPerBay)).mem (2097152 * (g % pagesPerBay) + x % 2097152)).toNat
  | none => 0

/-- Number of `n` bytes, lowest first. -/
def State.listNum (s : State) (slots : List Nat) (x : Nat) : Nat → Nat
  | 0 => 0
  | n + 1 => s.listByte slots x + 256 * s.listNum slots (x + 1) n

def State.listBytes (s : State) (slots : List Nat) (x n : Nat) : List Byte :=
  (List.range n).map (fun i => BitVec.ofNat 8 (s.listByte slots (x + i)))

/-- The data of row `r` of a list, as it stands. -/
def State.listRow (s : State) (slots : List Nat) (r : Nat) : Row := BitVec.ofNat 512 (s.listNum slots (64 * r) 64)

/-- The unit's packet for row `r` of a list: `f` of its Bay, page and row. -/
def State.atRow (s : State) (slots : List Nat) (r : Nat) (f : State → Nat → Nat → Nat → State) : State :=
  match s.listPage slots (64 * r) with
  | some g => f s (g / pagesPerBay) (g % pagesPerBay) (r % 32768)
  | none => s

/-- `n` rows of a list read by a unit, from row `r` on: what the reads leave behind. -/
def State.listRead (s : State) (u : UnitUse) (slots : List Nat) (r n : Nat) : State :=
  each (fun j (t : State) => t.atRow slots (r + j) (fun t b page row => t.unitRead u b page row)) (List.range n) s

/-- The rows that hold bytes `x` to `x + n` of a list, read by a unit. -/
def State.listReadBytes (s : State) (u : UnitUse) (slots : List Nat) (x n : Nat) : State :=
  s.listRead u slots (x / 64) (ceilDiv (x % 64 + n) 64)

/-- Row `r` of a list written by a unit. -/
def State.listPutRow (s : State) (u : UnitUse) (slots : List Nat) (r : Nat) (d : Row) : State :=
  s.atRow slots r (fun t b page row => t.unitWrite u b page row d)

/-- Bytes of a list from byte `x` on written by a unit, in whole rows: the other bytes of a row stay as they are. -/
def State.listPut (s : State) (u : UnitUse) (slots : List Nat) (x : Nat) (bs : List Byte) : State :=
  each (fun j (t : State) =>
    let r := x / 64 + j
    let old := t.listBytes slots (64 * r) 64
    let new := (List.range 64).map (fun i =>
      if x ≤ 64 * r + i ∧ 64 * r + i < x + bs.length then bs.getD (64 * r + i - x) 0 else old.getD i 0)
    t.listPutRow u slots r (BitVec.ofNat 512 (ofBytes new))) (List.range (ceilDiv (x % 64 + bs.length) 64)) s

/-- BAY_REFRESH_TICK: the controller refreshes in its tick; nothing queued is served in it. -/
def State.bayRefresh (s : State) (b : Nat) : State :=
  if s.refreshing b then s.onBay b (fun y => { y with refreshed := some s.tick }) else s

/-- A request or write row waits at a Bay (R209, R218). -/
def State.bayQueued (s : State) (b : Nat) : Bool :=
  s.net.any (fun p => p.node == 72 + b && decide (p.due ≤ s.cycle))

/-- A copy is due: the mover is copying and has rows left in this tick. -/
def State.copyDue (s : State) (b : Nat) : Bool :=
  s.get (BAY_MOVE_STAT_state b) == 1 &&
    decide ((if (s.bay b).copyTick = s.cycle / 256 then (s.bay b).copied else 0) < s.get (BAY_MOVE_CTL_rate b))

/-- BAY_PATROL_READ: the patrol reads its next row, at most 64 in a tick (R209). -/
def State.bayPatrol (s : State) (b : Nat) (u : Option Upset) : State :=
  let y := s.bay b
  let n := if y.patrolTick = s.cycle / 256 then y.patrolled else 0
  if s.bayUsable b && s.running && s.on (BAY_CTL_patrol b) && !s.refreshing b && !s.bayQueued b && !s.copyDue b &&
      decide (n < 64) then
    let page := y.patrol / 32768
    let row := y.patrol % 32768
    let s1 := (s.bayUpset b page (match u with | some x => [{ x with row := row }] | none => [])).bayEcc b page row true none
    s1.onBay b (fun y =>
      { y with patrol := (y.patrol + 1) % (pagesPerBay * 32768), patrolTick := s.cycle / 256, patrolled := n + 1 })
  else s

/-! ## Free pages (R216) -/

def Bay.isFree (y : Bay) (page : Nat) : Bool :=
  decide (page < pagesPerBay) && (y.returned.contains page || (decide (y.fresh ≤ page) && !y.taken.contains page))

def State.freePages (s : State) (b : Nat) : Nat :=
  if s.bayUsable b then (s.bay b).returned.length + (pagesPerBay - (s.bay b).fresh) - (s.bay b).taken.length else 0

/-- Lowest page never taken, passing over those a move took. -/
def skipTaken : Nat → Nat → List Nat → Nat × List Nat
  | 0, k, l => (k, l)
  | fuel + 1, k, l => if l.contains k then skipTaken fuel (k + 1) (l.filter (· != k)) else (k, l)

/-- The page ALLOC takes: the most recently returned one, else the lowest never taken. -/
def Bay.takePage (y : Bay) : Option (Nat × Bay) :=
  match y.returned with
  | p :: r => some (p, { y with returned := r })
  | [] =>
    let k := skipTaken y.taken.length y.fresh y.taken
    if k.1 < pagesPerBay then some (k.1, { y with fresh := k.1 + 1, taken := k.2 }) else none

/-- A named free page taken (R217). -/
def Bay.takeNamed (y : Bay) (page : Nat) : Bay :=
  if y.returned.contains page then { y with returned := y.returned.filter (· != page) }
  else { y with taken := page :: y.taken }

/-- Usable Bay with the most free pages, ties to the lowest id. -/
def State.fullestBay (s : State) : Option Nat :=
  (List.range 18).foldl (fun m b =>
    if s.bayUsable b then
      match m with
      | none => some b
      | some a => if s.freePages a < s.freePages b then some b else some a
    else m) none

/-! ## Map commands (R215, R216, R228) -/

/-- A free slot: which one the spec leaves open, so it is a free value (log entry 14). -/
def State.freeSlot (s : State) : Option Nat × State :=
  let d := s.draw
  let start := d.1 % noSlot
  ((firstFrom (fun i => !slotValid (s.slot (i % noSlot))) start noSlot).map (· % noSlot), d.2)

/-- Arguments of an ALLOC. -/
structure AllocArg where
  bay : Nat
  part : Nat
  ro : Bool
  shared : Bool
  home : Bool
  pin : Bool
  pred : Nat
  deriving DecidableEq, Repr

/-- Result of a map command: status and slot (R228). -/
structure MapRes where
  status : Nat
  slot : Nat
  deriving DecidableEq, Repr

def State.allocArgsOk (s : State) (a : AllocArg) : Bool :=
  (a.bay == 31 || s.bayUsable a.bay) && s.on (PART_RES_CTL_enable a.part) && !s.on (PART_RST_busy a.part) && (a.pred == noSlot || s.slotLive a.pred)

/-- ALLOC. Where more than one of statuses 1, 2 and 3 applies R228 does not say which it gives: here no free slot comes first, then
no free page, then the quota (log entry 122). -/
def State.alloc (s : State) (a : AllocArg) : State × MapRes :=
  if !s.allocArgsOk a then (s, ⟨4, 0⟩)
  else if s.get BAY_MAP_SLOTS_free = 0 then (s, ⟨1, 0⟩)
  else
    match (if a.bay = 31 then s.fullestBay else some a.bay) with
    | none => (s, ⟨2, 0⟩)
    | some b =>
      match (s.bay b).takePage with
      | none => (s, ⟨2, 0⟩)
      | some (page, y) =>
        if s.get (PART_RES_QUOTA_pages a.part) ≤ s.get (PART_RES_USED_pages a.part) then (s, ⟨3, 0⟩)
        else
          let f := s.freeSlot
          match f.1 with
          | none => (s, ⟨1, 0⟩)
          | some i =>
            let s1 := f.2.setBay b (y.setOwn page (ownEntry a.part a.ro a.shared false))
            let next := if a.pred = noSlot then noSlot else slotNext (s.slot a.pred)
            let ent := (pagesPerBay * b + page) * 2 ^ 44 + next * 2 ^ 24 + slotEpoch (s.slot i) * 2 ^ 6 + 2 ^ 5 +
              b2n a.ro * 2 ^ 3 + b2n a.home * 2 ^ 2 + b2n a.pin * 2
            let s2 := s1.setSlot i ent
            let s3 := if a.pred = noSlot then s2 else s2.setSlot a.pred (setField (s2.slot a.pred) 24 20 i)
            ((s3.set BAY_MAP_SLOTS_free (s3.get BAY_MAP_SLOTS_free - 1)).set (PART_RES_USED_pages a.part)
              (s3.get (PART_RES_USED_pages a.part) + 1), ⟨0, i⟩)

/-- A destination page of an aborted move returns at once, and the mover to idle (R219). -/
def State.endMove (s : State) (b result : Nat) : State :=
  match (s.bay b).move with
  | none => s
  | some m =>
    if s.get (BAY_MOVE_STAT_state b) = 1 ∨ s.get (BAY_MOVE_STAT_state b) = 2 then
      let s1 := s.onBay b (fun y =>
        { ((y.setOwnBit m.old 11 false).setOwn m.new 0) with returned := m.new :: y.returned, move := none })
      ((((s1.setSlot m.slot (setField (s1.slot m.slot) 4 1 0)).set (BAY_MOVE_STAT_state b) 0).set
        (BAY_MOVE_STAT_result b) result).done (BAY_MOVE_CTL_go b))
    else s

/-- Rows of a page are excused no longer, once it is freed (R480). -/
def State.unexcuse (s : State) (b page : Nat) : State :=
  { s with parts := s.parts.map (fun e =>
      (e.1, { e.2 with excused := e.2.excused.filter (fun x => !(x.1 == b && x.2.1 == page)) })) }

/-- FREE of a slot: the page retires (R216). -/
def State.freeSlotOp (s : State) (i : Nat) : State × MapRes :=
  if !s.slotLive i then (s, ⟨4, 0⟩)
  else
    let g := slotPage (s.slot i)
    let b := g / pagesPerBay
    let page := g % pagesPerBay
    let s0 := match (s.bay b).move with
      | some m => if m.slot = i then s.endMove b 3 else s
      | none => s
    let v := s0.slot i
    let v1 := setField (setField (setField v 5 1 0) 6 6 (slotEpoch v + 1)) 24 20 noSlot
    let part := bits ((s0.bay b).own page) 0 6
    let s1 := ((s0.setSlot i v1).onBay b (fun y => y.setOwnBit page 12 true)).unexcuse b page
    let s2 := { s1 with retiring := s1.retiring ++ [(⟨b, page, part, 2, s.cycle, false⟩ : Retiring)] }
    (s2.set BAY_MAP_SLOTS_free (s2.get BAY_MAP_SLOTS_free + 1), ⟨0, i⟩)

def State.setNext (s : State) (i next : Nat) : State × MapRes :=
  if s.slotLive i && (next == noSlot || s.slotLive next) then (s.setSlot i (setField (s.slot i) 24 20 next), ⟨0, i⟩)
  else (s, ⟨4, 0⟩)

def State.setFill (s : State) (i fill : Nat) : State × MapRes :=
  if s.slotLive i && decide (fill ≤ 2048) then (s.setSlot i (setField (s.slot i) 12 12 fill), ⟨0, i⟩) else (s, ⟨4, 0⟩)

/-- The list of slots freed one after another. -/
def State.freeList (s : State) (head : Nat) : State :=
  each (fun i (t : State) => (t.freeSlotOp i).1) (s.listFrom noSlot head) s

/-- Key of an accessor's own copy of a register (R32, R215). -/
def bankKey (acc a : Nat) : Nat := acc * 2 ^ 26 + a

def bankReset (k : Nat) : Word := resetWord (k % 2 ^ 26)

def State.rdAcc (s : State) (acc a : Nat) : Word := rdAt bankReset s.banked (bankKey acc a)

def State.wrAcc (s : State) (acc a : Nat) (v : Word) : State :=
  { s with banked := wrAt bankReset s.banked (bankKey acc a) v }

/-- A command of the map unit with its two arguments (R216, R228). -/
def State.mapCmd (s : State) (op : Nat) (a0 a1 : Word) : State × MapRes :=
  let i := bits a1 0 20
  match op with
  | 1 => s.alloc ⟨bits a0 0 5, bits a0 8 6, a0.getLsbD 20, a0.getLsbD 21, a0.getLsbD 22, a0.getLsbD 23, i⟩
  | 2 => s.freeSlotOp i
  | 3 => s.setNext i (bits a0 0 20)
  | 4 => s.setFill i (bits a0 0 12)
  | _ => (s, ⟨5, 0⟩)

/-- The map unit runs a command with an accessor's own arguments and leaves its result for it (R215). -/
def State.mapRun (s : State) (acc : Nat) (op : Nat) : State :=
  let r := s.mapCmd op (s.rdAcc acc BAY_MAP_ARG0) (s.rdAcc acc BAY_MAP_ARG1)
  r.1.wrAcc acc BAY_MAP_RES (BitVec.ofNat 32 (r.2.status * 2 ^ 28 + (if op = 1 then r.2.slot else 0)))

/-! ## Release points (R216) -/

/-- A release point of a partition in the present cycle. -/
def State.releasePoint (s : State) (n : Nat) : State :=
  { s with retiring := s.retiring.map (fun r =>
      if r.part = n ∧ r.last < s.cycle then { r with left := r.left - 1, last := s.cycle } else r) }

/-- PAGE_RELEASE: a page past its second release point returns to its free stack and is credited to the quota. -/
def State.pageRelease (s : State) (k : Nat) : State :=
  match s.retiring[k]? with
  | none => s
  | some r =>
    if 0 < r.left then s
    else
      let s1 := { s with retiring := eraseAt s.retiring k }.onBay r.bay (fun y =>
        { (y.setOwn r.page 0) with returned := r.page :: y.returned })
      if r.mover then
        ((s1.onBay r.bay (fun y => { y with move := none })).set (BAY_MOVE_STAT_state r.bay) 0).done (BAY_MOVE_CTL_go r.bay)
      else s1.set (PART_RES_USED_pages r.part) (s1.get (PART_RES_USED_pages r.part) - 1)

/-! ## The mover (R217 to R219) -/

def State.lowestFree (s : State) (b : Nat) : Option Nat := firstFrom (s.bay b).isFree 0 pagesPerBay

/-- MOVE_GO. -/
def State.moveGo (s : State) (b : Nat) : State :=
  let i := s.get (BAY_MOVE_SLOT_slot b)
  let v := s.slot i
  let d := s.get (BAY_MOVE_DST_page b)
  let dst := if d = 0xFFFF then (s.lowestFree b).getD pagesPerBay else d
  let page := slotPage v % pagesPerBay
  if s.get (BAY_MOVE_STAT_state b) = 0 ∧ s.slotLive i ∧ !v.testBit 1 ∧ slotPage v / pagesPerBay = b ∧
      (s.bay b).isFree dst ∧ s.bayUsable b then
    let o := (s.bay b).own page
    let s1 := s.onBay b (fun y =>
      { (((y.takeNamed dst).setOwnBit page 11 true).setOwn dst (ownEntry (bits o 0 6) (o.getLsbD 14) (o.getLsbD 13) true)) with
        move := some ⟨i, page, dst⟩ })
    ((((s1.setSlot i (setField v 4 1 1)).set (BAY_MOVE_STAT_state b) 1).set
      (BAY_MOVE_STAT_cursor b) 0).setOn (BAY_MOVE_CTL_go b) true)
  else if s.get (BAY_MOVE_STAT_state b) = 0 then
    (s.set (BAY_MOVE_STAT_result b) 4).setOn (BAY_MOVE_CTL_go b) false
  else s.set (BAY_MOVE_STAT_result b) 4

/-- MOVE_COPY_ROW: the next row, in an idle cycle, within the rate. -/
def State.moveCopy (s : State) (b : Nat) : State :=
  match (s.bay b).move with
  | none => s
  | some m =>
    if s.copyDue b && s.running && !s.refreshing b && !s.bayQueued b then
      let j := s.get (BAY_MOVE_STAT_cursor b)
      let n := if (s.bay b).copyTick = s.cycle / 256 then (s.bay b).copied else 0
      let s1 := s.bayEcc b m.old j true none
      let s2 := s1.onBay b (fun y =>
        { (y.setRow m.new j (bayRow y m.old j)) with copyTick := s.cycle / 256, copied := n + 1 })
      let s3 := (s2.bump (BAY_COPY_ROWS_count b) 1).set (BAY_MOVE_STAT_cursor b) (j + 1)
      if j + 1 = 32768 then s3.set (BAY_MOVE_STAT_state b) 2 else s3
    else s

/-- Partition that owns the page being moved. -/
def State.moveOwner (s : State) (b : Nat) : Nat :=
  match (s.bay b).move with
  | some m => bits ((s.bay b).own m.old) 0 6
  | none => 0

/-- A copy that is complete waits for its switch. -/
def State.moveReady (s : State) (b : Nat) : Bool := s.get (BAY_MOVE_STAT_state b) == 2 && (s.bay b).move.isSome

/-- The slot takes the new page and the old one retires (R218 steps 4 and 5). -/
def State.switchPage (s : State) (b : Nat) : State :=
  match (s.bay b).move with
  | none => s
  | some m =>
    let v := setField (setField (s.slot m.slot) 44 20 (pagesPerBay * b + m.new)) 4 1 0
    let s1 := (s.setSlot m.slot v).onBay b (fun y =>
      ((y.setOwnBit m.new 11 false).setOwnBit m.old 11 false).setOwnBit m.old 12 true)
    let s2 := { s1 with retiring := s1.retiring ++ [(⟨b, m.old, s.moveOwner b, 2, s.cycle, true⟩ : Retiring)] }
    ((s2.set (BAY_MOVE_STAT_state b) 3).set (BAY_MOVE_STAT_result b) 1).bump (BAY_MOVE_DONE_count b) 1

/-- MOVE_SWITCH: at a tick while the owner is not active or is held; a boundary of the owner makes the switch itself (R218
step 4). -/
def State.moveSwitch (s : State) (b : Nat) : State :=
  let n := s.moveOwner b
  if s.moveReady b && decide (s.cycle % 256 = 0) &&
      (!s.on (BEAT_PLAN_CTL_active n) || s.on (BEAT_PLAN_CTL_held n) || s.atBoundary n) then s.switchPage b
  else s

/-! ## Meanings -/

def execBayReadRequest (k : Nat) (us : List Upset) (s : State) : Host.Outcome State Fault Refusal := .next (s.bayRead k us)
def execBayWriteRow (k : Nat) (s : State) : Host.Outcome State Fault Refusal := .next (s.bayWrite k)
def execBayRefreshTick (b : Nat) (s : State) : Host.Outcome State Fault Refusal :=
  .next (if b < 18 then s.bayRefresh b else s)
def execBayPatrolRead (b : Nat) (u : Option Upset) (s : State) : Host.Outcome State Fault Refusal :=
  .next (if b < 18 then s.bayPatrol b u else s)
def execMapAlloc (acc : Nat) (s : State) : Host.Outcome State Fault Refusal :=
  .next (if acc < accessors then s.writeAt BAY_MAP_CMD fun s => s.mapRun acc 1 else s)
def execMapFree (acc : Nat) (s : State) : Host.Outcome State Fault Refusal :=
  .next (if acc < accessors then s.writeAt BAY_MAP_CMD fun s => s.mapRun acc 2 else s)
def execMapSetnext (acc : Nat) (s : State) : Host.Outcome State Fault Refusal :=
  .next (if acc < accessors then s.writeAt BAY_MAP_CMD fun s => s.mapRun acc 3 else s)
def execMapSetfill (acc : Nat) (s : State) : Host.Outcome State Fault Refusal :=
  .next (if acc < accessors then s.writeAt BAY_MAP_CMD fun s => s.mapRun acc 4 else s)
def execPageRelease (k : Nat) (s : State) : Host.Outcome State Fault Refusal := .next (s.pageRelease k)
def execMoveGo (b : Nat) (s : State) : Host.Outcome State Fault Refusal :=
  .next (if b < 18 then s.writeAt (BAY_MOVE_CTL b) fun s => (s.ask (BAY_MOVE_CTL b) 0x80000000#32).moveGo b else s)
def execMoveCopyRow (b : Nat) (s : State) : Host.Outcome State Fault Refusal :=
  .next (if b < 18 then s.moveCopy b else s)
def execMoveAbort (b : Nat) (s : State) : Host.Outcome State Fault Refusal :=
  .next (if b < 18 then s.writeAt (BAY_MOVE_CTL b) fun s => s.endMove b 2 else s)

/-! ## Meanings of the network family -/

def execHopCrcRetry (k d : Nat) (cluster : Bool) (s : State) : Host.Outcome State Fault Refusal :=
  .next (if d < 72 then s.hopRetry k d cluster else s)
def execRouteSwapRequest (d which : Nat) (v : Word) (s : State) : Host.Outcome State Fault Refusal :=
  .next (if d < 72 ∧ which < 3 then s.writeAt (DIE_RT_CTL d) fun s => s.routeSwapRequest d which v else s)
def execDefaultTableSwap (d : Nat) (s : State) : Host.Outcome State Fault Refusal :=
  .next (if d < 72 then if s.canSwapDefault d then s.swapDefault d else s else s)
def execC0TableSwap (d n : Nat) (s : State) : Host.Outcome State Fault Refusal :=
  .next (if d < 72 ∧ n < 64 then if s.canSwapC0 d n then s.swapC0 d n else s else s)
def execEdgeOverBudget (link : Bool) (d n : Nat) (s : State) : Host.Outcome State Fault Refusal :=
  .next (if d < 72 ∧ n < 64 then if s.canOver link d n then s.edgeOver link d n else s else s)
def execEdgeBudgetRecover (link : Bool) (d n : Nat) (s : State) : Host.Outcome State Fault Refusal :=
  .next (if d < 72 ∧ n < 64 then if s.portHeld (edgePort link d) n && decide (0 < s.credit (edgePort link d) n) then s.edgeRecover link d n else s else s)

end Sys2Proof.Machine
end

