-- ==== Sys2Proof/Machine/Intake.lean ====
section
/-!
DEFINITION. Page lists as byte strings (R229), the GF(2^8) parity of shard groups (R345), and the intake engines that
build home rows from a weight package (R360 to R363).
-/

namespace Sys2Proof.Machine

/-! ## Page lists (R229) -/

/-- Some row of bytes `x` to `x + n` of a list reads uncorrectable (R208). -/
def State.listBad (s : State) (slots : List Nat) (x n : Nat) : Bool :=
  (List.range slots.length).any (fun k =>
    let g := slotPage (s.slot (slots.getD k 0))
    (s.bay (g / pagesPerBay)).marks.any (fun m =>
      decide (m.1 / 32768 = g % pagesPerBay) && m.2.fatal != [] &&
        decide (x < 2097152 * k + 64 * (m.1 % 32768) + 64 ∧ 2097152 * k + 64 * (m.1 % 32768) < x + n)))

/-- The list from a slot holds at least the pages for `n` bytes, all valid and owned by the partition (R229). -/
def State.listOwned (s : State) (part : Nat) (slots : List Nat) (n : Nat) : Bool :=
  decide (ceilDiv n 2097152 ≤ slots.length) && slots.all (fun i =>
    let g := slotPage (s.slot i)
    let o := (s.bay (g / pagesPerBay)).own (g % pagesPerBay)
    o.getLsbD 15 && decide (bits o 0 6 = part))

/-! ## Parity (R345) -/

/-- Product in GF(2^8) over 0x11D. -/
def gfMul (a b : Nat) : Nat :=
  ((List.range 8).foldl (fun (x : Nat × Nat) i =>
    let acc := if b.testBit i then x.1 ^^^ x.2 else x.1
    let a2 := 2 * x.2
    (acc, if 256 ≤ a2 then (a2 ^^^ 0x11D) % 256 else a2)) (0, a % 256)).1

def gfPow (a : Nat) : Nat → Nat
  | 0 => 1
  | n + 1 => gfMul a (gfPow a n)

def gfInv (a : Nat) : Nat := gfPow a 254

/-- α ^ s. -/
def gfExp (s : Nat) : Nat := gfPow 2 s

def gfRow (c : Nat) (r : Row) : Row :=
  BitVec.ofNat 512 (ofBytes ((List.range 64).map (fun i => BitVec.ofNat 8 (gfMul c (byteAt r.toNat i)))))

/-- Parity row P or Q of the data rows of shards 0 to 15; an absent row counts as zero. -/
def parityRow (q : Bool) (data : Nat → Row) : Row :=
  (List.range 16).foldl (fun (acc : Row) s => acc ^^^ (if q then gfRow (gfExp s) (data s) else data s)) 0

/-- A lost data row rebuilt from the others; `rows` gives shards 0 to 17, lost ones as zero. At most two shards are
lost at the offset. -/
def rebuildRow (rows : Nat → Row) (lost : List Nat) (want : Nat) : Row :=
  let data := fun s => if lost.contains s then 0 else rows s
  let px := rows 16 ^^^ parityRow false data
  let qx := rows 17 ^^^ parityRow true data
  match lost.filter (fun s => decide (s < 16 ∧ s ≠ want)) with
  | [] => if lost.contains 16 then gfRow (gfInv (gfExp want)) qx else px
  | b :: _ => gfRow (gfInv (gfExp want ^^^ gfExp b)) (gfRow (gfExp b) px ^^^ qx)

/-! ## Source elements and quantisation (R361, R362) -/

/-- The exact value of a source element: encoding 1 BF16, 2 E4M3, 3 E5M2. -/
def sourceValue (enc w : Nat) : FV :=
  let go := fun (mant bias ebits : Nat) (top : Nat → Nat → Option FV) =>
    let fr := field w 0 mant
    let ex := field w mant ebits
    let neg := decide (field w (mant + ebits) 1 = 1)
    match top fr ex with
    | some v => v
    | none =>
      if ex = 0 then FV.num neg fr (1 - (bias : Int) - (mant : Int))
      else FV.num neg (fr + 2 ^ mant) ((ex : Int) - (bias : Int) - (mant : Int))
  match enc with
  | 1 => go 7 127 8 (fun fr ex =>
      if ex = 255 then (if fr = 0 then some (.inf (decide (field w 15 1 = 1))) else some .nan) else none)
  | 2 => go 3 7 4 (fun fr ex => if ex = 15 ∧ fr = 7 then some .nan else none)
  | _ => go 2 15 5 (fun fr ex =>
      if ex = 31 then (if fr = 0 then some (.inf (decide (field w 7 1 = 1))) else some .nan) else none)

/-- `a * 2 ^ e ≤ b * 2 ^ g`. -/
def dyadicLe (a : Nat) (e : Int) (b : Nat) (g : Int) : Bool :=
  if e ≤ g then decide (a ≤ b * 2 ^ (g - e).toNat) else decide (a * 2 ^ (e - g).toNat ≤ b)

def FV.absLe (v : FV) (b : Nat) (g : Int) : Bool :=
  match v with
  | .nan => true
  | .inf _ => false
  | .num _ m e => dyadicLe m e b g

def codeTop (target : Nat) : Nat := match target with | 0 => 7 | 1 => 3 | 4 => 6 | _ => 1
def codeLow (target : Nat) : Int := match target with | 0 => -8 | 1 => -4 | 2 => -2 | _ => -1

/-- Smallest scale of 0 to 254 whose top reaches every element; 254 if none. -/
def intakeExp (target : Nat) (ws : List FV) : Nat :=
  ((List.range 255).find? (fun (e : Nat) => ws.all (fun w => w.absLe (codeTop target) ((e : Int) - 127)))).getD 254

/-- Twice the E2M1 magnitudes, in code order. -/
def e2m1 : List Nat := [0, 1, 2, 3, 4, 6, 8, 12]

/-- E2M1 code of `m * 2 ^ e`: nearest, ties to the even code, at most 6. -/
def e2m1Code (m : Nat) (e : Int) : Nat :=
  -- below the midpoint of codes i and i + 1 (or at it, when i is even) the code is at most i
  ((List.range 7).find? (fun i =>
    let mid := e2m1.getD i 0 + e2m1.getD (i + 1) 0
    if i % 2 = 0 then dyadicLe m (e + 2) mid 0 else !dyadicLe mid 0 m (e + 2))).getD 7

/-- The stored code of an element under a block's scale, and whether it counts as bad. -/
def intakeCode (target e : Nat) (w : FV) : Nat × Bool :=
  let fin := fun (q : Int) => if target = 3 then (q + 1).toNat else unsigned q (match target with | 0 => 4 | 1 => 3 | _ => 2)
  match w with
  | .nan => (if target = 4 then 0 else fin 0, true)
  | .inf n =>
    (if target = 4 then 7 + 8 * b2n n else fin (if n then codeLow target else (codeTop target : Int)), true)
  | .num n m x =>
    if target = 4 then
      (let c := e2m1Code m (x + 127 - (e : Int))
       (c + 8 * b2n (n && c != 0), false))
    else
      let q := rneInt (sgn n m) (x + 127 - (e : Int))
      (fin (if q < codeLow target then codeLow target else if (codeTop target : Int) < q then codeTop target else q), false)

/-! ## Blocks (R361, R363) -/

/-- A block descriptor (R361). -/
structure Block where
  first : Nat
  count : Nat
  enc : Nat
  comp : Nat
  target : Nat
  blk : Nat
  turned : Bool
  inputMajor : Bool
  outTiles : Nat
  inTiles : Nat
  scaleRow : Nat
  src : Nat
  len : Nat
  deriving DecidableEq, Repr

/-- Contribution of element (r, c) of tile `t` with a code to an image held as one number. -/
def imagePart (target t r c code : Nat) : Nat :=
  match target with
  | 0 | 4 => code <<< (8 * (32 * r + c / 2) + 4 * (c % 2))
  | 1 => code <<< (8 * 24 * r + 3 * c)
  | 2 => code <<< (8 * (1024 * t + 16 * r + c / 4) + 2 * (c % 4))
  | _ => (code * 3 ^ ((64 * r + c) % 5)) <<< (8 * (832 * t + (64 * r + c) / 5))

/-- Inputs an image covers. -/
def Block.width (b : Block) : Nat := 64 * imageTiles b.target

/-- Output tile and input group of image `k`: output tile major, or input major. -/
def Block.place (b : Block) (k : Nat) : Nat × Nat :=
  let g := b.inTiles / imageTiles b.target
  if b.inputMajor then (k % b.outTiles, k / b.outTiles) else (k / g, k % g)

/-- Image `k` built from the source: the image, its scale bytes in the order of R114, and the bad elements. -/
def Block.image (b : Block) (source : Nat → FV) (k : Nat) : Nat × List Nat × Nat :=
  let p := b.place k
  let bs := if b.blk = 0 then 64 else 32
  let per := blocksPer b.target b.blk
  (List.range 64).foldl (fun (acc : Nat × List Nat × Nat) o =>
    (List.range per).foldl (fun (acc : Nat × List Nat × Nat) bi =>
      let ws := (List.range bs).map (fun i =>
        source ((64 * p.1 + o) * (64 * b.inTiles) + b.width * p.2 + bi * bs + i))
      let e := intakeExp b.target ws
      let img := ((List.range bs).zip ws).foldl (fun (x : Nat × Nat) iw =>
        let i := bi * bs + iw.1
        let q := intakeCode b.target e iw.2
        let r := if b.turned then i % 64 else o
        let c := if b.turned then o else i % 64
        (x.1 + imagePart b.target (i / 64) r c q.1, x.2 + b2n q.2)) (acc.1, acc.2.2)
      (img.1, acc.2.1 ++ [e], img.2)) acc) (0, [], 0)

/-- The home bytes of image `k`: its rows, and its scales there or in the scale stream. -/
def Block.imageWrites (b : Block) (source : Nat → FV) (k : Nat) : List (Nat × List Byte) × Nat :=
  let x := b.image source k
  let at_ := 64 * (b.first + k * imageRows b.target b.blk)
  let sc := x.2.1.map (fun e => BitVec.ofNat 8 e)
  let body := bytesOf (64 * imageRows b.target b.blk) x.1
  if windowFmt b.target then
    ([(at_, body), (64 * b.scaleRow + scaleBytes b.target b.blk * k, sc)], x.2.2)
  else ([(at_, body), (at_ + scaleBase b.target, sc)], x.2.2)

/-- Bytes a block's source must give (R363). -/
def Block.need (b : Block) : Nat :=
  if b.enc = 0 then 64 * b.count else 64 * b.outTiles * (64 * b.inTiles) * (if b.enc = 1 then 2 else 1)

/-- The descriptor holds codes of R361 only, and for a matrix whole images that its source has. What else the intake makes of a
descriptor R363 does not say: a block error (log entry 128). -/
def Block.ok (b : Block) : Bool :=
  decide (b.enc ≤ 3 ∧ b.comp ≤ 1) &&
    (b.enc == 0 || (decide (b.target ≤ 4) && b.inTiles % imageTiles b.target == 0 &&
      decide (b.count ≤ b.outTiles * (b.inTiles / imageTiles b.target))))

/-- A block built: none on a block error; the writes into the home copy and the bad elements. -/
def Block.build (b : Block) (staged : List Byte) : Option (List (Nat × List Byte) × Nat) :=
  if !b.ok then none
  else
    let data := if b.comp = 1 then Config.zstdDecompress staged else some staged
    match data with
    | none => none
    | some d =>
      if d.length ≠ b.need then none
      else if b.enc = 0 then some ([(64 * b.first, d)], 0)
      else
        let get := fun i => sourceValue b.enc
          (if b.enc = 1 then (d.getD (2 * i) 0).toNat + 256 * (d.getD (2 * i + 1) 0).toNat else (d.getD i 0).toNat)
        some ((List.range b.count).foldl (fun (acc : List (Nat × List Byte) × Nat) k =>
          let w := b.imageWrites get k
          (acc.1 ++ w.1, acc.2 + w.2)) ([], 0))

/-! ## Packages (R360, R365) -/

/-- Header of a package. -/
structure Package where
  model : Nat
  epoch : Nat
  blocks : Nat
  rows : Nat
  length : Nat
  shards : Nat
  parity : Bool
  deriving DecidableEq, Repr

def shardBytes : Nat := 16777216

def Package.groups (p : Package) : Nat := ceilDiv p.shards 16

/-- Entries of the shard table. -/
def Package.tableLen (p : Package) : Nat := p.shards + (if p.parity then 2 * p.groups else 0)

/-- The header and the shard table, if both check (R360). -/
def State.package (s : State) (slots : List Nat) : Option Package :=
  let n := s.listNum slots
  let p : Package :=
    { model := n 6 2, epoch := n 8 4, blocks := n 0x0C 4, rows := n 0x10 8, length := n 0x18 8, shards := n 0x20 4
      parity := decide (n 0x24 1 = 1) }
  if n 0 4 = 0x4B505457 ∧ n 4 2 = 1 ∧ n 0x3C 4 = crc32c (s.listBytes slots 0 0x3C) ∧
      p.shards = ceilDiv p.length shardBytes ∧ n 0x24 1 ≤ 1 ∧
      n 0x38 4 = crc32c (s.listBytes slots 0x40 (4 * p.tableLen)) then some p else none

/-- First byte and length of shard `k` of group `g`: data shards 0 to 15, parity 16 and 17. -/
def Package.shard (p : Package) (g k : Nat) : Nat × Nat :=
  let d := 16 * g + k
  if k < 16 then (shardBytes * d, if d < p.shards then min shardBytes (p.length - shardBytes * d) else 0)
  else
    let longest := min shardBytes (p.length - shardBytes * (16 * g))
    (shardBytes * (p.shards + 2 * g + (k - 16)), if p.parity then longest else 0)

/-- Index of a shard in the shard table. -/
def Package.entry (p : Package) (g k : Nat) : Nat := if k < 16 then 16 * g + k else p.shards + 2 * g + (k - 16)

/-- Shards of a group that are lost: their CRC fails or a row of theirs is uncorrectable (R365). -/
def State.lostShards (s : State) (slots : List Nat) (p : Package) (g : Nat) : List Nat :=
  (List.range 18).filter (fun k =>
    let x := p.shard g k
    if k < 16 then
      decide (0 < x.2) && (s.listBad slots x.1 x.2 ||
        s.listNum slots (0x40 + 4 * p.entry g k) 4 != crc32c (s.listBytes slots x.1 x.2))
    else !p.parity || s.listBad slots x.1 x.2 ||
      s.listNum slots (0x40 + 4 * p.entry g k) 4 != crc32c (s.listBytes slots x.1 x.2))

/-- Data shards of a group that are lost and cannot be rebuilt make the group fail. -/
def groupFails (lost : List Nat) : Bool := lost.any (fun k => decide (k < 16)) && decide (2 < lost.length)

/-- The group's lost data shards written anew from the others. -/
def State.rebuildGroup (s : State) (slots : List Nat) (p : Package) (g : Nat) (lost : List Nat) : State :=
  each (fun k (t : State) =>
    let x := p.shard g k
    let rows := fun r (j : Nat) =>
      let y := p.shard g j
      if lost.contains j ∨ y.2 ≤ 64 * r then (0 : Row) else s.listRow slots (y.1 / 64 + r)
    each (fun r (t : State) => t.listPutRow .bulk slots (x.1 / 64 + r) (rebuildRow (rows r) lost k))
      (List.range (ceilDiv x.2 64)) t) (lost.filter (fun k => decide (k < 16))) s

/-- Block descriptor `k`, after the shard table. -/
def State.block (s : State) (slots : List Nat) (p : Package) (k : Nat) : Block :=
  let o := 0x40 + 4 * p.tableLen + 48 * k
  let n := fun x l => s.listNum slots (o + x) l
  { first := n 0 8, count := n 8 4, enc := n 0x0C 1, comp := n 0x0D 1, target := n 0x0E 1, blk := n 0x0F 1 % 2
    turned := (n 0x0F 1).testBit 1, inputMajor := (n 0x0F 1).testBit 2, outTiles := n 0x10 2, inTiles := n 0x12 2
    scaleRow := n 0x18 8, src := n 0x20 8, len := n 0x28 8 }

/-- Intake of every block into a home copy's page list: the block in error, or the state and the bad elements. -/
def State.intake (s : State) (slots home : List Nat) (p : Package) : Except Nat (State × Nat) :=
  (List.range p.blocks).foldl (fun (acc : Except Nat (State × Nat)) k =>
    match acc with
    | .error e => .error e
    | .ok (t, bad) =>
      let b := s.block slots p k
      match b.build (s.listBytes slots b.src b.len) with
      | none => .error k
      | some (ws, n) => .ok (each (fun (w : Nat × List Byte) (u : State) => u.listPut .uncharged home w.1 w.2) ws t, bad + n))
    (.ok (s, 0))

end Sys2Proof.Machine
end

