-- ==== Sys2Proof/Machine/SendEngine.lean ====
section
/-!
DEFINITION. The send engine (03_core_engines R98): SWR to a remote core or a link channel, SWB to a Bay page, SEMT to the
emit gate (16_faults_safety R468).
-/

namespace Sys2Proof.Machine

/-- Rows leave the core, one in two cycles, in address order; the last byte of row `j` in the second of its cycles. A row
of the scratchpad is read at its own claim, and leaves then (R153). -/
def State.sendRows (s : State) (t : Nat) (rows : List Packet) : State :=
  ((List.range rows.length).zip rows).foldl (fun s x => s.inject x.2 (t + 2 * x.1 + 1)) s

/-- Key of the connection of a port with a module (R436). -/
def State.connKey (p m : Nat) : Nat := 32768 * p + m % 32768

def State.conn (s : State) (p m : Nat) : Option Conn := lookup? s.conns (State.connKey p m)

/-- Back-pressure of a channel (R437): a connection it sends on has 512 frames unacknowledged. -/
def State.chanFull (s : State) (ch : Nat) : Bool :=
  let full := fun p => (s.conn p (s.get (LINK_CH_DEST_module ch))).any (fun c => decide (512 ≤ c.unacked.length))
  full (s.get (LINK_CH_CTL_port ch)) || (s.on (LINK_CH_CTL_dup ch) && full (s.get (LINK_CH_CTL_port2 ch)))

/-- I/O die of the link port a channel uses. -/
def State.channelIo (s : State) (ch : Nat) : Nat := s.get (LINK_CH_CTL_port ch) / 4

/-- Die whose link attachment leads to an I/O die from a given die (R185). -/
def ioEntryDie (k d : Nat) : Nat := if k < 4 then 2 * k + d % 2 else 64 + 2 * (k - 4) + d % 2

/-- Link attachment that a row from a die to an I/O die passes: that of the die at which its route ends (R185, R189). -/
def State.linkPort (s : State) (cls part d io : Nat) : Nat :=
  match s.walk cls part (90 + io) 10 d 0 with
  | .ok l => edgePort true (l.getLastD d)
  | .lost _ => edgePort true (ioEntryDie io d)

/-- Target traps of SWR (R86, R99). -/
def State.swrTrap (s : State) (p part n : Nat) (a : AReg) : Option Nat :=
  if kindOf a = 1 then
    (if (rowsFrom (bits a 0 17) n).any (fun r => decide (trapRow ≤ r)) then some 1
     else if s.translate p part (bits a 32 14) = none then some 4 else none)
  else if kindOf a = 3 then
    (let ch := bits a 32 8
     if s.on (LINK_CH_CTL_open ch) && s.get (LINK_CH_CTL_owner ch) == part &&
         decide (bits a 0 17 + n ≤ s.get (LINK_CH_LIMIT_rows ch)) then none else some 4)
  else some 5

/-- Source side of SWR and SWB: traps, interlocks, claims and the data of row `j` (R98). -/
def sourceTrap (c : Core) (w : DWord) (n : Nat) : Option Nat :=
  if bits w 31 1 = 1 then none
  else if bits w 30 1 = 1 then some 5
  else
    let a := c.areg .send (bits w 40 4)
    readTrap a (c.liveRows (effRow a (bits w 0 17)) n)

def sourceGroups (c : Core) (w : DWord) (n : Nat) : List (List Nat) :=
  if bits w 31 1 = 1 then []
  else (c.liveRows (effRow (c.areg .send (bits w 40 4)) (bits w 0 17)) n).map (fun r => [r])

/-- Data of the rows sent from a stage buffer; a row of the scratchpad has none yet. -/
def sourceRow (c : Core) (w : DWord) (j : Nat) : Row :=
  if bits w 31 1 = 1 then c.sbData (512 * bits w 9 2 + (bits w 0 9 + j) % 512) else 0

/-- Once issued: stage-buffer release, and the injection port is busy for two cycles a row (R79, R87). -/
def Core.afterSend (c : Core) (w : DWord) (n t : Nat) : Core :=
  let c1 := { c with inject := t + 2 * n }
  if bits w 31 1 = 1 ∧ bits w 30 1 = 1 then c1.release t (sbRows (bits w 9 2) (bits w 0 9) n) else c1

def planSwr (w : DWord) (p : Nat) (s : State) (_ : Nat) : Plan :=
  let c := s.core p
  let n := bits w 34 6 + 1
  let a := c.areg .send (bits w 44 4)
  let part := (s.ownerOfCore p).getD 0
  let link := decide (kindOf a = 3)
  let ch := bits a 32 8
  let q := (s.translate p part (bits a 32 14)).getD 0
  let io := s.channelIo ch
  let groups := sourceGroups c w n
  { trap := match s.swrTrap p part n a with | some k => some k | none => sourceTrap c w n
    ready := (bits w 31 1 = 0 || c.sbAllValid (sbRows (bits w 9 2) (bits w 0 9) n)) &&
      (!link || !s.portHeld (s.linkPort (bits w 32 2) part (p / 128) io) part) && (!link || !s.chanFull ch)
    groups := groups, use := .send n, period := 2, occ := 2 * n
    effect := fun t s =>
      (s.onCore p (fun c => c.afterSend w n t)).sendRows t ((List.range n).map (fun j =>
        { cls := bits w 32 2, kind := .write, part := part, source := p, node := if link then 90 + io else nodeOf q
          core := if link then 0 else q, page := if link then ch else 0, row := (bits a 0 17 + j) % 2 ^ 17
          counter := bits w 50 6, tag := 0, rows := n - 1 - j, total := n, writer := .core, data := sourceRow (s.core p) w j
          due := 0, fails := 0, late := bits w 31 1 == 0 })) }

def planSwb (w : DWord) (p : Nat) (s : State) (_ : Nat) : Plan :=
  let c := s.core p
  let n := bits w 34 6 + 1
  let a := c.areg .send (bits w 44 4)
  let b := bits a 40 5
  let part := (s.ownerOfCore p).getD 0
  let tag := c.freeTag.getD 0
  let pc := c.se.pc
  let groups := sourceGroups c w n
  withWait c .send w
    { trap := if kindOf a ≠ 2 then some 5 else if 17 < b then some 4 else sourceTrap c w n
      ready := (bits w 31 1 = 0 || c.sbAllValid (sbRows (bits w 9 2) (bits w 0 9) n)) && c.freeTag.isSome &&
        !s.portHeld (bayPort b) part
      groups := groups, use := .send n, period := 2, occ := 2 * n
      effect := fun t s =>
        let s1 := s.onCore p (fun c =>
          { (c.afterSend w n t) with tags := put c.tags tag ⟨.send, pc, 0, n, n⟩ })
        s1.sendRows t ((List.range n).map (fun j =>
          { cls := 1, kind := .bayWrite, part := part, source := p, node := 72 + b, core := 0, page := bits a 20 20
            row := effBayRow a j, counter := 0, tag := tag, rows := n - 1 - j, total := n, writer := .core
            data := sourceRow (s.core p) w j, due := 0, fails := 0, late := bits w 31 1 == 0, op := t })) }

def planSemt (w : DWord) (p : Nat) (s : State) (_ : Nat) : Plan :=
  let c := s.core p
  let a := c.areg .send (bits w 44 4)
  let row := c.live (effRow a (bits w 0 17))
  withWait c .send w
    { trap := readTrap a [row], groups := [[row]], use := .token (bits w 37 3) }

def execSwr (x : At) (w : DWord) (s : State) : Host.Outcome State Fault Refusal :=
  engineStep (spells .send 0xC0 w) (s.issue x .send (planSwr w x.core))

def execSwb (x : At) (w : DWord) (s : State) : Host.Outcome State Fault Refusal :=
  engineStep (spells .send 0xC1 w) (s.issue x .send (planSwb w x.core))

def execSemt (x : At) (w : DWord) (s : State) : Host.Outcome State Fault Refusal :=
  engineStep (spells .send 0xC2 w) (s.issue x .send (planSemt w x.core))

end Sys2Proof.Machine
end

