-- ==== Sys2Proof/Machine/LoadEngine.lean ====
section
/-!
DEFINITION. The load engine (03_core_engines R93): LDL and LDS read the core's own scratchpad, LDR another core's, LDB a
Bay page, all into a stage buffer.
-/

namespace Sys2Proof.Machine

/-- Stage-buffer rows a load engine read names (R89). -/
def sbTarget (w : DWord) : List Nat := sbRows (bits w 42 2) (bits w 33 9) (bits w 27 6 + 1)

/-- Rows marked pending by a read that issues (R79). -/
def Core.markPending (c : Core) (l : List Nat) : Core := { c with sb := l.foldl (fun m i => put m i ⟨none⟩) c.sb }

def planLocal (strided : Bool) (w : DWord) (p : Nat) (s : State) (_ : Nat) : Plan :=
  let c := s.core p
  let n := bits w 27 6 + 1
  let a := c.areg .load (bits w 44 4)
  let r0 := effRow a (bits w 0 17)
  let rows := if strided then (List.range n).map (fun j => c.live ((r0 + j * bits w 17 10) % 2 ^ 17)) else c.liveRows r0 n
  let groups := if strided then rows.map (fun r => [r]) else chunksOf 4 64 rows
  let target := sbTarget w
  withWait c .load w
    { trap := readTrap a rows
      ready := c.sbAllFree target && decide (c.readsOut < 16)
      groups := groups, use := .stage target, lat := 4
      period := if strided then 4 else 1
      occ := if strided then 4 * n else ceilDiv n 4
      effect := fun _ s => s.onCore p (fun c => c.markPending target) }

/-- The send engine issues an SWR or SWB in cycle `t`: its row goes first, and a read request waits (R87). -/
def State.sendFirst (s : State) (p t : Nat) : Bool :=
  let c := s.core p
  let w := lookupD 0 c.imem c.se.pc
  let plan := if spells .send 0xC0 w then some (planSwr w p s t)
    else if spells .send 0xC1 w then some (planSwb w p s t) else none
  s.mayRun p .send && decide (c.se.ready ≤ t) && plan.any (fun q => (q.cause c).isNone && q.free c .send t)

/-- The injection port is free for a read request in cycle `t`, and there are fewer than 16 reads in flight (R84, R87). -/
def State.mayRead (s : State) (p t : Nat) : Bool :=
  let c := s.core p
  c.freeTag.isSome && decide (c.readsOut < 16) && decide (c.inject ≤ t) && !s.sendFirst p t

/-- A read request leaves the core (R87, R177): the tag is held until the last row lands. -/
def State.sendRead (s : State) (p e0 tag n sb : Nat) (pk : Packet) (t : Nat) : State :=
  (s.onCore p (fun c =>
    { (c.markPending (sbRows (sb / 512) (sb % 512) n)) with
      tags := put c.tags tag ⟨.load, e0, sb, n, n⟩ })).inject pk t

def planLdr (w : DWord) (p : Nat) (s : State) (t : Nat) : Plan :=
  let c := s.core p
  let n := bits w 27 6 + 1
  let a := c.areg .load (bits w 44 4)
  let r0 := effRow a (bits w 0 17)
  let part := (s.ownerOfCore p).getD 0
  let dest := s.translate p part (bits a 32 14)
  let pc := c.le.pc
  let tag := c.freeTag.getD 0
  withWait c .load w
    { trap := if kindOf a ≠ 1 then some 5
        else if (rowsFrom r0 n).any (fun r => decide (trapRow ≤ r)) then some 1
        else if dest = none then some 4 else none
      ready := c.sbAllFree (sbTarget w) && s.mayRead p t
      effect := fun t s =>
        let q := dest.getD 0
        s.sendRead p pc tag n (512 * bits w 42 2 + bits w 33 9)
          { cls := bits w 17 2, kind := .readReq, part := part, source := p, node := nodeOf q, core := q, page := 0,
            row := r0, counter := 0, tag := tag, rows := n - 1, total := n, writer := .core, data := 0, due := 0,
            fails := 0 } t }

def planLdb (w : DWord) (p : Nat) (s : State) (t : Nat) : Plan :=
  let c := s.core p
  let n := bits w 27 6 + 1
  let a := c.areg .load (bits w 44 4)
  let b := bits a 40 5
  let part := (s.ownerOfCore p).getD 0
  let pc := c.le.pc
  let tag := c.freeTag.getD 0
  withWait c .load w
    { trap := if kindOf a ≠ 2 then some 5 else if 17 < b then some 4 else none
      ready := c.sbAllFree (sbTarget w) && s.mayRead p t && !s.portHeld (bayPort b) part
      effect := fun t s =>
        s.sendRead p pc tag n (512 * bits w 42 2 + bits w 33 9)
          { cls := 1, kind := .readReq, part := part, source := p, node := 72 + b, core := 0, page := bits a 20 20,
            row := effBayRow a (bits w 0 17), counter := 0, tag := tag, rows := n - 1, total := n, writer := .core,
            data := 0, due := 0, fails := 0, op := t } t }

def execLdl (x : At) (w : DWord) (s : State) : Host.Outcome State Fault Refusal :=
  engineStep (spells .load 0x10 w) (s.issue x .load (planLocal false w x.core))

def execLds (x : At) (w : DWord) (s : State) : Host.Outcome State Fault Refusal :=
  engineStep (spells .load 0x11 w) (s.issue x .load (planLocal true w x.core))

def execLdr (x : At) (w : DWord) (s : State) : Host.Outcome State Fault Refusal :=
  engineStep (spells .load 0x12 w) (s.issue x .load (planLdr w x.core))

def execLdb (x : At) (w : DWord) (s : State) : Host.Outcome State Fault Refusal :=
  engineStep (spells .load 0x13 w) (s.issue x .load (planLdb w x.core))

end Sys2Proof.Machine
end

