-- ==== Sys2Proof/Machine/MatrixEngine.lean ====
section
/-!
DEFINITION. The matrix engine (03_core_engines R94 to R96, 04_low_bit_arithmetic R112 to R119): MXL, MMA, MDR, MCLR, MSCW
and SETXP.
-/

namespace Sys2Proof.Machine

/-- Stage-buffer reference in `off`: buffer in [10:9], row in [8:0] (R89). -/
def sbOff (w : DWord) (n : Nat) : List Nat := sbRows (bits w 9 2) (bits w 0 9) n

def planMxl (w : DWord) (p : Nat) (s : State) (_ : Nat) : Plan :=
  let c := s.core p
  let src := bits w 41 3
  let first := bits w 32 9
  let rel := bits w 31 1
  let n := bits w 17 6 + 1
  let k := ceilDiv n 32
  let a := c.areg .matrix (bits w 23 4)
  if src = 0 then
    let rows := c.liveRows (effRow a (bits w 0 17)) n
    let groups := chunksOf 32 64 rows
    withWait c .matrix w
      { trap := if rel = 1 then some 5 else readTrap a rows
        groups := groups, occ := k, use := .xstore first, lat := 5 }
  else if src = 1 then
    let l := sbOff w n
    withWait c .matrix w
      { ready := c.sbAllValid l, occ := k
        effect := fun t s => s.onCore p (fun c =>
          let c1 := c.writeX (t + 4 + k) first (l.map c.sbData)
          if rel = 1 then c1.release t l else c1) }
  else
    withWait c .matrix w
      { trap := if rel = 1 then some 5 else none
        ready := decide (n ≤ c.xq.length), occ := k
        effect := fun t s => s.onCore p (fun c =>
          ({ c with xq := c.xq.drop n }.later (t + 1) (.xqSpace n)).writeX (t + 4 + k) first (c.xq.take n)) }

/-- Occupancy of an MMA (R94). -/
def mmaOcc (wfmt blk : Nat) (a8 : Bool) : Nat :=
  max (if a8 then 2 * imageTiles wfmt else 1) (ceilDiv (imageRows wfmt blk) 32)

/-- Bytes of the scale window from the pointer on, wrapping within 2 KiB (R95). -/
def Core.windowScales (c : Core) (n : Nat) : Nat :=
  let win := rowsNum c.scale
  (List.range n).foldr (fun i acc => byteAt win ((c.sptr + i) % 2048) + 256 * acc) 0

def Core.chunkRun (c : Core) (first n : Nat) : Nat :=
  (List.range n).foldr (fun i acc => (lookupD 0 c.xstore ((first + i) % 512)).toNat + acc <<< 256) 0

/-- What the array sees of an MMA that issues with this image (R113, R114, R117, R118). -/
def Core.operand (c : Core) (w : DWord) (img : Nat) : Operand :=
  let f := bits w 33 3
  let blk := bits w 32 1
  let a8 := decide (bits w 28 1 = 1)
  let first := if bits w 22 1 = 1 then c.xptr else bits w 36 9
  { wfmt := f, blk := blk, turned := decide (bits w 31 1 = 0 ∨ bits w 30 1 = 1), a8 := a8, img := img,
    scales := if windowFmt f then c.windowScales (scaleBytes f blk) else img >>> (8 * scaleBase f)
    chunks := c.chunkRun first (chunksUsed f a8), x := if a8 then c.x8 else c.x4, ref := (c.accOf (bits w 45 3)).ref }

/-- What an MMA changes beside its accumulator: the pointers and the address register (R95). -/
def Core.mmaGo (c : Core) (w : DWord) (t : Nat) : Core :=
  let f := bits w 33 3
  let blk := bits w 32 1
  let c2 := if bits w 22 1 = 1 then
      { c with xptr := (c.xptr + chunksUsed f (decide (bits w 28 1 = 1))) % 512 } else c
  let c3 := if windowFmt f then { c2 with sptr := (c2.sptr + scaleBytes f blk) % 2048 } else c2
  if bits w 27 1 = 1 then
    let r := bits w 23 4
    c3.later (t + 1) (.areg .matrix r 0 17 (bits (c.areg .matrix r) 0 17 + imageRows f blk))
  else c3

def planMma (w : DWord) (p : Nat) (s : State) (_ : Nat) : Plan :=
  let c := s.core p
  let f := bits w 33 3
  let blk := bits w 32 1
  let n := imageRows f blk
  let occ := mmaOcc f blk (decide (bits w 28 1 = 1))
  let a := c.areg .matrix (bits w 23 4)
  if bits w 31 1 = 0 then
    let rows := c.liveRows (effRow a (bits w 0 17)) n
    let groups := chunksOf 32 64 rows
    withWait c .matrix w
      { trap := if bits w 30 1 = 1 ∨ bits w 29 1 = 1 then some 5 else readTrap a rows
        groups := groups, occ := occ, use := .image (bits w 45 3) (c.operand w 0), lat := 10 + occ - groups.length
        effect := fun t s => s.onCore p (fun c => c.mmaGo w t) }
  else
    let l := sbOff w n
    withWait c .matrix w
      { trap := if bits w 27 1 = 1 ∧ kindOf a ≠ 0 then some 5 else none
        ready := c.sbAllValid l, occ := occ
        effect := fun t s => s.onCore p (fun c =>
          let o := c.operand w (rowsNum (l.map c.sbData))
          let c1 := (c.mmaGo w t).later (t + 9 + occ) (.acc (bits w 45 3) ((List.range 64).map o.sum))
          if bits w 29 1 = 1 then c1.release t l else c1) }

/-- Row `j` of an accumulator read to the scratchpad: elements 16j to 16j + 15 as INT32 (R119). -/
def accRow (l : List Int) (j : Nat) : Row :=
  BitVec.ofNat 512 (((l.drop (16 * j)).take 16).foldr (fun i acc => unsigned i 32 + acc <<< 32) 0)

/-- Elements cleared, the reference exponent kept (R116). -/
def Core.clearAcc (c : Core) (a : Nat) : Core := { c with acc := put c.acc a { c.accOf a with elems := [] } }

def planMdr (w : DWord) (p : Nat) (s : State) (_ : Nat) : Plan :=
  let c := s.core p
  let k := bits w 45 3
  let clr := bits w 43 1
  let a := c.areg .matrix (bits w 23 4)
  if bits w 44 1 = 0 then
    withWait c .matrix w
      { ready := decide (c.rqUsed < 16)
        effect := fun t s => s.onCore p (fun c =>
          let q := c.accOf k
          let c1 := { c with rqUsed := c.rqUsed + 1 }.later (t + 3) (.rqPush ⟨q.ref, q.list⟩)
          if clr = 1 then c1.clearAcc k else c1) }
  else
    let rows := c.liveRows (effRow a (bits w 0 17)) 4
    withWait c .matrix w
      { trap := c.writeTrap a rows, groups := [rows], lat := 4
        use := .write ((rows.zip (List.range 4)).map (fun x => (x.1, accRow (c.accOf k).list x.2)))
        effect := fun _ s => s.onCore p (fun c => if clr = 1 then c.clearAcc k else c) }

/-- A contribution of an MMA to accumulator `a` that has not landed. -/
def accPend (a : Nat) (q : Pend) : Bool := match q.eff with | .acc b _ => b == a | _ => false

/-- Effects in flight that take place now, in order. -/
def Core.applyAll (c : Core) : List Pend → Core × List Note
  | [] => (c, [])
  | q :: r =>
    let x := c.apply q.eff
    let y := x.1.applyAll r
    (y.1, x.2 ++ y.2)

/-- MCLR (R95, R96, R116): after every MMA issued before it, whose saturated elements count, the accumulator is 0. -/
def State.clearAll (s : State) (p a ref : Nat) : State :=
  let c := s.core p
  let notes := (c.applyAll (c.pend.filter (accPend a))).2
  each (fun n (t : State) => t.note p t.cycle n) notes
    (s.setCore p { c with acc := put c.acc a ⟨ref, []⟩, pend := c.pend.filter (fun q => !accPend a q) })

def planMclr (w : DWord) (p : Nat) (s : State) (_ : Nat) : Plan :=
  withWait (s.core p) .matrix w { effect := fun _ s => s.clearAll p (bits w 45 3) (bits w 0 8) }

def planMscw (w : DWord) (p : Nat) (s : State) (_ : Nat) : Plan :=
  let c := s.core p
  let a := c.areg .matrix (bits w 23 4)
  let rows := c.liveRows (effRow a (bits w 0 17)) 32
  withWait c .matrix w
    { trap := readTrap a rows, groups := [rows], use := .scale, lat := 6 }

def planSetxp (w : DWord) (p : Nat) (s : State) (_ : Nat) : Plan :=
  withWait (s.core p) .matrix w { effect := fun t s => s.onCore p (fun c => c.later (t + 1) (.xptr (bits w 0 9))) }

def execMxl (x : At) (w : DWord) (s : State) : Host.Outcome State Fault Refusal :=
  engineStep (spells .matrix 0x40 w) (s.issue x .matrix (planMxl w x.core))

def execMma (x : At) (w : DWord) (s : State) : Host.Outcome State Fault Refusal :=
  engineStep (spells .matrix 0x41 w) (s.issue x .matrix (planMma w x.core))

def execMdr (x : At) (w : DWord) (s : State) : Host.Outcome State Fault Refusal :=
  engineStep (spells .matrix 0x42 w) (s.issue x .matrix (planMdr w x.core))

def execMclr (x : At) (w : DWord) (s : State) : Host.Outcome State Fault Refusal :=
  engineStep (spells .matrix 0x43 w) (s.issue x .matrix (planMclr w x.core))

def execMscw (x : At) (w : DWord) (s : State) : Host.Outcome State Fault Refusal :=
  engineStep (spells .matrix 0x44 w) (s.issue x .matrix (planMscw w x.core))

def execSetxp (x : At) (w : DWord) (s : State) : Host.Outcome State Fault Refusal :=
  engineStep (spells .matrix 0x45 w) (s.issue x .matrix (planSetxp w x.core))

end Sys2Proof.Machine
end

