-- ==== Sys2Proof/Machine/VectorEngine.lean ====
section
/-!
DEFINITION. The vector engine (03_core_engines R97, 04_low_bit_arithmetic R119 to R124, R130): VLD to VMOVI.
-/

namespace Sys2Proof.Machine

def Core.v (c : Core) (r : Nat) : VReg := lookupD 0 c.vreg (r % 32)

def vd (w : DWord) : Nat := bits w 42 5
def va (w : DWord) : Nat := bits w 37 5
def vb (w : DWord) : Nat := bits w 32 5
def vc (w : DWord) : Nat := bits w 27 5
def is32 (w : DWord) : Bool := decide (bits w 47 1 = 1)
def subOp (w : DWord) : Nat := bits w 17 6

/-- The two rows of a vector register. -/
def vregRows (v : VReg) : List Row := [BitVec.ofNat 512 v.toNat, BitVec.ofNat 512 (v.toNat >>> 512)]

/-- A lane operation: registers written `lat` cycles after issue. -/
def planLanes (lat occ : Nat) (w : DWord) (p : Nat) (f : Core → List (Nat × VReg)) (s : State) (_ : Nat) : Plan :=
  withWait (s.core p) .vector w
    { occ := occ
      effect := fun t s => s.onCore p (fun c => c.laters ((f c).map (fun x => (t + lat, Eff.vreg (x.1 % 32) x.2)))) }

def planVld (w : DWord) (p : Nat) (s : State) (_ : Nat) : Plan :=
  let c := s.core p
  let a := c.areg .vector (bits w 23 4)
  let rows := c.liveRows (effRow a (bits w 0 17)) 2
  withWait c .vector w
    { trap := readTrap a rows, groups := [rows], use := .vec (vd w), lat := 4 }

def planVlds (w : DWord) (p : Nat) (s : State) (_ : Nat) : Plan :=
  let c := s.core p
  let l := sbRows (bits w 9 2) (bits w 0 9) 2
  withWait c .vector w
    { ready := c.sbAllValid l
      effect := fun t s => s.onCore p (fun c =>
        let c1 := c.later (t + 2) (.vreg (vd w) (twoRows (l.map c.sbData)))
        if bits w 22 1 = 1 then c1.release t l else c1) }

def planVst (w : DWord) (p : Nat) (s : State) (_ : Nat) : Plan :=
  let c := s.core p
  let a := c.areg .vector (bits w 23 4)
  let rows := c.liveRows (effRow a (bits w 0 17)) 2
  withWait c .vector w
    { trap := c.writeTrap a rows, groups := [rows], use := .write (rows.zip (vregRows (c.v (vd w)))), lat := 4 }

def planVrq (w : DWord) (p : Nat) (s : State) (_ : Nat) : Plan :=
  let c := s.core p
  withWait c .vector w
    { ready := c.rq != [], occ := 2
      effect := fun t s => s.onCore p (fun c =>
        match c.rq with
        | [] => c
        | q :: r =>
          let l := q.elems.map (rqToFp32 q.ref)
          ({ c with rq := r }.later (t + 1) .rqSpace).laters
            [(t + 4, .vreg (vd w) (ofLanes true (l.take 32))), (t + 4, .vreg (vd w + 1) (ofLanes true (l.drop 32)))]) }

/-- va op vb on every lane, rounded once (R120). -/
def binLanes (w : DWord) (f : FV → FV → FV) (c : Core) : List (Nat × VReg) :=
  [(vd w, mapLanes (is32 w) (fun i => f (laneV (is32 w) (c.v (va w)) i) (laneV (is32 w) (c.v (vb w)) i)))]

def fmaLanes (w : DWord) (c : Core) : List (Nat × VReg) :=
  let l := fun r i => laneV (is32 w) (c.v r) i
  [(vd w, mapLanes (is32 w) (fun i => FV.add (FV.mul (l (va w) i) (l (vb w) i)) (l (vc w) i)))]

def cvtLanes (w : DWord) (c : Core) : List (Nat × VReg) :=
  if subOp w = 0 then
    [(vd w, mapLanes false (fun i => laneV true (c.v (va w + i / 32)) (i % 32)))]
  else
    [(vd w, mapLanes true (fun i => laneV false (c.v (va w)) i)),
     (vd w + 1, mapLanes true (fun i => laneV false (c.v (va w)) (32 + i)))]

def redLanes (w : DWord) (c : Core) : List (Nat × VReg) :=
  let v := c.v (va w)
  let z := is32 w
  if subOp w = 0 then [(vd w, splat z (redSum z v))]
  else if subOp w = 1 then [(vd w, splat z (redMax z v))]
  else [(vd w, splat z (redMax z v)), (vd w + 1, splat z (FV.encode (laneFmt z) (.num false (redArg z v) 0)))]

/-- A lane function within 1 ulp: each lane takes a free number of its own (R120, log entry 13). -/
def planNear (f : Nat → FV → Nat) (w : DWord) (p : Nat) (s : State) (_ : Nat) : Plan :=
  withWait (s.core p) .vector w
    { effect := fun t s =>
        let k := s.oracle
        { s with oracle := k + 64 }.onCore p (fun c => c.later (t + 8) (.vreg (vd w)
          (mapLanes32 (is32 w) (fun i => f (Config.freeNat (k + i)) (laneV (is32 w) (c.v (va w)) i))))) }

/-- Result of a VQNT (R121 to R124): the row, the scale bytes, the residuals, the new carry and the clamps. -/
structure Vqnt where
  row : Row
  scales : List Byte
  resid : List (List Nat)
  carry : Word
  clamps : Nat
  deriving DecidableEq, Repr

/-- The chain carry that the next VQNT takes (R121): of the last VQNT under way, else the register. -/
def Core.chain (c : Core) : Word :=
  c.pend.foldl (fun v q => match q.eff with | .carry w true => w | _ => v) c.carry

/-- Scales in the collector and on their way there. -/
def Core.collected (c : Core) : Nat :=
  c.pend.foldl (fun n q => match q.eff with | .collect l => n + l.length | _ => n) c.collector.length

def bfLanes (v : VReg) : List FV := (List.range 64).map (laneV false v)

def Core.vqnt (c : Core) (w : DWord) : Vqnt :=
  let k := bits w 20 3
  let bits8 := decide (k % 2 = 1)
  let regs := if bits8 then [va w] else [va w, va w + 1]
  if k < 2 then
    let x := if bits8 then c.x8 else c.x4
    let c0 := if bits w 18 1 = 1 then FV.num false 0 0 else FV.decode fp32 c.chain.toNat
    let r := quantChain bits8 x (regs.flatMap (fun i => bfLanes (c.v i))) c0
    { row := packCodes bits8 r.1, scales := regs.map (fun _ => BitVec.ofNat 8 x), resid := [],
      carry := BitVec.ofNat 32 (FV.encode fp32 r.2.1), clamps := r.2.2 }
  else
    let bs := (List.range regs.length).map (fun i => quantBlock bits8 (bfLanes (c.v (va w + i))) (bfLanes (c.v (vb w + i))))
    { row := packCodes bits8 (bs.flatMap (fun b => b.2.1)), scales := bs.map (fun b => BitVec.ofNat 8 b.1),
      resid := bs.map (fun b => b.2.2.1), carry := c.carry, clamps := bs.foldl (fun n b => n + b.2.2.2) 0 }

/-- VQNT (R97, R121 to R124): its row, residuals, scales, clamps and carry are there after its latency; only the next VQNT takes
the carry on at once (log entry 22). -/
def planVqnt (w : DWord) (p : Nat) (s : State) (_ : Nat) : Plan :=
  let c := s.core p
  let a := c.areg .vector (bits w 23 4)
  let row := c.live (effRow a (bits w 0 17))
  let toXq := bits w 19 1 = 1
  let four := bits w 20 1 = 0
  withWait c .vector w
    { trap := if toXq then none else c.writeTrap a [row]
      ready := decide (c.collected + (if four then 2 else 1) ≤ 64) && (!decide toXq || decide (c.xqUsed < 16))
      groups := if toXq then [] else [[row]]
      use := .write [(row, (c.vqnt w).row)], lat := 6
      occ := if four then 2 else 1
      effect := fun t s => s.onCore p (fun c =>
        let q := c.vqnt w
        let c1 := if toXq then { c with xqUsed := c.xqUsed + 1 }.later (t + 6) (.xqPush q.row) else c
        let c2 := if bits w 20 3 < 2 then c1.later (t + 6) (.carry q.carry true) else c1
        (c2.laters [(t + 6, .collect q.scales), (t + 6, .tally q.clamps)]).laters (((List.range q.resid.length).zip q.resid).map
          (fun x => (t + 6, Eff.vreg ((vd w + x.1) % 32) (ofLanes false x.2))))) }

/-- VSCS (R97): the scales that the collector holds, as one row; the collector is empty after the latency. R97 does not say what
the row holds above them: it is zero (log entry 117). -/
def planVscs (w : DWord) (p : Nat) (s : State) (_ : Nat) : Plan :=
  let c := s.core p
  let a := c.areg .vector (bits w 23 4)
  let row := c.live (effRow a (bits w 0 17))
  withWait c .vector w
    { trap := c.writeTrap a [row], groups := [[row]], lat := 4
      use := .write [(row, BitVec.ofNat 512 (ofBytes c.collector))]
      effect := fun t s => s.onCore p (fun c => c.later (t + 4) .emptied) }

def planVcry (w : DWord) (p : Nat) (s : State) (_ : Nat) : Plan :=
  withWait (s.core p) .vector w
    { occ := 2
      effect := fun t s => s.onCore p (fun c =>
        if subOp w = 0 then c.later (t + 4) (.carry (BitVec.ofNat 32 (c.v (va w)).toNat) false)
        else c.laters [(t + 4, .vreg (vd w) (BitVec.ofNat 1024 c.carry.toNat)), (t + 4, .vreg ((vd w + 1) % 32) 0)]) }

/-- Packet of a part: class 3, to the steward die (R130, R178). -/
def partPacket (n p t : Nat) : Packet :=
  { cls := 3, kind := .control, part := n, source := p, node := 98, core := 0, page := 0, row := 0, counter := 0, tag := 0, rows := 0
    total := 1, writer := .core, data := 0, due := t, fails := 0 }

/-- A part leaves its core: on its way for the latency of its route, or dropped where that fails. -/
def State.sendPart (s : State) (q : Part130) (p : Nat) : State :=
  match s.route 3 q.part p 98 0 none with
  | .ok dies =>
    { s with watch := s.watch ++ [{ q with due := q.issued + routeLatency (clusterHops p 98 0) (crossings dies) }] }
  | .lost d => s.netDrop d 3 (partPacket q.part p q.issued)

/-- VNW (R130): a part to the watch unit, with the clamp tally, which it clears (R124). -/
def planVnw (w : DWord) (p : Nat) (s : State) (_ : Nat) : Plan :=
  withWait (s.core p) .vector w
    { effect := fun t s =>
        let n := (s.ownerOfCore p).getD 0
        let c := s.core p
        let l := (s.logicalOf n p).getD 0x3FFF
        let q : Part130 :=
          { part := n, stage := lookupD 0 (s.part n).stageOf l, logical := l, seq := s.watch.length
            slot := bits w 0 4, sum := BitVec.ofNat 32 (c.v (va w)).toNat, tally := c.tally
            beat := s.pair (BEAT_CUR_LO n) (BEAT_CUR_HI n), issued := t, due := t }
        (s.sendPart q p).onCore p (fun c => { c with tally := 0 }) }

def execVld (x : At) (w : DWord) (s : State) : Host.Outcome State Fault Refusal :=
  engineStep (spells .vector 0x80 w) (s.issue x .vector (planVld w x.core))

def execVlds (x : At) (w : DWord) (s : State) : Host.Outcome State Fault Refusal :=
  engineStep (spells .vector 0x81 w) (s.issue x .vector (planVlds w x.core))

def execVst (x : At) (w : DWord) (s : State) : Host.Outcome State Fault Refusal :=
  engineStep (spells .vector 0x82 w) (s.issue x .vector (planVst w x.core))

def execVrq (x : At) (w : DWord) (s : State) : Host.Outcome State Fault Refusal :=
  engineStep (spells .vector 0x83 w) (s.issue x .vector (planVrq w x.core))

def execVadd (x : At) (w : DWord) (s : State) : Host.Outcome State Fault Refusal :=
  engineStep (spells .vector 0x84 w) (s.issue x .vector (planLanes 4 1 w x.core (binLanes w FV.add)))

def execVsub (x : At) (w : DWord) (s : State) : Host.Outcome State Fault Refusal :=
  engineStep (spells .vector 0x85 w) (s.issue x .vector (planLanes 4 1 w x.core (binLanes w (fun a b => FV.add a b.neg))))

def execVmul (x : At) (w : DWord) (s : State) : Host.Outcome State Fault Refusal :=
  engineStep (spells .vector 0x86 w) (s.issue x .vector (planLanes 4 1 w x.core (binLanes w FV.mul)))

def execVfma (x : At) (w : DWord) (s : State) : Host.Outcome State Fault Refusal :=
  engineStep (spells .vector 0x87 w) (s.issue x .vector (planLanes 4 1 w x.core (fmaLanes w)))

def execVmax (x : At) (w : DWord) (s : State) : Host.Outcome State Fault Refusal :=
  engineStep (spells .vector 0x88 w) (s.issue x .vector
    (planLanes 4 1 w x.core (fun c => [(vd w, pickLanes (is32 w) true (c.v (va w)) (c.v (vb w)))])))

def execVmin (x : At) (w : DWord) (s : State) : Host.Outcome State Fault Refusal :=
  engineStep (spells .vector 0x89 w) (s.issue x .vector
    (planLanes 4 1 w x.core (fun c => [(vd w, pickLanes (is32 w) false (c.v (va w)) (c.v (vb w)))])))

def execVcvt (x : At) (w : DWord) (s : State) : Host.Outcome State Fault Refusal :=
  engineStep (spells .vector 0x8A w) (s.issue x .vector (planLanes 4 (subOp w + 1) w x.core (cvtLanes w)))

def execVexp (x : At) (w : DWord) (s : State) : Host.Outcome State Fault Refusal :=
  engineStep (spells .vector 0x8B w) (s.issue x .vector (planNear vexp w x.core))

def execVrcp (x : At) (w : DWord) (s : State) : Host.Outcome State Fault Refusal :=
  engineStep (spells .vector 0x8C w) (s.issue x .vector (planNear vrcp w x.core))

def execVrsq (x : At) (w : DWord) (s : State) : Host.Outcome State Fault Refusal :=
  engineStep (spells .vector 0x8D w) (s.issue x .vector (planNear vrsq w x.core))

def execVred (x : At) (w : DWord) (s : State) : Host.Outcome State Fault Refusal :=
  engineStep (spells .vector 0x8E w) (s.issue x .vector (planLanes 6 1 w x.core (redLanes w)))

def execVrot (x : At) (w : DWord) (s : State) : Host.Outcome State Fault Refusal :=
  engineStep (spells .vector 0x8F w) (s.issue x .vector
    (planLanes 6 1 w x.core (fun c => [(vd w, rotate (is32 w) (c.v (va w)) (c.v (vb w)) (c.v (vc w)))])))

def execVqnt (x : At) (w : DWord) (s : State) : Host.Outcome State Fault Refusal :=
  engineStep (spells .vector 0x90 w) (s.issue x .vector (planVqnt w x.core))

def execVscs (x : At) (w : DWord) (s : State) : Host.Outcome State Fault Refusal :=
  engineStep (spells .vector 0x91 w) (s.issue x .vector (planVscs w x.core))

def execVcry (x : At) (w : DWord) (s : State) : Host.Outcome State Fault Refusal :=
  engineStep (spells .vector 0x92 w) (s.issue x .vector (planVcry w x.core))

def execVnw (x : At) (w : DWord) (s : State) : Host.Outcome State Fault Refusal :=
  engineStep (spells .vector 0x93 w) (s.issue x .vector (planVnw w x.core))

def execVmovi (x : At) (w : DWord) (s : State) : Host.Outcome State Fault Refusal :=
  engineStep (spells .vector 0x94 w) (s.issue x .vector
    (planLanes 1 1 w x.core (fun _ => [(vd w, splat (is32 w) (bits w 0 32))])))

end Sys2Proof.Machine
end

