-- ==== Sys2Proof/Machine/Engines.lean ====
section
/-!
DEFINITION. The engines as the beat sequencer and the registers see them (02_beat R47, R69; 03_core_engines R103): what the
instruction that an engine is about to issue needs, whether it is held, and when its plan clock stands at the guard start.
-/

namespace Sys2Proof.Machine

/-- What the operation that a word spells needs (R92 to R98). -/
def planOf (e : Engine) (w : DWord) (p : Nat) : State → Nat → Plan :=
  match opcode w with
  | 0x00 => planNop e w p
  | 0x01 => planEob e w p
  | 0x02 => planWait w
  | 0x03 => planSetw e w p
  | 0x04 => planLoop e w p
  | 0x05 => planLoopr e w p
  | 0x06 => planBr e w p
  | 0x07 => planSig e w p
  | 0x08 => planSwt e w p
  | 0x09 => planSeta e w p
  | 0x0A => planAdda e w p
  | 0x0B => planLda e w p
  | 0x0C => planSbrel e w p
  | 0x10 => planLocal false w p
  | 0x11 => planLocal true w p
  | 0x12 => planLdr w p
  | 0x13 => planLdb w p
  | 0x40 => planMxl w p
  | 0x41 => planMma w p
  | 0x42 => planMdr w p
  | 0x43 => planMclr w p
  | 0x44 => planMscw w p
  | 0x45 => planSetxp w p
  | 0x80 => planVld w p
  | 0x81 => planVlds w p
  | 0x82 => planVst w p
  | 0x83 => planVrq w p
  | 0x90 => planVqnt w p
  | 0x91 => planVscs w p
  | 0xC0 => planSwr w p
  | 0xC1 => planSwb w p
  | 0xC2 => planSemt w p
  | _ => fun s _ => withWait (s.core p) e w {}

/-- The word that an engine is about to issue. -/
def Core.word (c : Core) (e : Engine) : DWord := lookupD 0 c.imem (c.eng e).pc

/-- An engine that stands idle in cycle `t` with nothing to hold it: it could issue, or trap, and does not. -/
def State.able (s : State) (p : Nat) (e : Engine) (t : Nat) : Bool :=
  let c := s.core p
  let q := planOf e (c.word e) p s t
  s.mayRun p e && ((q.cause c).isSome || q.free c e t)

/-- An engine was held in the last cycle (R47, R103): idle though its occupancy had elapsed, or within an instruction. -/
def State.heldNow (s : State) (p : Nat) (e : Engine) (t : Nat) : Bool :=
  let c := s.core p
  let x := c.eng e
  (s.mayRun p e && decide (x.ready < t)) ||
    (c.inBeat && decide (x.heldAt < t ∧ t ≤ x.heldAt + x.heldFor))

/-- Cycle in which an engine's plan clock stands at S, as far as it is known (R47). -/
def Core.overrunCycle (c : Core) (e : Engine) (sg : Nat) : Nat := c.beat + (c.eng e).heldSum + sg

/-- An engine overruns its plan by cycle `t`, in which the core stands as it does here: its clock stands at S while it runs, has
trapped or has not begun, or while it stands idle with nothing to hold it since the cycle `idle`; and it is not about to issue its
EOB (R47). -/
def State.lateBy (s : State) (p sg : Nat) (e : Engine) (idle : Option Nat) (t : Nat) : Bool :=
  let c := s.core p
  let x := c.eng e
  let due := c.overrunCycle e sg
  if !c.inBeat || x.eob || s.on (DIE_CORE_CTL_freeze p) then false
  else if x.trapped || x.out then decide (due ≤ t)
  else if opcode (c.word e) = 0x01 then false
  else if due ≤ x.ready then decide (due ≤ t)
  else idle.any (fun u => decide (x.ready ≤ u ∧ u ≤ t ∧ due + (u - x.ready) ≤ t) && s.able p e t)

end Sys2Proof.Machine
end

