-- ==== Sys2Proof/Machine/Beat.lean ====
section
/-!
DEFINITION. Time (02_beat): the tick, beat plans, the start and end of intervals, slips and overruns, holds and the stats
windows. What happens at a boundary beyond the interval itself (gate, watcher, requests, swaps) is in Boundary.lean.
-/

namespace Sys2Proof.Machine

/-! ## Beat plans (R45, R63) -/

def State.planB (s : State) (n : Nat) : Nat := s.get (BEAT_PLAN_LEN_ticks n)
def State.planG (s : State) (n : Nat) : Nat := 64 * s.get (BEAT_PLAN_LEN_guard_units n)
def State.planL (s : State) (n : Nat) : Nat := s.get (BEAT_PLAN_LEN_slip_limit n)
/-- Cycle at which the guard starts, S = C - G. -/
def State.planS (s : State) (n : Nat) : Nat := 256 * s.planB n - s.planG n

/-- The ranges of R45. -/
def beatPlanOk (ticks guard slip : Nat) : Bool :=
  decide (8 ≤ ticks ∧ ticks ≤ 256 ∧ 3 ≤ guard ∧ guard ≤ 64 ∧ 64 * guard ≤ 128 * ticks ∧ slip ≤ 8)

def State.planOk (s : State) (n : Nat) : Bool :=
  beatPlanOk (s.planB n) (s.get (BEAT_PLAN_LEN_guard_units n)) (s.planL n)

def State.origin (s : State) (n : Nat) : Nat := s.pair (BEAT_PLAN_ORIGIN_LO n) (BEAT_PLAN_ORIGIN_HI n)

/-! ## Engines at a beat -/

/-- Recipe that a stage runs (R139). -/
def State.recipe (s : State) (n st : Nat) : Nat := s.get (PART_STG_REC_cur n st)

/-- Every engine of a placed core begins its beat program (R46, R73, R117, R126), but for one whose region holds no word
(R104). -/
def State.startCore (s : State) (n p : Nat) : State :=
  let st := lookupD 0 (s.part n).stageOf ((s.logicalOf n p).getD 0)
  let k := s.recipe n st
  let off := if (s.part n).second then s.get (PART_RCP_OFF_off1 n st k) else s.get (PART_RCP_OFF_off0 n st k)
  let go := fun (e : Engine) (x : Eng) =>
    { x with
      pc := (s.get (DIE_CORE_PROG_base p (engineCode e)) + off) % 16384, loops := [], ready := s.cycle, heldSum := 0
      heldFor := 0, eob := false, eobAt := 0, trapped := false
      out := decide (s.get (DIE_CORE_PROG_limit p (engineCode e)) ≤ s.get (DIE_CORE_PROG_base p (engineCode e))) }
  (s.settle p s.cycle).onCore p (fun c =>
    { c with
      le := go .load c.le, me := go .matrix c.me, ve := go .vector c.ve, se := go .send c.se, inBeat := true
      beat := s.cycle, prog := off, x4 := s.get (PART_RCP_CFG_xexp4 n st k), x8 := s.get (PART_RCP_CFG_xexp8 n st k) })

/-- A core whose four engines have issued EOB (R46). -/
def Core.complete (c : Core) : Bool := c.le.eob && c.me.eob && c.ve.eob && c.se.eob

/-- Cycle in which a core's last engine issued EOB. -/
def Core.doneAt (c : Core) : Nat := max (max c.le.eobAt c.me.eobAt) (max c.ve.eobAt c.se.eobAt)

def State.beatComplete (s : State) (n : Nat) : Bool := (s.members n).all (fun p => (s.core p).complete)

/-! ## Counters of R71 -/

def State.beatCnt (s : State) (n i k : Nat) : State := s.bump (BEAT_CNT_count n i) k

/-- The figures of a beat, counted once: slips and guard use (R56, R71). Where the beat overruns and its last core never
completes, R71 gives BEAT_CNT_GUARDMAX no measure: the latest EOB so far is taken (log entry 113). -/
def State.beatFigures (s : State) (n : Nat) : State :=
  let slip := s.get (BEAT_STAT_slip_used n)
  let s1 := if 0 < slip then (s.beatCnt n 2 1).beatCnt n 3 slip else s
  let last := ((s.members n).map (fun p => (s.core p).doneAt)).foldl max 0
  let g := s.planS n + (s.part n).began
  let late := !s.beatComplete n || decide (g ≤ last)
  if late then
    let s2 := s1.beatCnt n 4 1
    s2.set (BEAT_CNT_count n 5) (max (s2.get (BEAT_CNT_count n 5)) (last - g))
  else s1

/-- Whether a hold ends in this cycle: the first tick after the write that cleared hold, set again since or not (R51). -/
def State.holdEndDue (s : State) (n : Nat) : Bool :=
  s.on (BEAT_PLAN_CTL_held n) && s.cycle % 256 == 0 && (s.part n).holdClr.any (fun c => decide (c < s.cycle))

/-- Whether a stats window begins with the present tick (R57). -/
def State.windowDue (s : State) (n : Nat) : Bool :=
  s.on (BEAT_PLAN_CTL_active n) && s.cycle % 256 == 0 && s.tick == (s.part n).winEnd

/-! ## The tick (R41 to R44) -/

/-- A beat abandoned at the end of the tick of its overrun (R49): its engines stop, its records are dropped (R468). -/
def State.abandon (s : State) (n : Nat) : State :=
  let s1 := each (fun p (t : State) => t.onCore p (fun c => { c with inBeat := false })) (s.partCores n) s
  let q := s1.part n
  let s2 := s1.setPart n
    { q with interval := .none, beats := match q.beats with | b :: r => { b with gate := [] } :: r | [] => [] }
  ((s2.setOn (BEAT_STAT_in_beat n) false).setOn (BEAT_STAT_in_rest n) false).set (BEAT_STAT_slip_used n) 0

/-- What every tick does to a partition: abandonment, release points while it is quiet, and the count of a tick spent in a
hold, unless the hold ends with it or it begins a stats window, whose own command counts it (R49, R56, R71, R216). -/
def State.tickPart (s : State) (n : Nat) : State :=
  let s1 := if (s.part n).overrun ∧ (s.part n).interval ≠ .none then s.abandon n else s
  let s2 := if s1.on (BEAT_PLAN_CTL_held n) && !s1.holdEndDue n && !s1.windowDue n then s1.beatCnt n 6 1 else s1
  if s2.quiet n then s2.releasePoint n else s2

/-- Partitions that have something for a tick to do. -/
def State.tickParts (s : State) : List Nat := (s.parts.map (·.1) ++ s.retiring.map (·.part)).eraseDups

/-- The next tick begins, with the number given (R41, R62), once the cores have done what falls into the one that ends, so that
it is stamped with that (R55): the tick may be a mark (R42), and edge credits are refilled (R190). -/
def State.beginTick (s : State) (number : Nat) : State :=
  let s0 := each (fun p (t : State) => (State.runTo p t.tickEnd t.tickEnd t).effects p (t.tickEnd - 1)) (s.cores.map (·.1)) s
  let s1 := { s0 with tick := number % 2 ^ 64, cycle := s.tickEnd, pwr := { s0.pwr with marked := 0 } }
  each (fun n (t : State) => t.tickPart n) s1.tickParts s1.refillCredits

/-- Number of the tick that begins next: the one loaded, or the next (R62). -/
def State.nextTick (s : State) : Nat :=
  if s.on BEAT_TICK_CTL_load then s.pair BEAT_TICK_SET_LO BEAT_TICK_SET_HI else s.tick + 1

/-- Any partition with active or held set (R44). -/
def State.anyActive (s : State) : Bool :=
  (List.range 64).any (fun n => s.on (BEAT_PLAN_CTL_active n) || s.on (BEAT_PLAN_CTL_held n))

/-- A request to load the tick counter: refused while a partition is active or held (R44, R62). -/
def State.tickLoad (s : State) : State :=
  if s.anyActive then s.raise BEAT_TICK_CTL_refused else s.setOn BEAT_TICK_CTL_load true

/-! ## Intervals (R46 to R51) -/

/-- A working beat begins at this cycle, with the step and the half of the pair that it runs (R129, R289). -/
def State.beginWorking (s : State) (n step : Nat) (second : Bool) : State :=
  let k := s.pair (BEAT_CUR_LO n) (BEAT_CUR_HI n) + 1
  let s1 := (s.setPair (BEAT_CUR_LO n) (BEAT_CUR_HI n) (k % 2 ^ 48)).setPair (BEAT_CUR_START_LO n) (BEAT_CUR_START_HI n) s.tick
  let s2 := ((s1.setOn (BEAT_STAT_in_beat n) true).setOn (BEAT_STAT_in_rest n) false).set (BEAT_STAT_slip_used n) 0
  let q := s2.part n
  let s3 := s2.setPart n
    { q with
      interval := .working, began := s.cycle, ended := false, second := second
      pairA := if s.on (PART_NW_CTL_half n) && !second then some (k, step) else q.pairA
      beats := (⟨k, s.tick, step, second, s.on (PART_NW_CTL_half n), [], []⟩ : BeatRec) :: q.beats }
  each (fun p (t : State) => t.startCore n p) (s3.members n) s3

/-- A rest beat begins (R50). -/
def State.beginRest (s : State) (n : Nat) : State :=
  let s1 := s.setPair (BEAT_CUR_START_LO n) (BEAT_CUR_START_HI n) s.tick
  let s2 := ((s1.setOn (BEAT_STAT_in_beat n) false).setOn (BEAT_STAT_in_rest n) true).set (BEAT_STAT_slip_used n) 0
  s2.onPart n (fun q => { q with interval := .rest, began := s.cycle, ended := false, owed := q.owed - 1 })

/-- A hold begins (R51); its first tick counts (R71). -/
def State.beginHold (s : State) (n : Nat) : State :=
  let s1 := (s.setPair (BEAT_CUR_START_LO n) (BEAT_CUR_START_HI n) s.tick).setOn (BEAT_PLAN_CTL_held n) true
  let s2 := ((s1.setOn (BEAT_STAT_in_beat n) false).setOn (BEAT_STAT_in_rest n) false).set (BEAT_STAT_slip_used n) 0
  (s2.onPart n (fun q => { q with interval := .hold, began := s.cycle, ended := false, holdClr := none, flipHold := false })).beatCnt n 6 1

/-- The partition's intervals end: active and stop clear (R64). -/
def State.endIntervals (s : State) (n : Nat) : State :=
  let s1 := ((((s.setOn (BEAT_PLAN_CTL_active n) false).setOn (BEAT_PLAN_CTL_stop n) false).setOn
    (BEAT_PLAN_CTL_held n) false).setOn (BEAT_STAT_in_beat n) false).setOn (BEAT_STAT_in_rest n) false
  (s1.set (BEAT_STAT_slip_used n) 0).onPart n (fun q => { q with interval := .none, ended := false, owed := 0, replay := [], nwReplay := false })

/-- A working beat or a rest beat has ended at this boundary: its counters, and the rest beats the pattern adds (R50). -/
def State.closeInterval (s : State) (n : Nat) : State :=
  let q := s.part n
  match q.interval with
  | .working =>
    let add := (q.restIdx + 1) * q.rest / 16 - q.restIdx * q.rest / 16
    let s1 := (s.beatFigures n).beatCnt n 0 1
    let s2 := each (fun p (t : State) => t.onCore p (fun c => { c with inBeat := false })) (s1.members n) s1
    s2.onPart n (fun q =>
      if q.restNew then
        { q with owed := q.owed + add, restIdx := 0, rest := s.get (BEAT_PLAN_REST_rest n), restNew := false }
      else { q with owed := q.owed + add, restIdx := q.restIdx + 1 })
  | .rest => s.beatCnt n 1 1
  | _ => s

/-- Whether the present cycle is the boundary that ends the interval of a partition. -/
def State.boundaryDue (s : State) (n : Nat) : Bool :=
  let q := s.part n
  s.cycle % 256 == 0 && !q.overrun && q.restart == none &&
    match q.interval with
    | .working => q.ended && decide (s.cycle = q.began + 256 * (s.planB n + s.get (BEAT_STAT_slip_used n)))
    | .rest => decide (s.cycle = q.began + 256 * s.planB n)
    | _ => false

/-! ## Overruns (R47, R49, R69) -/

/-- Lowest engine of a core that has not issued EOB. -/
def Core.lateEngine (c : Core) : Engine :=
  if !c.le.eob then .load else if !c.me.eob then .matrix else if !c.ve.eob then .vector else .send

/-- Whether an engine is held on an arrival counter: the word at its pc waits for one that is too low (R69). -/
def Core.onWait (c : Core) (e : Engine) (t : Nat) : Bool :=
  let x := c.eng e
  let w := lookupD 0 c.imem x.pc
  let need := if bits w 56 8 = 2 then some (bits w 0 24)
    else match bits w 48 2 with
      | 0 => none
      | 1 => some 1
      | _ => some x.wamt
  !x.eob && !x.trapped && decide (x.ready ≤ t) && need.any (fun k => decide (c.cnt (bits w 50 6) < k))

/-- A beat overrun: recorded if it is the first, counted, raised; the beat is abandoned at the end of the tick. -/
def State.overrunAt (s : State) (n cause p : Nat) (e : Engine) : State :=
  let l := (s.logicalOf n p).getD 0x3FFF
  let v := cause * 2 ^ 28 + engineCode e * 2 ^ 26 + b2n ((s.core p).onWait e s.cycle) * 2 ^ 25 + l % 2 ^ 14
  let s1 := if s.on (BEAT_OVR_valid n) then s
    else ((s.recordFirst (BEAT_OVR n) v).setPair (BEAT_OVR_TICK_LO n) (BEAT_OVR_TICK_HI n) s.tick).partEvt n 1
  let s2 := (s1.beatFigures n).beatCnt n 7 1
  (s2.onPart n (fun q => { q with overrun := true })).report
    ⟨6, s.tick, some n, some p, 0, some l, cause + 8 * engineCode e, 0, false⟩

/-- The cores and engines of a partition that overrun their plans by cycle `t`, lowest logical id first and within it lowest engine
first (R69): engine `e` of core `p` may be hung since cycle `since`, the others are not. -/
def State.lateEngines (s : State) (n p : Nat) (e : Engine) (since t : Nat) : List (Nat × Engine) :=
  (s.part n).logical.flatMap (fun (x : Nat × Nat) =>
    if s.on (DIE_CORE_CTL_member x.2) then
      ([Engine.load, .matrix, .vector, .send].filter (fun k =>
        s.lateBy x.2 (s.planS n) k (if x.2 = p ∧ k = e then some since else none) t)).map (fun k => (x.2, k))
    else [])

/-- The cores of a partition as they stand at the start of a cycle. -/
def State.settleAll (s : State) (n t : Nat) : State := each (fun p (u : State) => u.settle p t) (s.members n) s

/-- PLAN_OVERRUN: the first overrun of this tick is detected: residue mismatches are reported at S, then the overrun (R47, R69,
R466). The engine named may have stopped issuing in cycle `since` with nothing to hold it. -/
def State.planOverrun (s : State) (n p : Nat) (e : Engine) (since : Nat) : State :=
  if (s.part n).interval ≠ .working ∨ (s.part n).overrun then s
  else
    match firstFrom (fun t => (s.settleAll n t).lateEngines n p e since t != []) s.cycle (s.tickEnd - s.cycle) with
    | none => s
    | some t =>
      let u := (s.settleAll n t).at t
      match u.lateEngines n p e since t with
      | [] => s
      | x :: _ => (u.reportResidue x.1 x.2).overrunAt n 1 x.1 x.2

/-- BEAT_DECISION (R48): at the last cycle of a beat or slip tick. -/
def State.beatDecision (s : State) (n : Nat) : State :=
  let q := s.part n
  let slip := s.get (BEAT_STAT_slip_used n)
  if q.interval = .working ∧ !q.overrun ∧ !q.ended ∧ s.tickEnd = q.began + 256 * (s.planB n + slip) then
    let s1 := s.at (s.tickEnd - 1)
    if s1.beatComplete n then s1.onPart n (fun q => { q with ended := true })
    else if slip < s.planL n then s1.set (BEAT_STAT_slip_used n) (slip + 1)
    else
      match ((s1.part n).logical.map (·.2)).find? (fun p => s1.on (DIE_CORE_CTL_member p) && !(s1.core p).complete) with
      | some p => (s1.settle p s1.cycle).overrunAt n 2 p (s1.core p).lateEngine
      | none => s1
  else s

/-! ## Start, stop, hold (R51, R64) -/

/-- A write of start: ignored, refused as late, or waiting for the origin tick. -/
def State.beatStart (s : State) (n : Nat) : State :=
  if !s.on (BEAT_PLAN_CTL_lock n) || !s.planOk n || s.on (BEAT_PLAN_CTL_active n) || s.on (BEAT_PLAN_CTL_stop n) then s
  else if s.origin n ≤ s.tick then s.raise (BEAT_PLAN_CTL_late n)
  else s.setOn (BEAT_PLAN_CTL_start n) true

/-- Whether the first working beat begins now. -/
def State.firstDue (s : State) (n : Nat) : Bool :=
  s.on (BEAT_PLAN_CTL_start n) && s.tick == s.origin n && s.cycle % 256 == 0

/-- A write of stop: it cancels a waiting start, ends running intervals, or ends a hold (R64). Written while the partition is
neither active nor waiting for a start it does nothing, and stop stays clear: R64 gives that case no effect (log entry 112). -/
def State.beatStop (s : State) (n : Nat) : State :=
  if s.on (BEAT_PLAN_CTL_active n) then
    (s.setOn (BEAT_PLAN_CTL_stop n) true).onPart n (fun q =>
      if s.on (BEAT_PLAN_CTL_held n) then { q with holdClr := q.holdClr <|> some s.cycle } else q)
  else s.setOn (BEAT_PLAN_CTL_start n) false

def State.holdSet (s : State) (n : Nat) : State := s.setOn (BEAT_PLAN_CTL_hold n) true

/-- Clearing hold: a hold that runs ends at the first tick that starts after the write. -/
def State.holdClear (s : State) (n : Nat) : State :=
  (s.setOn (BEAT_PLAN_CTL_hold n) false).onPart n (fun q =>
    if s.on (BEAT_PLAN_CTL_held n) then { q with holdClr := q.holdClr <|> some s.cycle } else q)

/-! ## Stats windows (R56, R57) -/

/-- End of window 0 of a partition whose first beat begins at `origin`. -/
def firstWindowEnd (origin marks : Nat) : Nat := 9375 * (ceilDiv origin 9375 + marks)

/-- The counters of R71 latch and restart, the window is counted, and the next window's length is taken. -/
def State.closeWindow (s : State) (n : Nat) : State :=
  let s1 := each (fun i (t : State) =>
    (t.set (BEAT_CNT_LAST_count n i) (t.get (BEAT_CNT_count n i))).set (BEAT_CNT_count n i) 0) (List.range 8) s
  let s2 := s1.incr (BEAT_STATS_WIN_windows n)
  s2.onPart n (fun q => { q with winEnd := q.winEnd + 9375 * s.get (BEAT_STATS_LEN_marks n) })

/-- What a start clears and sets before the first working beat begins (R57, R64, R67, R70). -/
def State.startPartition (s : State) (n : Nat) : State :=
  let s1 := ((s.setOn (BEAT_PLAN_CTL_start n) false).setOn (BEAT_PLAN_CTL_active n) true).setPair
    (BEAT_CUR_LO n) (BEAT_CUR_HI n) 0
  let s2 := each (fun i (t : State) => t.set (BEAT_CNT_count n i) 0) (List.range 8) (s1.set (BEAT_STATS_WIN_windows n) 0)
  s2.onPart n (fun q =>
    { q with
      rest := s.get (BEAT_PLAN_REST_rest n), restIdx := 0, restNew := false, owed := 0, second := true, overrun := false
      beats := [], replay := [], steps := 0, plans := [], planRows := [], resvs := [], evaluated := 0, pairA := none, nwReplay := false, winEnd := firstWindowEnd (s.origin n) (s.get (BEAT_STATS_LEN_marks n)) })

/-! ## Meanings of the family that need nothing from other units -/

/-- TICK_LOAD (R44). -/
def execTickLoad (s : State) : Host.Outcome State Fault Refusal := .next (s.writeAt BEAT_TICK_CTL fun s => s.tickLoad)

def execBeatStart (n : Nat) (s : State) : Host.Outcome State Fault Refusal :=
  .next (if n < 64 then s.writeAt (BEAT_PLAN_CTL n) fun s => s.beatStart n else s)
def execBeatStop (n : Nat) (s : State) : Host.Outcome State Fault Refusal :=
  .next (if n < 64 then s.writeAt (BEAT_PLAN_CTL n) fun s => s.beatStop n else s)
def execHoldSet (n : Nat) (s : State) : Host.Outcome State Fault Refusal :=
  .next (if n < 64 then s.writeAt (BEAT_PLAN_CTL n) fun s => s.holdSet n else s)
def execHoldClear (n : Nat) (s : State) : Host.Outcome State Fault Refusal :=
  .next (if n < 64 then s.writeAt (BEAT_PLAN_CTL n) fun s => s.holdClear n else s)
def execBeatDecision (n : Nat) (s : State) : Host.Outcome State Fault Refusal :=
  .next (if n < 64 then s.beatDecision n else s)
def execPlanOverrun (n p : Nat) (e : Stall) (s : State) : Host.Outcome State Fault Refusal :=
  .next (if n < 64 ∧ p < 9216 then s.planOverrun n p e.engine e.since else s)

end Sys2Proof.Machine
end

