-- ==== Sys2Proof/Machine/Links.lean ====
section
/-!
DEFINITION. The link ports, TLT frames and connections, channels and the bed's time (15_links_host R428 to R444).
Timers of microseconds and milliseconds expire when their command comes (log entry 44).
-/

namespace Sys2Proof.Machine

/-! ## Ports (R428, R429, R457) -/

def State.port (s : State) (p : Nat) : Port := lookupD Port.reset s.ports p
def State.setPort (s : State) (p : Nat) (x : Port) : State := { s with ports := put s.ports p x }
def State.onPort (s : State) (p : Nat) (f : Port → Port) : State := s.setPort p (f (s.port p))

/-- A port that can train: all lanes good and its I/O die usable (R428). -/
def State.portUsable (s : State) (p : Nat) : Bool :=
  match s.inv with
  | some v => decide (p < 32) && v.portFlag p == 0xF && (v.ioFlag (p / 4)).testBit 0
  | none => false

def State.portUp (s : State) (p : Nat) : Bool := (s.port p).phase == .up

/-- The port leaves the up state: status and mode clear. -/
def State.portDown (s : State) (p : Nat) (phase : PortPhase) : State :=
  ((s.onPort p (fun x => { x with phase := phase, paused := 0, xoff := 0 })).setOn (LINK_P_STAT_up p) false).set
    (LINK_P_STAT_mode p) 0

/-- A write of LINK_P_CTL: enabling starts training, disabling ends it, retrain forces a new training. -/
def State.writePortCtl (s : State) (p : Nat) (v : Word) : State :=
  let s1 := (s.setOn (LINK_P_CTL_enable p) (v.getLsbD 31)).set (LINK_P_CTL_modes p) (bits v 0 3)
  if !s.portUsable p then s1
  else if !v.getLsbD 31 then s1.portDown p .off
  else if v.getLsbD 30 ∨ (s.port p).phase = .off then
    (s1.portDown p .training).setOn (LINK_P_CTL_retrain p) (v.getLsbD 30)
  else s1

/-- Highest mode, 3 native to 1, in a mask of modes (R429). -/
def bestMode (m : Nat) : Option Nat :=
  if m.testBit 2 then some 3 else if m.testBit 1 then some 2 else if m.testBit 0 then some 1 else none

/-- PORT_TRAIN: the common modes are tried from the highest down; `offered` is the partner's mask, `works` the modes in
which training succeeds. A retrain written in the cycle in which a training ends begins a new one (R10). -/
def State.portTrain (s : State) (p offered works : Nat) : State :=
  if s.portUsable p && s.on (LINK_P_CTL_enable p) && (s.port p).phase == .training && !s.asked (LINK_P_CTL_retrain p) then
    let s1 := s.setOn (LINK_P_CTL_retrain p) false
    match bestMode (s.get (LINK_P_CTL_modes p) &&& offered &&& works) with
    | some m => s1.onPort p (fun x => { x with phase := .trained m })
    | none => s1.onPort p (fun x => { x with phase := .waiting })
  else s

def State.portRetry (s : State) (p : Nat) : State :=
  if (s.port p).phase = .waiting then s.onPort p (fun x => { x with phase := .training }) else s

/-- PCS_LOCK_LOSS. -/
def State.lockLoss (s : State) (p : Nat) : State :=
  if s.portUp p then (s.portDown p .training).setBit (LINK_P_EVT p) 0 else s

/-! ## Sending (R432 to R437) -/

def State.setConn (s : State) (p m : Nat) (c : Conn) : State := { s with conns := put s.conns (State.connKey p m) c }

def State.ownAddr (s : State) : Nat := s.get LINK_TLT_ADDR_address

/-- PCP of a kind and, for ROWS, its class (R432). -/
def prioOf (kind cls : Nat) : Nat :=
  if kind = 3 then 6 - cls
  else if kind = 9 then 5
  else if kind = 10 ∨ kind = 12 ∨ kind = 13 then 4 else 7

/-- Whether a kind is sequenced (R435). -/
def sequenced (kind : Nat) : Bool := decide (3 ≤ kind ∧ kind ≤ 13 ∧ kind ≠ 7)

/-- Kinds accepted only from the receiver's bed. -/
def bedOnly (kind : Nat) : Bool := decide (4 ≤ kind ∧ kind ≤ 11)

/-- Lowest version that has a kind. -/
def kindVersion (kind : Nat) : Nat := if 12 ≤ kind then 2 else 1

/-- MAC address of a module's port (R431). -/
def State.mac (s : State) (m p : Nat) : Nat := s.get LINK_TLT_MACPFX_prefix * 2 ^ 24 + (32 * m + p) % 2 ^ 24

/-- The TLT header of a frame (R434): 28 bytes and the CRC over them. -/
def Frame.header (f : Frame) : List Byte :=
  let h := bytesOf 1 f.version ++ bytesOf 1 f.kind ++ bytesOf 1 f.flags ++ bytesOf 1 (f.part % 64) ++ bytesOf 2 (f.source % 2 ^ 15) ++
    bytesOf 2 (f.dest % 2 ^ 15) ++ bytesOf 4 f.seq ++ bytesOf 4 f.ack ++ bytesOf 2 f.payload.length ++ bytesOf 2 f.bed ++
    bytesOf 8 f.word
  h ++ bytesOf 4 (crc32c h)

/-- What a frame carries before its payload, for the module it names (R431, R432, R434). -/
def State.wireHead (s : State) (p : Nat) (f : Frame) : WireHead :=
  ⟨s.mac f.dest p, s.mac s.ownAddr p, s.get LINK_TLT_VLAN_vid, f.prio, s.get LINK_TLT_ETYPE_etype, (Frame.header f)⟩

/-- Partition on whose behalf a data frame goes: the owner of its channel, or the partition whose records it carries (R390, R396;
log entry 69). -/
def State.frameOwner (s : State) (f : Frame) : Option Nat :=
  if f.kind = 3 then some (s.get (LINK_CH_CTL_owner (f.word % 256)))
  else if f.kind = 9 ∨ f.kind = 10 then some (f.part % 64)
  else none

/-- A frame leaves the port: a fresh one of a sequenced kind takes the connection's next number, and is held where 512 are
unacknowledged (R437). -/
def State.depart (s : State) (p : Nat) (q : Queued) : State :=
  if !q.fresh then s.emit (.frame p (s.wireHead p q.frame) q.frame)
  else match s.conn p q.frame.dest with
    | none => s
    | some c =>
      if 512 ≤ c.unacked.length then s.setConn p q.frame.dest { c with held := c.held ++ [q] }
      else
        let g := { q.frame with version := c.version, seq := c.nextTx, ack := c.nextRx }
        (s.setConn p q.frame.dest
          { c with nextTx := (c.nextTx + 1) % 2 ^ 32, since := 0, unacked := c.unacked ++ [⟨g, 1, q.owner⟩] }).emit
          (.frame p (s.wireHead p g) g)

/-- Whether a frame of a priority may leave the port now. -/
def State.mayLeave (s : State) (p prio : Nat) : Bool := s.portUp p && !(s.port p).paused.testBit prio

/-- Share of a partition at an egress scheduler (R390). -/
def State.linkShare (s : State) (n : Nat) : Nat := s.get (PART_RES_SHARE_EFF_link n)

/-- The frame that the egress scheduler of a port sends next (R433): PCP 7 first; of the data frames, those of the partition that
its share gives the grant, PCP 6 first, then PCP 5 and 4 three to one; within these the oldest. -/
def State.nextFrame (s : State) (p : Nat) : Option (Nat × State) :=
  let l := ((List.range (s.port p).egress.length).zip (s.port p).egress).filter (fun x => s.mayLeave p x.2.frame.prio)
  match l.find? (fun x => x.2.frame.prio == 7) with
  | some x => some (x.1, s)
  | none =>
    let part := fun (q : Queued) => q.owner.getD 0
    let waiting := (List.range 64).filter (fun n => l.any (fun x => part x.2 == n))
    match s.pick (linkArbiter p) s.linkShare waiting with
    | none => none
    | some n =>
      let mine := l.filter (fun x => part x.2 == n)
      let has := fun k => mine.any (fun x => x.2.frame.prio == k)
      let key := 64 * linkArbiter p + n
      let cls := s.classPick key (has 5) (has 4)
      let prio := if has 6 then 6 else if cls = 1 then 5 else 4
      let s1 := s.granted (linkArbiter p) s.linkShare waiting n
      let s2 := if has 6 then s1 else s1.classGrant key cls (has 5 && has 4)
      (mine.find? (fun x => x.2.frame.prio == prio)).map (fun x => (x.1, s2))

/-- Queued frames whose priority may go now leave, in the scheduler's order. -/
def State.drain (p : Nat) : Nat → State → State
  | 0, s => s
  | fuel + 1, s =>
    match s.nextFrame p with
    | none => s
    | some (i, t) =>
      match (t.port p).egress[i]? with
      | none => t
      | some q => State.drain p fuel ((t.onPort p (fun x => { x with egress := eraseAt x.egress i })).depart p q)

def State.drainEgress (s : State) (p : Nat) : State := State.drain p (s.port p).egress.length s

/-- A frame for a port's egress: it leaves with those before it, or waits while its priority is paused or the port is down. -/
def State.send (s : State) (p : Nat) (q : Queued) : State :=
  (s.onPort p (fun x => { x with egress := x.egress ++ [q] })).drainEgress p

/-- A frame that takes no number, or has its number, put on the wire. -/
def State.wire (s : State) (p : Nat) (f : Frame) : State := s.send p ⟨s.frameOwner f, f, false⟩

def State.blankFrame (s : State) (kind m : Nat) : Frame :=
  { prio := prioOf kind 0, version := 1, kind := kind, flags := 0, part := 0, source := s.ownAddr, dest := m, seq := 0
    ack := 0, bed := s.get LINK_TLT_ADDR_bed, word := 0, payload := [], logical := 0, base := 0 }

/-- A frame of a sequenced kind sent on a connection (R437). -/
def State.sendSeq (s : State) (p m : Nat) (f : Frame) : State :=
  match s.conn p m with
  | none => s
  | some _ => s.send p ⟨s.frameOwner f, { f with dest := m }, true⟩

def State.sendAck (s : State) (p m : Nat) (nak : Bool) : State :=
  match s.conn p m with
  | none => s
  | some c =>
    (s.setConn p m { c with since := 0 }).wire p
      { s.blankFrame 2 m with version := c.version, flags := b2n nak, ack := c.nextRx }

/-- In every tick each connection with frames that no ACK has answered sends one (R437). -/
def State.ackTick (s : State) : State :=
  each (fun (e : Nat × Conn) (t : State) =>
    if 0 < e.2.since then t.sendAck (e.1 / 32768) (e.1 % 32768) false else t) s.conns s

/-- Lowest-numbered port with a connection to a module. -/
def State.portTo (s : State) (m : Nat) : Option Nat :=
  firstFrom (fun p => (s.conn p m).isSome) 0 32

/-- A number of a message: `n` bytes from offset `o` on. -/
def msgNum (m : List Byte) (o n : Nat) : Nat := ofBytes ((m.drop o).take n)

/-- The lowest-numbered port with a connection to a module whose version lets a kind pass (R435). -/
def State.portFor (s : State) (m kind : Nat) : Option Nat :=
  firstFrom (fun p => (s.conn p m).any (fun c => decide (kindVersion kind ≤ c.version))) 0 32

/-- A kind that every connection to a module is too old for: as if the peer had refused (R435). -/
def State.tooOld (s : State) (m kind : Nat) : Bool := (s.portTo m).isSome && (s.portFor m kind).isNone

/-- A message to a module on the lowest-numbered port that takes its kind; false where no connection does. -/
def State.sendTo (s : State) (m kind part word : Nat) (payload : List Byte) : State × Bool :=
  match s.portFor m kind with
  | none => (s, false)
  | some p => (s.sendSeq p m { s.blankFrame kind m with part := part, word := word, payload := payload }, true)

/-- HELLO on a port (R436). -/
def State.sendHello (s : State) (p : Nat) : State :=
  s.wire p { s.blankFrame 1 0 with
    payload := bytesOf 2 (s.get LINK_TLT_VER_enabled) ++ bytesOf 2 s.ownAddr ++ bytesOf 2 (s.get LINK_TLT_ADDR_bed) ++
      bytesOf 2 0x0096 ++ bytesOf 1 p ++ bytesOf 1 (s.get IDENT_PART_stepping) ++ bytesOf 54 0 }

/-- PORT_LINK_UP: lock on all lanes after training; the port is up and sends HELLO. -/
def State.portLinkUp (s : State) (p : Nat) : State :=
  match (s.port p).phase with
  | .trained m =>
    (((s.onPort p (fun x => { x with phase := .up })).setOn (LINK_P_STAT_up p) true).set (LINK_P_STAT_mode p) m).sendHello p
      |>.drainEgress p
  | _ => s

def State.helloTimer (s : State) (p : Nat) : State :=
  if s.portUp p && s.running && s.tick % 93750 == 0 && s.cycle % 256 == 0 then s.sendHello p else s

/-! ## Acknowledgement, resending, failure (R437) -/

/-- Delivery records that a frame carries (R455): 16 bytes each. -/
def frameRecords (f : Frame) : Nat := if f.kind = 9 then f.payload.length / 16 else 0

/-- Key of a count of lost delivery records of a partition. -/
def owDropKey (n : Nat) : Nat := bankKey n LINK_OW_DROP

/-- Key of that count in the record of the present cycle (R10). -/
def owDropNow (n : Nat) : Nat := 2 ^ 32 + n

/-- Key of a function's error count in that record. -/
def fnErrNow (f : Nat) : Nat := 2 ^ 33 + f

def State.owDrop (s : State) (n k : Nat) : State :=
  { s with
    banked := wrAt bankReset s.banked (owDropKey n)
      (BitVec.ofNat 32 (satAdd 32 (rdAt bankReset s.banked (owDropKey n)).toNat k)) }.counts (owDropNow n) k

/-- A connection fails: its queued and unacknowledged frames are discarded and counted. -/
def State.connFail (s : State) (p m : Nat) : State :=
  match s.conn p m with
  | none => s
  | some c =>
    let x := s.port p
    let fs := c.unacked.map (·.frame) ++ c.held.map (·.frame) ++
      (x.egress.filter (fun q => q.fresh && q.frame.dest == m)).map (·.frame)
    let s1 := { s with conns := del s.conns (State.connKey p m) }.setPort p
      { x with egress := x.egress.filter (fun q => q.frame.dest != m || q.frame.kind == 1) }
    let s2 := (s1.bump (LINK_P_RX_DROP_count p) fs.length).setBit (LINK_P_EVT p) 2
    each (fun (f : Frame) (t : State) => if frameRecords f = 0 then t else t.owDrop f.part (frameRecords f)) fs s2

/-- Every frame from the number named onwards goes again; eight sends of one frame fail the connection. -/
def State.resendFrom (s : State) (p m : Nat) (fs : List Unacked) (keep : List Unacked) : State :=
  match s.conn p m with
  | none => s
  | some c =>
    if fs.any (fun (u : Unacked) => decide (8 ≤ u.sends)) then s.connFail p m
    else
      let again := fs.map (fun u => ({ u with sends := u.sends + 1 } : Unacked))
      each (fun (u : Unacked) (t : State) => t.wire p { u.frame with ack := c.nextRx }) again
        ((s.setConn p m { c with unacked := keep ++ again }).bump (LINK_P_RESENT_count p) again.length)

/-- Held frames go as long as fewer than 512 are unacknowledged. -/
def State.sendHeld (s : State) (p m : Nat) : Nat → State
  | 0 => s
  | fuel + 1 =>
    match s.conn p m with
    | none => s
    | some c =>
      match c.held with
      | f :: r => if 512 ≤ c.unacked.length then s
          else ((s.setConn p m { c with held := r }).send p f).sendHeld p m fuel
      | [] => s

/-- An acknowledgement up to `a` on a connection, with its NAK. -/
def State.ackTo (s : State) (p m a : Nat) (nak : Bool) : State :=
  match s.conn p m with
  | none => s
  | some c =>
    if c.unacked.any (fun u => u.frame.seq == a) ∨ a = c.nextTx then
      -- the sends of a frame count while the acknowledgement does not advance
      let left := c.unacked.dropWhile (fun u => u.frame.seq != a)
      let rest := if left.length = c.unacked.length then left else left.map (fun u => { u with sends := 0 })
      let s1 := s.setConn p m { c with unacked := rest }
      (if nak then s1.resendFrom p m rest [] else s1).sendHeld p m 512
    else s

/-- LINK_RTO_EXPIRE: the oldest unacknowledged frame goes again, with those behind it. -/
def State.rtoExpire (s : State) (p m : Nat) : State :=
  match s.conn p m with
  | none => s
  | some c => if c.unacked = [] then s else s.resendFrom p m c.unacked []

/-! ## Receiving (R432 to R437) -/

/-- Bytes waiting in the receive buffer of a priority. -/
def State.rxBytes (s : State) (p prio : Nat) : Nat :=
  (s.rx.filter (fun r => r.port == p && r.frame.prio == prio)).foldl (fun n r => n + 54 + r.frame.payload.length) 0

/-- XOFF above 1.5 MiB of a priority, XON below 1 MiB (R433). -/
def State.flowControl (s : State) (p prio : Nat) : State :=
  let x := s.port p
  let b := s.rxBytes p prio
  if !x.xoff.testBit prio ∧ 1572864 < b then
    ((s.setPort p { x with xoff := x.xoff ||| 2 ^ prio }).bump (LINK_P_PFC_TX_count p) 1).emit (.pfc p prio true)
  else if x.xoff.testBit prio ∧ b < 1048576 then
    ((s.setPort p { x with xoff := x.xoff ^^^ 2 ^ prio }).bump (LINK_P_PFC_TX_count p) 1).emit (.pfc p prio false)
  else s

def State.accept (s : State) (p : Nat) (f : Frame) : State :=
  ({ s with rx := s.rx ++ [(⟨p, f⟩ : Rx)] }).flowControl p f.prio

/-- A frame of a kind that its receiver takes from its own bed only, and that comes from another (R435). -/
def State.foreign (s : State) (f : Frame) : Bool := bedOnly f.kind && f.bed != s.get LINK_TLT_ADDR_bed

/-- A sequenced frame: delivered in order, or discarded and a NAK sent (R437). One from a foreign bed takes its number and goes no
further (log entry 129). -/
def State.receiveSeq (s : State) (p : Nat) (f : Frame) : State :=
  match s.conn p f.source with
  | none => s
  | some c =>
    if f.seq ≠ c.nextRx then s.sendAck p f.source true
    else
      let s1 := (s.setConn p f.source { c with nextRx := (c.nextRx + 1) % 2 ^ 32, since := c.since + 1 })
      let s2 := if s.foreign f then s1 else s1.accept p f
      if 16 ≤ c.since + 1 then s2.sendAck p f.source false else s2

/-- FRAME_RECEIVE. -/
def State.frameReceive (s : State) (p : Nat) (a : Arrival) : State :=
  if !s.portUp p then s
  else
    let s0 := (s.bump (LINK_P_FEC_CORR_count p) a.corrected).bump (LINK_P_FEC_UNC_count p) a.uncorrectable
    let s1 := if a.uncorrectable = 0 then s0 else s0.setBit (LINK_P_EVT p) 1
    let f := a.frame
    if !a.crcOk then s1.bump (LINK_P_RX_BAD_count p) 1
    else if a.etype ≠ s.get LINK_TLT_ETYPE_etype ∨ f.prio < 4 then s1.bump (LINK_P_RX_DROP_count p) 1
    else if f.source = s.ownAddr ∧ f.kind ≠ 1 then s1
    else
      let s2 := if f.kind = 1 ∨ f.kind = 2 then s1 else s1.ackTo p f.source f.ack false
      if sequenced f.kind then s2.receiveSeq p f
      else if (f.kind = 1 ∨ f.kind = 2 ∨ f.kind = 7) ∧ !s.foreign f then s2.accept p f
      else s2

/-- PFC_RECEIVE. -/
def State.pfcReceive (s : State) (p prio : Nat) (pause : Bool) : State :=
  if !s.portUp p then s
  else
    let x := s.port p
    let m := if pause then x.paused ||| 2 ^ prio else x.paused &&& (255 - 2 ^ prio)
    ((s.setPort p { x with paused := if 4 ≤ prio ∧ prio < 8 then m else x.paused }).bump (LINK_P_PFC_RX_count p) 1).drainEgress p

/-- The received frame `k`, if it is of the kind. -/
def State.rxFrame (s : State) (k kind : Nat) : Option Rx :=
  match s.rx[k]? with
  | some r => if r.frame.kind = kind then some r else none
  | none => none

/-- A received frame leaves its buffer. -/
def State.rxDone (s : State) (k : Nat) : State :=
  match s.rx[k]? with
  | some r => ({ s with rx := eraseAt s.rx k }).flowControl r.port r.frame.prio
  | none => s

/-- HELLO_RECEIVE (R436). -/
def State.helloReceive (s : State) (k : Nat) : State :=
  match s.rxFrame k 1 with
  | none => s
  | some r =>
    let s1 := s.rxDone k
    let b := fun i => (r.frame.payload.getD i 0).toNat
    let mask := s.get LINK_TLT_VER_enabled &&& (b 0 + 256 * b 1)
    let m := (b 2 + 256 * b 3) % 32768
    let bed := b 4 + 256 * b 5
    if m = s.ownAddr then s1.setBit (LINK_P_EVT r.port) 3
    else match bestMode mask with
      | none => s1.setBit (LINK_P_EVT r.port) 3
      | some v =>
        match s1.conn r.port m with
        | some c => s1.setConn r.port m { c with version := v, bed := bed }
        | none => s1.setConn r.port m (⟨v, bed, 0, 0, 0, [], []⟩ : Conn)

/-- ACK_RECEIVE. -/
def State.ackReceive (s : State) (k : Nat) : State :=
  match s.rxFrame k 2 with
  | none => s
  | some r => (s.rxDone k).ackTo r.port r.frame.source r.frame.ack (r.frame.flags % 2 == 1)

/-! ## Channels (R439 to R441) -/

/-- Rows of a channel that have arrived at its I/O die, oldest first: index in the network and packet. -/
def State.channelRows (s : State) (ch t : Nat) : List (Nat × Packet) :=
  ((List.range s.net.length).zip s.net).filter (fun x =>
    decide (90 ≤ x.2.node ∧ x.2.node < 98) && x.2.kind == .write && x.2.page == ch && decide (x.2.due ≤ t))

/-- The leading run of one class and of consecutive rows. -/
def rowRun : Packet → List (Nat × Packet) → List (Nat × Packet)
  | _, [] => []
  | a, x :: r => if x.2.cls = a.cls ∧ x.2.row = a.row + 1 then x :: rowRun x.2 r else []

/-- Die at whose edge port a packet leaves the carrier. -/
def Packet.lastDie (p : Packet) : Nat := (p.path.getLast?.map (·.1)).getD (p.source / 128)

/-- The rows of a run that pass their link attachments, each while its partition's credit there is above 0 (R190). -/
def State.passRun (s : State) : List (Nat × Packet) → State × List (Nat × Packet)
  | [] => (s, [])
  | x :: r =>
    if s.mayPass true x.2.lastDie x.2 then
      let y := (s.passPort true x.2.lastDie x.2.part 1).passRun r
      (y.1, x :: y.2)
    else (s, [])

/-- ROWS_FRAME_CLOSE: 64 rows, or 128 cycles after the first row, close the frame; it goes on the channel's port, on
both with the same number where the channel is duplicated and both connections have version 3. -/
def State.rowsClose (w : State) (ch : Nat) : State :=
  let s := w.freshAll (fun k => decide (90 ≤ k.node ∧ k.node < 98) && k.page == ch) (w.tickEnd - 1)
  match (s.channelRows ch (s.tickEnd - 1)).head? with
  | none => s
  | some (_, p0) =>
    if !s.mayPass true p0.lastDie p0 then s else
    let rows := (s.channelRows ch (min (s.tickEnd - 1) (p0.due + 128)))
    let run := (s.passRun ((rows.take ((rowRun p0 (rows.drop 1)).length + 1)).take 64)).2
    let idx := run.map (·.1)
    let full := decide (run.length = 64)
    let t := if full then ((run.getLast?.map (fun x => x.2.due)).getD p0.due) else p0.due + 128
    let s1 := ((s.at t).passRun run).1
    let s2 : State := { s1 with
      net := (((List.range s1.net.length).zip s1.net).filter (fun x => !idx.contains x.1)).map (·.2)
      frameNo := put s1.frameNo ch ((lookupD 0 s1.frameNo ch + 1) % 2 ^ 32) }
    let no := lookupD 0 s1.frameNo ch
    let port := s.get (LINK_CH_CTL_port ch)
    let port2 := s.get (LINK_CH_CTL_port2 ch)
    let m := s.get (LINK_CH_DEST_module ch)
    let v3 := fun p => (s2.conn p m).any (fun c => c.version == 3)
    let dup := s.on (LINK_CH_CTL_dup ch) && v3 port && v3 port2
    let f : Frame :=
      { s2.blankFrame 3 m with
        prio := prioOf 3 p0.cls, flags := 2 * b2n dup, part := s.get (LINK_CH_BASE_partition ch)
        word := ch + p0.row % 2 ^ 17 * 2 ^ 8 + (run.length - 1) * 2 ^ 25 + no * 2 ^ 32
        payload := run.flatMap (fun x => bytesOf 64 x.2.data.toNat)
        logical := s.get (LINK_CH_DEST_logical ch), base := s.get (LINK_CH_BASE_row ch) }
    let s3 := s2.sendSeq port m f
    if dup then s3.sendSeq port2 m f else s3

/-- The write of a row from an I/O die to a core as a privileged writer (R440). -/
def State.linkRow (s : State) (io part p row : Nat) (d : Row) : State :=
  let pk : Packet :=
    { cls := 1, kind := .write, part := part, source := 0x3FFF, node := nodeOf p, core := p, page := 0, row := row
      counter := 0, tag := 0, rows := 0, total := 1, writer := .link, data := d, due := 0, fails := 0
      enter := some (ioEntryDie io (nodeOf p)) }
  s.inject pk s.cycle

/-- Row `j` of a byte string. -/
def byteRow (l : List Byte) (j : Nat) : Row := BitVec.ofNat 512 (ofBytes ((l.drop (64 * j)).take 64))

/-- ROWS_RECEIVE: the frame's rows are written to the destination core, or dropped (R440, R441). -/
def State.rowsReceive (s : State) (k : Nat) : State :=
  match s.rxFrame k 3 with
  | none => s
  | some r =>
    let f := r.frame
    let s1 := s.rxDone k
    let key := (f.source, f.word % 256, f.word / 2 ^ 32)
    if f.flags.testBit 1 ∧ s.seen.contains key then s1.bump (LINK_P_DUP_count r.port) 1
    else
      let s2 := if f.flags.testBit 1 then { s1 with seen := key :: s1.seen } else s1
      let n := field f.word 25 6 + 1
      let first := f.base + field f.word 8 17
      each (fun j (t : State) =>
        match t.boundCore f.part f.logical with
        | some p =>
          if trapRow ≤ first + j then t.bump (LINK_P_RX_DROP_count r.port) 1
          else t.linkRow (r.port / 4) f.part p (first + j) (byteRow f.payload j)
        | none => t.bump (LINK_P_RX_DROP_count r.port) 1) (List.range n) s2

/-! ## Time across a bed (R442 to R444) -/

/-- Units of 1/256 cycle of 2.4 GHz as picoseconds, rounded down or up: the spec does not state the rounding. -/
def State.toPs (s : State) (x : Int) : Int × State :=
  if (x * 625) % 384 = 0 then (x * 625 / 384, s)
  else (x * 625 / 384 + ((s.draw.1 % 2 : Nat) : Int), s.draw.2)

/-- Alignment after an exchange (R443). -/
def State.align (s : State) (p : Nat) (off : Int) : State :=
  let ok := decide (off.natAbs ≤ 20000)
  let y := s.sync
  let good := if ok then y.good + 1 else 0
  let bad := if ok then 0 else y.bad + 1
  let s1 := { s with sync := { y with good := good, bad := bad, missed := 0 } }
  if 16 ≤ good ∧ !s.on LINK_TS_STAT_aligned then
    let s2 := (s1.setOn LINK_TS_STAT_aligned true)
    if y.diff ≠ 0 ∧ y.fresh then { s2 with sync := { s2.sync with fresh := false } }.setOn LINK_TS_STAT_number_diff true
    else s2
  else if 4 ≤ bad ∧ s.on LINK_TS_STAT_aligned then
    (s1.setOn LINK_TS_STAT_aligned false).setBit (LINK_P_EVT p) 4
  else s1

/-- The steward tries to take the master's numbering (R443). -/
def State.tryNumber (s : State) : State :=
  if s.on LINK_TS_STAT_aligned && s.on LINK_TS_CTL_load && s.on LINK_TS_STAT_number_diff && !s.anyActive then
    (s.setPair BEAT_TICK_SET_LO BEAT_TICK_SET_HI ((((s.tick + 1 : Nat) : Int) + s.sync.diff).toNat % 2 ^ 64)).tickLoad
  else s

/-- A TIME message on a port: sync, delay request or delay response (R442), with the acknowledgement that every frame carries. Its code,
the layout of its payload and the timestamp are open (log entry 47). -/
def State.timeSend (w : State) (p m code : Nat) : State :=
  let d := w.draw
  let s := d.2
  let f := { s.blankFrame 7 m with word := Config.timeCode code % 16, payload := Config.timePayload s.tick (s.cycle % 256) d.1 }
  match s.conn p m with
  | none => s.wire p f
  | some c => (s.setConn p m { c with since := 0 }).wire p { f with version := c.version, ack := c.nextRx }

/-- BEDSYNC counts for a slave while its connection to the master has version 3 (R444). -/
def State.bedsyncOn (s : State) : Bool :=
  s.on LINK_TS_CTL_bedsync &&
    s.sync.master.any (fun m => (s.conn (s.get LINK_TS_CTL_port) m).any (fun c => c.version == 3))

/-- TIME_RECEIVE: a slave answers a sync and takes the result of a response; the master answers a delay request. -/
def State.timeReceive (s : State) (k : Nat) (m : TimeMsg) : State :=
  match s.rxFrame k 7 with
  | none => s
  | some r =>
    let s1 := s.rxDone k
    let role := s.get LINK_TS_CTL_role
    match m with
    | .sync =>
      if role = 2 then
        ({ s1 with sync := { s1.sync with master := some r.frame.source } }.set LINK_TS_CTL_port r.port).timeSend r.port
          r.frame.source 1
      else s1
    | .delayReq => if role = 1 then s1.timeSend r.port r.frame.source 2 else s1
    | .delayResp tick t1 t2 t3 t4 =>
      if role ≠ 2 then s1
      else
        let delay := (((t4 : Int) - t1) - ((t3 : Int) - t2)) / 2
        let off := (((t2 : Int) - t1) - delay)
        let a := s1.toPs delay
        let b := a.2.toPs off
        let diff := (tick : Int) - (s.tick : Int)
        let s2 := ((b.2.set LINK_TS_DELAY_ps (unsigned a.1 32)).set LINK_TS_OFFSET_ps (unsigned b.1 32))
        let s3 := { s2 with sync := { s2.sync with diff := diff } }
        let s4 := if diff = 0 then s3.setOn LINK_TS_STAT_number_diff false else s3
        (s4.align r.port b.1).tryNumber

/-- BEDSYNC_EDGE: an edge arrives and the slave steers to it. -/
def State.bedsync (s : State) : State :=
  if s.get LINK_TS_CTL_role = 2 ∧ s.bedsyncOn then
    { s with sync := { s.sync with noEdge := 0 } }.setOn LINK_TS_STAT_pin_missing false
  else s

/-- What a millisecond mark does to the bed's time: syncs and BEDSYNC_OUT of a master, missed exchanges and edges of a
slave, a new attempt at the numbering. -/
def State.timeMark (s : State) : State :=
  match s.get LINK_TS_CTL_role with
  | 1 =>
    let peers := ((s.conns.filter (fun e => e.2.bed == s.get LINK_TLT_ADDR_bed)).map (fun e => e.1 % 32768)).eraseDups
    let s1 := each (fun m (t : State) =>
      match t.portTo m with
      | some p => t.timeSend p m 0
      | none => t) peers s
    if s.on LINK_TS_CTL_bedsync ∧ !s.pwr.bedOut then
      { s1 with pwr := { s1.pwr with bedOut := true } }.emit (.pin "BEDSYNC_OUT" true)
    else s1
  | 2 =>
    let y := s.sync
    -- a mark without an exchange ends a run of consecutive ones
    let s1 := { s with sync := { y with
      good := if 0 < y.missed then 0 else y.good, missed := y.missed + 1, noEdge := if s.bedsyncOn then y.noEdge + 1 else 0 } }
    let s2 := if 4 ≤ y.missed + 1 ∧ s.on LINK_TS_STAT_aligned then
        (s1.setOn LINK_TS_STAT_aligned false).setBit (LINK_P_EVT (s.get LINK_TS_CTL_port)) 4 else s1
    let s3 := if s.bedsyncOn ∧ 2 ≤ y.noEdge + 1 then s2.setOn LINK_TS_STAT_pin_missing true else s2
    s3.tryNumber
  | _ => s

/-! ## Meanings -/

def execPortTrain (p offered works : Nat) (s : State) : Host.Outcome State Fault Refusal :=
  .next (if p < 32 ∧ offered < 8 ∧ works < 8 then s.portTrain p offered works else s)
def execPortTrainRetryExpire (p : Nat) (s : State) : Host.Outcome State Fault Refusal :=
  .next (if p < 32 then s.portRetry p else s)
def execPcsLockLoss (p : Nat) (s : State) : Host.Outcome State Fault Refusal :=
  .next (if p < 32 then s.lockLoss p else s)
def execPortLinkUp (p : Nat) (s : State) : Host.Outcome State Fault Refusal :=
  .next (if p < 32 then s.portLinkUp p else s)
def execFrameReceive (p : Nat) (a : Arrival) (s : State) : Host.Outcome State Fault Refusal :=
  .next (if p < 32 then s.frameReceive p a else s)
def execPfcReceive (p prio : Nat) (pause : Bool) (s : State) : Host.Outcome State Fault Refusal :=
  .next (if p < 32 ∧ prio < 8 then s.pfcReceive p prio pause else s)
def execHelloReceive (k : Nat) (s : State) : Host.Outcome State Fault Refusal := .next (s.helloReceive k)
def execHelloSendTimer (p : Nat) (s : State) : Host.Outcome State Fault Refusal :=
  .next (if p < 32 then s.helloTimer p else s)
def execConnHelloTimeout (p m : Nat) (s : State) : Host.Outcome State Fault Refusal :=
  .next (if p < 32 ∧ m < 32768 then s.connFail p m else s)
def execAckReceive (k : Nat) (s : State) : Host.Outcome State Fault Refusal := .next (s.ackReceive k)
def execLinkRtoExpire (p m : Nat) (s : State) : Host.Outcome State Fault Refusal :=
  .next (if p < 32 ∧ m < 32768 then s.rtoExpire p m else s)
def execRowsFrameClose (ch : Nat) (s : State) : Host.Outcome State Fault Refusal :=
  .next (if ch < 256 then s.rowsClose ch else s)
def execRowsReceive (k : Nat) (s : State) : Host.Outcome State Fault Refusal := .next (s.rowsReceive k)
def execTimeReceive (k : Nat) (m : TimeMsg) (s : State) : Host.Outcome State Fault Refusal := .next (s.timeReceive k m)
def execBedsyncEdge (s : State) : Host.Outcome State Fault Refusal := .next s.bedsync

/-- IO_DIE_FAULT (R458). -/
def execIoDieFault (k : Nat) (s : State) : Host.Outcome State Fault Refusal :=
  .next (if k < 8 then s.raise (LINK_IO_STAT_fault k) else s)

end Sys2Proof.Machine
end

