-- ==== Sys2Proof/Machine/Output.lean ====
section
/-!
DEFINITION. Output windows and delivery (15_links_host R455, R456, R462): the rings in host memory, the delivery queue,
and the way of a host write to the bridge module.
-/

namespace Sys2Proof.Machine

def State.window (s : State) (n w : Nat) : Window := lookupD Window.reset s.windows (256 * n + w)

def State.setWindow (s : State) (n w : Nat) (x : Window) : State := { s with windows := put s.windows (256 * n + w) x }

def Window.records (x : Window) : Nat := 2 ^ (8 + x.size)

def Window.full (x : Window) : Bool := decide (x.cons + x.records ≤ x.prod)

def State.isBridge (s : State) : Bool := s.on LINK_HB_CTL_bridge

/-- The module that serves as the bed's bridge: itself, or the one whose commands have come over TLT (log entry 54). -/
def State.bridgeModule (s : State) : Option Nat := if s.isBridge then some s.ownAddr else s.bridge

/-- The virtual function mapped to a partition of a module, 0 for none (R398, R450). -/
def State.vfOf (s : State) (module part : Nat) : Nat :=
  match firstFrom (fun i => s.on (PART_VF_MAP_valid i) && s.get (PART_VF_MAP_module i) == module &&
      s.get (PART_VF_MAP_partition i) == part && decide (i < s.get LINK_HB_CTL_num_vfs)) 0 256 with
  | some i => i + 1
  | none => 0

/-- A write to host memory for a partition: by the own bridge, or as OUTPUT to the bridge module. A record that cannot go
counts as dropped (R437). -/
def State.hostRecord (s : State) (n addr : Nat) (bytes : List Byte) : State :=
  match s.bridgeModule with
  | none => s.owDrop n 1
  | some m =>
    if s.isBridge then s.emit (.hostWrite m (s.vfOf m n) addr (wordsOfNat (bytes.length / 4) (ofBytes bytes)))
    else
      let r := s.sendTo m 9 n addr bytes
      if r.2 then r.1 else s.owDrop n 1

/-- The record written at the producer's place, with the phase of its pass (R455). -/
def State.writeOut (s : State) (n : Nat) (r : OutRec) : State :=
  let x := s.window n r.window
  let phase := 1 - (x.prod / x.records) % 2
  let bytes := bytesOf 8 (r.word % 2 ^ 63 + phase * 2 ^ 63) ++ bytesOf 4 r.hostTag ++ bytesOf 4 r.tick
  (s.setWindow n r.window { x with prod := x.prod + 1 }).hostRecord n (x.base + 16 * (x.prod % x.records)) bytes

/-- A record delivered: written, queued behind others or behind a full window, or dropped (R456). -/
def State.deliver (s : State) (n : Nat) (r : OutRec) : State :=
  let x := s.window n r.window
  let q := (s.part n).outq
  if !x.isOpen then s.owDrop n 1
  else if q = [] ∧ !x.full then s.writeOut n r
  else if 8192 ≤ q.length then s.owDrop n 1
  else s.onPart n (fun p => { p with outq := p.outq ++ [r] })

/-- OUTPUT_QUEUE_DRAIN: the consumer index is read, and the oldest queued record goes once its window has room. -/
def State.drainOut (s : State) (n cons : Nat) : State :=
  match (s.part n).outq with
  | [] => s
  | r :: rest =>
    let x := s.window n r.window
    let s1 := if x.full then s.setWindow n r.window { x with cons := cons } else s
    if (s1.window n r.window).full then s1
    else (s1.onPart n (fun p => { p with outq := rest })).writeOut n r

/-- A window closed: its queued records are dropped. -/
def State.closeOut (s : State) (n w : Nat) : State :=
  let gone := ((s.part n).outq.filter (fun r => r.window == w)).length
  let s1 := (s.onPart n (fun p => { p with outq := p.outq.filter (fun r => r.window != w) })).setWindow n w
    { s.window n w with isOpen := false }
  if gone = 0 then s1 else s1.owDrop n gone

/-- A write of LINK_OW_CTL: opening starts the count of records anew. -/
def State.writeOwCtl (s : State) (n w : Nat) (v : Word) : State :=
  let x := s.window n w
  if x.isOpen then (if v.getLsbD 31 then s else s.closeOut n w)
  else if v.getLsbD 31 then s.setWindow n w { x with size := min (bits v 0 4) 12, isOpen := true, prod := 0, cons := 0 }
  else s.setWindow n w { x with size := min (bits v 0 4) 12 }

/-- A hard reset closes every window of the partition (R462). -/
def State.resetWindows (s : State) (n : Nat) : State :=
  let s1 := each (fun (e : Nat × Window) (t : State) => if e.2.isOpen then t.closeOut n (e.1 % 256) else t)
    (s.windows.filter (fun e => e.1 / 256 == n)) s
  { s1 with
    windows := s1.windows.filter (fun e => e.1 / 256 != n), banked := wrAt bankReset s1.banked (owDropKey n) 0 }

def execOutputQueueDrain (n cons : Nat) (s : State) : Host.Outcome State Fault Refusal :=
  .next (if n < 64 then s.drainOut n cons else s)

end Sys2Proof.Machine
end

