-- ==== Sys2Proof/Machine/ReqTable.lean ====
section
/-!
DEFINITION. The request table and what hangs on an entry (10_request_engine, 11_kv_prefixes_shipping R328 to R336): its
fields, the slices, the tenants and their budgets, prefix and adapter handles, a request's own pages and its index, and
the way out of the live states.
-/

namespace Sys2Proof.Machine

/-! ## Fields of an entry (R291) -/

def rqState (e : Nat) : FieldRef := ⟨REQ_TABLE e 0, 0, 4⟩
def rqReason (e : Nat) : FieldRef := ⟨REQ_TABLE e 0, 8, 8⟩
def rqLatePolicy (e : Nat) : FieldRef := ⟨REQ_TABLE e 0, 16, 1⟩
def rqRole (e : Nat) : FieldRef := ⟨REQ_TABLE e 0, 17, 2⟩
def rqStopEnds (e : Nat) : FieldRef := ⟨REQ_TABLE e 0, 19, 1⟩
def rqPriority (e : Nat) : FieldRef := ⟨REQ_TABLE e 0, 24, 4⟩
def rqTenant (e : Nat) : FieldRef := ⟨REQ_TABLE e 1, 0, 12⟩
def rqLookahead (e : Nat) : FieldRef := ⟨REQ_TABLE e 1, 16, 8⟩
def rqRecipe (e : Nat) : FieldRef := ⟨REQ_TABLE e 1, 24, 3⟩
def rqPromptLen (e : Nat) : FieldRef := ⟨REQ_TABLE e 4, 0, 24⟩
def rqEntered (e : Nat) : FieldRef := ⟨REQ_TABLE e 5, 0, 32⟩
def rqGenLen (e : Nat) : FieldRef := ⟨REQ_TABLE e 6, 0, 32⟩
def rqGenMax (e : Nat) : FieldRef := ⟨REQ_TABLE e 7, 0, 24⟩
def rqKvHead (e : Nat) : FieldRef := ⟨REQ_TABLE e 8, 0, 20⟩
def rqPromptHead (e : Nat) : FieldRef := ⟨REQ_TABLE e 9, 0, 20⟩
def rqAdapter (e : Nat) : FieldRef := ⟨REQ_TABLE e 10, 0, 16⟩
def rqAdapterHandle (e : Nat) : FieldRef := ⟨REQ_TABLE e 10, 0, 12⟩
def rqAdapterOn (e : Nat) : FieldRef := ⟨REQ_TABLE e 10, 15, 1⟩
def rqAdapterEpoch (e : Nat) : FieldRef := ⟨REQ_TABLE e 10, 16, 8⟩
def rqPrefix (e : Nat) : FieldRef := ⟨REQ_TABLE e 11, 0, 16⟩
def rqPrefixHandle (e : Nat) : FieldRef := ⟨REQ_TABLE e 11, 0, 10⟩
def rqPrefixOn (e : Nat) : FieldRef := ⟨REQ_TABLE e 11, 15, 1⟩
def rqWindow (e : Nat) : FieldRef := ⟨REQ_TABLE e 11, 16, 8⟩
def rqPages (e : Nat) : FieldRef := ⟨REQ_TABLE e 12, 0, 32⟩
def rqDebited (e : Nat) : FieldRef := ⟨REQ_TABLE e 13, 0, 32⟩
def rqToken (e : Nat) : FieldRef := ⟨REQ_TABLE e 20, 0, 17⟩
def rqAccepted (e : Nat) : FieldRef := ⟨REQ_TABLE e 20, 17, 5⟩
def rqHostTag (e : Nat) : FieldRef := ⟨REQ_TABLE e 21, 0, 32⟩
def rqInflight (e : Nat) : FieldRef := ⟨REQ_TABLE e 22, 8, 8⟩
def rqPausedFrom (e : Nat) : FieldRef := ⟨REQ_TABLE e 22, 16, 8⟩
def rqDrafts (e : Nat) : FieldRef := ⟨REQ_TABLE e 22, 24, 8⟩

def State.reqPair (s : State) (e w : Nat) : Nat := s.pair (REQ_TABLE e w) (REQ_TABLE e (w + 1))

def State.setReqPair (s : State) (e w v : Nat) : State := s.setPair (REQ_TABLE e w) (REQ_TABLE e (w + 1)) v

def State.deadline (s : State) (e : Nat) : Nat := s.reqPair e 2

def noDeadline : Nat := 2 ^ 64 - 1

/-- The draft field: eight words from 0x60. -/
def State.drafts (s : State) (e : Nat) : Nat :=
  (List.range 8).foldr (fun i acc => (s.rd (REQ_TABLE e (24 + i))).toNat + 2 ^ 32 * acc) 0

def State.setDrafts (s : State) (e v : Nat) : State :=
  each (fun i (t : State) => t.wr (REQ_TABLE e (24 + i)) (BitVec.ofNat 32 (v >>> (32 * i)))) (List.range 8) s

/-- Draft `k`, 1 to 15. -/
def State.draft (s : State) (e k : Nat) : Nat := field (s.drafts e) (17 * (k - 1)) 17

def State.req (s : State) (e : Nat) : ReqSt := lookupD ReqSt.reset s.reqs e

def State.onReq (s : State) (e : Nat) (f : ReqSt → ReqSt) : State := { s with reqs := put s.reqs e (f (s.req e)) }

/-- Live and terminal codes (R292). -/
def isLive (code : Nat) : Bool := decide (1 ≤ code ∧ code ≤ 7)
def isTerminal (code : Nat) : Bool := decide (8 ≤ code ∧ code ≤ 11)

/-! ## Slices (R387) -/

def State.sliceBase (s : State) (n : Nat) : Nat := 256 * s.get (PART_RES_SLICE_base n)
def State.sliceSize (s : State) (n : Nat) : Nat := 256 * s.get (PART_RES_SLICE_size n)

def State.inSlice (s : State) (n e : Nat) : Bool :=
  s.on (PART_RES_CTL_enable n) && decide (s.sliceBase n ≤ e ∧ e < s.sliceBase n + s.sliceSize n)

def State.sliceOwner (s : State) (e : Nat) : Option Nat := firstFrom (fun n => s.inSlice n e) 0 64

/-- Entries of a slice in the states given, ascending. -/
def State.entries (s : State) (n : Nat) (codes : List Nat) : List Nat :=
  ((List.range (s.sliceSize n)).map (s.sliceBase n + ·)).filter (fun e => codes.contains (s.get (rqState e)))

def liveCodes : List Nat := [1, 2, 3, 4, 5, 6, 7]

/-! ## The layout's figures -/

def noServe : Serve :=
  { slots := 0, chunkMax := 0, lookahead := 0, span := 0, stageIn := 0, stageOut := 0, watch := 0, kvRows := 0, spanPos := 1 }

def State.serve (s : State) (n : Nat) : Serve := ((s.part n).layout.map (·.serve)).getD noServe

/-- D, the stages from input to output (R289). -/
def State.depth (s : State) (n : Nat) : Nat := (s.serve n).stageOut - (s.serve n).stageIn + 1

def State.modelOf (s : State) (n : Nat) : Nat := (((s.part n).layout.bind (·.wman)).map (·.model)).getD 0

/-- Slots of a PAGES list of a partition's layout (R248). -/
def State.pagesRec (s : State) (n r : Nat) : List Nat :=
  match (s.part n).layout with
  | some l => (match l.pages[r]? with | some h => s.listFrom noSlot h | none => [])
  | none => []

/-! ## Tenants (R300 to R302) -/

def tenBank (t : Nat) : FieldRef := ⟨TENANT_STATE t 4, 16, 1⟩
def tenActive (t : Nat) : FieldRef := ⟨TENANT_STATE t 4, 0, 16⟩
def tenPages (t : Nat) : FieldRef := ⟨TENANT_STATE t 5, 0, 32⟩
def tenDebit (t : Nat) : FieldRef := ⟨TENANT_STATE t 2, 0, 32⟩
def tenDebitLast (t : Nat) : FieldRef := ⟨TENANT_STATE t 3, 0, 32⟩

def tenCfg (bank t w : Nat) : Nat := if bank = 0 then TENANT_CFG0 t w else TENANT_CFG1 t w

/-- Word `w` of a tenant's active configuration. -/
def State.ten (s : State) (t w : Nat) : Word := s.rd (tenCfg (s.get (tenBank t)) t w)

/-- A configuration entry names a partition. -/
def State.cfgNames (s : State) (bank t n : Nat) : Bool :=
  let c := s.rd (tenCfg bank t 0)
  c.getLsbD 31 && bits c 24 6 == n

def State.tenNames (s : State) (t n : Nat) : Bool := s.cfgNames (s.get (tenBank t)) t n

def State.balance (s : State) (t : Nat) : Int := signed (s.pair (TENANT_STATE t 0) (TENANT_STATE t 1)) 64

def State.setBalance (s : State) (t : Nat) (v : Int) : State :=
  s.setPair (TENANT_STATE t 0) (TENANT_STATE t 1) (unsigned v 64)

/-- A debit in 1/256 unit against a request and its tenant (R302). -/
def State.debit (s : State) (e amount : Nat) : State :=
  let t := s.get (rqTenant e)
  let sum := lookupD 0 s.tenants t + amount
  let own := (s.req e).debit + amount
  let s1 := ({ s with tenants := put s.tenants t sum }.setBalance t (s.balance t - (amount : Int))).onReq e
    (fun q => { q with debit := own })
  (s1.set (tenDebit t) (min (sum / 256) (2 ^ 32 - 1))).set (rqDebited e) (min (own / 256) (2 ^ 32 - 1))

/-- Refill and latching at the start of a window (R301). -/
def State.refill (s : State) (t : Nat) : State :=
  let cap := 256 * ((s.ten t 2).toNat : Int)
  let b := s.balance t
  let s1 := if cap ≤ b then s else s.setBalance t (min (b + 256 * ((s.ten t 1).toNat : Int)) cap)
  { (s1.set (tenDebitLast t) (s1.get (tenDebit t))).set (tenDebit t) 0 with tenants := put s1.tenants t 0 }

/-- Tenants of which a bank's entry names the partition. -/
def State.tenantsOf (s : State) (n : Nat) (standby : Bool) : List Nat :=
  (List.range 4096).filter (fun t =>
    s.tenNames t n || (standby && s.cfgNames (1 - s.get (tenBank t)) t n))

/-- A swapped tenant: banks change places, and the new standby bank takes a copy of the new active one (R301). -/
def State.swapTenant (s : State) (t : Nat) : State :=
  let b := 1 - s.get (tenBank t)
  each (fun w (u : State) => u.wr (tenCfg (1 - b) t w) (s.rd (tenCfg b t w))) (List.range 8) (s.set (tenBank t) b)

/-- By a swap a tenant would become invalid, or move to another partition (R301). -/
def State.tenantMoves (s : State) (t : Nat) : Bool :=
  let b := s.get (tenBank t)
  let now := s.rd (tenCfg b t 0)
  let next := s.rd (tenCfg (1 - b) t 0)
  !next.getLsbD 31 || (now.getLsbD 31 && bits now 24 6 != bits next 24 6)

/-- The swap of a partition's tenants, or its refusal (R301, R325). A swap asked for once more in its cycle waits for the next window
(R10). -/
def State.swapTenants (s : State) (n : Nat) : State :=
  let l := s.tenantsOf n true
  let s1 := s.done (REQ_P_TEN_swap n)
  if l.any (fun t => decide (0 < s.get (tenActive t)) && s.tenantMoves t) then s1.raise (REQ_P_TEN_refused n)
  else (each (fun t (u : State) => u.swapTenant t) l s1).bump (REQ_P_TEN_swaps n) 1

/-- The first tick of a window of a partition: refill, latching, swap (R301). -/
def State.tenantWindow (s : State) (n : Nat) : State :=
  let s1 := each (fun t (u : State) => u.refill t) (s.tenantsOf n false) s
  let s2 := { s1 with tenHeld := s1.tenHeld.filter (fun t => !s1.tenNames t n) }
  if s2.on (REQ_P_TEN_swap n) then s2.swapTenants n else s2

/-! ## Prefixes and adapters as requests see them -/

def State.pfx (s : State) (h : Nat) : Option Pfx := lookup? s.pfxs h

def State.onPfx (s : State) (h : Nat) (f : Pfx → Pfx) : State :=
  match s.pfx h with
  | some p => { s with pfxs := put s.pfxs h (f p) }
  | none => s

/-- A handle valid for a partition (R339). -/
def State.pfxValid (s : State) (n h : Nat) : Bool :=
  match s.pfx h, (s.part n).layout.bind (·.wman) with
  | some p, some w => !p.destroying && (p.owner == n || p.shared) && p.model == w.model && p.epoch == w.epoch
  | _, _ => false

/-- Positions of a request's prefix, Π. -/
def State.pi (s : State) (e : Nat) : Nat :=
  if s.on (rqPrefixOn e) then ((s.pfx (s.get (rqPrefixHandle e))).map (·.positions)).getD 0 else 0

def State.prefixSlots (s : State) (e : Nat) : List Nat :=
  if s.on (rqPrefixOn e) then
    match s.pfx (s.get (rqPrefixHandle e)) with
    | some p => s.listFrom p.pages p.head
    | none => []
  else []

def State.adp (s : State) (h : Nat) : Option Adp := lookup? s.adps h

/-- A handle loaded for a partition (R374). -/
def State.adpLoaded (s : State) (n h : Nat) : Bool :=
  match s.adp h with
  | some a => !a.removing && a.owner == n && a.model == s.modelOf n
  | none => false

def Adp.slot (a : Adp) (epoch : Nat) : Option AdpEpoch :=
  let x := if epoch % 2 = 0 then a.slot0 else a.slot1
  x.bind (fun y => if y.epoch = epoch then some y else none)

def Adp.onSlot (a : Adp) (epoch : Nat) (f : AdpEpoch → AdpEpoch) : Adp :=
  if epoch % 2 = 0 then { a with slot0 := a.slot0.map f } else { a with slot1 := a.slot1.map f }

/-- References to an epoch of a handle change. -/
def State.adpRefs (s : State) (h epoch : Nat) (f : Nat → Nat) : State :=
  match s.adp h with
  | some a => { s with adps := put s.adps h (a.onSlot epoch (fun x => { x with refs := f x.refs })) }
  | none => s

/-- The pinned epoch of a request is resident (R376). -/
def State.adpResident (s : State) (e : Nat) : Bool :=
  !s.on (rqAdapterOn e) ||
    ((s.adp (s.get (rqAdapterHandle e))).bind (·.slot (s.get (rqAdapterEpoch e)))).any (·.resident)

/-! ## Own pages and the index (R328 to R334) -/

/-- A row of a page list that the request engine writes, in class 1 with the KV traffic (log entry 123). -/
def State.listStore (s : State) (slots : List Nat) (r : Nat) (d : Nat) : State := s.listPutRow .kv slots r (BitVec.ofNat 512 d)

def pmax (v : Serve) : Nat := ceilDiv (v.span * v.spanPos * v.kvRows) 32768 + 1

/-- log₂ of the stride I. -/
def strideLog (v : Serve) : Nat := (firstFrom (fun k => decide (1 + ceilDiv (pmax v) 8 ≤ 2 ^ k)) 0 64).getD 64

def State.stride (s : State) (n : Nat) : Nat := 2 ^ strideLog (s.serve n)

def State.kvSlots (s : State) (n : Nat) : List Nat := s.pagesRec n (s.part n).kvRec

/-- PART_KV_IDX.ready (R331). -/
def State.kvReady (s : State) (n : Nat) : Bool :=
  let l := s.kvSlots n
  (s.part n).layout.isSome && decide (s.stride n ≤ 32768) && l.all (fun i => (s.slot i).testBit 1) &&
    decide (ceilDiv (s.sliceSize n * s.stride n) 32768 ≤ l.length)

/-- A Bay-kind address of a row of a global page (R86, R332). -/
def bayWord (g row : Nat) : Nat := 2 ^ 47 + (g / pagesPerBay) * 2 ^ 40 + (g % pagesPerBay) * 2 ^ 20 + row

/-- Bay 31: traps with cause 4 where used. -/
def unusedWord : Nat := 0x9F0000000000

/-- First row of a request's index region. -/
def State.indexRow (s : State) (n e : Nat) : Nat := (e - s.sliceBase n) * s.stride n

/-- Address of a request's index region (R334). -/
def State.indexWord (s : State) (n e : Nat) : Nat :=
  match s.listPage (s.kvSlots n) (64 * s.indexRow n e) with
  | some g => bayWord g (s.indexRow n e % 32768)
  | none => unusedWord

/-- Eight words as a row. -/
def wordsRow (l : List Nat) : Nat := (l.zip (List.range l.length)).foldl (fun r p => r + (p.1 % 2 ^ 64) * 2 ^ (64 * p.2)) 0

def State.ownSlots (s : State) (e : Nat) : List Nat := s.listFrom (s.get (rqPages e)) (s.get (rqKvHead e))

/-- Row `r` of a request's index region, from its page slots (R332). -/
def State.indexData (s : State) (e : Nat) (pre own : List Nat) (valid : Bool) (r : Nat) : Nat :=
  if r = 0 then wordsRow [own.length + 2 ^ 20 * pre.length, s.pi e, e + 2 ^ 63 * b2n valid]
  else wordsRow ((List.range 8).map (fun k =>
    match (pre ++ own)[8 * (r - 1) + k]? with
    | some i => if valid then bayWord (slotPage (s.slot i)) 0 else unusedWord
    | none => unusedWord))

/-- Row 0 of a region whose own pages are freed: valid cleared, the rest as it stands (R333). -/
def State.indexFreed (s : State) (n e : Nat) : Nat :=
  setField (s.listRow (s.kvSlots n) (s.indexRow n e)).toNat 191 1 0

/-- The whole region written: at admission, or with every entry unused as the pages are freed (R333). -/
def State.writeIndex (s : State) (n e : Nat) (valid : Bool) : State :=
  let pre := if valid then s.prefixSlots e else []
  let own := if valid then s.ownSlots e else []
  each (fun r (t : State) => t.listStore (s.kvSlots n) (s.indexRow n e + r)
      (if r = 0 ∧ !valid then s.indexFreed n e else s.indexData e pre own valid r)) (List.range (s.stride n)) s

/-- A usable Bay with a free page, from place `k` of the usable ones on (R328). -/
def State.ownBay (s : State) (k : Nat) : Option Nat :=
  let us := (List.range 18).filter s.bayUsable
  ((List.range us.length).map (fun i => us.getD ((k + i) % us.length) 0)).find? (fun b => decide (0 < s.freePages b))

/-- The own pages of a request allocated one by one: the head of the list, or none. -/
def State.allocOwn (s : State) (n e : Nat) : Nat → Nat → Nat → Nat → Option (Nat × State)
  | 0, _, head, _ => some (head, s)
  | left + 1, j, head, last =>
    match s.ownBay (e + j) with
    | none => none
    | some b =>
      let r := s.alloc ⟨b, n, false, false, false, false, last⟩
      if r.2.status = 0 then r.1.allocOwn n e left (j + 1) (if head = noSlot then r.2.slot else head) r.2.slot else none

/-- The own pages freed and the index region cleared. -/
def State.freeOwn (s : State) (n e : Nat) : State :=
  if (s.req e).pages then
    let s1 := each (fun i (t : State) => (t.freeSlotOp i).1) (s.ownSlots e) s
    (s1.writeIndex n e false).onReq e (fun q => { q with pages := false })
  else s

/-- A request out of the live states with no step in flight gives its pages back (R295). -/
def State.settleReq (s : State) (n e : Nat) : State :=
  if isTerminal (s.get (rqState e)) && s.get (rqInflight e) == 0 then s.freeOwn n e else s

/-! ## Shipping messages (R344) -/

/-- A shipping message: head, CRC over head and payload, payload. -/
def shipMsg (type source sreq dreq ship group shard status offset rows : Nat) (payload : List Byte) : List Byte :=
  let h := bytesOf 1 type ++ bytesOf 1 1 ++ bytesOf 2 source ++ bytesOf 4 sreq ++ bytesOf 4 dreq ++ bytesOf 4 ship ++
    bytesOf 2 group ++ bytesOf 1 shard ++ bytesOf 1 status ++ bytesOf 4 offset ++ bytesOf 2 rows ++ bytesOf 2 0
  h ++ bytesOf 4 (crc32c (h ++ bytesOf 4 0 ++ payload)) ++ payload

/-- The peer word of a request (R342, R356). -/
def State.peerWord (s : State) (e : Nat) : Word := lookupD 0 s.peers e

/-- A shipping message to a module; false where it cannot go. -/
def State.ship (s : State) (m : Nat) (msg : List Byte) : State × Bool := s.sendTo m 12 0 0 msg

/-- ACK from the decode side. -/
def State.answer (s : State) (e : Nat) (p : ShipPeer) (group status : Nat) : State :=
  (s.ship p.module (shipMsg 4 s.ownAddr e p.req p.ship group 0 status 0 0 [])).1

/-- ABORT to the other side of a shipment. -/
def State.sendAbort (s : State) (e : Nat) (p : ShipPeer) : State :=
  (s.ship p.module (shipMsg 6 s.ownAddr e p.req p.ship 0 0 0 0 0 [])).1

/-- The other side as the peer word names it, where no shipment does (log entry 56). -/
def State.namedPeer (s : State) (e : Nat) : ShipPeer := ⟨bits (s.peerWord e) 17 15, bits (s.peerWord e) 0 17, 0⟩

/-- The senders of an OPEN for a request, accepted or waiting. -/
def State.shipSenders (s : State) (e : Nat) : List ShipPeer :=
  ((lookup? s.shipIn e).toList.map (fun i => ⟨i.module, i.sreq, i.ship⟩)) ++
    (s.shipWait.filter (fun w => w.req == e)).map (fun w => ⟨w.module, msgNum w.message 4 4, msgNum w.message 0x0C 4⟩)

/-- Every shipment of a request is over; its parity slot is free again. -/
def State.dropShips (s : State) (e : Nat) : State :=
  { s with
    shipOut := del s.shipOut e, shipIn := del s.shipIn e, shipWait := s.shipWait.filter (fun w => w.req != e) }

/-- ABORT for every shipment of a request (R350); where it has none and `named` holds, to the peer of its peer word. -/
def State.abortShip (s : State) (e : Nat) (named : Bool) : State :=
  let l := ((lookup? s.shipOut e).toList.map (fun o => ⟨o.module, o.peer, o.ship⟩)) ++ s.shipSenders e
  each (fun p (t : State) => t.sendAbort e p) (if l.isEmpty && named then [s.namedPeer e] else l) (s.dropShips e)

/-! ## Leaving the live states (R295) -/

/-- The reservations of a request lapse (R311). -/
def State.lapse (s : State) (n e : Nat) : State :=
  s.onPart n (fun q => { q with resvs := q.resvs.filter (fun r => r.req != e) })

/-- What admission took is given back (R304). -/
def State.unadmit (s : State) (e : Nat) : State :=
  if (s.req e).admitted then
    let t := s.get (rqTenant e)
    let s1 := (s.set (tenActive t) (s.get (tenActive t) - 1)).set (tenPages t) (s.get (tenPages t) - s.get (rqPages e))
    let s2 := if s.on (rqPrefixOn e) then s1.onPfx (s.get (rqPrefixHandle e)) (fun p => { p with refs := p.refs - 1 }) else s1
    let s3 := if s.on (rqAdapterOn e) then s2.adpRefs (s.get (rqAdapterHandle e)) (s.get (rqAdapterEpoch e)) (· - 1) else s2
    s3.onReq e (fun q => { q with admitted := false })
  else if s.get (rqState e) = 1 ∧ s.on (rqPrefixOn e) then
    s.onPfx (s.get (rqPrefixHandle e)) (fun p => { p with queued := p.queued - 1 })
  else s

/-- A live request goes to a terminal state with a reason. One in AWAIT_KV sends ABORT though no OPEN has come (R350), but for a
failure, which R349 settles, and a reset. -/
def State.leave (s : State) (n e code reason : Nat) : State :=
  if isLive (s.get (rqState e)) then
    let named := decide (s.get (rqState e) = 7 ∧ reason ≠ 8 ∧ reason ≠ 9)
    let s1 := ((s.unadmit e).abortShip e named).lapse n e
    let s2 := ((s1.set (rqState e) code).set (rqReason e) reason).onReq e (fun q => { q with outcome := 0 })
    (s2.partEvt n 0).settleReq n e
  else s

/-- Place of a slot among the entries of a request's index region, the prefix's pages before the own ones: their number as the
region's row 0 holds it (R332). -/
def State.indexPlace (s : State) (n e slot : Nat) : Option Nat :=
  let k := field (s.listRow (s.kvSlots n) (s.indexRow n e)).toNat 20 20
  let pre := s.prefixSlots e
  let at_ := fun (l : List Nat) => firstFrom (fun i => l.getD i noSlot == slot) 0 l.length
  match at_ (s.ownSlots e) with
  | some i => some (k + i)
  | none => if pre.length = k then at_ pre else none

/-- A page of a list has moved: the index row that holds its entry is written with the page it now has (R333). -/
def State.reindex (s : State) (slot : Nat) : State :=
  each (fun (q : Nat × ReqSt) (t : State) =>
    if q.2.pages then
      match t.sliceOwner q.1 with
      | some n =>
        match t.indexPlace n q.1 slot with
        | some k =>
          let r := t.indexRow n q.1 + 1 + k / 8
          t.listStore (t.kvSlots n) r
            (setField (t.listRow (t.kvSlots n) r).toNat (64 * (k % 8)) 64 (bayWord (slotPage (t.slot slot)) 0))
        | none => t
      | none => t
    else t) s.reqs s

/-- A Bay's move takes its switch, and the index rows follow. -/
def State.moveIndexed (s : State) (b : Nat) (f : State → State) : State :=
  let slot := ((s.bay b).move.map (·.slot)).getD noSlot
  let t := f s
  if t.get (BAY_MOVE_STAT_state b) = 3 ∧ s.get (BAY_MOVE_STAT_state b) = 2 then t.reindex slot else t

/-- The switches that wait for a boundary of a partition come before every lookup of its cycle (R214, R218). -/
def State.switchMoves (s : State) (n : Nat) : State :=
  each (fun b (t : State) =>
    if t.moveReady b && t.moveOwner b == n then t.moveIndexed b (fun u => u.switchPage b) else t) (List.range 18) s

def execMoveSwitch (b : Nat) (s : State) : Host.Outcome State Fault Refusal :=
  .next (if b < 18 then s.moveIndexed b (fun t => t.moveSwitch b) else s)

end Sys2Proof.Machine
end

