-- ==== Sys2Proof/Machine/Requests.lean ====
section
/-!
DEFINITION. The request engine (10_request_engine): its commands, admission, the plan with reserved steps, token records
and expiry. The order of its work at a boundary is in Boundary.lean.
-/

namespace Sys2Proof.Machine

/-- Insertion into a list in the order of a test; equal elements keep their places. -/
def insertBy {α : Type} (lt : α → α → Bool) (a : α) : List α → List α
  | [] => [a]
  | b :: r => if lt b a then b :: insertBy lt a r else a :: b :: r

def sortBy {α : Type} (lt : α → α → Bool) (l : List α) : List α := l.foldr (insertBy lt) []

/-! ## Commands (R297 to R299) -/

/-- Reserved bits of the host's fields (R291). -/
def State.reqReserved (s : State) (e : Nat) : Bool :=
  let w := fun i => s.rd (REQ_TABLE e i)
  bits (w 0) 20 4 != 0 || bits (w 0) 28 4 != 0 || bits (w 1) 12 4 != 0 || bits (w 1) 27 5 != 0 || bits (w 4) 24 8 != 0 ||
    bits (w 7) 24 8 != 0 || bits (w 9) 20 12 != 0 || bits (w 10) 12 3 != 0 || bits (w 11) 10 5 != 0 || bits (w 11) 24 8 != 0

def State.promptSlots (s : State) (e : Nat) : List Nat := s.listFrom noSlot (s.get (rqPromptHead e))

/-- The prompt list meets R293. -/
def State.promptOk (s : State) (n e : Nat) : Bool := s.listOwned n (s.promptSlots e) (4 * s.get (rqPromptLen e))

/-- The first field of an entry that fails, by R299. -/
def State.submitField (s : State) (n e : Nat) : Option Nat :=
  let role := s.get (rqRole e)
  let t := s.get (rqTenant e)
  if !s.tenNames t n then some 1
  else if role = 3 ∨ (role ≤ 1 ∧ s.get (rqPromptLen e) = 0) ∨ s.get (rqGenMax e) = 0 ∨ s.reqReserved e then some 2
  else if (s.serve n).lookahead < s.get (rqLookahead e) then some 3
  else if s.on (rqAdapterOn e) ∧ !s.adpLoaded n (s.get (rqAdapterHandle e)) then some 4
  else if s.on (rqPrefixOn e) ∧ !s.pfxValid n (s.get (rqPrefixHandle e)) then some 5
  else if !(s.window n (s.get (rqWindow e))).isOpen then some 6
  else if role ≤ 1 ∧ !s.promptOk n e then some 7
  else if s.deadline e ≤ s.tick then some 8
  else none

/-- SUBMIT accepted: the engine's fields take their values (R291), the request is QUEUED. -/
def State.submit (s : State) (e : Nat) : State :=
  let cap := bits (s.ten (s.get (rqTenant e)) 0) 20 4
  let s1 := ((((s.set (rqState e) 1).set (rqReason e) 0).set (rqPriority e) (min cap (s.get (rqPriority e)))).set
    (rqAdapterEpoch e) 0).wr (REQ_TABLE e 8) (BitVec.ofNat 32 noSlot)
  let s2 := each (fun w (t : State) => t.wr (REQ_TABLE e w) 0)
    ([5, 6, 12, 13, 16, 17, 18, 19, 20, 22, 23] ++ (List.range 8).map (24 + ·)) (s1.setReqPair e 14 s.tick)
  let s3 := s2.onReq e (fun _ => ReqSt.reset)
  if s.on (rqPrefixOn e) then s3.onPfx (s.get (rqPrefixHandle e)) (fun p => { p with queued := p.queued + 1 }) else s3

/-- Settled (R292). -/
def State.settled (s : State) (n e : Nat) : Bool :=
  isTerminal (s.get (rqState e)) && s.get (rqInflight e) == 0 && !(s.req e).pages &&
    !(s.part n).resvs.any (fun r => r.req == e)

/-- A request command: the state, the status and the field code (R298, R322). -/
def State.reqCmd (s : State) (op e arg : Nat) : State × Nat × Nat :=
  if op = 0 ∨ 6 < op then (s, 5, 0)
  else
    match s.sliceOwner e with
    | none => (s, 2, 0)
    | some n =>
      let c := s.get (rqState e)
      if s.on (PART_RST_busy n) then (s, 1, 0)
      else match op with
        | 1 =>
          if (s.part n).layout.isNone then (s, 2, 0)
          else if c ≠ 0 then (s, 1, 0)
          else (match s.submitField n e with
            | some f => (s, 3, f)
            | none => (s.submit e, 0, 0))
        | 2 => if isLive c then (s.leave n e 10 1, 0, 0) else (s, 1, 0)
        | 3 =>
          if c = 2 ∨ c = 3 ∨ c = 4 then ((((s.set (rqPausedFrom e) c).set (rqState e) 5).lapse n e), 0, 0) else (s, 1, 0)
        | 4 => if c = 5 then (s.set (rqState e) (s.get (rqPausedFrom e)), 0, 0) else (s, 1, 0)
        | 5 =>
          if !isTerminal c then (s, 1, 0)
          else if s.settled n e then (s.set (rqState e) 0, 0, 0)
          else (s, 4, 0)
        | _ => if isLive c then (s.setReqPair e 2 arg, 0, 0) else (s, 1, 0)

/-- A write of REQ_CMD by an accessor (R297, R322). -/
def State.reqRun (s : State) (acc op e : Nat) : State :=
  let arg := (s.rdAcc acc REQ_CMD_ARG_LO).toNat + 2 ^ 32 * (s.rdAcc acc REQ_CMD_ARG_HI).toNat
  let r := s.reqCmd op e arg
  r.1.wrAcc acc REQ_CMD_RES (BitVec.ofNat 32 (r.2.1 * 2 ^ 28 + r.2.2 * 2 ^ 24 + e % 2 ^ 17))

/-- REQ_P_TEN.swap (R325). -/
def State.tenantSwapRequest (s : State) (n : Nat) : State := s.setOn (REQ_P_TEN_swap n) true

def State.reqCount (s : State) (n i k : Nat) : State := s.bump (REQ_P_CNT_count n i) k

/-! ## Admission (R303 to R305) -/

/-- Order of R305 and R309: priority, then a time, then index. -/
def State.reqOrder (s : State) (time : Nat → Nat) (l : List Nat) : List Nat :=
  sortBy (fun a b =>
    let p := s.get (rqPriority a)
    let q := s.get (rqPriority b)
    decide (q < p ∨ (p = q ∧ (time a < time b ∨ (time a = time b ∧ a < b))))) l

/-- The longest context any step of a request reads, n_max. -/
def State.nMax (s : State) (e : Nat) : Nat :=
  s.pi e + s.get (rqPromptLen e) + s.get (rqGenMax e) + s.get (rqLookahead e)

/-- REQ_P_COMMIT: the sum of n_max over admitted requests. -/
def State.commit (s : State) (n : Nat) : Nat :=
  ((s.entries n liveCodes).filter (fun e => (s.req e).admitted)).foldl (fun a e => a + s.nMax e) 0

/-- Figures of an admission at tick `t0` (R303). -/
structure AdmitFig where
  nMax : Nat
  need : Nat
  first : Nat
  last : Nat
  cost : Nat

def State.admitFig (s : State) (n e t0 : Nat) : AdmitFig :=
  let v := s.serve n
  let b := s.planB n
  let r := s.get (BEAT_PLAN_REST_rest n)
  let h := if s.on (PART_NW_CTL_half n) then 2 else 1
  let d := s.depth n
  let p := s.get (rqPromptLen e)
  let g := s.get (rqGenMax e)
  let w := s.get (rqLookahead e)
  let role := s.get (rqRole e)
  let pc := if role = 2 then 0 else p
  let j := if role = 1 then 1 else g
  let base := if role = 2 then 0 else ceilDiv pc (min v.chunkMax v.slots) + d
  let tick := fun k => t0 + ceilDiv (h * (base + (k - 1) * (d + 1)) * b * (16 + r)) 16
  -- the j with tick(j) < the window's end: beats(j) at most `room`
  let room := 16 * ((s.part n).winEnd - 1 - t0) / (h * b * (16 + r))
  let gwin := if (s.part n).winEnd ≤ t0 ∨ room < base then 0 else min g ((room - base) / (d + 1) + 1)
  let c := s.ten (s.get (rqTenant e)) 3
  { nMax := s.nMax e, need := ceilDiv ((p + g + w) * v.kvRows) 32768, first := tick 1, last := tick j
    cost := bits c 0 16 * pc + bits c 16 16 * gwin }

/-- What admission finds: refused with a reason, admitted, waiting, or waiting and blocking. -/
inductive Verdict where
  | refuse (reason : Nat) | take | wait | block
  deriving DecidableEq, Repr

def State.admitVerdict (s : State) (n e t0 : Nat) : Verdict :=
  let v := s.serve n
  let f := s.admitFig n e t0
  let t := s.get (rqTenant e)
  let quota := s.get (PART_RES_QUOTA_pages n)
  let free := (List.range 18).foldl (fun a b => a + s.freePages b) 0
  if v.span < ceilDiv f.nMax v.spanPos ∨ 8 * (s.stride n - 1) < (s.prefixSlots e).length + f.need then .refuse 3
  else if quota < f.need then .refuse 13
  else if s.deadline e ≠ noDeadline ∧ s.deadline e ≤ f.last then .refuse 2
  else if quota - s.get (PART_RES_USED_pages n) < f.need ∨ free < f.need then .block
  else if (s.part n).allow * (s.depth n + 1) < s.commit n % 2 ^ 32 + f.nMax then .block
  else if (s.ten t 5).toNat < s.get (tenPages t) + f.need then .wait
  else if s.balance t < (f.cost : Int) then .wait
  else if bits (s.ten t 4) 0 16 ≤ s.get (tenActive t) then .wait
  else .take

/-- A request admitted: its own pages, its counts, its references, its index (R304, R328, R333). None where no page or slot
is to be had after all. -/
def State.admitOne (s : State) (n e t0 : Nat) : Option State :=
  let need := (s.admitFig n e t0).need
  match s.allocOwn n e need 0 noSlot noSlot with
  | none => none
  | some (head, s0) =>
    let t := s.get (rqTenant e)
    let h := s.get (rqAdapterHandle e)
    let s1 := (((s0.set (rqKvHead e) head).set (rqPages e) need).set (tenPages t) (s0.get (tenPages t) + need)).set
      (tenActive t) (s0.get (tenActive t) + 1)
    let s2 := if s.on (rqPrefixOn e) then
        s1.onPfx (s.get (rqPrefixHandle e)) (fun p => { p with queued := p.queued - 1, refs := p.refs + 1 })
      else s1
    let s3 := if s.on (rqAdapterOn e) then
        (match s.adp h with
         | some a => (s2.set (rqAdapterEpoch e) a.cur).adpRefs h a.cur (· + 1)
         | none => s2)
      else s2
    let mark := s.tick / 9375
    let s4 := s3.onReq e (fun q => { q with pages := true, admitted := true, since := mark })
    some (((s4.set (rqState e) (if s.get (rqRole e) = 2 then 7 else 2)).writeIndex n e true).reqCount n 0 1)

/-- The queued requests evaluated in turn (R305); one that blocks ends the turn, since all later ones rank no higher. -/
def State.admitEach (s : State) (n t0 : Nat) : List Nat → State
  | [] => s
  | e :: r =>
    match s.admitVerdict n e t0 with
    | .refuse c => ((s.leave n e 10 c).reqCount n 1 1).admitEach n t0 r
    | .take => (match s.admitOne n e t0 with | some t => t.admitEach n t0 r | none => s)
    | .wait => s.admitEach n t0 r
    | .block => s

/-- A weight reload or a die's fold or restore drains the partition: no step is entered (R373, R482). -/
def State.draining (s : State) (n : Nat) : Bool := s.get (PART_WGT_STAT_state n) == 5 || (s.part n).drain.isSome

/-- The plan pages are there and the engine is enabled (R306). -/
def State.planEnabled (s : State) (n : Nat) : Bool :=
  s.on (REQ_P_CTL_enable n) && decide (2 ≤ (s.pagesRec n (s.get (REQ_P_CTL_plan_rec n))).length)

/-- Admission of a planning boundary. -/
def State.admission (s : State) (n t0 : Nat) : State :=
  if s.planEnabled n && s.kvReady n then
    s.admitEach n t0 ((s.reqOrder (fun e => s.reqPair e 14) (s.entries n [1])).take 64)
  else s

/-! ## The plan (R306 to R311) -/

/-- A plan being formed: slot records with their requests, read records with theirs, positions read so far. -/
structure PlanSt where
  slots : List (Nat × Nat) := []
  reads : List (Nat × Nat) := []
  pos : Nat := 0

/-- A slot record (R307). -/
def State.slotRecord (s : State) (e kind k m pos token ctx step : Nat) : Nat :=
  wordsRow [e % 2 ^ 17 + 2 ^ 31 + 2 ^ 32 * (kind + 2 ^ 8 * k + 2 ^ 16 * m + 2 ^ 24 * s.get (rqRecipe e)),
    pos % 2 ^ 32 + 2 ^ 32 * (token % 2 ^ 17),
    ctx % 2 ^ 32 + 2 ^ 32 * s.get (rqKvHead e),
    s.get (rqPrefix e) + 2 ^ 16 * s.get (rqAdapter e) + 2 ^ 32 * s.get (rqAdapterEpoch e),
    step]

/-- A read record (R307). -/
def State.readRecord (s : State) (e part m first count step : Nat) : Nat :=
  wordsRow [e % 2 ^ 17 + 2 ^ 31 + 2 ^ 32 * (part + 2 ^ 8 * m), first % 2 ^ 32 + 2 ^ 32 * count,
    s.get (rqKvHead e) + 2 ^ 32 * s.get (rqPrefix e), step]

/-- The next step of a request if it were formed with `free` slots: first position, positions, context, whether a chunk;
`ahead` is the prompt positions already reserved. -/
structure NextStep where
  pos : Nat
  count : Nat
  ctx : Nat
  chunk : Bool
  final : Bool

def State.nextChunk (s : State) (n e ahead free : Nat) : Option NextStep :=
  let v := s.serve n
  let at_ := s.get (rqEntered e) + ahead
  let left := s.get (rqPromptLen e) - at_
  let c := min (min (min v.chunkMax v.slots) left) free
  if c = 0 then none
  else some ⟨s.pi e + at_, c, s.pi e + at_ + c, true, c == left⟩

def State.nextDecode (s : State) (e free : Nat) : Option NextStep :=
  let g := s.get (rqGenLen e)
  let p := s.pi e + s.get (rqPromptLen e) + g - 1
  if free = 0 ∨ s.get (rqGenMax e) ≤ g then none
  else
    let w := min (min (s.get (rqLookahead e)) (s.get (rqDrafts e))) (min (s.get (rqGenMax e) - g - 1) (free - 1))
    some ⟨p, w + 1, p + w + 1, false, true⟩

/-- Token of position `i` of a step (R308). -/
def State.stepToken (s : State) (e : Nat) (x : NextStep) (i : Nat) : Nat :=
  if x.chunk then s.listNum (s.promptSlots e) (4 * (x.pos - s.pi e + i)) 4
  else if i = 0 then s.get (rqToken e) else s.draft e i

/-- Positions an own read takes. -/
def ownRead (v : Serve) (ctx : Nat) : Nat := min ctx v.spanPos

/-- A step entered into the plan of step `cur` (R309): its slot records, its debit, its place in flight. -/
def State.enter (s : State) (n cur e m : Nat) (x : NextStep) (p : PlanSt) : State × PlanSt :=
  let recs := (List.range x.count).map (fun i =>
    (s.slotRecord e (if x.chunk then 3 else if i = 0 then 1 else 2) i m (x.pos + i) (s.stepToken e x i) x.ctx cur, e))
  let f : Flight := ⟨cur, x.chunk, x.final, if x.chunk then x.count - 1 else 0, x.count⟩
  let r := if x.chunk then s.listReadBytes .kv (s.promptSlots e) (4 * (x.pos - s.pi e)) (4 * x.count) else s
  let s1 := (r.set (rqInflight e) (s.get (rqInflight e) + 1)).onReq e (fun q => { q with flights := q.flights ++ [f] })
  let s2 := if x.chunk then
      let s' := (s1.set (rqEntered e) (s.get (rqEntered e) + x.count)).debit e
        (bits (s.ten (s.get (rqTenant e)) 3) 0 16 * x.count)
      if s.get (rqState e) = 2 then s'.set (rqState e) 3 else s'
    else s1
  (s2.reqCount n 5 1,
    { p with slots := p.slots ++ recs, pos := p.pos + ownRead (s.serve n) x.ctx })

/-- The step fits the plan's allowance. -/
def State.readFits (s : State) (n : Nat) (p : PlanSt) (ctx : Nat) : Bool :=
  decide (p.pos + ownRead (s.serve n) ctx ≤ (s.part n).allow)

/-- The tenant of a request has no budget left (R302). -/
def State.noBudget (s : State) (e : Nat) : Bool := decide (s.balance (s.get (rqTenant e)) ≤ 0)

/-- Read records that reservations place in the current plan (R311). -/
def State.placeReads (s : State) (n cur : Nat) (p : PlanSt) : PlanSt :=
  (s.part n).resvs.foldl (fun p r => r.parts.foldl (fun p q =>
    if q.1 = cur then
      { p with reads := p.reads ++ [(s.readRecord r.req q.2.1 r.m q.2.2.1 q.2.2.2 r.step, r.req)], pos := p.pos + q.2.2.2 }
    else p) p) p

/-- The step that a reservation for this plan enters, if it still stands (R311). -/
def State.resvStep (s : State) (n free : Nat) (r : Resv) : Option NextStep :=
  let c := s.get (rqState r.req)
  if r.chunk then
    if s.get (rqEntered r.req) = r.from_ ∧ (c = 2 ∨ c = 3) then s.nextChunk n r.req 0 (min r.slots free) else none
  else if c = 4 ∧ s.get (rqInflight r.req) = 0 then s.nextDecode r.req (min r.slots free) else none

/-- Requests held for budget: counted, the event at a tenant's first, reservations lapse (R302). -/
def State.holdBudget (s : State) (n e : Nat) : State :=
  let t := s.get (rqTenant e)
  let s1 := (s.reqCount n 7 1).lapse n e
  if s.tenHeld.contains t then s1 else ({ s1 with tenHeld := t :: s1.tenHeld }).partEvt n 6

/-- Steps reserved for this plan, in the order they were reserved; each reservation is used up or has lapsed. A tenant whose budget an
earlier one of them uses up gets no further step. -/
def State.enterReserved (s : State) (n cur : Nat) (p : PlanSt) : State × PlanSt :=
  let due := (s.part n).resvs.filter (fun r => r.step == cur)
  let s0 := s.onPart n (fun q => { q with resvs := q.resvs.filter (fun r => r.step != cur) })
  due.foldl (fun (a : State × PlanSt) r =>
    if isLive (a.1.get (rqState r.req)) && a.1.noBudget r.req then (a.1.holdBudget n r.req, a.2)
    else match a.1.resvStep n ((a.1.serve n).slots - a.2.slots.length) r with
    | some x => if a.1.readFits n a.2 x.ctx then a.1.enter n cur r.req r.m x a.2 else a
    | none => a) (s0, p)

/-- Slots, read records and positions that reservations hold of a future plan. -/
def PartSt.heldSlots (q : PartSt) (plan : Nat) : Nat :=
  (q.resvs.filter (fun r => r.step == plan)).foldl (fun a r => a + r.slots) 0

def PartSt.heldReads (q : PartSt) (plan : Nat) : Nat × Nat :=
  q.resvs.foldl (fun a r => r.parts.foldl (fun a x => if x.1 = plan then (a.1 + 1, a.2 + x.2.2.2) else a) a) (0, 0)

/-- A step of `m` beats reserved for plan `t`, if its slots, records and positions are to be had (R310, R311). -/
def State.reserve (s : State) (n cur e t m : Nat) (chunk : Bool) (from_ slots bound : Nat) (p : PlanSt) : State × PlanSt :=
  let v := s.serve n
  let q := s.part n
  let span := bound - v.spanPos
  let part := fun j => (t + 1 + j - m, j, j * span / (m - 1), (j + 1) * span / (m - 1) - j * span / (m - 1))
  let parts := (List.range (m - 1)).map part
  let fits := decide (q.heldSlots t + slots ≤ v.slots) && parts.all (fun x =>
    let h := if x.1 = cur then (p.reads.length, p.pos) else q.heldReads x.1
    decide (h.1 + 1 ≤ 16 ∧ h.2 + x.2.2.2 ≤ q.allow))
  if fits then
    (s.onPart n (fun q => { q with
        resvs := q.resvs ++ [(⟨e, t, m, chunk, from_, slots, bound, parts.filter (fun x => x.1 != cur)⟩ : Resv)] }),
      parts.foldl (fun (p : PlanSt) x =>
        if x.1 = cur then
          { p with reads := p.reads ++ [(s.readRecord e x.2.1 m x.2.2.1 x.2.2.2 t, e)], pos := p.pos + x.2.2.2 }
        else p) p)
  else (s, p)

/-- Beats of a context (R310). -/
def beatsOf (v : Serve) (ctx : Nat) : Nat := ceilDiv ctx v.spanPos

/-- The decode step after the ones in flight, as R310 and R311 bound it: slots and context, where every position of the step in
flight is accepted; none where no step will follow then. With nothing in flight the drafts are there, and the bound is the step. -/
def State.boundDecode (s : State) (e : Nat) : Option (Nat × Nat) :=
  let gm := s.get (rqGenMax e)
  let g := s.get (rqGenLen e)
  let base := s.pi e + s.get (rqPromptLen e)
  let last := (s.req e).flights.getLast?
  let w := if last.isSome then s.get (rqLookahead e) else min (s.get (rqLookahead e)) (s.get (rqDrafts e))
  let g1 := match last with
    | some f => if f.chunk then g + 1 else g + f.size
    | none => g
  let w1 := min w (gm - g1 - 1)
  if gm ≤ g1 ∨ s.get (rqRole e) = 1 then none else some (w1 + 1, base + g1 + w1)

/-- A spread decode step reserved when its time comes (R310, R311): D + 1 steps after the step in flight, or as early as
its parts allow. -/
def State.reserveDecode (s : State) (n cur e : Nat) (p : PlanSt) : State × PlanSt :=
  match s.boundDecode e with
  | none => (s, p)
  | some b =>
    let m := beatsOf (s.serve n) b.2
    let target := match (s.req e).flights.getLast? with
      | some f => max (f.step + s.depth n + 1) (cur + m - 1)
      | none => cur + m - 1
    if m < 2 ∨ (s.serve n).span < m ∨ target + 1 ≠ cur + m then (s, p)
    else s.reserve n cur e target m false 0 b.1 b.2 p

/-- A DECODE request, or one whose final chunk is in flight: entered if it has no step in flight and one beat suffices,
else reserved. -/
def State.planDecode (s : State) (n cur e : Nat) (p : PlanSt) : State × PlanSt :=
  let v := s.serve n
  if (s.part n).resvs.any (fun r => r.req == e) then (s, p)
  else if s.get (rqInflight e) ≠ 0 then s.reserveDecode n cur e p
  else if s.get (rqState e) ≠ 4 then (s, p)
  else
    match s.nextDecode e (v.slots - p.slots.length) with
    | none => (s, p)
    | some x =>
      if 1 < beatsOf v x.ctx then s.reserveDecode n cur e p
      else if s.readFits n p x.ctx then s.enter n cur e 1 x p
      else (s, p)

/-- A chunk of an ADMITTED or PREFILL request: entered or reserved. -/
def State.planChunk (s : State) (n cur e : Nat) (p : PlanSt) : State × PlanSt :=
  let v := s.serve n
  let mine := (s.part n).resvs.filter (fun r => r.req == e)
  let ahead := mine.foldl (fun a r => a + r.slots) 0
  match s.nextChunk n e ahead v.slots with
  | none => (s, p)
  | some x =>
    let m := beatsOf v x.ctx
    if m ≤ 1 ∧ mine = [] then
      match s.nextChunk n e 0 (v.slots - p.slots.length) with
      | some y => if s.readFits n p y.ctx then s.enter n cur e 1 y p else (s, p)
      | none => (s, p)
    else if m ≤ 1 ∨ v.span < m then (s, p)
    else s.reserve n cur e (cur + m - 1) m true (s.get (rqEntered e) + ahead) x.count x.ctx p

/-- `m` of the next step of a request, as its entry shows it (R291, R310): of the step reserved first, of the chunk that enters next, or
of the decode step; 0 where no step will follow. A request that awaits its KV goes on with the token shipped (R347). -/
def State.nextSpan (s : State) (n e : Nat) : Nat :=
  let v := s.serve n
  let c := s.get (rqState e)
  let code := if c = 5 then s.get (rqPausedFrom e) else c
  let bound := fun (x : Option (Nat × Nat)) => match x with
    | some b => beatsOf v b.2
    | none => 0
  if code = 0 ∨ 8 ≤ code ∨ code = 6 ∨ v.slots = 0 then 0
  else match (s.part n).resvs.find? (fun r => r.req == e) with
    | some r => r.m
    | none =>
      if code ≤ 3 ∧ s.get (rqRole e) ≠ 2 ∧ s.get (rqEntered e) < s.get (rqPromptLen e) then
        ((s.nextChunk n e 0 v.slots).map (fun x => beatsOf v x.ctx)).getD 0
      else if s.get (rqGenLen e) = 0 ∧ (s.req e).flights = [] then bound ((s.set (rqGenLen e) 1).boundDecode e)
      else bound (s.boundDecode e)

/-- A word of an entry as it reads. -/
def State.entryWord (s : State) (e w : Nat) : Word :=
  if w = 22 then setBits (s.rd (REQ_TABLE e 22)) 0 8 (((s.sliceOwner e).map (fun n => s.nextSpan n e)).getD 0)
  else s.rd (REQ_TABLE e w)

/-- Plan `cur` formed (R309). A request whose tenant an earlier step of the plan has brought to zero or below is held like those held
from its start (R302). -/
def State.formPlan (s : State) (n cur : Nat) : State × PlanSt :=
  let held := (s.entries n [2, 3, 4]).filter s.noBudget
  let s0 := each (fun e (t : State) => t.holdBudget n e) held s
  let a0 := s0.enterReserved n cur (s0.placeReads n cur {})
  let dec := a0.1.reqOrder (fun e => a0.1.deadline e) (a0.1.entries n [4])
  let hold := fun (a : State × PlanSt) (e : Nat) => if held.contains e then a else (a.1.holdBudget n e, a.2)
  let a1 := dec.foldl (fun (a : State × PlanSt) e => if a.1.noBudget e then hold a e else a.1.planDecode n cur e a.2) a0
  let chk := a1.1.reqOrder (fun e => a1.1.deadline e) (a1.1.entries n [2, 3])
  chk.foldl (fun (a : State × PlanSt) e =>
    if a.1.noBudget e then hold a e
    else if !a.1.adpResident e then a
    else if decide (a.1.get (rqEntered e) < a.1.get (rqPromptLen e)) then a.1.planChunk n cur e a.2
    else a.1.planDecode n cur e a.2) a1

/-- The plan page written (R306, R307, R334): its rows stand there from cycle 768 of the beat on; until then a program reads the plan
of the step before the last. -/
def State.writePlan (s : State) (n cur : Nat) (p : PlanSt) : State :=
  let slots := (s.pagesRec n (s.get (REQ_P_CTL_plan_rec n)))
  if slots.length < 2 then s
  else
    let head := wordsRow [cur, s.tick,
      (2 ^ p.slots.length - 1) + 2 ^ 16 * p.reads.length + 2 ^ 24 * b2n (s.on (PART_NW_CTL_half n))]
    let word := fun j => if j < 16 then ((p.slots[j]?).map (fun x => s.indexWord n x.2)).getD 0
      else ((p.reads[j - 16]?).map (fun x => s.indexWord n x.2)).getD 0
    let rows := [head] ++ (List.range 16).map (fun j => ((p.slots[j]?).map (·.1)).getD 0) ++
      (List.range 16).map (fun j => ((p.reads[j]?).map (·.1)).getD 0) ++
      (List.range 4).map (fun r => wordsRow ((List.range 8).map (fun k => word (8 * r + k))))
    s.onPart n (fun q =>
      { q with planRows := q.planRows ++ ((List.range rows.length).zip rows).map (fun x =>
          (s.cycle + 768, slots.getD (cur % 2) noSlot, x.1, x.2)) })

/-- The plan rows that stand in their pages from the present cycle on. -/
def State.planTick (s : State) (n : Nat) : State :=
  let due := fun (x : Nat × Nat × Nat × Nat) => decide (x.1 ≤ s.cycle)
  each (fun (x : Nat × Nat × Nat × Nat) (t : State) => t.listStore [x.2.1] x.2.2.1 x.2.2.2) ((s.part n).planRows.filter due)
    (s.onPart n (fun q => { q with planRows := q.planRows.filter (fun x => !due x) }))

/-- The plan of the step that begins, formed and written; its occupied slots are kept for the watcher (R289). -/
def State.plan (s : State) (n cur : Nat) : State :=
  let s0 := s.onPart n (fun q => { q with resvs := q.resvs.filter (fun r => decide (cur ≤ r.step)) })
  let a := if s.planEnabled n && !s.draining n then s0.formPlan n cur else (s0, {})
  let occ := 2 ^ a.2.slots.length - 1
  (a.1.writePlan n cur a.2).onPart n (fun q => { q with
    plans := (cur, occ) :: q.plans.take 256 })

/-! ## Token records (R312 to R316) -/

def recTag (w : DWord) : Nat := bits w 48 16
def recStop (w : DWord) : Bool := w.getLsbD 40
def recDraft (w : DWord) : Bool := w.getLsbD 39
def recEmit (w : DWord) : Bool := w.getLsbD 38
def recK (w : DWord) : Nat := bits w 34 4
def recReq (w : DWord) : Nat := bits w 17 17
def recToken (w : DWord) : Nat := bits w 0 17

/-- `k` of a record within its step: the final position of a chunk stands for 0 (R315). -/
def Flight.k (f : Flight) (w : DWord) : Nat := if recDraft w then recK w else if recK w = f.k0 then 0 else recK w + 16 * b2n f.chunk

/-- Records without second ones of the same step, `k` and draft value; the number of those (R314). -/
def dedup (l : List DWord) : List DWord × Nat :=
  l.foldl (fun (a : List DWord × Nat) w =>
    if a.1.any (fun x => recReq x == recReq w && recTag x == recTag w && recK x == recK w && recDraft x == recDraft w) then
      (a.1, a.2 + 1)
    else (a.1 ++ [w], a.2)) ([], 0)

/-- Records of a state that has steps in flight and accepts or drops them (R314). -/
def State.recordFlight (s : State) (n : Nat) (w : DWord) : Option Flight :=
  if s.inSlice n (recReq w) then (s.req (recReq w)).flights.find? (fun f => f.step % 65536 == recTag w) else none

/-- A step's place in flight given up. -/
def State.land1 (s : State) (n e : Nat) (f : Flight) : State :=
  let s1 := (s.onReq e (fun q => { q with flights := q.flights.filter (fun x => x.step != f.step) })).set (rqInflight e)
    (s.get (rqInflight e) - 1)
  s1.settleReq n e

/-- The accepted run of a step (R315): leading records with emit, up to a stop record or gen_max. -/
def acceptRun (stopEnds : Bool) : Nat → List DWord → List DWord
  | 0, _ => []
  | _, [] => []
  | room + 1, w :: r =>
    if recEmit w then (if recStop w && stopEnds then [w] else w :: acceptRun stopEnds room r) else []

/-- Draft records in order of `k` up to the first not present: their tokens. -/
def draftRun (l : List DWord) : Nat → Nat → List Nat
  | 0, _ => []
  | fuel + 1, k =>
    match l.find? (fun w => recDraft w && recK w == k) with
    | some w => recToken w :: draftRun l fuel (k + 1)
    | none => []

/-- A step's records accepted at a boundary (R315, R319). The first token that this entry accepts stamps first_tick: for a request
whose KV came from a peer, one after the token shipped with it. -/
def State.acceptStep (s : State) (n e : Nat) (f : Flight) (recs : List DWord) : State :=
  let g := s.get (rqGenLen e)
  let toks := sortBy (fun a b => decide (f.k a < f.k b)) (recs.filter (fun w => !recDraft w))
  let run := acceptRun (s.on (rqStopEnds e)) (s.get (rqGenMax e) - g) toks
  let a := run.length
  let drafts := draftRun recs 15 1
  let late := decide (s.deadline e ≤ s.tick)
  let code := s.get (rqState e)
  let from_ := if code = 5 then s.get (rqPausedFrom e) else code
  let fixed := late || !isLive code
  let ends := !fixed && decide (0 < a) && (run.getLast?.any (fun w => recStop w && s.on (rqStopEnds e)) ||
    decide (s.get (rqGenMax e) ≤ g + a))
  let ship := !fixed && s.get (rqRole e) == 1 && from_ == 3 && decide (0 < a)
  let s1 := (((s.set (rqGenLen e) (g + a)).set (rqAccepted e) a).set (rqDrafts e) drafts.length).setDrafts e
    ((drafts.zip (List.range 15)).foldl (fun v p => v + p.1 * 2 ^ (17 * p.2)) 0)
  let s2 := match run.getLast? with
    | some w => ((if s.reqPair e 16 = 0 then s1.setReqPair e 16 s.tick else s1).setReqPair e 18 s.tick).set (rqToken e) (recToken w)
    | none => s1
  let s3 := if a = 0 then s2 else s2.debit e (bits (s.ten (s.get (rqTenant e)) 3) 16 16 * a)
  let s4 := if late ∧ 0 < a then s3.reqCount n 4 a else s3
  let out := if late && !s.on (rqLatePolicy e) then [] else run
  let s5 := each (fun (x : Nat × DWord) (t : State) =>
    let last := (ends || ship) && x.1 + 1 == a
    let word := recToken x.2 + 2 ^ 17 * e + 2 ^ 34 * recK x.2 + 2 ^ 40 * b2n (recStop x.2) + 2 ^ 41 * b2n late + 2 ^ 42 * b2n last
    (t.deliver n ⟨s.get (rqWindow e), word, s.get (rqHostTag e), s.stamp⟩).reqCount n 3 1)
    ((List.range out.length).zip out) s4
  let s6 := s5.land1 n e f
  if ship then (if code = 5 then s6.set (rqPausedFrom e) 6 else s6.set (rqState e) 6)
  else if ends then s6.leave n e 8 (if run.getLast?.any (fun w => recStop w && s.on (rqStopEnds e)) then 11 else 12)
  else if !fixed && from_ == 3 && decide (0 < a) then
    (if code = 5 then s6.set (rqPausedFrom e) 4 else s6.set (rqState e) 4)
  else s6

/-- One step in flight of a request meets a released beat: `over` where the beat ran its last output (R315, R316). -/
def State.releaseStep (s : State) (n e : Nat) (f : Flight) (recs : List DWord) (ovr : Bool) : State :=
  let code := s.get (rqState e)
  let has0 := recs.any (fun w => !recDraft w && f.k w == 0)
  if code = 10 ∨ code = 11 then (if ovr ∨ has0 then s.land1 n e f else s)
  else if has0 then s.acceptStep n e f recs
  else if !ovr then s
  else if f.yields then
    let s1 := (s.reqCount n 6 1).leave n e 11 7
    s1.land1 n e f
  else s.land1 n e f

/-- Steps whose output a beat ran: requests with a step in flight, in ascending index, with the step (R289). -/
def State.dueSteps (s : State) (n step : Nat) : List (Nat × Flight) :=
  s.reqs.flatMap (fun q =>
    if s.inSlice n q.1 then (q.2.flights.filter (fun f => f.step + s.depth n == step + 1)).map (fun f => (q.1, f)) else [])

/-- The gate's released records of a beat (R296 event 1): strays dropped and counted, the others taken step by step. -/
def State.releaseBeat (s : State) (n : Nat) (b : BeatRec) : State :=
  let d := dedup (b.gate.map (·.word))
  let good := d.1.filter (fun w => (s.recordFlight n w).isSome)
  let stray := d.2 + (d.1.length - good.length) +
    (good.filter (fun w => s.get (rqState (recReq w)) == 11)).length
  let s1 := if stray = 0 then s else s.bump REQ_STRAY_records stray
  let ovr := !b.half || b.second
  let due := s.dueSteps n b.step
  let named := good.foldl (fun (l : List (Nat × Flight)) w =>
    match s.recordFlight n w with
    | some f => if (due ++ l).any (fun x => x.1 == recReq w && x.2.step == f.step) then l else l ++ [(recReq w, f)]
    | none => l) []
  let step := fun (o : Bool) (x : Nat × Flight) (t : State) =>
    t.releaseStep n x.1 x.2 (good.filter (fun w => recReq w == x.1 && recTag w == x.2.step % 65536)) o
  each (step false) named (each (step ovr) due s1)

/-- Terminal requests whose steps were withdrawn for good settle at the planning boundary of step s + D + 1 (R314). -/
def State.settleLost (s : State) (n cur : Nat) : State :=
  each (fun e (t : State) =>
    match (t.req e).flights.getLast? with
    | some f =>
      if f.step + t.depth n + 1 ≤ cur then
        (((t.onReq e (fun q => { q with flights := [] })).set (rqInflight e) 0).settleReq n e)
      else t
    | none => t) (s.entries n [8, 9, 10, 11]) s

/-! ## Expiry and tenants (R319, R295) -/

def State.expire (s : State) (n : Nat) : State :=
  each (fun e (t : State) => if t.deadline e ≤ t.tick then (t.leave n e 9 10).reqCount n 2 1 else t)
    (s.entries n [1, 2, 3, 4, 5, 7]) s

def State.tenantCheck (s : State) (n : Nat) : State :=
  each (fun e (t : State) => if t.tenNames (t.get (rqTenant e)) n then t else t.leave n e 10 4) (s.entries n liveCodes) s

/-! ## Counters of R327 -/

def State.reqWindow (s : State) (n : Nat) : State :=
  each (fun i (t : State) =>
    (t.set (REQ_P_CNT_LAST_count n i) (t.get (REQ_P_CNT_count n i))).set (REQ_P_CNT_count n i) 0) (List.range 8) s

/-- Window 0 begins: the counters start from zero (R56, R57). -/
def State.reqRestart (s : State) (n : Nat) : State :=
  each (fun i (t : State) => t.set (REQ_P_CNT_count n i) 0) (List.range 8) s

/-! ## Meanings -/

def execReqSubmit (acc e : Nat) (s : State) : Host.Outcome State Fault Refusal :=
  .next (if acc < accessors ∧ e < 131072 then s.writeAt REQ_CMD fun s => s.reqRun acc 1 e else s)
def execReqCancel (acc e : Nat) (s : State) : Host.Outcome State Fault Refusal :=
  .next (if acc < accessors ∧ e < 131072 then s.writeAt REQ_CMD fun s => s.reqRun acc 2 e else s)
def execReqPause (acc e : Nat) (s : State) : Host.Outcome State Fault Refusal :=
  .next (if acc < accessors ∧ e < 131072 then s.writeAt REQ_CMD fun s => s.reqRun acc 3 e else s)
def execReqResume (acc e : Nat) (s : State) : Host.Outcome State Fault Refusal :=
  .next (if acc < accessors ∧ e < 131072 then s.writeAt REQ_CMD fun s => s.reqRun acc 4 e else s)
def execReqRelease (acc e : Nat) (s : State) : Host.Outcome State Fault Refusal :=
  .next (if acc < accessors ∧ e < 131072 then s.writeAt REQ_CMD fun s => s.reqRun acc 5 e else s)
def execReqDeadline (acc e : Nat) (s : State) : Host.Outcome State Fault Refusal :=
  .next (if acc < accessors ∧ e < 131072 then s.writeAt REQ_CMD fun s => s.reqRun acc 6 e else s)
def execTenantSwapRequest (n : Nat) (s : State) : Host.Outcome State Fault Refusal :=
  .next (if n < 64 then s.writeAt (REQ_P_TEN n) fun s => (s.askFor (REQ_P_TEN_swap n)).tenantSwapRequest n else s)

end Sys2Proof.Machine
end

