-- ==== Sys2Proof/Machine/Weights.lean ====
section
/-!
DEFINITION. Weights (12_weights): home copies, fetching a copy from a host package or from peers, holders, filling the
cores, weight jobs, the swap wave and drain and reload. The adapters of R374 to R377 are in Adapters.lean.
-/

namespace Sys2Proof.Machine

/-! ## Home copies (R358, R359) -/

def homeReset : Home :=
  { model := 0, epoch := 0, rows := 0, head := noSlot, owner := 0, shared := false, damaged := false, complete := false }

def State.home (s : State) (k : Nat) : Home := lookupD homeReset s.homes k

def State.onHome (s : State) (k : Nat) (f : Home → Home) : State := { s with homes := put s.homes k (f (s.home k)) }

def State.homeSlots (s : State) (k : Nat) : List Nat := s.listFrom noSlot (s.home k).head

/-- A resident copy that a partition may use (R359). -/
def State.resident (s : State) (n model epoch rows : Nat) (shared : Bool) : Option Nat :=
  (s.homes.find? (fun h => h.2.complete && !h.2.damaged && h.2.model == model && h.2.epoch == epoch && h.2.rows == rows &&
    ((h.2.shared && shared) || h.2.owner == n))).map (·.1)

def State.usableBays (s : State) : List Nat := (List.range 18).filter s.bayUsable

/-- Pages of a new list one after another: page `k` in `bays k`; the head, or none with everything freed again. -/
def State.allocList (s : State) (arg : AllocArg) (bays : Nat → Nat) : Nat → Nat → Nat → Nat → Option (Nat × State)
  | 0, _, head, _ => some (head, s)
  | left + 1, k, head, last =>
    let r := s.alloc { arg with bay := bays k, pred := last }
    if r.2.status = 0 then
      r.1.allocList arg bays left (k + 1) (if head = noSlot then r.2.slot else head) r.2.slot
    else none

/-- A home copy under construction: its pages as R220 places them. -/
def State.newHome (s : State) (n model epoch rows : Nat) (shared : Bool) : Option (Nat × State) :=
  let us := s.usableBays
  match s.allocList ⟨0, n, true, shared, true, false, noSlot⟩ (fun k => us.getD (k % us.length) 31)
      (ceilDiv rows 32768) 0 noSlot noSlot with
  | none => none
  | some (head, t) =>
    let key := (t.homes.map (·.1)).foldl max 0 + 1
    some (key, { t with homes := put t.homes key ⟨model, epoch, rows, head, n, shared, false, false⟩ })

/-- Partitions whose layout names a copy, ascending. -/
def State.namers (s : State) (k : Nat) : List Nat :=
  (s.parts.filter (fun q => q.2.layout.any (fun l => l.home == some k))).map (·.1)

def State.heldByJob (s : State) (k : Nat) : Bool :=
  s.parts.any (fun q => q.2.staged == some k || q.2.wgt.any (fun w => w.home == k)) ||
    s.job.any (fun j => j.newHome == some k || j.layout.any (fun l => l.home == some k)) ||
    s.serving.any (fun v => v.home == k)

/-- The pages of a list change owner, with their charge (R386). -/
def State.giveList (s : State) (slots : List Nat) (from_ to_ : Nat) : State :=
  let s1 := each (fun i (t : State) =>
    let g := slotPage (t.slot i)
    t.onBay (g / pagesPerBay) (fun y => y.setOwn (g % pagesPerBay) (setBits (y.own (g % pagesPerBay)) 0 6 to_))) slots s
  (s1.set (PART_RES_USED_pages from_) (s1.get (PART_RES_USED_pages from_) - slots.length)).set (PART_RES_USED_pages to_)
    (s1.get (PART_RES_USED_pages to_) + slots.length)

/-- A copy whose owner no longer names it passes to the lowest partition that does, or is freed (R359). -/
def State.settleHome (s : State) (k : Nat) : State :=
  let h := s.home k
  match s.namers k with
  | [] =>
    if s.heldByJob k ∨ (lookup? s.homes k).isNone then s
    else { (s.freeList h.head) with homes := del s.homes k }
  | a :: r =>
    if (a :: r).contains h.owner then s
    else (s.giveList (s.homeSlots k) h.owner a).onHome k (fun h => { h with owner := a })

/-! ## Writing the cores (R368, R369) -/

/-- The weight ranges of a logical id. -/
def coreRanges (w : Wman) (l : Nat) : List WRange :=
  (w.entries.filter (fun e => e.logical == l)).map
    (fun e => ⟨e.first, e.rows, if w.shadowed then e.shadow else e.first, e.home, false⟩)

/-- A row written by the loader, with fresh check bytes (R156). -/
def Core.setPadRow (c : Core) (row : Nat) (d : Row) : Core :=
  { c with pad := padSetRow c.pad row d, marks := del c.marks row }

def WRange.base (r : WRange) (standby : Bool) : Nat := if r.flipped = standby then r.first else r.shadow

/-- The live ranges of a core written from a home copy by the loader, whose reads count against no budget (R256, R368). -/
def State.fillLive (s : State) (p k : Nat) : State :=
  let slots := s.homeSlots k
  let s1 := each (fun (r : WRange) (t : State) => t.listRead .uncharged slots r.home r.rows) (s.core p).ranges s
  s1.onCore p (fun c =>
    c.ranges.foldl (fun c r =>
      (List.range r.rows).foldl (fun c x => c.setPadRow (r.base false + x) (s.listRow slots (r.home + x))) c) c)

/-- A home row that some weight range of a core uses reads uncorrectable (R367). -/
def State.homeBad (s : State) (rs : List WRange) (k : Nat) : Bool :=
  let slots := s.homeSlots k
  rs.any (fun r => s.listBad slots (64 * r.home) (64 * r.rows))

/-- The rows of a core's standby ranges, each with its row of the home copy. -/
def Core.standbyRows (c : Core) : List (Nat × Nat) :=
  c.ranges.flatMap (fun r => (List.range r.rows).map (fun x => (r.base true + x, r.home + x)))

/-- The intake engines fill the standby ranges of a core from a home copy: its rows come through the cluster's intake port, four in a
cycle, in class 2, and land like any row of a privileged writer (R155, R156, R368, R369). -/
def State.fillStandby (s : State) (n p k : Nat) : State :=
  let slots := s.homeSlots k
  let rows := (s.core p).standbyRows
  let s1 := each (fun (r : WRange) (t : State) => t.listRead .bulk slots r.home r.rows) (s.core p).ranges s
  let packets := ((List.range rows.length).zip rows).map (fun x =>
    ({ cls := 2, kind := .write, part := n, source := 0x3FFF, node := nodeOf p, core := p, page := 0, row := x.2.1, counter := 0
       tag := 0, rows := 0, total := 1, writer := .intake, data := s.listRow slots x.2.2, due := s.cycle + 1 + x.1 / 4
       fails := 0 } : Packet))
  let tagged : Core → Core := fun c =>
    if rows = [] then { c with standby := some (s.home k).epoch } else { c with fill := some ((s.home k).epoch, rows.length) }
  { s1 with net := s1.net ++ packets }.onCore p tagged

/-- A fill that runs is given up: its rows still on their way come no more. -/
def State.stopFill (s : State) (n : Nat) : State :=
  each (fun p (t : State) => t.onCore p (fun c =>
      { c with fill := none, landing := c.landing.filter (fun l => l.writer != .intake) })) (s.members n)
    { s with net := s.net.filter (fun k => !(k.writer == .intake && k.part == n)) }

/-- Cores that hold the placed logical ids of a partition's layout. -/
def State.placedCores (s : State) (n : Nat) : List Nat := s.members n

/-- Placed cores of a stage. -/
def State.stageCores (s : State) (n st : Nat) : List Nat :=
  (s.members n).filter (fun p => lookupD 999 (s.part n).stageOf ((s.logicalOf n p).getD 0x3FFF) == st)

/-! ## End of a job (R378, R379) -/

/-- A job whose go is written once more in the cycle in which it ends starts again, with the next tick (R10). -/
def State.jobAgain (s : State) (go : FieldRef) (f : Word → Nat × Nat) : State :=
  match s.askedWord go with
  | some w => { s with fw := { s.fw with jobs := s.fw.jobs ++ [f w] } }
  | none => s

/-- A weight job ends with a result; event source 3 of the partition. -/
def State.endWgt (s : State) (n result state : Nat) : State :=
  let s1 := (((s.set (PART_WGT_STAT_state n) state).set (PART_WGT_STAT_result n) result).done (PART_WGT_CTL_go n)).jobAgain
    (PART_WGT_CTL_go n) (fun w => (16 + bits w 26 3, n))
  (s1.onPart n (fun q => { q with wgt := none })).partEvt n 3

/-- The staged copy freed, tags cleared, no selector changed (R372). -/
def State.discard (s : State) (n : Nat) : State :=
  let k := match (s.part n).staged with
    | some k => some k
    | none => (s.part n).wgt.bind (fun w => if w.op = 1 then some w.home else none)
  let s1 := each (fun p (t : State) => t.onCore p (fun c => { c with standby := none })) (s.placedCores n) (s.stopFill n)
  let s2 := (s1.onPart n (fun q => { q with staged := none, wgt := none, wave := none })).setOn (PART_WGT_STAT_home_ready n) false
  match k with
  | some k => s2.settleHome k
  | none => s2

/-- A weight job fails: what it built is freed; a LOAD ends with 0x0041 (R253). -/
def State.failWgt (s : State) (n result : Nat) : State :=
  match (s.part n).wgt with
  | none => s
  | some w =>
    if w.op = 0 then
      let s1 := (s.onPart n (fun q => { q with wgt := none })).set (PART_WGT_STAT_state n) 0
      { s1 with job := s1.job.map (fun j => { j with code := 0x41, section_ := 0xFF, record := 0 }) }
    else if w.op = 1 then
      let s1 := (s.stopFill n).onPart n (fun q => { q with wgt := none, staged := none })
      (s1.settleHome w.home).endWgt n result 0
    else s.endWgt n result 0

/-- The copy that a job fetched is complete: a LOAD goes on, a STAGE fills the standby ranges, a home-only STAGE and a
REPAIR wait for WGT_HOME_READY. -/
def State.fetched (s : State) (n : Nat) : State :=
  match (s.part n).wgt with
  | none => s
  | some w =>
    let s1 := s.onHome w.home (fun h => { h with complete := true })
    if w.op = 0 then (s1.onPart n (fun q => { q with wgt := none })).set (PART_WGT_STAT_state n) 0
    else if w.op = 1 ∧ !w.homeOnly then
      let s2 := (s1.onPart n (fun q => { q with wgt := some { w with ready := true }, staged := some w.home })).set
        (PART_WGT_STAT_state n) 2
      each (fun p (t : State) => t.fillStandby n p w.home) (s2.placedCores n) s2
    else s1.onPart n (fun q => { q with
      wgt := some { w with ready := true }, staged := if w.op = 1 then some w.home else q.staged })

/-! ## Fetching from the host (R360 to R365) -/

/-- The package of a partition's PART_WGT_SRC. -/
def State.hostPackage (s : State) (n : Nat) : Option Package :=
  s.package (s.listFrom noSlot (s.get (PART_WGT_SRC_slot n)))

/-- The groups of a package checked and rebuilt in turn: the group that cannot be, or the state to read the blocks from
and the shards rebuilt. -/
def State.hostGroups (s : State) (slots : List Nat) (p : Package) : Except Nat (State × Nat) :=
  (List.range p.groups).foldl (fun (acc : Except Nat (State × Nat)) g =>
    match acc with
    | .error e => .error e
    | .ok (t, k) =>
      let lost := t.lostShards slots p g
      if groupFails lost then .error g
      else
        let d := (lost.filter (fun j => decide (j < 16))).length
        .ok (if d = 0 then t else t.rebuildGroup slots p g lost, k + d)) (.ok (s, 0))

/-- The intake of a host package into the copy that the job builds. -/
def State.hostFetch (s : State) (n : Nat) : State :=
  match (s.part n).wgt with
  | none => s
  | some w =>
    let slots := s.listFrom noSlot (s.get (PART_WGT_SRC_slot n))
    match s.package slots with
    | none => s.failWgt n 4
    | some p =>
      match s.hostGroups slots p with
      | .error g =>
        (((s.set (PART_WGT_STAT_state n) 7).set (PART_WGT_STAT_group n) g).onPart n
          (fun q => { q with wgt := some { w with group := g } })).partEvt n 3
      | .ok (t, rebuilt) =>
        match t.intake slots (s.homeSlots w.home) p with
        | .error b => ((s.set (PART_WGT_STAT_group n) b).failWgt n 5)
        | .ok (u, bad) =>
          -- only the copy's own pages keep what intake wrote; the staged package stands as staged
          let read := each (fun g (x : State) =>
            each (fun k (y : State) => y.listReadBytes .bulk slots (p.shard g k).1 (p.shard g k).2) (List.range 18) x)
            (List.range p.groups) s
          let v := each (fun r (x : State) => x.listPutRow .uncharged (s.homeSlots w.home) r (u.listRow (s.homeSlots w.home) r))
            (List.range p.rows) read
          ((((v.bump (PART_WGT_REBUILT_count n) rebuilt).bump (PART_WGT_BAD_count n) bad).bump (PART_WGT_ROWS_rows n)
            p.rows).set (PART_WGT_STAT_state n) 1).fetched n

/-! ## Fetching from peers (R365, R366) -/

/-- Pages, data shards and groups of a copy. -/
def homePages (rows : Nat) : Nat := ceilDiv rows 32768
def homeGroups (rows : Nat) : Nat := ceilDiv (homePages rows) 128

/-- Rows of shard `k` of group `g` of a copy of `pages` pages; a parity shard is as long as the longest data shard. -/
def shardRows (pages g k : Nat) : Nat :=
  let first := 8 * (16 * g + (if k < 16 then k else 0))
  32768 * min 8 (pages - first)

/-- The 32-byte head of a weight message (R366), its CRC over head and payload. -/
def wgtHead (type source job model group epoch shard offset : Nat) (payload : List Byte) : List Byte :=
  let h := bytesOf 1 type ++ bytesOf 1 1 ++ bytesOf 2 source ++ bytesOf 4 job ++ bytesOf 2 model ++ bytesOf 2 group ++
    bytesOf 4 epoch ++ bytesOf 1 shard ++ bytesOf 3 0 ++ bytesOf 4 offset ++ bytesOf 4 0
  h ++ bytesOf 4 (crc32c (h ++ bytesOf 4 0 ++ payload)) ++ payload

/-- A message whose CRC holds. -/
def headOk (m : List Byte) : Bool :=
  ofBytes ((m.drop 0x1C).take 4) == crc32c (m.take 0x1C ++ bytesOf 4 0 ++ m.drop 0x20)

/-- The next valid peer entry from `k` on, wrapping round. -/
def State.nextPeer (s : State) (n k : Nat) : Option Nat :=
  ((List.range 4).map (fun i => (k + i) % 4)).find? (fun i => s.on (PART_WGT_PEER_valid n i))

/-- A WREQ for the job's group to its peer; a peer with connections of version 1 only counts as a refusal (R435), one without a
connection does not answer. -/
def State.askPeer (s : State) (n : Nat) : Nat → State
  | 0 => s.failWgt n 6
  | fuel + 1 =>
    match (s.part n).wgt with
    | none => s
    | some w =>
      match s.nextPeer n w.peer with
      | none => (s.set (PART_WGT_STAT_group n) w.group).failWgt n 6
      | some i =>
        let h := s.home w.home
        let m := wgtHead 1 s.ownAddr n h.model w.group h.epoch 0 0 []
        let peer := s.get (PART_WGT_PEER_module n i)
        let s1 := (s.sendTo peer 13 0 0 m).1.onPart n (fun q => { q with wgt := some { w with peer := i, got := [], par := [], since := s.tick } })
        if !s.tooOld peer 13 then s1
        else if s.get (PART_WGT_CTL_retries n) ≤ w.tries + 1 then (s1.set (PART_WGT_STAT_group n) w.group).failWgt n 6
        else ((s1.onPart n (fun q => { q with wgt := some { w with peer := i + 1, tries := w.tries + 1 } })).bump
          (PART_WGT_REREQ_count n) 1).askPeer n fuel

/-- A request of a group has failed: the next peer is asked, or the job fails with result 6 (R365). -/
def State.reRequest (s : State) (n : Nat) : State :=
  match (s.part n).wgt with
  | none => s
  | some w =>
    if s.get (PART_WGT_CTL_retries n) ≤ w.tries + 1 then (s.set (PART_WGT_STAT_group n) w.group).failWgt n 6
    else ((s.onPart n (fun q => { q with wgt := some { w with peer := w.peer + 1, tries := w.tries + 1 } })).bump
      (PART_WGT_REREQ_count n) 1).askPeer n 16

/-- A shard is lost: some of its 128-row units have not come. -/
def unitsLost (w : WgtJob) (pages k : Nat) : Bool :=
  (List.range (ceilDiv (shardRows pages w.group k) 128)).any (fun u => !w.got.contains (2048 * k + u))

/-- Rows of shard `k` of the job's group as they stand. -/
def State.fetchRow (s : State) (w : WgtJob) (pages : Nat) (slots : List Nat) (r k : Nat) : Row :=
  if shardRows pages w.group k ≤ r then 0
  else if k < 16 then s.listRow slots (262144 * (16 * w.group + k) + r)
  else lookupD 0 w.par (262144 * (k - 16) + r)

/-- The data shards of a group read, but for those lost. -/
def State.groupRead (s : State) (slots : List Nat) (pages g : Nat) (lost : List Nat) : State :=
  each (fun k (t : State) =>
    if lost.contains k then t else t.listRead .bulk slots (262144 * (16 * g + k)) (shardRows pages g k)) (List.range 16) s

/-- The group's messages have ended: it is rebuilt, or requested again; after the last group the copy is complete. -/
def State.evalGroup (s : State) (n : Nat) : State :=
  match (s.part n).wgt with
  | none => s
  | some w =>
    let pages := homePages (s.home w.home).rows
    let slots := s.homeSlots w.home
    let lost := (List.range 18).filter (unitsLost w pages)
    let offsets := (List.range 16).any (fun k =>
      lost.contains k && decide (2 < (lost.filter (fun j => decide (0 < shardRows pages w.group j))).length))
    if offsets then s.reRequest n
    else
      let data := lost.filter (fun k => decide (k < 16))
      let s1 := each (fun k (t : State) =>
        each (fun r (u : State) =>
          u.listPutRow .uncharged slots (262144 * (16 * w.group + k) + r)
            (rebuildRow (fun j => if lost.contains j then 0 else s.fetchRow w pages slots r j) lost k))
          (List.range (shardRows pages w.group k)) t) data
        (if data = [] then s else s.groupRead slots pages w.group lost)
      let s2 := s1.bump (PART_WGT_REBUILT_count n) data.length
      match w.left with
      | [] => s2.fetched n
      | g :: rest =>
        (s2.onPart n (fun q => { q with wgt := some { w with group := g, left := rest, tries := 0 } })).askPeer n 16

/-- The job of the message's job number that fetches its model, epoch and group from peers. -/
def State.jobOf (s : State) (m : List Byte) : Option (Nat × WgtJob) :=
  let n := msgNum m 4 4
  match (s.part n).wgt with
  | none => none
  | some w =>
    let h := s.home w.home
    if w.source = 2 ∧ !w.ready ∧ h.model = msgNum m 8 2 ∧ h.epoch = msgNum m 0x0C 4 ∧ w.group = msgNum m 0x0A 2 then
      some (n, w)
    else none

/-- The received weight message `k` of a type whose CRC holds. -/
def State.wgtMsg (s : State) (k type : Nat) : Option (Rx × List Byte) :=
  match s.rxFrame k 13 with
  | none => none
  | some r => if msgNum r.frame.payload 0 1 = type then some (r, r.frame.payload) else none

/-- WDATA_RECEIVE: 128 rows of a shard; a message whose CRC fails is as if it had not come. -/
def State.wdata (s : State) (k : Nat) : State :=
  match s.wgtMsg k 2 with
  | none => s
  | some (_, m) =>
    let s1 := s.rxDone k
    match s1.jobOf m with
    | none => s1
    | some (n, w) =>
      if !headOk m then s1
      else
        let shard := msgNum m 0x10 1
        let off := msgNum m 0x14 4
        let slots := s1.homeSlots w.home
        let rows := shardRows (homePages (s1.home w.home).rows) w.group shard
        let js := (List.range 128).filter (fun j => decide (off + j < rows))
        let w1 := { w with since := s.tick, got := (2048 * shard + off / 128) :: w.got }
        let s2 :=
          if shard < 16 then
            (each (fun j (t : State) => t.listPutRow .uncharged slots (262144 * (16 * w.group + shard) + off + j)
              (byteRow (m.drop 32) j)) js s1).onPart n (fun q => { q with wgt := some w1 })
          else s1.onPart n (fun q => { q with
            wgt := some { w1 with
              par := js.foldl (fun p j => put p (262144 * (shard - 16) + off + j) (byteRow (m.drop 32) j)) w.par } })
        if shard < 16 then s2.bump (PART_WGT_ROWS_rows n) js.length else s2

/-- WEND_RECEIVE. -/
def State.wend (s : State) (k : Nat) : State :=
  match s.wgtMsg k 3 with
  | none => s
  | some (_, m) =>
    let s1 := s.rxDone k
    match s1.jobOf m with
    | some (n, _) => if headOk m then s1.evalGroup n else s1
    | none => s1

/-- WREFUSE_RECEIVE. -/
def State.wrefuse (s : State) (k : Nat) : State :=
  match s.wgtMsg k 4 with
  | none => s
  | some (_, m) =>
    let s1 := s.rxDone k
    match s1.jobOf m with
    | some (n, _) => if headOk m then s1.reRequest n else s1
    | none => s1

/-- WGT_GROUP_WAIT_EXPIRE: PART_WGT_WAIT ticks after the group's last message the group is evaluated. -/
def State.wgtWait (s : State) (n : Nat) : State :=
  match (s.part n).wgt with
  | none => s
  | some w =>
    if w.source = 2 ∧ !w.ready ∧ w.since + s.get (PART_WGT_WAIT_ticks n) ≤ s.tick then s.evalGroup n else s

/-! ## Holders (R366) -/

/-- A row of 128 of shard `k` of a copy's group reads uncorrectable (R366). -/
def State.unitBad (s : State) (slots : List Nat) (g k u : Nat) : Bool :=
  decide (k < 16) && s.listBad slots (64 * (262144 * (16 * g + k) + 128 * u)) (64 * 128)

/-- A CRC that does not hold: which other number the field has is open. -/
def State.wrongCrc (s : State) (m : List Byte) : List Byte × State :=
  let d := s.draw
  let crc := (ofBytes ((m.drop 0x1C).take 4) + 1 + d.1 % (2 ^ 32 - 1)) % 2 ^ 32
  (m.take 0x1C ++ bytesOf 4 crc ++ m.drop 0x20, d.2)

/-- The messages of a group: every present row of its data shards, then its parity shards. A message with an uncorrectable row
carries it as stored, and its CRC does not hold for the requester (R366). -/
def State.serveData (s : State) (v : Serving) : State :=
  let pages := homePages (s.home v.home).rows
  let slots := s.homeSlots v.home
  let row := fun r k => if shardRows pages v.group k ≤ r then (0 : Row) else s.listRow slots (262144 * (16 * v.group + k) + r)
  let s1 := each (fun k (t : State) =>
    each (fun u (x : State) =>
      let rows := (List.range 128).map (fun j =>
        if k < 16 then row (128 * u + j) k else parityRow (k == 17) (row (128 * u + j)))
      let pay := rows.flatMap (fun d => bytesOf 64 d.toNat)
      let m := wgtHead 2 s.ownAddr v.job v.model v.group v.epoch k (128 * u) pay
      let y := if s.unitBad slots v.group k u then x.wrongCrc m else (m, x)
      (y.2.sendTo v.module 13 0 0 y.1).1)
      (List.range (shardRows pages v.group k / 128)) t) (List.range 18) (s.groupRead slots pages v.group [])
  if s.listBad slots (64 * 262144 * 16 * v.group) (64 * 262144 * 16) then
    each (fun n (t : State) => t.setOn (PART_WGT_STAT_damaged n) true) (s1.namers v.home)
      (s1.onHome v.home (fun h => { h with damaged := true }))
  else s1

/-- The copy that answers a request for a model and an epoch: complete, not damaged, its owner's shipping enabled (R366). -/
def State.served (s : State) (model epoch : Nat) : Option Nat :=
  (s.homes.find? (fun h => h.2.complete && !h.2.damaged && h.2.model == model && h.2.epoch == epoch &&
    s.on (PART_SHIP_CTL_enable h.2.owner))).map (·.1)

def State.wrefusal (s : State) (v : Serving) : State :=
  (s.sendTo v.module 13 0 0 (wgtHead 4 s.ownAddr v.job v.model v.group v.epoch 0 0 [])).1

/-- The requests that wait, in arrival order: the first that a copy still answers is served, those before it are refused. -/
def State.serveNext (s : State) : List Serving → State
  | [] => { s with wreqs := [] }
  | v :: rest =>
    match s.served v.model v.epoch with
    | some k => { s with serving := s.serving ++ [{ v with home := k }], wreqs := rest }.serveData { v with home := k }
    | none => (s.wrefusal v).serveNext rest

/-- WREQ_RECEIVE: served at once, put behind the four being served, or refused. -/
def State.wreq (s : State) (k : Nat) : State :=
  match s.wgtMsg k 1 with
  | none => s
  | some (r, m) =>
    let s1 := s.rxDone k
    if !headOk m then s1
    else
      let model := msgNum m 8 2
      let epoch := msgNum m 0x0C 4
      let job := msgNum m 4 4
      let group := msgNum m 0x0A 2
      let v : Serving := ⟨r.frame.source, job, model, epoch, group, 0⟩
      match s1.served model epoch with
      | none => s1.wrefusal v
      | some h =>
        if s1.serving.length < 4 then
          { s1 with serving := s1.serving ++ [{ v with home := h }] }.serveData { v with home := h }
        else { s1 with wreqs := s1.wreqs ++ [{ v with home := h }] }

/-- WREQ_SERVE_DONE: WEND ends the group, and the next waiting request starts. -/
def State.wreqDone (s : State) (k : Nat) : State :=
  match s.serving[k]? with
  | none => s
  | some v =>
    let s0 := ({ s with serving := eraseAt s.serving k }.sendTo v.module 13 0 0
      (wgtHead 3 s.ownAddr v.job v.model v.group v.epoch 0 0 [])).1
    let s1 := s0.settleHome v.home
    s1.serveNext s1.wreqs

/-- WABORT_RECEIVE: the transfer of the sender's job ends: one being served, or one being fetched from it. -/
def State.wabort (s : State) (k : Nat) : State :=
  match s.wgtMsg k 5 with
  | none => s
  | some (r, m) =>
    let s1 := s.rxDone k
    if !headOk m then s1
    else
      let mine := fun (v : Serving) => v.module == r.frame.source && v.job == msgNum m 4 4
      let s2 := { s1 with serving := s1.serving.filter (fun v => !mine v), wreqs := s1.wreqs.filter (fun v => !mine v) }
      let s3 := each (fun (v : Serving) (t : State) => t.settleHome v.home) (s1.serving.filter mine) s2
      match s3.jobOf m with
      | some (n, w) => if s3.get (PART_WGT_PEER_module n w.peer) = r.frame.source then s3.reRequest n else s3
      | none => s3

/-! ## Jobs (R370 to R373, R378) -/

/-- A fetch starts: from the host's package or from the peers; a job that allows only a resident copy has failed. -/
def State.startFetch (s : State) (n op home source : Nat) (homeOnly : Bool) (groups : List Nat) : State :=
  let w : WgtJob := ⟨op, home, source, homeOnly, groups.headD 0, groups.drop 1, 0, 0, [], [], s.tick, false⟩
  let s1 := ((s.onPart n (fun q => { q with wgt := some w })).set (PART_WGT_STAT_state n) 1).set (PART_WGT_ROWS_rows n) 0
  if source = 1 then s1.hostFetch n
  else if source = 2 then (if groups = [] then s1.fetched n else s1.askPeer n 16)
  else s1.failWgt n 6

def State.wman (s : State) (n : Nat) : Option Wman := (s.part n).layout.bind (·.wman)

/-- A job may start: none runs, and its op is written with go (R378). -/
def State.wgtIdle (s : State) (n : Nat) : Bool :=
  (s.part n).wgt.isNone && !s.on (PART_WGT_CTL_go n) && (s.part n).layout.isSome

/-- STAGE (R370 steps 1 and 2). -/
def State.wgtStage (s : State) (n : Nat) : State :=
  if (s.part n).wgt.isSome || s.on (PART_WGT_CTL_go n) then s
  else
    let s0 := s.setOn (PART_WGT_CTL_go n) true
    match s.wman n with
    | none => s0.endWgt n 1 (s.get (PART_WGT_STAT_state n))
    | some w =>
      let only := s.on (PART_WGT_CTL_home_only n)
      let source := s.get (PART_WGT_CTL_source n)
      if s.get (PART_WGT_STAT_state n) ≠ 0 ∨ s.on (PART_WGT_STAT_home_ready n) ∨ (s.part n).staged.isSome then
        s0.endWgt n 1 (s.get (PART_WGT_STAT_state n))
      else if !only ∧ !w.shadowed then s0.endWgt n 2 0
      else
        let pk := if source = 1 then s.hostPackage n else none
        if source = 1 ∧ pk = none then s0.endWgt n 4 0
        else if pk.any (fun p => p.model != w.model || p.rows != w.rows) then s0.endWgt n 3 0
        else
          let d := s0.draw
          let epoch := match pk with | some p => p.epoch | none => d.1 % 2 ^ 32
          let s1 := (if pk.isSome then s0 else d.2).set (PART_WGT_NEW_epoch n) epoch
          match s1.resident n w.model epoch w.rows w.shared with
          | some k =>
            (((s1.onPart n (fun q => { q with wgt := some ⟨1, k, 0, only, 0, [], 0, 0, [], [], s.tick, false⟩ })).set
              (PART_WGT_STAT_state n) 1).set (PART_WGT_ROWS_rows n) 0).fetched n
          | none =>
            if source = 0 ∨ source = 3 then s1.endWgt n 6 0
            else match s1.newHome n w.model epoch w.rows w.shared with
              | none => s1.endWgt n 7 0
              | some (k, t) => t.startFetch n 1 k source only (List.range (homeGroups w.rows))

/-- A core whose fill has ended without its tag: a row of it was dropped. -/
def Core.unfilled (c : Core) (epoch : Nat) : Bool := c.fill.isNone && c.standby != some epoch

/-- WGT_FILL_COMPLETE: every placed core has its tag, or a row of a fill found no window that admits it (R370 step 3). -/
def State.fillComplete (w : State) (n : Nat) : State :=
  match (w.part n).wgt with
  | none => w
  | some x =>
    if x.op = 1 ∧ x.ready ∧ !x.homeOnly then
      let s := each (fun p (t : State) => t.settle p t.cycle) (w.placedCores n) w
      let epoch := (s.home x.home).epoch
      if (s.placedCores n).all (fun p => (s.core p).standby == some epoch) then s.endWgt n 0 3
      else if (s.placedCores n).any (fun p => (s.core p).unfilled epoch && (s.core p).pend = []) then s.failWgt n 8
      else s
    else w

/-- WGT_HOME_READY: a home-only STAGE sets home_ready; a REPAIR clears damaged. -/
def State.homeReady (s : State) (n : Nat) : State :=
  match (s.part n).wgt with
  | none => s
  | some w =>
    if w.op = 1 ∧ w.ready ∧ w.homeOnly then (s.setOn (PART_WGT_STAT_home_ready n) true).endWgt n 0 0
    else if w.op = 4 ∧ w.ready then
      (each (fun m (t : State) => t.setOn (PART_WGT_STAT_damaged m) false) (s.namers w.home)
        (s.onHome w.home (fun h => { h with damaged := false }))).endWgt n 0 0
    else s

/-- SWAP (R370 step 4): a staged copy waits for its swap beat. -/
def State.wgtSwap (s : State) (n : Nat) : State :=
  if (s.part n).wgt.isSome || s.on (PART_WGT_CTL_go n) then s
  else if s.get (PART_WGT_STAT_state n) = 3 ∧ (s.part n).staged.isSome then
    ((s.setOn (PART_WGT_CTL_go n) true).set (PART_WGT_STAT_state n) 4).onPart n
      (fun q => { q with wave := some ⟨none, (q.layout.map (·.serve.stageIn)).getD 0⟩ })
  else (s.setOn (PART_WGT_CTL_go n) true).endWgt n 1 (s.get (PART_WGT_STAT_state n))

/-- RELOAD (R373): it requires home_ready; planning then drains the partition. -/
def State.wgtReload (s : State) (n : Nat) : State :=
  if (s.part n).wgt.isSome || s.on (PART_WGT_CTL_go n) then s
  else if s.on (PART_WGT_STAT_home_ready n) ∧ (s.part n).staged.isSome then
    (s.setOn (PART_WGT_CTL_go n) true).set (PART_WGT_STAT_state n) 5
  else (s.setOn (PART_WGT_CTL_go n) true).endWgt n 1 (s.get (PART_WGT_STAT_state n))

/-- The layout's copy becomes the staged one; the old copy is freed by R359 (R370 step 6, R373 step 4). -/
def State.adoptHome (s : State) (n : Nat) : State :=
  match (s.part n).staged, (s.part n).layout with
  | some k, some l =>
    let e := (s.home k).epoch
    let s1 := (s.set (PART_WGT_CUR_epoch n) e).onPart n (fun q => { q with
      staged := none, wave := none
      layout := some { l with home := some k, wman := l.wman.map (fun w => { w with epoch := e }) } })
    match l.home with
    | some o => s1.settleHome o
    | none => s1
  | _, _ => s

/-- WGT_RELOAD_COMPLETE (R373 steps 3 and 4), while the partition is held. -/
def State.reloadComplete (s : State) (n : Nat) : State :=
  match (s.part n).staged with
  | none => s
  | some k =>
    if s.get (PART_WGT_STAT_state n) = 6 then
      let s1 := each (fun p (t : State) => t.fillLive p k) (s.placedCores n) s
      (((s1.adoptHome n).setOn (PART_WGT_STAT_home_ready n) false).endWgt n 0 0).holdClear n
    else s

/-- Groups of a copy that hold an uncorrectable row. -/
def State.badGroups (s : State) (k : Nat) : List Nat :=
  (List.range (homeGroups (s.home k).rows)).filter (fun g =>
    s.listBad (s.homeSlots k) (64 * 262144 * 16 * g) (64 * 262144 * 16))

/-- REPAIR (R367). -/
def State.wgtRepair (s : State) (n : Nat) : State :=
  if (s.part n).wgt.isSome || s.on (PART_WGT_CTL_go n) then s
  else
    let s0 := s.setOn (PART_WGT_CTL_go n) true
    match (s.part n).layout.bind (·.home) with
    | none => s0.endWgt n 1 (s.get (PART_WGT_STAT_state n))
    | some k =>
      if s.get (PART_WGT_STAT_state n) ≠ 0 then s0.endWgt n 1 (s.get (PART_WGT_STAT_state n))
      else s0.startFetch n 4 k 2 true (s.badGroups k)

/-- DISCARD (R372). -/
def State.wgtDiscard (s : State) (n : Nat) : State :=
  if (s.part n).wgt.isSome || s.on (PART_WGT_CTL_go n) then s
  else (((s.setOn (PART_WGT_CTL_go n) true).discard n).endWgt n 0 0)

/-- Abort: the job ends with result 9, undone as DISCARD (R378). -/
def State.wgtAbort (s : State) (n : Nat) : State :=
  if (s.part n).wgt.isSome || s.on (PART_WGT_CTL_go n) then
    (match (s.part n).wgt with
     | some w => if w.op = 0 then s.failWgt n 9 else (s.discard n).endWgt n 9 0
     | none =>
       let s1 := (s.discard n).endWgt n 9 0
       if s.get (PART_WGT_STAT_state n) = 6 then s1.holdClear n else s1)
  else s

/-- Resume after the host has staged a group again (R365). -/
def State.wgtResume (s : State) (n : Nat) : State :=
  if s.get (PART_WGT_STAT_state n) = 7 then s.hostFetch n else s

/-! ## The swap wave (R370 step 5, R371) -/

/-- The selectors of every core of a stage toggle; what was live becomes the standby image of its epoch. -/
def State.flipStage (s : State) (n st : Nat) : State :=
  let old := s.get (PART_WGT_CUR_epoch n)
  each (fun p (t : State) => t.onCore p (fun c =>
    { c with
      ranges := c.ranges.map (fun r => { r with flipped := !r.flipped })
      standby := some old })) (s.stageCores n st) s

/-- Every core of a stage holds the tag of the staged epoch. -/
def State.stageTagged (s : State) (n st : Nat) : Bool :=
  match (s.part n).staged with
  | some k => (s.stageCores n st).all (fun p => (s.core p).standby == some (s.home k).epoch)
  | none => false

/-- The cores of the stages from `from_` on whose tags are missing filled again (R371). -/
def State.refillTags (s : State) (n from_ : Nat) : State :=
  match (s.part n).staged with
  | none => s
  | some k =>
    each (fun p (t : State) => if (t.core p).unfilled (s.home k).epoch then t.fillStandby n p k else t)
      ((s.placedCores n).filter (fun p => decide (from_ ≤ lookupD 999 (s.part n).stageOf ((s.logicalOf n p).getD 0x3FFF)))) s

/-- The wave ends after the output stage has flipped. -/
def State.endWave (s : State) (n : Nat) : State := (s.adoptHome n).endWgt n 0 0

/-- What a reset of the partition does to its weight job: a staged one is not over, and a hard reset leaves no copy that only a job
holds (R372, R378, R397). -/
def State.wgtReset (s : State) (n : Nat) (hard : Bool) : State :=
  match (s.part n).wave with
  | some v =>
    if hard ∨ v.step = none then (s.discard n).endWgt n 10 0
    else
      let l := ((s.part n).layout.map (·.serve.stageOut)).getD 0
      (each (fun st (t : State) => if v.stage ≤ st then t.flipStage n st else t) (List.range (l + 1)) s).endWave n
  | none =>
    if (s.part n).wgt.isSome || s.on (PART_WGT_CTL_go n) || s.get (PART_WGT_STAT_state n) != 0 ||
        (hard && (s.part n).staged.isSome) then
      (match (s.part n).wgt with
       | some w => if w.op = 0 then s.failWgt n 10 else (s.discard n).endWgt n 10 0
       | none => (s.discard n).endWgt n 10 0)
    else s

/-- A go of a weight job by its op (R378). -/
def State.wgtGo (s : State) (op n : Nat) : State :=
  match op with
  | 1 => s.wgtStage n
  | 2 => s.wgtSwap n
  | 3 => s.wgtReload n
  | 4 => s.wgtRepair n
  | 5 => s.wgtDiscard n
  | _ =>
    if (s.part n).wgt.isSome || s.on (PART_WGT_CTL_go n) then s
    else (s.setOn (PART_WGT_CTL_go n) true).endWgt n 1 (s.get (PART_WGT_STAT_state n))

/-- A go of a weight job: during a firmware pause it waits for the end of the pause (R535). -/
def State.wgtCmd (s : State) (op n : Nat) : State :=
  if !s.fw.paused then s.wgtGo op n
  else if (s.part n).wgt.isSome || s.on (PART_WGT_CTL_go n) then s
  else { s with fw := { s.fw with jobs := s.fw.jobs ++ [(16 + op, n)] } }.setOn (PART_WGT_CTL_go n) true

/-- A write of PART_WGT_CTL that starts an op (R378). -/
def State.wgtStart (s : State) (op n : Nat) : State := (s.set (PART_WGT_CTL_op n) op).wgtCmd op n

/-- A command that writes PART_WGT_CTL with go and op (R10, R378). -/
def State.wgtWrite (s : State) (op n : Nat) : State :=
  (s.ask (PART_WGT_CTL n) (setBits (setBits (s.rd (PART_WGT_CTL n)) 26 3 op) 31 1 1)).wgtStart op n

/-- What happens to a weight job while it is not suspended by a firmware pause. -/
def State.wgtRuns (s : State) (f : State → State) : State := if s.fw.paused then s else f s

/-! ## Meanings -/

def execWgtStage (n : Nat) (s : State) : Host.Outcome State Fault Refusal :=
  .next (if n < 64 then s.writeAt (PART_WGT_CTL n) fun s => s.wgtWrite 1 n else s)
def execWgtSwap (n : Nat) (s : State) : Host.Outcome State Fault Refusal :=
  .next (if n < 64 then s.writeAt (PART_WGT_CTL n) fun s => s.wgtWrite 2 n else s)
def execWgtReload (n : Nat) (s : State) : Host.Outcome State Fault Refusal :=
  .next (if n < 64 then s.writeAt (PART_WGT_CTL n) fun s => s.wgtWrite 3 n else s)
def execWgtRepair (n : Nat) (s : State) : Host.Outcome State Fault Refusal :=
  .next (if n < 64 then s.writeAt (PART_WGT_CTL n) fun s => s.wgtWrite 4 n else s)
def execWgtDiscard (n : Nat) (s : State) : Host.Outcome State Fault Refusal :=
  .next (if n < 64 then s.writeAt (PART_WGT_CTL n) fun s => s.wgtWrite 5 n else s)
def execWgtAbort (n : Nat) (s : State) : Host.Outcome State Fault Refusal :=
  .next (if n < 64 then s.writeAt (PART_WGT_CTL n) fun s => s.wgtAbort n else s)
def execWgtResume (n : Nat) (s : State) : Host.Outcome State Fault Refusal :=
  .next (if n < 64 then s.writeAt (PART_WGT_CTL n) fun s => s.wgtResume n else s)
def execWgtFillComplete (n : Nat) (s : State) : Host.Outcome State Fault Refusal :=
  .next (if n < 64 then s.wgtRuns (·.fillComplete n) else s)
def execWgtReloadComplete (n : Nat) (s : State) : Host.Outcome State Fault Refusal :=
  .next (if n < 64 then s.wgtRuns (·.reloadComplete n) else s)
def execWgtHomeReady (n : Nat) (s : State) : Host.Outcome State Fault Refusal :=
  .next (if n < 64 then s.wgtRuns (·.homeReady n) else s)
def execWgtGroupWaitExpire (n : Nat) (s : State) : Host.Outcome State Fault Refusal :=
  .next (if n < 64 then s.wgtRuns (·.wgtWait n) else s)
def execWreqReceive (k : Nat) (s : State) : Host.Outcome State Fault Refusal := .next (s.wreq k)
def execWdataReceive (k : Nat) (s : State) : Host.Outcome State Fault Refusal := .next (s.wdata k)
def execWendReceive (k : Nat) (s : State) : Host.Outcome State Fault Refusal := .next (s.wend k)
def execWrefuseReceive (k : Nat) (s : State) : Host.Outcome State Fault Refusal := .next (s.wrefuse k)
def execWabortReceive (k : Nat) (s : State) : Host.Outcome State Fault Refusal := .next (s.wabort k)
def execWreqServeDone (k : Nat) (s : State) : Host.Outcome State Fault Refusal := .next (s.wreqDone k)

end Sys2Proof.Machine
end

