-- ==== Sys2Proof/Machine/Kv.lean ====
section
/-!
DEFINITION. Learned prefixes and split serving (11_kv_prefixes_shipping R337 to R357): the prefix commands, and both
sides of a shipment.
-/

namespace Sys2Proof.Machine

/-! ## Prefix commands (R338, R341, R353) -/

/-- A prefix's page list: closed, every page owned, read-only and pinned (R338). -/
def State.roPinned (s : State) (n head : Nat) : Option (List Nat) :=
  let l := s.listFrom noSlot head
  let ok := l.all (fun i =>
    let v := s.slot i
    let o := (s.bay (slotPage v / pagesPerBay)).own (slotPage v % pagesPerBay)
    v.testBit 1 && o.getLsbD 15 && o.getLsbD 14 && bits o 0 6 == n)
  let closed := match l.getLast? with
    | some i => slotNext (s.slot i) == noSlot
    | none => head == noSlot
  if ok && closed then some l else none

def State.allShared (s : State) (l : List Nat) : Bool :=
  l.all (fun i =>
    let g := slotPage (s.slot i)
    ((s.bay (g / pagesPerBay)).own (g % pagesPerBay)).getLsbD 13)

/-- CREATE: the state, the status and the handle. -/
def State.pfxCreate (s : State) (n head positions key : Nat) : State × Nat × Nat :=
  match (s.part n).layout with
  | none => (s, 6, 0)
  | some lay =>
    if positions = 0 ∨ positions % 64 ≠ 0 ∨ 2 ^ 24 ≤ positions then (s, 3, 0)
    else
      match s.roPinned n head with
      | none => (s, 2, 0)
      | some l =>
        if l.length < ceilDiv (positions * lay.serve.kvRows) 32768 then (s, 2, 0)
        else
          match firstFrom (fun h => (s.pfx h).isNone) 0 1024 with
          | none => (s, 1, 0)
          | some h =>
            let p : Pfx :=
              { owner := n, destroying := false, shared := s.allShared l, model := s.modelOf n
                epoch := (lay.wman.map (·.epoch)).getD 0, positions := positions, head := head, pages := l.length
                key := key, queued := 0, refs := 0 }
            ({ s with pfxs := put s.pfxs h p }, 0, h)

/-- DESTROY. -/
def State.pfxDestroy (s : State) (n h : Nat) : State × Nat × Nat :=
  match s.pfx h with
  | some p =>
    if p.owner = n ∧ !p.destroying then (s.onPfx h (fun p => { p with destroying := true }), 0, h) else (s, 4, h)
  | none => (s, 4, h)

/-- A prefix command with its four arguments (R352). -/
def State.pfxCmd (s : State) (n op : Nat) (a : List Nat) : State × Nat × Nat :=
  match op with
  | 1 => s.pfxCreate n (a.getD 0 0 % 2 ^ 20) (a.getD 1 0 % 2 ^ 24) (a.getD 2 0 + 2 ^ 32 * a.getD 3 0)
  | 2 => s.pfxDestroy n (a.getD 0 0 % 2 ^ 10)
  | _ => (s, 5, 0)

/-- A write of PART_PFX_CMD by an accessor; ignored while the partition's reset is busy (R393). -/
def State.pfxRun (s : State) (acc n op : Nat) : State :=
  if s.on (PART_RST_busy n) then s
  else
    let r := s.pfxCmd n op ((List.range 4).map (fun i => (s.rdAcc acc (PART_PFX_ARG n i)).toNat))
    r.1.wrAcc acc (PART_PFX_RES n) (BitVec.ofNat 32 (r.2.1 * 2 ^ 28 + r.2.2))

/-- A destroying prefix with no queued request and no reference frees its pages and its handle (R341). -/
def State.freePfx (s : State) (h : Nat) : State :=
  match s.pfx h with
  | some p =>
    if p.destroying ∧ p.queued = 0 ∧ p.refs = 0 then
      (each (fun i (t : State) => (t.freeSlotOp i).1) (s.listFrom p.pages p.head)
        { s with pfxs := del s.pfxs h }).partEvt p.owner 5
    else s
  | none => s

/-- At a boundary of the owner every such prefix. -/
def State.freePfxs (s : State) (n : Nat) : State :=
  each (fun (e : Nat × Pfx) (t : State) => if e.2.owner = n then t.freePfx e.1 else t) s.pfxs s

/-- PREFIX_FREE: at a boundary of the owner, or at a tick while it is not active. -/
def State.prefixFree (s : State) (h : Nat) : State :=
  match s.pfx h with
  | some p =>
    if s.cycle % 256 = 0 ∧ (!s.on (BEAT_PLAN_CTL_active p.owner) ∨ s.atBoundary p.owner) then s.freePfx h else s
  | none => s

/-! ## Peer words (R342, R356) -/

/-- A write of PART_SHIP_PEER through an accessor's PART_SHIP_SEL. -/
def State.writePeer (s : State) (acc n : Nat) (v : Word) : State :=
  let e := bits (s.rdAcc acc (PART_SHIP_SEL n)) 0 17
  if s.inSlice n e && s.get (rqState e) == 0 && !s.on (PART_RST_busy n) then { s with peers := put s.peers e v } else s

/-! ## Sending (R343 to R345) -/

def State.mark (s : State) : Nat := s.tick / 9375

/-- A shipment of a request has failed: FAULTED with reason 8 (R343, R349). -/
def State.shipFail (s : State) (n e : Nat) : State :=
  ((s.leave n e 11 8).bump (PART_SHIP_FAILED_count n) 1).partEvt n 4

/-- A shipment that its connection's version cannot carry fails as if the peer had refused it (R435). -/
def State.shipTooOld (s : State) (n e module : Nat) : State :=
  if s.tooOld module 12 then { s with shipOut := del s.shipOut e }.shipFail n e else s

/-- The payload of OPEN. -/
def State.openPayload (s : State) (n e : Nat) : List Byte :=
  let key := if s.on (rqPrefixOn e) then ((s.pfx (s.get (rqPrefixHandle e))).map (·.key)).getD 0 else 0
  bytesOf 4 (s.get (rqPromptLen e)) ++ bytesOf 4 (s.pi e) ++ bytesOf 4 (s.serve n).kvRows ++
    bytesOf 4 (s.ownSlots e).length ++ bytesOf 8 key ++ bytesOf 2 (s.modelOf n) ++ bytesOf 2 0 ++
    bytesOf 4 ((((s.part n).layout.bind (·.wman)).map (·.epoch)).getD 0) ++
    bytesOf 4 (s.get (rqToken e) + 2 ^ 24 * s.get (rqDrafts e)) ++ bytesOf 28 0 ++ bytesOf 32 (s.drafts e) ++ bytesOf 32 0

/-- The shipping unit sends OPEN for a request that has entered SHIP_OUT. Where no connection exists no answer comes, and the
limit of R343 ends the shipment. -/
def State.startShip (s : State) (n e : Nat) : State :=
  if s.get (rqState e) = 6 ∧ (lookup? s.shipOut e).isNone ∧ s.on (PART_SHIP_CTL_enable n) then
    let w := s.peerWord e
    let o : ShipOut := ⟨(s.shipNo + 1) % 2 ^ 32, bits w 17 15, bits w 0 17, 0, true, s.mark⟩
    let s1 := { s with shipNo := o.ship, shipOut := put s.shipOut e o }
    (s1.ship o.module (shipMsg 1 s.ownAddr e o.peer o.ship 0 0 0 0 0 (s.openPayload n e))).1.shipTooOld n e o.module
  else s

def State.startShips (s : State) (n : Nat) : State := each (fun e (t : State) => t.startShip n e) (s.entries n [6]) s

/-- The shards named of a group, each as messages of 128 rows, then END. -/
def State.sendShards (s : State) (e : Nat) (o : ShipOut) (shards : List Nat) : State :=
  let slots := s.ownSlots e
  let pages := slots.length
  let row := fun r k => if shardRows pages o.group k ≤ r then (0 : Row) else s.listRow slots (262144 * (16 * o.group + k) + r)
  let s1 := each (fun k (t : State) =>
    each (fun u (x : State) =>
      let rows := (List.range 128).map (fun j =>
        if k < 16 then row (128 * u + j) k else parityRow (k == 17) (row (128 * u + j)))
      (x.ship o.module (shipMsg 2 s.ownAddr e o.peer o.ship o.group k 0 (128 * u) 128
        (rows.flatMap (fun d => bytesOf 64 d.toNat)))).1)
      (List.range (shardRows pages o.group k / 128)) t) shards
      (s.groupRead slots pages o.group (if shards.any (16 ≤ ·) then [] else (List.range 16).filter (fun k => !shards.contains k)))
  (s1.ship o.module (shipMsg 3 s.ownAddr e o.peer o.ship o.group 0 0 0 0 [])).1

/-- A received shipping message of a type: module and bytes. -/
def State.shipRx (s : State) (k type : Nat) : Option (Nat × List Byte) :=
  match s.rxFrame k 12 with
  | some r => if msgNum r.frame.payload 0 1 = type then some (r.frame.source, r.frame.payload) else none
  | none => none

/-- A message dropped and counted against the partition of the request it names. -/
def State.shipDrop (s : State) (m : List Byte) : State :=
  match s.sliceOwner (msgNum m 8 4 % 2 ^ 17) with
  | some n => s.bump (PART_SHIP_DROPPED_count n) 1
  | none => s

/-- The shipment being sent that a message from a module answers. -/
def State.outOf (s : State) (module : Nat) (m : List Byte) : Option (Nat × Nat × ShipOut) :=
  let e := msgNum m 8 4 % 2 ^ 17
  match lookup? s.shipOut e, s.sliceOwner e with
  | some o, some n => if headOk m ∧ o.module = module ∧ o.ship = msgNum m 0x0C 4 then some (n, e, o) else none
  | _, _ => none

def State.setOut (s : State) (e : Nat) (o : ShipOut) : State := { s with shipOut := put s.shipOut e o }

/-- SHIP_ACK_RECEIVE. -/
def State.shipAck (s : State) (k : Nat) : State :=
  match s.shipRx k 4 with
  | none => s
  | some (module, m) =>
    let s1 := s.rxDone k
    match s1.outOf module m with
    | none => s1.shipDrop m
    | some (n, e, o) =>
      let o1 := { o with since := s.mark }
      match msgNum m 0x13 1 with
      | 0 =>
        if o.opened then
          ((s1.setOut e { o1 with opened := false }).sendShards e { o1 with opened := false } (List.range 18)).shipTooOld n e
            module
        else s1.setOut e o1
      | 4 =>
        if !o.opened ∧ msgNum m 0x10 2 = o.group then
          let o2 := { o1 with group := o.group + 1 }
          if 128 * o2.group < (s1.ownSlots e).length then
            ((s1.setOut e o2).sendShards e o2 (List.range 18)).shipTooOld n e module
          else s1.setOut e o2
        else s1.setOut e o1
      | 3 => { s1 with shipOut := del s1.shipOut e }.shipFail n e
      | 1 | 2 => ({ s1 with shipOut := del s1.shipOut e }.leave n e 8 0).bump (PART_SHIP_SENT_count n) 1
      | _ => s1.setOut e o1

/-- SHIP_NACK_RECEIVE: the named shards again, then END. -/
def State.shipNack (s : State) (k : Nat) : State :=
  match s.shipRx k 5 with
  | none => s
  | some (module, m) =>
    let s1 := s.rxDone k
    match s1.outOf module m with
    | none => s1.shipDrop m
    | some (n, e, o) =>
      let o1 := { o with since := s.mark }
      if !o.opened ∧ msgNum m 0x10 2 = o.group then
        ((s1.setOut e o1).sendShards e o1 ((List.range 18).filter (fun i => (msgNum m 0x14 4).testBit i))).shipTooOld n e module
      else s1.setOut e o1

/-! ## Receiving (R346 to R350) -/

/-- Parity slots of a partition (R346, R355). -/
def State.paritySlots (s : State) (n : Nat) : Nat := min 255 ((s.pagesRec n (s.get (PART_SHIP_BUF_rec n))).length / 16)

def State.shipsOf (s : State) (n : Nat) : List (Nat × ShipIn) := s.shipIn.filter (fun x => s.inSlice n x.1)

def State.freeParity (s : State) (n : Nat) : Option Nat :=
  firstFrom (fun x => (s.shipsOf n).all (fun y => y.2.parity != x)) 0 (s.paritySlots n)

/-- A failure on the decode side: fall back or fault (R349). `sender` is the sender of an OPEN that failed, `abort` holds where
the peer has sent ABORT. A request whose fall-back is already settled fails no second time. -/
def State.shipFailure (s : State) (n e : Nat) (sender : Option ShipPeer) (abort : Bool) : State :=
  if s.get (rqState e) ≠ 7 ∨ (s.req e).outcome = 2 then s
  else
    let l := s.shipSenders e ++ sender.toList
    let peers := if l.isEmpty then [s.namedPeer e] else l
    let s1 := s.dropShips e
    if s.on (PART_SHIP_CTL_fallback n) && s.promptOk n e then
      (((each (fun p (t : State) => t.answer e p 0 2) (if abort then [] else peers) s1).onReq e
        (fun q => { q with outcome := 2 })).bump (PART_SHIP_FALLBACK_count n) 1).partEvt n 4
    else (each (fun p (t : State) => t.sendAbort e p) peers s1).shipFail n e

/-- The checks of R346 on an OPEN, but for the parity slot. A request that falls back waits for no shipment any more. -/
def State.openOk (s : State) (n e module : Nat) (m : List Byte) : Bool :=
  let w := s.peerWord e
  let p := m.drop 32
  let key := if s.on (rqPrefixOn e) then ((s.pfx (s.get (rqPrefixHandle e))).map (·.key)).getD 0 else 0
  match (s.part n).layout with
  | none => false
  | some l =>
    s.on (PART_SHIP_CTL_enable n) && s.get (rqState e) == 7 && (s.req e).outcome != 2 && bits w 17 15 == module &&
      bits w 0 17 == msgNum m 4 4 && msgNum p 24 2 == s.modelOf n &&
      msgNum p 28 4 == ((l.wman.map (·.epoch)).getD 0) && msgNum p 8 4 == l.serve.kvRows &&
      msgNum p 0 4 == s.get (rqPromptLen e) && msgNum p 4 4 == s.pi e && msgNum p 16 8 == key &&
      decide (msgNum p 12 4 ≤ s.get (rqPages e))

/-- An OPEN accepted with a parity slot: *ready*. -/
def State.acceptOpen (s : State) (e module parity : Nat) (m : List Byte) : State :=
  let i : ShipIn :=
    { ship := msgNum m 0x0C 4, module := module, sreq := msgNum m 4 4, pages := msgNum m 44 4, parity := parity, group := 0
      got := [], first := none, nacks := 0, done := false, start := m.drop 32 }
  ({ s with shipIn := put s.shipIn e i }.onReq e (fun q => { q with since := s.mark, outcome := 0 })).answer e
    ⟨module, i.sreq, i.ship⟩ 0 0

/-- The same OPEN is accepted or waits already: a duplicate. -/
def State.openTwice (s : State) (e module : Nat) (m : List Byte) : Bool :=
  (s.shipSenders e).any (fun p => p.module == module && p.ship == msgNum m 0x0C 4)

/-- An OPEN that R346 accepts takes a parity slot, or waits behind the others. A new OPEN of a request takes the place of the one
it has: its parity slot, where it was accepted (log entry 60). -/
def State.placeOpen (s : State) (n e module : Nat) (m : List Byte) : State :=
  let s1 := { s with shipWait := s.shipWait.filter (fun w => w.req != e) }
  match lookup? s1.shipIn e with
  | some i => s1.acceptOpen e module i.parity m
  | none =>
    match s1.freeParity n, s1.shipWait.any (fun w => w.part == n) with
    | some x, false => s1.acceptOpen e module x m
    | _, _ => { s1 with shipWait := s1.shipWait ++ [⟨n, e, module, m⟩] }

/-- SHIP_OPEN_RECEIVE. -/
def State.shipOpen (s : State) (k : Nat) : State :=
  match s.shipRx k 1 with
  | none => s
  | some (module, m) =>
    let s1 := s.rxDone k
    let e := msgNum m 8 4 % 2 ^ 17
    let sender : ShipPeer := ⟨module, msgNum m 4 4, msgNum m 0x0C 4⟩
    if !headOk m || s1.openTwice e module m then s1.shipDrop m
    else
      match s1.sliceOwner e with
      | none => s1.answer e sender 0 3
      | some n =>
        if s1.openOk n e module m then s1.placeOpen n e module m
        else (s1.answer e sender 0 3).shipFailure n e (some sender) false

/-- SHIP_OPEN_DEQUEUE: the oldest waiting OPEN of a partition takes a freed parity slot. -/
def State.shipDequeue (s : State) (n : Nat) : State :=
  match s.shipWait.find? (fun w => w.part == n), s.freeParity n with
  | some w, some x =>
    { s with shipWait := s.shipWait.filter (fun y => y.req != w.req) }.acceptOpen w.req w.module x w.message
  | _, _ => s

/-- The shipment being received that a message from a module belongs to. -/
def State.inOf (s : State) (module : Nat) (m : List Byte) : Option (Nat × Nat × ShipIn) :=
  let e := msgNum m 8 4 % 2 ^ 17
  match lookup? s.shipIn e, s.sliceOwner e with
  | some i, some n => if headOk m ∧ i.module = module ∧ i.ship = msgNum m 0x0C 4 then some (n, e, i) else none
  | _, _ => none

def State.setIn (s : State) (e : Nat) (i : ShipIn) : State := { s with shipIn := put s.shipIn e i }

/-- A row of a shard written: own pages, or the parity slot (R347). -/
def State.shipRow (s : State) (n e : Nat) (i : ShipIn) (shard r : Nat) (d : Row) : State :=
  if shard < 16 then s.listPutRow .bulk (s.ownSlots e) (262144 * (16 * i.group + shard) + r) d
  else s.listPutRow .bulk (s.pagesRec n (s.get (PART_SHIP_BUF_rec n))) (32768 * 16 * i.parity + 262144 * (shard - 16) + r) d

def State.shipGot (s : State) (n e : Nat) (i : ShipIn) (shard r : Nat) : Row :=
  if shard < 16 then s.listRow (s.ownSlots e) (262144 * (16 * i.group + shard) + r)
  else s.listRow (s.pagesRec n (s.get (PART_SHIP_BUF_rec n))) (32768 * 16 * i.parity + 262144 * (shard - 16) + r)

/-- SHIP_DATA_RECEIVE. -/
def State.shipData (s : State) (k : Nat) : State :=
  match s.shipRx k 2 with
  | none => s
  | some (module, m) =>
    let s1 := s.rxDone k
    match s1.inOf module m with
    | none => s1.shipDrop m
    | some (n, e, i) =>
      let shard := msgNum m 0x12 1
      let off := msgNum m 0x14 4
      let unit := 2048 * shard + off / 128
      if i.done ∨ msgNum m 0x10 2 ≠ i.group ∨ i.got.contains unit ∨ shardRows i.pages i.group shard ≤ off ∨ 17 < shard then
        s1.shipDrop m
      else
        let s2 := each (fun j (t : State) => t.shipRow n e i shard (off + j) (byteRow (m.drop 32) j)) (List.range 128) s1
        (s2.setIn e { i with got := unit :: i.got, first := some (i.first.getD s.tick) }).onReq e
          (fun q => { q with since := s.mark })

/-- Shards of the group that lack the message at a unit of 128 rows. -/
def ShipIn.lacking (i : ShipIn) (u : Nat) : List Nat :=
  (List.range 18).filter (fun k => decide (128 * u < shardRows i.pages i.group k) && !i.got.contains (2048 * k + u))

/-- A group evaluated (R347): rebuilt and done, or NACK, or a failure. -/
def State.shipEval (s : State) (n e : Nat) (i : ShipIn) : State :=
  let units := List.range (shardRows i.pages i.group 0 / 128)
  let lost := (List.range 18).filter (fun k => units.any (fun u => (i.lacking u).contains k))
  if units.all (fun u => decide ((i.lacking u).length ≤ 2)) then
    let s1 := each (fun u (t : State) =>
      let gone := i.lacking u
      each (fun k (x : State) =>
        each (fun j (y : State) =>
          y.shipRow n e i k (128 * u + j) (rebuildRow (fun q =>
            if gone.contains q || decide (shardRows i.pages i.group q ≤ 128 * u) then 0
            else s.shipGot n e i q (128 * u + j)) gone k)) (List.range 128) x) (gone.filter (fun k => decide (k < 16))) t)
      units (if lost = [] then s else s.groupRead (s.ownSlots e) i.pages i.group lost)
    let s2 := (s1.bump (PART_SHIP_REBUILT_count n) (lost.filter (fun k => decide (k < 16))).length).answer e
      ⟨i.module, i.sreq, i.ship⟩ i.group 4
    let last := decide (i.pages ≤ 128 * (i.group + 1))
    let s3 := s2.setIn e { i with group := i.group + 1, got := [], first := none, nacks := 0, done := last }
    if last then s3.onReq e (fun q => { q with outcome := 1 }) else s3
  else if i.nacks < s.get (PART_SHIP_CTL_retries n) then
    let map := lost.foldl (fun a k => a + 2 ^ k) 0
    ((s.bump (PART_SHIP_RESENT_count n) lost.length).setIn e { i with nacks := i.nacks + 1 }).ship i.module
      (shipMsg 5 s.ownAddr e i.sreq i.ship i.group 0 0 map 0 []) |>.1
  else s.shipFailure n e none false

/-- SHIP_END_RECEIVE. -/
def State.shipEnd (s : State) (k : Nat) : State :=
  match s.shipRx k 3 with
  | none => s
  | some (module, m) =>
    let s1 := s.rxDone k
    match s1.inOf module m with
    | none => s1.shipDrop m
    | some (n, e, i) =>
      if i.done ∨ msgNum m 0x10 2 ≠ i.group then s1.shipDrop m
      else (s1.onReq e (fun q => { q with since := s.mark })).shipEval n e i

/-- SHIP_GROUP_WAIT_EXPIRE. A group that this evaluation leaves open waits as long again (log entry 60). -/
def State.shipWaitEnd (s : State) (e : Nat) : State :=
  match lookup? s.shipIn e, s.sliceOwner e with
  | some i, some n =>
    if i.first.any (fun t => decide (t + s.get (PART_SHIP_WAIT_ticks n) ≤ s.tick)) && !i.done then
      s.shipEval n e { i with first := some s.tick }
    else s
  | _, _ => s

/-- SHIP_ABORT_RECEIVE: it fails the shipment it belongs to, on either side. -/
def State.shipAbort (s : State) (k : Nat) : State :=
  match s.shipRx k 6 with
  | none => s
  | some (module, m) =>
    let s1 := s.rxDone k
    match s1.inOf module m, s1.outOf module m with
    | some (n, e, _), _ => s1.shipFailure n e none true
    | none, some (n, e, _) => { s1 with shipOut := del s1.shipOut e }.shipFail n e
    | none, none =>
      let e := msgNum m 8 4 % 2 ^ 17
      match s1.sliceOwner e with
      | some n =>
        if headOk m && s1.openTwice e module m then
          s1.shipFailure n e none true
        else s1.shipDrop m
      | none => s1

/-- SHIP_LIMIT_EXPIRE: no answer, or no progress, within the limit of marks (R343, R348). -/
def State.shipLimit (s : State) (e : Nat) : State :=
  match s.sliceOwner e with
  | none => s
  | some n =>
    let limit := s.get (PART_SHIP_CTL_limit n)
    match lookup? s.shipOut e with
    | some o => if o.since + limit ≤ s.mark then (s.abortShip e false).shipFail n e else s
    | none =>
      if s.get (rqState e) = 7 ∧ (s.req e).outcome = 0 ∧ (s.req e).since + limit ≤ s.mark then s.shipFailure n e none false
      else s

/-- Outcomes that take effect at a planning boundary: DECODE with *complete*, or PREFILL from the start (R347, R349). -/
def State.shipOutcome (s : State) (n e : Nat) : State :=
  match (s.req e).outcome, lookup? s.shipIn e with
  | 1, some i =>
    let w := msgNum i.start 32 4
    let s1 := (((s.set (rqState e) 4).set (rqEntered e) (s.get (rqPromptLen e))).set (rqGenLen e) 1).set (rqToken e) (w % 2 ^ 17)
    let s2 := ((s1.set (rqAccepted e) (field w 17 5)).set (rqDrafts e) (field w 24 8)).setDrafts e (msgNum i.start 64 32)
    (({ s2 with shipIn := del s2.shipIn e }.onReq e (fun q => { q with outcome := 0 })).bump
      (PART_SHIP_RECEIVED_count n) 1).answer e ⟨i.module, i.sreq, i.ship⟩ 0 1
  | 2, _ => ((s.set (rqState e) 3).set (rqEntered e) 0).onReq e (fun q => { q with outcome := 0 })
  | _, _ => s

def State.shipOutcomes (s : State) (n : Nat) : State := each (fun e (t : State) => t.shipOutcome n e) (s.entries n [7]) s

/-! ## Meanings -/

def execPfxCreate (acc n : Nat) (s : State) : Host.Outcome State Fault Refusal :=
  .next (if acc < accessors ∧ n < 64 then s.writeAt (PART_PFX_CMD n) fun s => s.pfxRun acc n 1 else s)
def execPfxDestroy (acc n : Nat) (s : State) : Host.Outcome State Fault Refusal :=
  .next (if acc < accessors ∧ n < 64 then s.writeAt (PART_PFX_CMD n) fun s => s.pfxRun acc n 2 else s)
def execPrefixFree (h : Nat) (s : State) : Host.Outcome State Fault Refusal :=
  .next (if h < 1024 then s.prefixFree h else s)
def execShipPeerWrite (acc n : Nat) (v : Word) (s : State) : Host.Outcome State Fault Refusal :=
  .next (if acc < accessors ∧ n < 64 then s.writeAt (PART_SHIP_PEER n) fun s => s.writePeer acc n v else s)
def execShipOpenReceive (k : Nat) (s : State) : Host.Outcome State Fault Refusal := .next (s.shipOpen k)
def execShipOpenDequeue (n : Nat) (s : State) : Host.Outcome State Fault Refusal :=
  .next (if n < 64 then s.shipDequeue n else s)
def execShipDataReceive (k : Nat) (s : State) : Host.Outcome State Fault Refusal := .next (s.shipData k)
def execShipEndReceive (k : Nat) (s : State) : Host.Outcome State Fault Refusal := .next (s.shipEnd k)
def execShipGroupWaitExpire (e : Nat) (s : State) : Host.Outcome State Fault Refusal :=
  .next (if e < 131072 then s.shipWaitEnd e else s)
def execShipAckReceive (k : Nat) (s : State) : Host.Outcome State Fault Refusal := .next (s.shipAck k)
def execShipNackReceive (k : Nat) (s : State) : Host.Outcome State Fault Refusal := .next (s.shipNack k)
def execShipAbortReceive (k : Nat) (s : State) : Host.Outcome State Fault Refusal := .next (s.shipAbort k)
def execShipLimitExpire (e : Nat) (s : State) : Host.Outcome State Fault Refusal :=
  .next (if e < 131072 then s.shipLimit e else s)

end Sys2Proof.Machine
end

