-- ==== Sys2Proof/Machine/Adapters.lean ====
section
/-!
DEFINITION. Adapters (12_weights R374 to R377, R381 to R383): handles with two epoch slots, the commands, residency and
the directory.
-/

namespace Sys2Proof.Machine

def State.dirSlots (s : State) (n : Nat) : List Nat := s.pagesRec n (s.part n).adpRec

/-- PART_ADP_DIR.ready. -/
def State.dirReady (s : State) (n : Nat) : Bool :=
  let l := s.dirSlots n
  decide (16 ≤ l.length) && l.all (fun i => (s.slot i).testBit 1)

/-- Live requests of the owner that name a handle. -/
def State.adpNames (s : State) (n h : Nat) (codes : List Nat) : List Nat :=
  (s.entries n codes).filter (fun e => s.on (rqAdapterOn e) && s.get (rqAdapterHandle e) == h)

/-- The pages of an epoch: valid, owned, read-only and pinned, as many as named (R374). -/
def State.adpList (s : State) (n head pages : Nat) : Bool :=
  let l := s.listFrom pages head
  decide (1 ≤ pages ∧ pages ≤ 511) && l.length == pages && l.all (fun i =>
    let v := s.slot i
    let o := (s.bay (slotPage v / pagesPerBay)).own (slotPage v % pagesPerBay)
    v.testBit 1 && o.getLsbD 15 && o.getLsbD 14 && bits o 0 6 == n)

def State.freeEpoch (s : State) (n : Nat) (x : AdpEpoch) : State :=
  (each (fun i (t : State) => (t.freeSlotOp i).1) (s.listFrom x.pages x.head) s).partEvt n 5

/-- A handle freed with its epochs. -/
def State.freeAdp (s : State) (h : Nat) : State :=
  match s.adp h with
  | some a =>
    each (fun x (t : State) => t.freeEpoch a.owner x) (a.slot0.toList ++ a.slot1.toList) { s with adps := del s.adps h }
  | none => s

/-- ADD, REPLACE, REMOVE: the state, status, epoch and handle (R375, R382). -/
def State.adpCmd (s : State) (n op : Nat) (arg : List Nat) : State × Nat × Nat × Nat :=
  let head := arg.getD 0 0 % 2 ^ 20
  let rank := arg.getD 1 0 % 2 ^ 7
  let model := field (arg.getD 1 0) 16 16
  let pages := arg.getD 2 0 % 2 ^ 9
  let h := arg.getD 3 0 % 2 ^ 12
  let badRank := rank = 0 ∨ 64 < rank
  match op with
  | 1 =>
    if !s.dirReady n then (s, 6, 0, 0)
    else if badRank ∨ model ≠ s.modelOf n then (s, 3, 0, 0)
    else if !s.adpList n head pages then (s, 2, 0, 0)
    else
      match firstFrom (fun k => (s.adp k).isNone) 0 4096 with
      | none => (s, 1, 0, 0)
      | some k =>
        let a : Adp := ⟨n, model, false, false, 0, some ⟨0, head, pages, rank, 0, false⟩, none⟩
        ({ s with adps := put s.adps k a }, 0, 0, k)
  | 2 =>
    if !s.dirReady n then (s, 6, 0, h)
    else
      match s.adp h with
      | none => (s, 4, 0, h)
      | some a =>
        let e := (a.cur + 1) % 256
        let busy := if e % 2 = 0 then a.slot0.isSome else a.slot1.isSome
        if a.owner ≠ n ∨ a.removing ∨ busy then (s, 4, 0, h)
        else if badRank ∨ model ≠ a.model then (s, 3, 0, h)
        else if !s.adpList n head pages then (s, 2, 0, h)
        else
          let x : AdpEpoch := ⟨e, head, pages, rank, 0, false⟩
          let b := if e % 2 = 0 then { a with cur := e, slot0 := some x } else { a with cur := e, slot1 := some x }
          ({ s with adps := put s.adps h b }, 0, e, h)
  | 3 =>
    match s.adp h with
    | none => (s, 4, 0, h)
    | some a =>
      let force := arg.getD 0 0 % 2 == 1
      if a.owner ≠ n ∨ a.removing ∨ (force ∧ s.adpNames n h [1, 5] ≠ []) then (s, 4, 0, h)
      else
        let s1 := { s with adps := put s.adps h { a with removing := true, force := force } }
        (if s1.adpNames n h liveCodes = [] then s1.freeAdp h else s1, 0, a.cur, h)
  | _ => (s, 5, 0, 0)

/-- A write of PART_ADP_CMD by an accessor; ignored while the partition's reset is busy (R393). -/
def State.adpRun (s : State) (acc n op : Nat) : State :=
  if s.on (PART_RST_busy n) then s
  else
    let r := s.adpCmd n op ((List.range 4).map (fun i => (s.rdAcc acc (PART_ADP_ARG n i)).toNat))
    r.1.wrAcc acc (PART_ADP_RES n) (BitVec.ofNat 32 (r.2.1 * 2 ^ 28 + r.2.2.1 * 2 ^ 20 + r.2.2.2))

/-! ## At boundaries -/

/-- Old epochs without references are freed with their slots, removing handles that no request names altogether (R375). -/
def State.freeAdps (s : State) (n : Nat) : State :=
  each (fun (e : Nat × Adp) (t : State) =>
    if e.2.owner ≠ n then t
    else if e.2.removing ∧ t.adpNames n e.1 liveCodes = [] then t.freeAdp e.1
    else
      let old := fun (x : Option AdpEpoch) => x.filter (fun y => y.epoch != e.2.cur && y.refs == 0)
      let a := { e.2 with
        slot0 := if (old e.2.slot0).isSome then none else e.2.slot0
        slot1 := if (old e.2.slot1).isSome then none else e.2.slot1 }
      each (fun x (u : State) => u.freeEpoch n x) ((old e.2.slot0).toList ++ (old e.2.slot1).toList)
        { t with adps := put t.adps e.1 a }) s.adps s

/-- Row `r` of an epoch's directory region (R377): word 0 is the head, word `k` the address of page `k - 1` (log entry 61). -/
def State.dirData (s : State) (x : AdpEpoch) (r : Nat) : Nat :=
  let l := s.listFrom x.pages x.head
  let word := fun k => match l[k - 1]? with | some i => bayWord (slotPage (s.slot i)) 0 | none => unusedWord
  wordsRow ((List.range 8).map (fun k =>
    if 8 * r + k = 0 then x.epoch + 2 ^ 8 * x.rank + 2 ^ 16 * x.pages + 2 ^ 63 else word (8 * r + k)))

/-- The directory region of an epoch written. -/
def State.writeDir (s : State) (n h : Nat) (x : AdpEpoch) : State :=
  each (fun r (t : State) => t.listStore (s.dirSlots n) ((2 * h + x.epoch % 2) * 64 + r) (s.dirData x r))
    (List.range 64) s

/-- A planning boundary: forced removals cancel their requests, new epochs become resident (R375, R376). -/
def State.adpBoundary (s : State) (n : Nat) : State :=
  let s1 := each (fun (e : Nat × Adp) (t : State) =>
    if e.2.owner = n ∧ e.2.removing ∧ e.2.force then
      each (fun q (u : State) => u.leave n q 10 5) (t.adpNames n e.1 [2, 3, 4]) t
    else t) s.adps s
  if s1.dirReady n then
    each (fun (e : Nat × Adp) (t : State) =>
      if e.2.owner ≠ n then t
      else
        let fresh := (e.2.slot0.toList ++ e.2.slot1.toList).filter (fun x => !x.resident)
        let t1 := each (fun x (u : State) => u.writeDir n e.1 x) fresh t
        { t1 with adps := put t1.adps e.1 { e.2 with
            slot0 := e.2.slot0.map (fun x => { x with resident := true })
            slot1 := e.2.slot1.map (fun x => { x with resident := true }) } }) s1.adps s1
  else s1

/-- A hard reset removes the partition's handles; no request names them any more. -/
def State.dropAdps (s : State) (n : Nat) : State :=
  each (fun (e : Nat × Adp) (t : State) => if e.2.owner = n then t.freeAdp e.1 else t) s.adps s

def execAdpAdd (acc n : Nat) (s : State) : Host.Outcome State Fault Refusal :=
  .next (if acc < accessors ∧ n < 64 then s.writeAt (PART_ADP_CMD n) fun s => s.adpRun acc n 1 else s)
def execAdpReplace (acc n : Nat) (s : State) : Host.Outcome State Fault Refusal :=
  .next (if acc < accessors ∧ n < 64 then s.writeAt (PART_ADP_CMD n) fun s => s.adpRun acc n 2 else s)
def execAdpRemove (acc n : Nat) (s : State) : Host.Outcome State Fault Refusal :=
  .next (if acc < accessors ∧ n < 64 then s.writeAt (PART_ADP_CMD n) fun s => s.adpRun acc n 3 else s)

end Sys2Proof.Machine
end

