-- ==== Sys2Proof/Machine/Watch.lean ====
section
/-!
DEFINITION. Recipes, half pace and the norm watcher (04_low_bit_arithmetic R126 to R143).
-/

namespace Sys2Proof.Machine

def State.stages (s : State) (n : Nat) : List Nat := List.range (s.get (PART_NW_CTL_stages n))

/-! ## Recipes and half pace (R128, R129) -/

/-- A write of PART_STG_REC that sets req: sel is stored and the tick of the write kept. -/
def State.recipeRequest (s : State) (n st sel : Nat) : State :=
  ((s.set (PART_STG_REC_sel n st) sel).setOn (PART_STG_REC_req n st) true).onPart n
    (fun q => { q with recReq := put q.recReq st s.tick })

/-- A pending request may be taken at the present boundary: its tick is later than that of the write. -/
def State.recipeDue (s : State) (n st : Nat) : Bool :=
  s.on (PART_STG_REC_req n st) && decide (lookupD 0 (s.part n).recReq st < s.tick)

/-- A stage moves to a recipe. -/
def State.setRecipe (s : State) (n st k : Nat) : State :=
  if s.recipe n st = k then s else (s.set (PART_STG_REC_cur n st) k).bump (PART_STG_REC_changes n st) 1

/-- The request of a stage taken or refused. -/
def State.takeRecipe (s : State) (n st : Nat) : State :=
  if s.recipeDue n st then
    let k := s.get (PART_STG_REC_sel n st)
    let s1 := s.setOn (PART_STG_REC_req n st) false
    if s1.on (PART_RCP_CFG_valid n st k) then s1.setRecipe n st k else s1.raise (PART_STG_REC_refused n st)
  else s

def State.twoBeat (s : State) (n : Nat) : Bool :=
  (s.stages n).any (fun st => s.on (PART_RCP_CFG_two_beat n st (s.recipe n st)))

/-- A working boundary that does not begin a B beat: requests are taken, half pace begins or ends. -/
def State.takeRecipes (s : State) (n : Nat) : State :=
  let s1 := each (fun st (t : State) => t.takeRecipe n st) (s.stages n) s
  s1.setOn (PART_NW_CTL_half n) (s1.twoBeat n)

/-! ## Parts (R130) -/

/-- Slots that a step's plan occupied for a stage (R289). -/
def State.occupied (s : State) (n step st : Nat) : Nat :=
  let v := s.serve n
  if v.stageIn ≤ st ∧ st ≤ v.stageOut ∧ st - v.stageIn ≤ step then
    lookupD 0 (s.part n).plans (step - (st - v.stageIn))
  else 0

/-- Step of a working beat of a partition: of one that runs or is not released, or of the last A beat (R129). -/
def PartSt.stepOf (q : PartSt) (beat : Nat) : Option Nat :=
  match q.beats.find? (fun b => b.index == beat) with
  | some b => some b.step
  | none => (q.pairA.filter (fun x => x.1 == beat)).map (·.2)

/-- A part reaches the watch unit: its clamp tally counts; it is kept if its evaluation is still to come and its slot is
occupied. -/
def State.partArrives (s : State) (q : Part130) : State :=
  let s1 := s.bump (PART_STG_CLAMP_count q.part q.stage) q.tally
  match (s.part q.part).stepOf q.beat with
  | some step =>
    if s.on (PART_NW_CTL_enable q.part) && decide ((s.part q.part).evaluated < q.beat) &&
        (s.occupied q.part step q.stage).testBit q.slot then
      { s1 with kept := s1.kept ++ [q] }
    else s1
  | none => s1

/-- NW_PART_ARRIVE: the latency of its route after its issue at the earliest, within 160 cycles. -/
def State.nwArrive (s : State) (k : Nat) : State :=
  match s.watch[k]? with
  | some q => if q.due < s.tickEnd then { s.at q.due with watch := eraseAt s.watch k }.partArrives q else s
  | none => s

/-- Parts issued 160 cycles before have arrived in any case. -/
def State.nwFlush (s : State) (n : Nat) : State :=
  let due := fun (q : Part130) => q.part == n && decide (q.issued + 160 ≤ s.cycle)
  each (fun q (t : State) => t.partArrives q) (s.watch.filter due) { s with watch := s.watch.filter (fun q => !due q) }

/-- The working beats that the evaluation at the end of a beat covers: at half pace the pair (R131). -/
def BeatRec.covers (b : BeatRec) (beat : Nat) : Bool := beat == b.index || (b.half && b.second && beat + 1 == b.index)

/-! ## Evaluation (R131 to R134) -/

/-- Square root in FP32, correctly rounded. -/
def fsqrt : FV → FV
  | .num false m e =>
    if m = 0 then .num false 0 0
    else
      let k := 64 + ((e + 64) % 2).toNat
      let x := m <<< k
      let r := isqrt x
      FV.round fp32 (.num false (2 * r + b2n (r * r != x)) ((e - (k : Int)) / 2 - 1))
  | .num true 0 _ => .num true 0 0
  | .inf false => .inf false
  | _ => .nan

def fp (w : Nat) : FV := FV.decode fp32 w

def fadd (a b : FV) : FV := FV.round fp32 (a.add b)
def fmul (a b : FV) : FV := FV.round fp32 (a.mul b)

/-- The parts of a stage and slot that an evaluation covers, in ascending logical id and issue order. -/
def State.partsOf (s : State) (n : Nat) (b : BeatRec) (st slot : Nat) : List Part130 :=
  sortBy (fun a b => decide (a.logical < b.logical ∨ (a.logical = b.logical ∧ a.issued < b.issued)))
    (s.kept.filter (fun q => q.part == n && b.covers q.beat && q.stage == st && q.slot == slot))

def slotNorm : List Part130 → FV
  | [] => .num false 0 0
  | q :: r => fsqrt (r.foldl (fun a x => fadd a (fp x.sum.toNat)) (fp q.sum.toNat))

/-- What an evaluation finds for a stage: the norms of its evaluated slots, and those it missed. -/
structure StageEval where
  stage : Nat
  norms : List (Nat × FV)
  missed : Nat

def State.evalStage (s : State) (n : Nat) (b : BeatRec) (st : Nat) : StageEval :=
  let c := s.get (PART_STG_NWCFG_parts n st)
  let occ := if c = 0 then [] else (List.range 16).filter (s.occupied n b.step st).testBit
  let full := occ.filter (fun j => (s.partsOf n b st j).length == c)
  ⟨st, full.map (fun j => (j, slotNorm (s.partsOf n b st j))), occ.length - full.length⟩

/-- A slot is flagged (R132). -/
def State.flagged (s : State) (n st : Nat) (v : FV) : Bool :=
  let mu := fp (s.get (PART_STG_MEAN_mu n st))
  let rho := s.get (PART_STG_NWCFG_ratio n st)
  match v with
  | .num .. => rho != 0 && FV.lt (.num false 0 0) mu && FV.lt (fmul (.num false rho (-8)) mu) v
  | _ => true

/-- μ after the unflagged slots of a stage (R133). -/
def meanAfter (k : Nat) (mu : FV) : List FV → FV
  | [] => mu
  | v :: r =>
    let m := if mu.isZero then v else fadd mu (fmul (fadd v mu.neg) (.num false 1 (-(k : Int))))
    meanAfter k m r

/-- The largest norm; NaN ranks above every other value (R142). -/
def maxNorm : List FV → Option FV
  | [] => none
  | v :: r =>
    match maxNorm r with
    | none => some v
    | some w => if v.isNan ∨ w.isNan then some .nan else some (if FV.lt w v then v else w)

/-- A flagged stage (R134): counted, mapped, escalated if its recipe names an escalation. -/
def State.flagStage (s : State) (n st : Nat) (drop : Bool) : State :=
  let k := s.recipe n st
  let s1 := (s.bump (PART_STG_FLAGS_count n st) 1).setBit (PART_NW_FLAGMAP n (st / 32)) (st % 32)
  if s.on (PART_RCP_CFG_esc_en n st k) then
    let s2 := s1.setRecipe n st (s.get (PART_RCP_CFG_esc n st k))
    if drop && s.recipeDue n st then (s2.setOn (PART_STG_REC_req n st) false).raise (PART_STG_REC_overridden n st)
    else s2
  else s1

/-- The evaluation of a boundary (R131 to R135): the state, and whether it causes a replay. `drop` where a recipe request
would be taken at this boundary. -/
def State.evaluate (s : State) (n : Nat) (b : BeatRec) (drop : Bool) : State × Bool :=
  if !s.on (PART_NW_CTL_enable n) then (s, false)
  else
    let evs := (s.stages n).map (fun st => s.evalStage n b st)
    let bad := fun (v : StageEval) => v.norms.filter (fun x => s.flagged n v.stage x.2)
    let hit := evs.filter (fun v => bad v != [])
    let replay := hit.any (fun v => s.on (PART_RCP_CFG_esc_en n v.stage (s.recipe n v.stage)))
    let s1 := each (fun (v : StageEval) (t : State) =>
      let t1 := t.bump (PART_STG_MISS_count n v.stage) v.missed
      let t2 := match maxNorm (v.norms.map (·.2)) with
        | some x => t1.set (PART_STG_NORM_norm n v.stage) (FV.encode fp32 x)
        | none => t1
      if replay then t2
      else t2.set (PART_STG_MEAN_mu n v.stage) (FV.encode fp32 (meanAfter (s.get (PART_STG_NWCFG_shift n v.stage))
        (fp (s.get (PART_STG_MEAN_mu n v.stage))) ((v.norms.filter (fun x => !s.flagged n v.stage x.2)).map (·.2))))) evs s
    match hit with
    | [] => (s1, false)
    | v :: _ =>
      let s2 := each (fun (v : StageEval) (t : State) => t.flagStage n v.stage drop) hit s1
      let s3 := if s.on (PART_NW_LAST_valid n) then s2
        else
          let w := 2 ^ 31 + 2 ^ 30 * b2n replay + 2 ^ 27 * s2.recipe n v.stage + 2 ^ 24 * s.recipe n v.stage +
            2 ^ 20 * ((bad v).map (·.1)).headD 0 + v.stage
          (s2.wr (PART_NW_LAST n) (BitVec.ofNat 32 w)).setPair (PART_NW_LAST_TICK_LO n) (PART_NW_LAST_TICK_HI n) s.tick
      (s3.partEvt n 2, replay)

/-- The watcher's work at the end of a working beat: at half pace only after a B beat. -/
def State.watchBeat (s : State) (n : Nat) (drop : Bool) : State × Bool :=
  match (s.part n).beats with
  | [] => (s, false)
  | b :: _ =>
    if b.half && !b.second then (s, false)
    else
      let s1 := s.nwFlush n
      let r := s1.evaluate n b drop
      ({ r.1 with kept := r.1.kept.filter (fun q => q.part != n) }.onPart n (fun q => { q with evaluated := b.index }), r.2)

/-- A write to PART_STG_MEAN (R141): anything but a positive normal value or +0 is stored as +0. -/
def storedMean (v : Word) : Word :=
  if v.getLsbD 31 ∨ bits v 23 8 = 255 ∨ bits v 23 8 = 0 then 0 else v

/-- A write of μ: in the cycle of an evaluation it takes effect after it (R141). -/
def State.writeMean (s : State) (n st : Nat) (v : Word) : State :=
  if s.on (PART_RST_busy n) then s
  else if s.boundaryDue n then s.onPart n (fun q => { q with means := q.means ++ [(st, storedMean v)] })
  else s.wr (PART_STG_MEAN n st) (storedMean v)

/-- The writes of μ that waited for the evaluation. -/
def State.applyMeans (s : State) (n : Nat) : State :=
  each (fun (e : Nat × Word) (t : State) => t.wr (PART_STG_MEAN n e.1) e.2) (s.part n).means
    (s.onPart n (fun q => { q with means := [] }))

/-! ## Meanings -/

def execNwPartArrive (k : Nat) (s : State) : Host.Outcome State Fault Refusal := .next (s.nwArrive k)
def execRecipeRequest (n st sel : Nat) (s : State) : Host.Outcome State Fault Refusal :=
  .next (if n < 64 ∧ st < 128 ∧ sel < 8 then s.writeAt (PART_STG_REC n st) fun s => s.recipeRequest n st sel else s)
def execStgMeanWrite (n st : Nat) (v : Word) (s : State) : Host.Outcome State Fault Refusal :=
  .next (if n < 64 ∧ st < 128 then s.writeAt (PART_STG_MEAN n st) fun s => s.writeMean n st v else s)

end Sys2Proof.Machine
end

