-- ==== Sys2Proof/Machine/Evc.lean ====
section
/-!
DEFINITION. The event controller (14_event_controller R408 to R427): sources and their levels, claims and end-of-interrupts
of the control cores, stuck sources, host events and MSI-X messages, and the external event pins.
-/

namespace Sys2Proof.Machine

def State.onEvc (s : State) (f : Evc → Evc) : State := { s with evc := f s.evc }

/-! ## The start of the cycle (R411) -/

/-- The view that the event controller decides on in this cycle is kept before the first change to it. -/
def State.keepEvc (s : State) : State :=
  if s.evc.was.any (fun x => x.1 == s.cycle) then s
  else s.onEvc (fun e => { e with
    was := some (s.cycle, ⟨e.seen, e.stks, e.stopped, s.ctl.filter (fun x => decide (0x20000 ≤ x.1 ∧ x.1 < 0x23000))⟩) })

/-- The event controller as it stood at the start of the cycle. -/
def State.evcThen (s : State) : State :=
  match s.evc.was with
  | some (c, v) =>
    if c = s.cycle then
      { s with ctl := v.regs, evc := { s.evc with seen := v.seen, stks := v.stks, stopped := v.stopped } }
    else s
  | none => s

/-! ## Host functions and MSI-X (R450) -/

def State.pciFn (s : State) (f : Nat) : PciFn := lookupD PciFn.reset s.hb.fns f

def State.setFn (s : State) (f : Nat) (x : PciFn) : State := { s with hb := { s.hb with fns := put s.hb.fns f x } }

def PciFn.ent (x : PciFn) (v : Nat) : MsixEnt := lookupD MsixEnt.reset x.msix v

/-- A vector's message goes out if the function may send it; else it stays pending (log entry 62). -/
def State.msixFlush (s : State) (f v : Nat) : State :=
  let x := s.pciFn f
  let e := x.ent v
  if e.pend.isSome ∧ x.msixEn ∧ !x.msixMask ∧ x.master ∧ !e.masked then
    (s.setFn f { x with msix := put x.msix v { e with pend := none } }).emit (.msix f v e.addr e.data)
  else s

/-- Every vector of a function whose message may go out now. -/
def State.msixFlushAll (s : State) (f : Nat) : State :=
  each (fun (e : Nat × MsixEnt) (t : State) => t.msixFlush f e.1) (s.pciFn f).msix s

def State.msixRaise (s : State) (f v src : Nat) : State :=
  let x := s.pciFn f
  (s.setFn f { x with msix := put x.msix v { x.ent v with pend := some src } }).msixFlush f v

/-- An event at the bridge (R418, R450): a device event on a vector of the physical function, a partition event on the VF that
maps the partition, or a drop. -/
def State.hostEvent (s : State) (module src vec : Nat) : State :=
  if src < 512 then s.msixRaise 0 vec src
  else
    let v := s.vfOf module ((src - 512) / 8)
    if v = 0 then s.bump EVC_HOST_DROP_count 1
    else if s.bitOn (PART_VF_FLR ((v - 1) / 32)) ((v - 1) % 32) then s
    else s.msixRaise v (src % 8) src

/-! ## Sources (R408, R409) -/

/-- Level of a source at its origin. -/
def State.srcLevel (s : State) (n : Nat) : Bool :=
  if n < 72 then s.on (DIE_PWR_STAT_evt n)
  else if n < 144 then s.on (DIE_NET_LAST_valid (n - 72))
  else if n < 162 then s.on (BAY_ECC_LAST_valid (n - 144)) || s.on (BAY_REFUSE_LAST_valid (n - 144))
  else if n < 194 then s.on (LINK_P_EVT_latch (n - 162))
  else if n < 202 then s.on (LINK_IO_STAT_fault (n - 194))
  else if n < 210 then s.bitOn EVC_PIN_STAT (n - 202) || s.bitOn EVC_PIN_STAT (n - 202 + 8)
  else if n < 214 then s.bitOn EVC_DEV_LATCH (n - 210)
  else if n < 222 then s.bitOn SAGE_EVT (n - 214)
  else if n < 230 then s.bitOn PWR_EVT (n - 222)
  else if n < 234 then s.bitOn FWU_EVT (n - 230)
  else if n < 512 then false
  else s.bitOn (PART_EVT ((n - 512) / 8)) (n % 8)

/-- A source that exists (R409). -/
def srcExists (n : Nat) : Bool := decide (n < 234 ∨ 512 ≤ n ∧ n < 1024)

def State.asserted (s : State) (n : Nat) : Bool :=
  srcExists n && (s.evc.seen.testBit n || s.on (EVC_SRC_CFG_pend n))

/-- Enabled, of priority above 0 and not stuck. -/
def State.srcOpen (s : State) (n : Nat) : Bool :=
  s.on (EVC_SRC_CFG_enable n) && s.on (EVC_SRC_CFG_priority n) && !s.on (EVC_SRC_CFG_stuck n)

def State.stack (s : State) (c : Nat) : List StackEnt := lookupD [] s.evc.stks c

def State.setStack (s : State) (c : Nat) (l : List StackEnt) : State :=
  s.keepEvc.onEvc (fun e => { e with stks := put e.stks c l })

/-- On a control core's stack. -/
def State.srcActive (s : State) (n : Nat) : Bool := s.evc.stks.any (fun e => e.2.any (fun x => x.source == n))

def State.srcPending (s : State) (n : Nat) : Bool := s.asserted n && s.srcOpen n && !s.srcActive n

/-! ## Delivery to the host (R418) -/

def State.hostTarget (s : State) (n : Nat) : Bool :=
  if n < 512 then s.on (EVC_SRC_CFG_host n) else s.on (EVC_PTGT_host ((n - 512) / 8))

def State.hostDeliverable (s : State) (n : Nat) : Bool := s.asserted n && s.srcOpen n && s.hostTarget n

/-- One host event of a source, by the own bridge or over TLT to the bed's. -/
def State.hostSend (s : State) (n : Nat) : State :=
  let vec := if n < 512 then s.get (EVC_SRC_CFG_hvec n) else n % 8
  match s.bridgeModule with
  | none => s
  | some m => if s.isBridge then s.hostEvent s.ownAddr n vec else (s.sendTo m 6 ((n - 512) / 8) (n + 2 ^ 16 * vec) []).1

/-- A source looked at again: one event when it becomes host-deliverable. -/
def State.hostCheck (s : State) (n : Nat) : State :=
  let was := s.evc.hostSent.testBit n
  let now := s.hostDeliverable n
  if now == was then s
  else
    let s1 := s.onEvc (fun e => { e with hostSent := setField e.hostSent n 1 (b2n now) })
    if now then s1.hostSend n else s1

/-- The event is sent again at a millisecond mark while the source stays deliverable, and re-entry counts restart. -/
def State.evcMark (s : State) : State :=
  let s1 := s.onEvc (fun e => { e with reentry := [] })
  if s1.on EVC_HOST_CTL_remind then
    each (fun n (t : State) => if t.hostDeliverable n then t.hostSend n else t)
      ((List.range 1024).filter s1.evc.hostSent.testBit) s1
  else s1

/-! ## Levels (R411) -/

/-- The EVC sees a source's present level. -/
def State.seeLevel (s : State) (n : Nat) : State :=
  if srcExists n then
    (s.keepEvc.onEvc (fun e => { e with seen := setField e.seen n 1 (b2n (s.srcLevel n)) })).hostCheck n
  else s

/-- Every level that differs from what the EVC has seen. -/
def State.seeAll (s : State) : State :=
  each (fun n (t : State) => t.seeLevel n)
    ((List.range 1024).filter (fun n => srcExists n && s.srcLevel n != s.evc.seen.testBit n)) s

/-! ## Claims (R412 to R415) -/

def State.runPrio (s : State) (c : Nat) : Nat :=
  match s.stack c with
  | e :: _ => e.prio
  | [] => s.get (EVC_CC_BASE_base c)

/-- The core of a partition's target set with the lowest running priority, the lowest number among equals; a stopped core is
out of every target set (R481). -/
def State.partTarget (s : State) (p : Nat) : Option Nat :=
  ((List.range 8).filter (fun c => (s.get (EVC_PTGT_cc p)).testBit c && !s.evc.stopped.contains c)).foldl
    (fun b c =>
      match b with
      | none => some c
      | some d => if s.runPrio c < s.runPrio d then some c else b) none

/-- The control core a source is offered to. -/
def State.offeredTo (s : State) (n : Nat) : Option Nat :=
  if n < 512 then (if s.on (EVC_SRC_CFG_cc_en n) then some (s.get (EVC_SRC_CFG_cc n)) else none)
  else s.partTarget ((n - 512) / 8)

/-- What a claim by a core would return, with its priority: the offered source of highest priority above its own, the lowest number
among equals, by the state at the start of the cycle (R411, R415). -/
def State.bestOffer (s : State) (c : Nat) : Option (Nat × Nat) :=
  let v := s.evcThen
  (List.range 1024).foldl (fun (b : Option (Nat × Nat)) n =>
    let k := v.get (EVC_SRC_CFG_priority n)
    if v.srcPending n && !s.srcActive n && decide (v.runPrio c < k) && v.offeredTo n == some c &&
        b.all (fun m => decide (m.2 < k)) then some (n, k)
    else b) none

/-- The word a read of EVC_CC_CLAIM returns. -/
def State.claimWord (s : State) (c : Nat) : Word :=
  match s.bestOffer c with
  | some (n, k) => BitVec.ofNat 32 (2 ^ 31 + 2 ^ 16 * k + n)
  | none => 0

/-- A claim by a core itself; a stopped core makes none. -/
def State.claim (s : State) (c : Nat) : State :=
  if 8 ≤ c ∨ s.evc.stopped.contains c then s
  else
    let s1 := s.emit (.readData c (EVC_CC_CLAIM c) (s.claimWord c))
    match s.bestOffer c with
    | some (n, k) => s1.setStack c (⟨n, k, false⟩ :: s.stack c)
    | none => s1

/-! ## End of interrupt (R416, R417) -/

/-- EOI by a core: the pop is asked for, and the core is held. -/
def State.eoi (s : State) (c src : Nat) : State :=
  if 8 ≤ c ∨ s.evc.stopped.contains c then s else s.onEvc (fun e => { e with eois := e.eois ++ [(c, src % 1024)] })

/-- A re-entry counted; above the limit the source is masked. -/
def State.reenter (s : State) (n : Nat) : State :=
  let k := lookupD 0 s.evc.reentry n + 1
  let s1 := s.onEvc (fun e => { e with reentry := put e.reentry n k })
  if s.get EVC_STUCK_LIM_limit < k then
    let s2 := s1.keepEvc.raise (EVC_SRC_CFG_stuck n)
    (if n = 213 then s2 else s2.devLatch 3).hostCheck n
  else s1

/-- The pop takes effect: every level change of earlier writes has been seen (log entry 63). -/
def State.eoiPop (s : State) (c : Nat) : State :=
  match s.evc.eois.find? (fun e => e.1 == c) with
  | none => s
  | some (_, src) =>
    let s1 := (s.onEvc (fun e => { e with eois := e.eois.erase (c, src) })).seeAll
    match s1.stack c with
    | [] => s1.raise (EVC_CC_STAT_eoi_empty c)
    | top :: below =>
      let s2 := s1.setStack c below
      let s3 := if top.source = src then s2 else s2.raise (EVC_CC_STAT_eoi_mismatch c)
      if s3.asserted top.source && !top.gone then s3.reenter top.source else s3

/-- A stuck bit cleared: the source's re-entry count restarts. A bit set in this cycle stays (R10). -/
def State.unstick (s : State) (n : Nat) : State :=
  if srcExists n ∧ bits (s.struck (EVC_SRC_CFG n)) 29 1 = 0 then
    ((s.keepEvc.setOn (EVC_SRC_CFG_stuck n) false).onEvc (fun e => { e with reentry := del e.reentry n })).hostCheck n
  else s

/-- A partition reset withdraws its eight sources (R395). -/
def State.withdraw (s : State) (p : Nat) : State :=
  let src := (List.range 8).map (fun i => 512 + 8 * p + i)
  let s1 := s.keepEvc.wr (PART_EVT p) 0
  let s2 := each (fun n (t : State) =>
    (t.setOn (EVC_SRC_CFG_pend n) false).onEvc (fun e =>
      { e with seen := setField e.seen n 1 0, hostSent := setField e.hostSent n 1 0 })) src s1
  let s3 := s2.onEvc (fun e =>
    { e with stks := e.stks.map (fun x => (x.1, x.2.map (fun t => if src.contains t.source then { t with gone := true } else t))) })
  { s3 with
    hb := { s3.hb with
      fns := s3.hb.fns.map (fun f => (f.1, { f.2 with
        msix := f.2.msix.map (fun m => (m.1, if m.2.pend.any src.contains && s3.vfOf s3.ownAddr p == f.1 && f.1 != 0
          then { m.2 with pend := none } else m.2)) })) } }

/-! ## Writes to the registers of the EVC that change delivery (R421, R422) -/

/-- A write to EVC_SRC_CFG: of a partition source bits [11:0] are reserved. -/
def State.writeSrcCfg (s : State) (n : Nat) (v : Word) : State :=
  if srcExists n then
    let keep := if n < 512 then 0xC00F0FC7 else 0xC00F0000
    let s1 := s.keepEvc.wr (EVC_SRC_CFG n) ((s.rd (EVC_SRC_CFG n) &&& ~~~(BitVec.ofNat 32 keep)) ||| (v &&& BitVec.ofNat 32 keep))
    let s2 := if v.getLsbD 29 then s1.unstick n else s1
    s2.hostCheck n
  else s

/-- A write to EVC_PTGT. -/
def State.writePtgt (s : State) (p : Nat) (v : Word) : State :=
  each (fun i (t : State) => t.hostCheck (512 + 8 * p + i)) (List.range 8) (s.keepEvc.wr (EVC_PTGT p) (v &&& 0x1FF))

/-- A write to EVC_CC_BASE: it takes effect in the next cycle (R423). -/
def State.writeBase (s : State) (c v : Nat) : State := s.keepEvc.set (EVC_CC_BASE_base c) v

/-- Words of the registers computed from the state: EVC_SRC_CFG with level, active and class. -/
def State.srcWord (s : State) (n : Nat) : Word :=
  if srcExists n then
    s.rd (EVC_SRC_CFG n) ||| BitVec.ofNat 32
      (2 ^ 28 * b2n (s.evc.seen.testBit n) + 2 ^ 27 * b2n (s.srcActive n) + 2 ^ 26 * b2n (decide (512 ≤ n)))
  else 0

/-- EVC_CC_STAT: running priority, depth, the sticky bits, the interrupt input. -/
def State.ccStatWord (s : State) (c : Nat) : Word :=
  (s.rd (EVC_CC_STAT c) &&& 6) ||| BitVec.ofNat 32
    (2 ^ 28 * s.runPrio c + 2 ^ 16 * ((s.stack c).length + 1) + b2n ((s.bestOffer c).isSome && !s.evc.stopped.contains c))

/-- EVC_CC_STK: entry 0 is the base. -/
def State.stkWord (s : State) (c k : Nat) : Word :=
  if k = 0 then BitVec.ofNat 32 (2 ^ 31 + 2 ^ 16 * s.get (EVC_CC_BASE_base c))
  else
    match (s.stack c).reverse[k - 1]? with
    | some e => BitVec.ofNat 32 (2 ^ 31 + 2 ^ 16 * e.prio + e.source)
    | none => 0

def State.pendMap (s : State) (k : Nat) : Word :=
  BitVec.ofNat 32 ((List.range 32).foldl (fun m j => m + 2 ^ j * b2n (s.evcThen.srcPending (32 * k + j))) 0)

def State.stuckMap (s : State) (k : Nat) : Word :=
  BitVec.ofNat 32 ((List.range 32).foldl (fun m j => m + 2 ^ j * b2n (srcExists (32 * k + j) && s.on (EVC_SRC_CFG_stuck (32 * k + j)))) 0)

/-! ## Pins (R419, R426) -/

/-- Synchronised level of a pin, active high. -/
def State.pinRaw (s : State) (k : Nat) : Bool := s.evc.pinIn.testBit k != (s.get EVC_PIN_CFG_polarity).testBit k

/-- An input changes: its filter starts, or it has returned within 1.00 µs. -/
def State.pinChange (s : State) (k : Nat) (level : Bool) : State :=
  if 8 ≤ k ∨ s.evc.pinIn.testBit k = level then s
  else
    let s1 := s.onEvc (fun e => { e with pinIn := setField e.pinIn k 1 (b2n level) })
    if s1.pinRaw k != s1.evc.pinFilt.testBit k then s1.onEvc (fun e => { e with pinRuns := setField e.pinRuns k 1 1 })
    else if s1.evc.pinRuns.testBit k then
      let s2 := s1.onEvc (fun e => { e with pinRuns := setField e.pinRuns k 1 0 })
      if s2.evc.pinFilt.testBit k then s2 else (s2.setBit EVC_PIN_STAT (k + 8)).bump (EVC_PIN_SHORT_count k) 1
    else s1

/-- The input has held its new level for 1.00 µs. -/
def State.pinFilter (s : State) (k : Nat) : State :=
  if k < 8 ∧ s.evc.pinRuns.testBit k then
    let s1 := s.onEvc (fun e =>
      { e with pinRuns := setField e.pinRuns k 1 0, pinFilt := setField e.pinFilt k 1 (b2n (s.pinRaw k)) })
    if s.pinRaw k then s1.setBit EVC_PIN_STAT k else s1
  else s

/-- The filter of each changed pin restarts from its present level; no status bit is set. -/
def State.pinPolarity (s : State) (v : Nat) : State :=
  let was := s.get EVC_PIN_CFG_polarity
  let s1 := s.set EVC_PIN_CFG_polarity v
  each (fun k (t : State) =>
    if was.testBit k = (v % 256).testBit k then t
    else t.onEvc (fun e =>
      { e with pinRuns := setField e.pinRuns k 1 0, pinFilt := setField e.pinFilt k 1 (b2n (t.pinRaw k)) })) (List.range 8) s1

def State.pinLevelWord (s : State) : Word :=
  BitVec.ofNat 32 (s.evc.pinFilt % 256 + 256 * ((s.evc.pinIn ^^^ s.get EVC_PIN_CFG_polarity) % 256))

/-! ## Control cores (R481) -/

/-- A lockstep mismatch of a control core: it stops and its stack goes to the base. -/
def State.ccStop (s : State) (c : Nat) : State :=
  (s.setStack c []).onEvc (fun e =>
    { e with stopped := if e.stopped.contains c then e.stopped else e.stopped ++ [c], eois := e.eois.filter (fun x => x.1 != c) })

/-! ## Meanings -/

def execEvcLevelChange (n : Nat) (s : State) : Host.Outcome State Fault Refusal :=
  .next (if n < 1024 then s.seeLevel n else s)
def execEvcClaim (c : Nat) (s : State) : Host.Outcome State Fault Refusal :=
  .next (if c < 8 then s.claim c else s)
def execEvcEoi (c src : Nat) (s : State) : Host.Outcome State Fault Refusal :=
  .next (if c < 8 ∧ src < 1024 then s.eoi c src else s)
def execEvcEoiPop (c : Nat) (s : State) : Host.Outcome State Fault Refusal :=
  .next (if c < 8 then s.eoiPop c else s)
def execEvcStuckClear (n : Nat) (s : State) : Host.Outcome State Fault Refusal :=
  .next (if n < 1024 then s.unstick n else s)
def execExtEvtPinChange (k : Nat) (level : Bool) (s : State) : Host.Outcome State Fault Refusal :=
  .next (if k < 8 then s.pinChange k level else s)
def execPinFilterExpire (k : Nat) (s : State) : Host.Outcome State Fault Refusal :=
  .next (if k < 8 then s.pinFilter k else s)
def execPinPolarityWrite (v : Nat) (s : State) : Host.Outcome State Fault Refusal :=
  .next (if v < 256 then s.pinPolarity v else s)

end Sys2Proof.Machine
end

