-- ==== Sys2Proof/Machine/Aperture.lean ====
section
/-!
DEFINITION. Acknowledgement of posted writes to the data aperture (15_links_host R448, R449): rows of a command window count after it,
and a write to a core of another module is answered by it.
-/

namespace Sys2Proof.Machine

/-- Accessor of a function: 8 the physical one, 8 + v VF v. -/
def fnAcc (f : Nat) : Nat := 8 + f

/-- An access of the data aperture that the bridge discards and counts (R448); a read returns all ones. -/
def State.discard4 (s : State) (acc : Nat) (read : Option Nat) : State :=
  let s1 := s.bump LINK_HB_DISCARD_count 1
  match read with
  | some len => s1.emit (.pageData acc (List.replicate len 0xFF))
  | none => s1

/-- Rows complete whose earlier posted writes are all acknowledged count (R449). -/
def State.countRows (s : State) (f : Nat) : State :=
  let x := s.pciFn f
  let free := fun (e : Nat × Nat) => s.hb.fwds.all (fun w => !(w.write && w.acc == fnAcc f && decide (w.tag < e.2)))
  s.setFn f { x with
    counted := x.counted ++ (x.waiting.filter free).map (·.1), waiting := x.waiting.filter (fun e => !free e) }

/-- The reply to a PAGE takes the access off the bridge's list: bytes for a read, a count where it was discarded. -/
def State.pageReply (s : State) (m tag : Nat) (discarded : Bool) (bytes : List Byte) : State :=
  match s.hb.fwds.find? (fun w => w.page && w.module == m && w.tag % 65536 == tag) with
  | none => s
  | some w =>
    let s1 := { s with hb := { s.hb with fwds := s.hb.fwds.erase w } }
    if w.write then (if discarded then s1.discard4 w.acc none else s1).countRows (w.acc - 8)
    else if discarded then s1.discard4 w.acc (some w.bytes)
    else s1.emit (.pageData w.acc bytes)

/-- A write to a core is acknowledged once its rows have landed or been dropped (R449). -/
def State.waitAck (s : State) (a : PageAck) : State := { s with hb := { s.hb with acks := s.hb.acks ++ [a] } }

/-- Rows of a write that are still on their way to their core. -/
def State.rowsOut (s : State) (op : Nat) : Bool :=
  s.net.any (fun p => p.writer == .host && p.op == op) ||
    s.cores.any (fun c => c.2.landing.any (fun l => l.writer == .host && l.op == op))

/-- The writes to cores whose rows are all there are acknowledged: to the module they came from, or here. -/
def State.pageAcks (s : State) : State :=
  let over_ := s.hb.acks.filter (fun a => !s.rowsOut a.op)
  each (fun (a : PageAck) (t : State) =>
    if a.module = t.ownAddr then t.pageReply a.module a.tag false []
    else (t.sendTo a.module 10 a.part (a.tag + 2 ^ 16 + 2 ^ 17) []).1) over_
    { s with hb := { s.hb with acks := s.hb.acks.filter (fun a => !over_.contains a) } }

end Sys2Proof.Machine
end

