-- ==== Sys2Proof/Machine/Layouts.lean ====
section
/-!
DEFINITION. The layout stream (08_layout_stream R229 to R253): reading a staged stream, the checks of a CHECK and of
phases 1 to 3 of a LOAD in the order in which R255 and R256 name their codes, parameters and relocation.
-/

namespace Sys2Proof.Machine

/-- A failed check: the code of R253, the section table index, the record. -/
structure Fail where
  code : Nat
  sec : Nat
  record : Nat
  deriving DecidableEq, Repr

def failIf (b : Bool) (code sec record : Nat) : Option Fail := if b then some ⟨code, sec, record⟩ else none

/-- The first failure of a list of records, numbered from 0. -/
def firstFail {α : Type} (f : α → Nat → Option Fail) : List α → Nat → Option Fail
  | [], _ => none
  | a :: r, i => match f a i with
    | some x => some x
    | none => firstFail f r (i + 1)

/-- A section table entry (R233). -/
structure Sec where
  idx : Nat
  type : Nat
  required : Bool
  records : Nat
  off : Nat
  size : Nat
  crc : Nat
  deriving DecidableEq, Repr

/-- What phase 1 reads of a stream. -/
structure Head where
  slots : List Nat
  version : Nat
  grade : Nat
  length : Nat
  sections : Nat
  stages : Nat
  cores : Nat
  spares : Nat
  clusters : Nat
  secs : List Sec
  frame : List (Nat × Nat)
  deriving DecidableEq, Repr

/-- Logical core count N of a partition (R22). -/
def State.coreCount (s : State) (n : Nat) : Nat :=
  match s.inv with
  | some v => (s.clusters n).foldl (fun k g => k + v.mapCount g) 0
  | none => 0

/-- Reserve cores in a partition's clusters (R21, R231). -/
def State.reserveCount (s : State) (n : Nat) : Nat :=
  match s.inv with
  | some v => ((s.clusters n).filter (fun g => v.goodMask g == 0xFFFF)).length
  | none => 0

/-- The binding of R22: logical ids in order, with their physical cores. -/
def State.binding (s : State) (n : Nat) : List (Nat × Nat) :=
  match s.inv with
  | some v =>
    let ps := (s.clusters n).flatMap (fun g => (v.goodCores g).take (v.mapCount g))
    (List.range ps.length).zip ps
  | none => []

/-- The head of the stream that a list of pages holds (R230, R233, R236). -/
def State.headAt (s : State) (slot : Nat) : Head :=
  let slots := s.listFrom noSlot slot
  let n := s.listNum slots
  let k := n 0x010 2
  let secs := (List.range (min k 32)).map (fun i =>
    let o := 0x100 + 32 * i
    (⟨i, n o 2, (n (o + 2) 1).testBit 0, n (o + 4) 4, n (o + 8) 8, n (o + 0x10) 8, n (o + 0x18) 4⟩ : Sec))
  let cl := n 0x018 2
  { slots := slots, version := n 4 1, grade := n 5 1, length := n 8 8, sections := k, stages := n 0x012 1
    cores := n 0x014 2, spares := n 0x016 2, clusters := cl, secs := secs
    frame := match secs.find? (fun x => x.type == 1) with
      | some x => (List.range cl).map (fun i => (n (x.off + 4 * i) 4 % 2 ^ 16, n (x.off + 4 * i) 4 / 2 ^ 16))
      | none => [] }

/-- The head of the stream staged for the job. -/
def State.readHead (s : State) : Head := s.headAt (s.get LOAD_SRC_slot)

/-- Sections of a stream by type. -/
def Head.sec (h : Head) (type : Nat) : Option Sec := h.secs.find? (fun x => x.type == type)

/-- Bytes of phase 1: header and section table. -/
def Head.tableEnd (h : Head) : Nat := 0x100 + 32 * h.sections

def overlaps (a b : Nat × Nat) : Bool := decide (a.1 < b.1 + b.2 ∧ b.1 < a.1 + a.2)

/-- Two entries of a list of ranges overlap. -/
def anyOverlap : List (Nat × Nat) → Bool
  | [] => false
  | a :: r => r.any (overlaps a) || anyOverlap r

/-- Place of the first entry at which two lists differ. -/
def firstDiff : List Nat → List Nat → Nat
  | a :: r, b :: t => if a = b then firstDiff r t + 1 else 0
  | _, _ => 0

/-- The checks of R255 after 0x0004, in its order. -/
def State.checkHead (s : State) (n : Nat) (h : Head) : Option Fail :=
  let num := s.listNum h.slots
  let len := s.pair LOAD_LEN_LO LOAD_LEN_HI
  let N := s.coreCount n
  let fr := h.sec 1
  let c := fun (b : Bool) (k : Nat) => failIf b k 0xFF 0
  (c (!s.listOwned n h.slots len || s.listBad h.slots 0 (min h.tableEnd len)) 0x18) <|>
  (fr.bind (fun x => firstFail (fun (i : Nat) _ => failIf (s.listBad h.slots (x.off + 4 * i) 4) 0x18 x.idx i)
    (List.range h.clusters) 0)) <|>
  (c (num 0 4 != 0x48544C44) 0x10) <|>
  (c (decide (h.version < s.get IDENT_CAP_diloth_min ∨ s.get IDENT_CAP_diloth_max < h.version)) 0x11) <|>
  (c (num 6 2 != 0x0096) 0x12) <|>
  (c (num 0xFC 4 != crc32c (s.listBytes h.slots 0 0xFC) || num 0x13 1 != 0 || num 0x1A 2 != 0 || num 0x50 172 != 0) 0x13) <|>
  (c (decide (h.length ≠ len ∨ h.length % 64 ≠ 0 ∨ 2097152 * h.slots.length < h.length)) 0x14) <|>
  (c (decide (h.sections < 1 ∨ 32 < h.sections ∨ h.length < h.tableEnd)) 0x15) <|>
  (firstFail (fun (x : Sec) i => failIf (decide (x.off % 64 ≠ 0 ∨ x.off < h.tableEnd ∨ h.length < x.off + x.size)) 0x15 i 0)
    h.secs 0) <|>
  (firstFail (fun (x : Sec) i => failIf (x.size != 0 && (h.secs.take i).any (fun y => y.size != 0 &&
    overlaps (x.off, x.size) (y.off, y.size))) 0x15 i 0) h.secs 0) <|>
  (c (!s.on IDENT_INV_STAT_valid) 0x25) <|>
  (c (h.grade != 0 && !(h.grade == 0x41 && s.inv.any (fun v => v.grade == 0x41))) 0x20) <|>
  (c (decide (N < h.cores)) 0x21) <|>
  (c (decide (N - h.cores + s.reserveCount n < h.spares)) 0x22) <|>
  (failIf (h.frame.map (fun x => x.1) != s.clusters n) 0x23 ((fr.map (·.idx)).getD 0xFF)
    (firstDiff (h.frame.map (fun x => x.1)) (s.clusters n))) <|>
  (firstFail (fun (x : Nat × Nat) i => failIf (decide (16 ≤ x.2)) 0x23 ((fr.map (·.idx)).getD 0xFF) i) h.frame 0) <|>
  (firstFail (fun (x : Nat × Nat) i => failIf (decide (s.inv.any (fun v => v.mapCount x.1 != x.2))) 0x24
    ((fr.map (·.idx)).getD 0xFF) i) h.frame 0)

/-! ## Sections: counts, sizes, walks (R235, R237, R240, R246) -/

/-- From version, required, and bytes of a record, for the fixed-size types of R235. -/
def secInfo : Nat → Option (Nat × Bool × Nat)
  | 0x01 => some (2, true, 4)
  | 0x02 => some (2, true, 0)
  | 0x03 => some (2, true, 32)
  | 0x04 => some (2, true, 448)
  | 0x05 => some (2, false, 0)
  | 0x06 => some (2, true, 16)
  | 0x07 => some (2, true, 144)
  | 0x08 => some (2, false, 16)
  | 0x09 => some (2, false, 4)
  | 0x0A => some (2, false, 16)
  | 0x0B => some (3, false, 0)
  | 0x0C => some (2, false, 0)
  | 0x0D => some (2, false, 8)
  | 0x0E => some (2, true, 64)
  | 0x0F => some (2, false, 16)
  | 0x10 => some (3, false, 24)
  | 0x11 => some (2, false, 16)
  | _ => none

/-- Images of PROG: first byte of the words in the section's data, and word count (R237); none if they do not fit. -/
def walkProg (num : Nat → Nat → Nat) (stop : Nat) : Nat → Nat → Option (List (Nat × Nat))
  | 0, o => if o = stop then some [] else none
  | k + 1, o =>
    let w := num o 2
    if o + 64 ≤ stop ∧ 1 ≤ w ∧ w ≤ 16384 ∧ num (o + 2) 62 = 0 then
      (walkProg num stop k (o + 64 + 64 * ceilDiv (8 * w) 64)).map (fun r => (o + 64, w) :: r)
    else none

/-- An INIT record (R240): logical id, first row, rows, first byte of its data. -/
structure InitRec where
  logical : Nat
  first : Nat
  rows : Nat
  data : Nat
  deriving DecidableEq, Repr

def walkInit (num : Nat → Nat → Nat) (stop : Nat) : Nat → Nat → Option (List InitRec)
  | 0, o => if o = stop then some [] else none
  | k + 1, o =>
    let rows := num (o + 8) 4
    if o + 16 + 64 * rows ≤ stop then
      (walkInit num stop k (o + 16 + 64 * rows)).map (fun r => ⟨num o 2, num (o + 4) 4, rows, o + 16⟩ :: r)
    else none

def walkFold (num : Nat → Nat → Nat) (stop : Nat) : Nat → Nat → Option (List Fold)
  | 0, o => if o = stop then some [] else none
  | k + 1, o =>
    let m := num (o + 2) 2
    let v := num (o + 4) 2
    let sz := 16 * ceilDiv (16 + 12 * m + 2 * v) 16
    if o + sz ≤ stop then
      (walkFold num stop k (o + sz)).map (fun r =>
        { die := num o 1, set := num (o + 1) 1
          moves := (List.range m).map (fun i =>
            let a := o + 16 + 12 * i
            ⟨num a 2, num (a + 2) 2, num (a + 4) 4, num (a + 8) 4⟩)
          overrides := (List.range v).map (fun i =>
            (num (o + 16 + 12 * m + 2 * i) 1, num (o + 16 + 12 * m + 2 * i + 1) 1)) } :: r)
    else none

/-- First byte of each plan of a FOLD section. -/
def foldHeads (num : Nat → Nat → Nat) : Nat → Nat → Option (List Nat)
  | 0, _ => some []
  | k + 1, o => (foldHeads num k (o + 16 * ceilDiv (16 + 12 * num (o + 2) 2 + 2 * num (o + 4) 2) 16)).map (fun r => o :: r)

/-- Everything phase 2 reads of a stream. -/
structure Stream where
  head : Head
  images : List (Nat × Nat)
  recs : List CoreRec
  confs : Nat
  confOff : Nat
  inits : List InitRec
  beatTicks : Nat
  beatGuard : Nat
  beatSlip : Nat
  window : Nat
  rcpOff : Nat
  flows : List Flow
  edges : List Nat
  spares : List SpareRec
  folds : List Fold
  wman : Option Wman
  pages : List (Nat × Nat × Nat)
  serve : Serve
  qos : Option (Nat × Nat × Nat × Nat)
  params : List Nat
  relocs : List Nat
  deriving DecidableEq, Repr

/-- First byte and record count of a section; an absent one is empty. -/
def Head.data (h : Head) (type : Nat) : Nat × Nat :=
  match h.sec type with
  | some x => (x.off, x.records)
  | none => (0, 0)

def readWman (num : Nat → Nat → Nat) (o : Nat) : Wman :=
  { model := num o 2, epoch := num (o + 0x10) 4, shared := (num (o + 0x14) 1).testBit 0
    shadowed := (num (o + 0x14) 1).testBit 1, rows := num (o + 0x18) 8
    entries := (List.range (num (o + 0x20) 4)).map (fun i =>
      let a := o + 64 + 24 * i
      ⟨num a 2, num (a + 4) 4, num (a + 8) 4, num (a + 0xC) 4, num (a + 0x10) 8⟩) }

def readCand (w : Nat) : Cand := ⟨field w 30 2, field w 24 6, field w 0 14⟩

/-- A section of records of their own sizes, walked from its first byte. -/
def Head.walk {α : Type} (h : Head) (type : Nat) (f : Nat → Nat → Nat → Option (List α)) : List α :=
  match h.sec type with
  | some x => (f (x.off + x.size) x.records x.off).getD []
  | none => []

/-- The stream as phase 2 reads it. -/
def State.readStream (s : State) (h : Head) : Stream :=
  let num := s.listNum h.slots
  let at_ := h.data
  let recs := fun (type size : Nat) => (List.range (at_ type).2).map (fun i => (at_ type).1 + size * i)
  let b := (at_ 6).1
  let v := (at_ 0x0E).1
  { head := h
    images := h.walk 2 (walkProg num)
    recs := (recs 3 32).map (fun o =>
      { image := num o 2, stage := num (o + 2) 1, conf := num (o + 3) 1
        prog := (List.range 4).map (fun i => BitVec.ofNat 32 (num (o + 4 + 4 * i) 4)) })
    confs := (at_ 4).2, confOff := (at_ 4).1
    inits := h.walk 5 (walkInit num)
    beatTicks := num b 2, beatGuard := num (b + 2) 1, beatSlip := num (b + 3) 1, window := num (b + 4) 2
    rcpOff := (at_ 7).1
    flows := (recs 8 16).map (fun o => ⟨num o 2, num (o + 2) 2, num (o + 4) 4, num (o + 8) 4, num (o + 12) 1, num (o + 13) 1⟩)
    edges := (recs 9 4).map (fun o => num o 2)
    spares := (recs 0x0A 16).map (fun o =>
      ⟨num o 2, (List.range 3).map (fun i => readCand (num (o + 4 + 4 * i) 4))⟩)
    folds := h.walk 0x0B (walkFold num)
    wman := (h.sec 0x0C).map (fun x => readWman num x.off)
    pages := (recs 0x0D 8).map (fun o => (num o 4, num (o + 4) 1, num (o + 5) 1))
    serve :=
      { slots := num v 1, chunkMax := num (v + 1) 1, lookahead := num (v + 2) 1, span := num (v + 3) 1
        stageIn := num (v + 4) 1, stageOut := num (v + 5) 1, watch := num (v + 6) 1, kvRows := num (v + 8) 4
        spanPos := num (v + 12) 4 }
    qos := (h.sec 0x0F).map (fun x => (num x.off 1, num (x.off + 1) 1, num (x.off + 2) 1, num (x.off + 4) 4))
    params := recs 0x10 24
    relocs := recs 0x11 16 }

/-- Records and size of a known section are as R235 and its own format give (R234). A count of stages, cores or clusters
outside the range of R230 has no code of its own: it is a wrong record count of the section that holds one record for each (log
entry 125). -/
def State.secSizeOk (s : State) (h : Head) (x : Sec) : Bool :=
  let num := s.listNum h.slots
  let fixed := fun (n size : Nat) => decide (x.records = n ∧ x.size = n * size)
  let upTo := fun (lo hi size : Nat) => decide (lo ≤ x.records ∧ x.records ≤ hi ∧ x.size = x.records * size)
  match x.type with
  | 0x01 => fixed h.clusters 4 && decide (1 ≤ h.clusters ∧ h.clusters ≤ 576)
  | 0x02 => decide (1 ≤ x.records ∧ x.records ≤ 8640) && (walkProg num (x.off + x.size) x.records x.off).isSome
  | 0x03 => fixed h.cores 32 && decide (1 ≤ h.cores ∧ h.cores ≤ 8640)
  | 0x04 => upTo 1 256 448
  | 0x05 => (walkInit num (x.off + x.size) x.records x.off).isSome
  | 0x06 => fixed 1 16
  | 0x07 => fixed h.stages 144 && decide (1 ≤ h.stages ∧ h.stages ≤ 128)
  | 0x08 => upTo 0 (2 ^ 32) 16
  | 0x09 => fixed 34 4
  | 0x0A => upTo 0 h.cores 16
  | 0x0B => decide (x.records ≤ 72) && (walkFold num (x.off + x.size) x.records x.off).isSome
  | 0x0C => decide (64 ≤ x.size ∧ x.records = 1 + num (x.off + 0x20) 4 ∧ x.size = 64 + 24 * num (x.off + 0x20) 4)
  | 0x0D => upTo 0 64 8
  | 0x0E => fixed 1 64
  | 0x0F => fixed 1 16
  | 0x10 => upTo 0 256 24
  | 0x11 => upTo 0 (2 ^ 32) 16
  | _ => true

/-- Codes 0x0016 and 0x0017. -/
def State.checkSections (s : State) (h : Head) : Option Fail :=
  (firstFail (fun (x : Sec) i => failIf (x.crc != crc32c (s.listBytes h.slots x.off x.size)) 0x16 i 0) h.secs 0) <|>
  (failIf ((List.range 18).any (fun t => (secInfo t).any (fun k => k.2.1) && (h.sec t).isNone)) 0x17 0xFF 0) <|>
  (firstFail (fun (x : Sec) i =>
    failIf (match secInfo x.type with
      | none => x.required
      | some k => decide (h.version < k.1) || !s.secSizeOk h x) 0x17 i 0 <|>
    failIf ((h.secs.take i).any (fun y => y.type == x.type)) 0x17 i 0) h.secs 0)

/-! ## Templates, cores, plan, recipes (R239 to R242) -/

/-- Word at an offset of a CONF template. -/
def State.confWord (s : State) (h : Head) (t : Stream) (k o : Nat) : Nat := s.listNum h.slots (t.confOff + 448 * k + o) 4

/-- Valid regions of a template: base and limit. -/
def State.confRegions (s : State) (h : Head) (t : Stream) (k : Nat) : List (Nat × Nat) :=
  ((List.range 16).map (fun i => s.confWord h t k (4 * i))).filterMap (fun w =>
    if w.testBit 31 then some (field w 0 12, field w 12 12) else none)

/-- R146. -/
def regionsOk (rs : List (Nat × Nat)) : Bool :=
  rs.all (fun r => decide (r.1 < r.2 ∧ r.2 ≤ 3072)) && !anyOverlap (rs.map (fun r => (r.1, r.2 - r.1)))

/-- Reserved bits clear and counted windows on enabled counters (R239). -/
def State.confOk (s : State) (h : Head) (t : Stream) (k : Nat) : Bool :=
  let w := s.confWord h t k
  let en := fun n => (w (if n < 32 then 0xA0 else 0xA4)).testBit (n % 32)
  (List.range 16).all (fun i => field (w (4 * i)) 24 5 == 0) &&
    (List.range 8).all (fun i =>
      let c := w (0x40 + 12 * i + 8)
      decide (w (0x40 + 12 * i) < 2 ^ 17 ∧ w (0x40 + 12 * i + 4) < 2 ^ 17 ∧ c &&& (2 ^ 32 - 1 - 0x87C0007F) = 0) &&
        (!c.testBit 6 || en (field c 0 6))) &&
    (List.range 64).all (fun i => decide (w (0xA8 + 4 * i) < 2 ^ 24)) &&
    (List.range 6).all (fun i => w (0x1A8 + 4 * i) == 0)

/-- A recipe entry of the stream: its three words (R242). -/
def State.rcpWord (s : State) (h : Head) (t : Stream) (st o : Nat) : Nat := s.listNum h.slots (t.rcpOff + 144 * st + o) 4

def State.rcpCfg (s : State) (h : Head) (t : Stream) (st k : Nat) : Nat := s.rcpWord h t st (0x10 + 16 * k)

/-- A seed as the loader takes it: subnormals to zero, either zero to +0; none if it is refused (R242). -/
def seedMu (w : Nat) : Option Nat :=
  let ex := field w 23 8
  if ex = 255 then none
  else if ex = 0 then some 0
  else if w.testBit 31 then none else some w

/-- The escalations from a recipe come back to it. -/
def escCycle (next : Nat → Option Nat) (start : Nat) : Nat → Nat → Bool
  | 0, _ => false
  | fuel + 1, k => match next k with
    | some j => j == start || escCycle next start fuel j
    | none => false

/-- R127 and R242 for one stage, but for the program checks of the moved regions. Only a region that an entry moves asks that the
entry be valid; the plans, the exponents and the escalations of every entry are checked. -/
def State.rcpOk (s : State) (h : Head) (t : Stream) (st : Nat) : Bool :=
  let w := s.rcpWord h t st
  let cfg := s.rcpCfg h t st
  let valid := fun k => (cfg k).testBit 31
  let next := fun k => if (cfg k).testBit 29 then some (field (cfg k) 26 3) else none
  let S := 256 * t.beatTicks - 64 * t.beatGuard
  decide (field (w 0) 0 16 ≤ 511) && decide (1 ≤ field (w 4) 0 8 ∧ field (w 4) 0 8 ≤ 15) && (seedMu (w 8)).isSome &&
    decide (field (w 4) 8 24 = 0 ∧ w 0x0C = 0) && (List.range 8).all (fun k => w (0x1C + 16 * k) == 0) &&
    valid 0 && (List.range 8).all (fun k =>
      let off := w (0x14 + 16 * k)
      let plan := w (0x18 + 16 * k)
      decide (field plan 0 16 ≤ S ∧ field plan 16 16 ≤ S ∧ field (cfg k) 0 8 ≠ 255 ∧ field (cfg k) 8 8 ≠ 255) &&
        (match next k with | some j => valid j | none => true) && !escCycle next k 8 k &&
        (!valid k || (t.recs.filter (fun r => r.stage == st)).all (fun r => r.prog.all (fun p =>
          decide (bits p 16 15 + max (field off 0 14) (field off 16 14) ≤ 16384)))))

/-! ## Routes and budgets (R186, R189) -/

/-- Output code of crossing `i` of a path. -/
def Flow.code (f : Flow) (i : Nat) : Nat := field f.path (4 * i) 4

def clusterDie (g : Nat) : Nat := g / 8

/-- The dies and outputs of a flow: (die, output) pairs to the end of its path, if the path exists (R186). -/
def State.flowHops (s : State) (f : Flow) : Nat → Nat → Option (List (Nat × Nat) × Nat)
  | 0, d => some ([], d)
  | k + 1, d =>
    let c := f.code (f.hops - (k + 1))
    if 1 ≤ c ∧ c ≤ 8 then
      match neighbour d c with
      | some x => if s.dieUsable x then (s.flowHops f k x).map (fun r => ((d, c) :: r.1, r.2)) else none
      | none => none
    else none

def State.flowPath (s : State) (f : Flow) : Option (List (Nat × Nat)) :=
  if 8 < f.hops then none
  else match s.flowHops f f.hops (clusterDie f.source) with
    | some (hs, d) => if d = clusterDie f.dest then some (hs ++ [(d, 0)]) else none
    | none => none

/-- Table entries that a flow gives: (die, destination die, output). -/
def State.flowEntries (s : State) (f : Flow) : List (Nat × Nat × Nat) :=
  ((s.flowPath f).getD []).map (fun h => (h.1, clusterDie f.dest, h.2))

/-- Outputs a flow loads: lanes as 9 * die + code, up-links 1000 + cluster, down-links 2000 + cluster. -/
def State.flowLoads (s : State) (f : Flow) : List Nat :=
  (((s.flowPath f).getD []).filterMap (fun h => if h.2 = 0 then none else some (9 * h.1 + h.2))) ++
    (if f.source = f.dest then [] else [1000 + f.source, 2000 + f.dest])

/-- Class 0 allowance of an output, in rows per tick (R186). -/
def allowance (o : Nat) : Nat :=
  if 1000 ≤ o then 1536 else if o % 9 ≤ 4 ∧ o % 9 ≠ 0 then 19968 else 9984

/-- A common multiple of all beat lengths, to sum rows per tick exactly. -/
def beatMultiple : Nat := (List.range 256).foldl (fun a b => Nat.lcm a (b + 1)) 1

/-- The main flows of the loaded partitions but one, with their beat lengths. -/
def State.otherFlows (s : State) (n : Nat) : List (Flow × Nat) :=
  (s.parts.filter (fun q => q.1 != n)).flatMap (fun q =>
    match q.2.layout with
    | some l => (l.flows.filter (fun f => f.set == 0)).map (fun f => (f, s.planB q.1))
    | none => [])

/-- Flows of one set pass R186 beside the other partitions; what a set breaks, it breaks from its first such flow on. -/
def State.flowSetOk (s : State) (n : Nat) (fs : List Flow) (ticks : Nat) : Bool :=
  fs.all (fun f => (s.flowPath f).isSome) &&
    (let es := fs.flatMap s.flowEntries
     es.all (fun a => es.all (fun b => !(a.1 == b.1 && a.2.1 == b.2.1) || a.2.2 == b.2.2))) &&
    (let all := fs.map (fun f => (f, ticks)) ++ s.otherFlows n
     let outs := (fs.flatMap s.flowLoads).eraseDups
     outs.all (fun o => decide ((all.filter (fun x => (s.flowLoads x.1).contains o)).foldl
       (fun a x => a + x.1.rows * (beatMultiple / max x.2 1)) 0 ≤ allowance o * beatMultiple)))

/-- Capacity and address of edge port `p` of R244. -/
def edgeDie (p : Nat) : Nat := if p < 18 then bayDie p else if p < 26 then p - 18 else 64 + (p - 26)
def edgeCap (p : Nat) : Nat := if p < 18 then 6826 else 1024
def edgeReg (p n : Nat) : FieldRef :=
  if p < 18 then DIE_EDGE_BUDGET_BAY_rows (edgeDie p) n else DIE_EDGE_BUDGET_LINK_rows (edgeDie p) n

def State.edgeOk (s : State) (n p rows : Nat) : Bool :=
  decide (rows + ((s.parts.filter (fun q => q.1 != n && q.2.layout.isSome)).foldl
    (fun a q => a + s.get (edgeReg p q.1)) 0) ≤ edgeCap p)

/-! ## Fault provisions, weights, serving, shares (R245 to R250) -/

def Stream.setDefined (t : Stream) (k : Nat) : Bool := k == 0 || t.flows.any (fun f => f.set == k)

def State.candOk (s : State) (t : Stream) (N : Nat) (c : Cand) : Bool :=
  match c.kind with
  | 0 => true
  | 1 => decide (t.head.cores ≤ c.target ∧ c.target < N) && t.setDefined c.set
  | 2 => t.head.frame.any (fun x => x.1 == c.target) && s.inv.any (fun v => v.goodMask c.target == 0xFFFF) && t.setDefined c.set
  | _ => false

/-- Rows of core ranges: (first, rows) of the main ranges and, if given, the shadow ranges of a logical id. -/
def Stream.weightRanges (t : Stream) (l : Nat) : List (Nat × Nat) :=
  match t.wman with
  | none => []
  | some w => (w.entries.filter (fun e => e.logical == l)).flatMap (fun e =>
      (e.first, e.rows) :: (if w.shadowed then [(e.shadow, e.rows)] else []))

def Stream.foldOk (t : Stream) (bind : List (Nat × Nat)) (validRcp : Nat → Nat → Bool) (f : Fold) : Bool :=
  let die := fun l => (lookup? bind l).map (· / 128)
  f.moves.all (fun m => decide (m.source < t.head.cores) && die m.source == some f.die && (die m.target).any (· != f.die) &&
    decide (m.first + m.rows ≤ trapRow)) &&
    f.moves.all (fun m => !anyOverlap ((f.moves.filter (fun k => k.target == m.target)).map (fun k => (k.first, k.rows)))) &&
    f.overrides.all (fun o => validRcp o.1 o.2) && t.setDefined f.set && t.head.frame.any (fun x => clusterDie x.1 == f.die)

/-- R249, and R310 on the span. -/
def serveOk (S : Nat) (v : Serve) : Bool :=
  decide (v.chunkMax * (v.span - 1) ≤ v.spanPos) &&
  decide (1 ≤ v.slots ∧ v.slots ≤ 16 ∧ 1 ≤ v.chunkMax ∧ v.chunkMax ≤ 8 ∧ v.lookahead < v.slots ∧ 1 ≤ v.span ∧ v.span ≤ 8 ∧
    v.stageIn < v.stageOut ∧ v.stageOut < S ∧ v.watch ≤ 1)

def wentryOk (t : Stream) (w : Wman) (e : WEntry) : Bool :=
  decide (e.logical < t.head.cores ∧ e.first + e.rows ≤ trapRow ∧ e.home + e.rows ≤ w.rows) &&
    (!w.shadowed || decide (e.shadow + e.rows ≤ trapRow)) && !anyOverlap (t.weightRanges e.logical)

/-! ## Parameters (R251) -/

/-- The value of a parameter; none where it refuses the load, or where the record breaks its own format: an input above 7, a shift
above 31, a hi below lo (log entry 102). -/
def State.param (s : State) (n : Nat) (t : Stream) (o : Nat) : Option Int :=
  let num := s.listNum t.head.slots
  let N := s.coreCount n
  let input : Nat := match num o 1 with
    | 1 => N
    | 2 => t.head.cores
    | 3 => N - t.head.cores + s.reserveCount n
    | 4 => n
    | 5 => t.head.clusters
    | 6 => s.ownAddr
    | 7 => s.usableBays.length
    | _ => 0
  let sg := fun x => signed (num (o + x) 4) 32
  let v := (signed (unsigned ((input : Int) * sg 4 + sg 8) 64) 64) >>> num (o + 2) 1
  let lo := sg 0x0C
  let hi := sg 0x10
  if 7 < num o 1 ∨ 31 < num (o + 2) 1 ∨ hi < lo then none
  else if v < lo ∨ hi < v then
    (if (num (o + 1) 1).testBit 0 then none else some (if v < lo then lo else hi))
  else some v

/-! ## Phase 2 in the order of its codes

A code that names a record's own rule is given for any break of that rule, a reserved byte that is not 0 among them (log entry 102). -/

def State.checkBody (s : State) (n : Nat) (t : Stream) : Option Fail :=
  let h := t.head
  let N := s.coreCount n
  let ix := fun type => ((h.sec type).map (·.idx)).getD 0xFF
  let num := s.listNum h.slots
  let validRcp := fun st k => decide (st < h.stages ∧ k < 8) && (s.rcpCfg h t st k).testBit 31
  let each_ := fun (k : Nat) (f : Nat → Bool) (code type : Nat) =>
    firstFail (fun (i : Nat) _ => failIf (!f i) code (ix type) i) (List.range k) 0
  (each_ t.confs (fun k => regionsOk (s.confRegions h t k)) 0x31 4) <|>
  (each_ t.confs (fun k => s.confOk h t k) 0x32 4) <|>
  (firstFail (fun (r : CoreRec) i => failIf (decide (t.images.length ≤ r.image ∨ h.stages ≤ r.stage ∨ t.confs ≤ r.conf)) 0x33
    (ix 3) i) t.recs 0) <|>
  (failIf (!beatPlanOk t.beatTicks t.beatGuard t.beatSlip || t.window == 0) 0x34 (ix 6) 0) <|>
  (each_ h.stages (fun st => s.rcpOk h t st) 0x35 7) <|>
  (firstFail (fun (f : Flow) i => failIf (!(h.frame.any (fun x => x.1 == f.source)) || !(h.frame.any (fun x => x.1 == f.dest)) ||
    decide (63 < f.set) || !s.flowSetOk n ((t.flows.take (i + 1)).filter (fun g => g.set == f.set)) t.beatTicks) 0x36 (ix 8) i)
    t.flows 0) <|>
  (each_ t.edges.length (fun p => s.edgeOk n p (t.edges.getD p 0)) 0x37 9) <|>
  (firstFail (fun (r : SpareRec) i => failIf (decide (h.cores ≤ r.logical) || num ((h.data 0x0A).1 + 16 * i + 2) 2 != 0 ||
    (List.range 3).any (fun c => field (num ((h.data 0x0A).1 + 16 * i + 4 + 4 * c) 4) 14 10 != 0) ||
    (t.spares.take i).any (fun q => q.logical == r.logical) || !(r.cands.all (s.candOk t N))) 0x38 (ix 0x0A) i) t.spares 0) <|>
  (firstFail (fun (o : Nat) i => failIf (num (o + 6) 10 != 0) 0x39 (ix 0x0B) i) (h.walk 0x0B (fun _ => foldHeads num)) 0) <|>
  (firstFail (fun (f : Fold) i => failIf (!(t.foldOk (s.binding n) validRcp f) || (t.folds.take i).any (fun g => g.die == f.die))
    0x39 (ix 0x0B) i) t.folds 0) <|>
  (firstFail (fun (o : Nat) i => failIf ((s.param n t o).isNone || num (o + 3) 1 != 0 || num (o + 0x14) 4 != 0) 0x3A (ix 0x10) i) t.params 0) <|>
  (failIf (!serveOk h.stages t.serve || num ((h.data 0x0E).1 + 7) 1 != 0 || num ((h.data 0x0E).1 + 0x10) 48 != 0) 0x3C (ix 0x0E) 0) <|>
  (failIf ((h.sec 0x0F).any (fun x => num (x.off + 3) 1 != 0 || num (x.off + 8) 8 != 0) || t.qos.any (fun q => decide (s.get (PART_RES_SHARE_bay n) < q.1 ∨ s.get (PART_RES_SHARE_link n) < q.2.1 ∨
    s.get (PART_RES_SHARE_class2 n) < q.2.2.1 ∨ s.get (PART_RES_QUOTA_pages n) < q.2.2.2))) 0x3D (ix 0x0F) 0) <|>
  (match t.wman with
   | none => none
   | some w =>
     let o := (h.data 0x0C).1
     failIf (num (o + 2) 14 != 0 || field (num (o + 0x14) 4) 2 30 != 0 || num (o + 0x24) 28 != 0) 0x3E (ix 0x0C) 0 <|>
     firstFail (fun (e : WEntry) i => failIf (!wentryOk t w e || num (o + 64 + 24 * i + 2) 2 != 0) 0x3E (ix 0x0C) i) w.entries 0) <|>
  (firstFail (fun (r : InitRec) i => failIf (decide (h.cores ≤ r.logical ∨ trapRow < r.first + r.rows) ||
    num (r.data - 14) 2 != 0 || num (r.data - 4) 4 != 0 ||
    anyOverlap ((t.inits.filter (fun k => k.logical == r.logical)).map (fun k => (k.first, k.rows))) || (t.weightRanges r.logical).any (overlaps (r.first, r.rows))) 0x3F (ix 5) i) t.inits 0)

/-! ## Relocation and programs (R252, R78) -/

/-- A list of a PAGES record: its head slot. -/
def State.pageOf (s : State) (heads : List Nat) (record idx : Nat) : Option Nat :=
  (heads[record]?).bind (fun h => (s.listFrom (idx + 1) h)[idx]?)

/-- The value of a relocation, or none where it names nothing. -/
def State.relocValue (s : State) (n : Nat) (t : Stream) (heads : List Nat) (o : Nat) : Option Int :=
  let num := s.listNum t.head.slots
  let operand := num (o + 0x0A) 2
  let idx := num (o + 0x0C) 4
  let pg := fun (f : Nat → Nat) =>
    match t.pages[operand]? with
    | some r => if idx < r.1 then (s.pageOf heads operand idx).map (fun i => ((f (slotPage (s.slot i)) : Nat) : Int)) else none
    | none => none
  match num (o + 3) 1 % 16 with
  | 1 => if t.head.version < 3 ∨ idx ≠ 0 then none else (t.params[operand]?).bind (s.param n t)
  | 2 => pg (· % pagesPerBay)
  | 3 => pg (· / pagesPerBay)
  | 4 => if operand < 16 ∧ s.on (LOAD_CHAN_valid operand) ∧ idx = 0 then some ((s.get (LOAD_CHAN_channel operand) : Nat) : Int)
      else none
  | _ => none

/-- Bytes of a section where a word may be patched: not an image head, an INIT head, or beyond the data. -/
def Stream.patchable (t : Stream) (x : Sec) (o : Nat) : Bool :=
  decide (o % 8 = 0 ∧ o + 8 ≤ x.size) &&
    match x.type with
    | 2 => !(t.images.any (fun i => decide (x.off + o < i.1 ∧ i.1 < x.off + o + 72)))
    | 4 => true
    | 5 => !(t.inits.any (fun r => overlaps (x.off + o, 8) (r.data - 16, 16)))
    | _ => false

/-- A relocation applied to the stream as patched so far; none where it refuses the load. -/
def State.reloc1 (s : State) (n : Nat) (t : Stream) (heads : List Nat) (o : Nat) : Option (State × Nat) :=
  let num := s.listNum t.head.slots
  let lsb := num (o + 1) 1
  let width := num (o + 2) 1
  let kind := num (o + 3) 1
  match t.head.secs[num o 1]? with
  | none => none
  | some x =>
    if 63 < lsb ∨ width < 1 ∨ 32 < width ∨ 64 < lsb + width ∨ field kind 4 3 ≠ 0 ∨ 31 < num (o + 8) 1 ∨
        num (o + 9) 1 ≠ 0 ∨ !t.patchable x (num (o + 4) 4) then none
    else match s.relocValue n t heads o with
      | none => none
      | some v0 =>
        let v := v0 >>> num (o + 8) 1
        if !kind.testBit 7 ∧ (v < 0 ∨ (2 ^ width : Nat) ≤ v) then none
        else
          let a := x.off + num (o + 4) 4
          let w := setField (num a 8) lsb width (unsigned v width)
          some (s.listPut .uncharged t.head.slots a (bytesOf 8 w), a)

/-- All relocations in order on a copy of the staged stream: the record that fails, or the copy and the words patched. -/
def State.relocate (s : State) (n : Nat) (t : Stream) (heads : List Nat) : List Nat → Nat → Except Nat (State × List Nat)
  | [], _ => .ok (s, [])
  | o :: r, i =>
    match s.reloc1 n t heads o with
    | none => .error i
    | some (u, a) =>
      match u.relocate n t heads r (i + 1) with
      | .error e => .error e
      | .ok (w, l) => .ok (w, a :: l)

/-- Words of an image; beyond the image they are zero (R237). -/
def State.imageWord (s : State) (slots : List Nat) (im : Nat × Nat) (i : Nat) : DWord :=
  if i < im.2 then BitVec.ofNat 64 (s.listNum slots (im.1 + 8 * i) 8) else 0

def engines : List Engine := [.load, .matrix, .vector, .send]

/-- A program region moved by an offset passes R78. -/
def State.regionPasses (s : State) (slots : List Nat) (im : Nat × Nat) (e : Engine) (prog : Word) (off : Nat) : Bool :=
  let base := bits prog 0 14
  let limit := bits prog 16 15
  decide (base < limit ∧ limit + off ≤ 16384) &&
    regionOk e ((List.range (limit - base)).map (fun i => s.imageWord slots im (base + off + i)))

def Stream.image (t : Stream) (r : CoreRec) : Nat × Nat := t.images.getD r.image (0, 0)

/-- The program checks: no list of checks names regions of a core that overlap each other (R73), so such a core is taken (log entry
124). Every region as the core names it with 0x0030, then every region a valid recipe moves with 0x0035
(R127, log entry 39). -/
def State.checkPrograms (s : State) (t : Stream) : Option Fail :=
  let h := t.head
  let ix := ((h.sec 3).map (·.idx)).getD 0xFF
  let rx := ((h.sec 7).map (·.idx)).getD 0xFF
  (firstFail (fun (r : CoreRec) i => failIf (!((engines.zip r.prog).all (fun e =>
    s.regionPasses h.slots (t.image r) e.1 e.2 0))) 0x30 ix i) t.recs 0) <|>
  (firstFail (fun (r : CoreRec) _ => failIf (!((List.range 8).all (fun k => !(s.rcpCfg h t r.stage k).testBit 31 ||
    (let off := s.rcpWord h t r.stage (0x14 + 16 * k)
     (engines.zip r.prog).all (fun e => s.regionPasses h.slots (t.image r) e.1 e.2 (field off 0 14) &&
       s.regionPasses h.slots (t.image r) e.1 e.2 (field off 16 14)))))) 0x35 rx r.stage) t.recs 0)

end Sys2Proof.Machine
end

