-- ==== Sys2Proof/Machine/Loader.lean ====
section
/-!
DEFINITION. The loader's jobs (08_layout_stream R254 to R268): what a job does when it starts, and its end (log entry 40).
-/

namespace Sys2Proof.Machine

/-- State of a partition as LOAD_PSTATE shows it (R267): 0 empty, 1 loading, 2 loaded, 3 active. -/
def State.pstate (s : State) (n : Nat) : Nat :=
  if s.on (BEAT_PLAN_CTL_active n) then 3
  else if (s.part n).layout.isSome then 2
  else if s.job.any (fun j => j.op == 2 && j.part == n) then 1 else 0

/-- Every control-space word of an address range back at its reset value. -/
def State.eraseCtl (s : State) (lo hi : Nat) : State :=
  { s with ctl := s.ctl.filter (fun e => !decide (lo ≤ e.1 ∧ e.1 < hi)) }

/-- Control page and core registers of a core at their reset values, by an internal reset of the core (R101, R162, R257); UNLOAD
takes the same way (log entry 126). -/
def State.wipeCore (s : State) (p : Nat) : State :=
  let s1 := ((s.coreReset p).pageReset p).eraseCtl (DIE_CORE_CTL p) (DIE_CORE_CTL p + 0x34)
  s1.onCore p (fun c => { c with ranges := [], standby := none })

/-- A bank of a partition's translation and class 0 tables in every die marked invalid. -/
def State.invalidBank (s : State) (n : Nat) (standby : Bool) : State :=
  each (fun d (t : State) =>
    let b := if standby then 1 - t.c0Bank d n else t.c0Bank d n
    (each (fun k (u : State) => u.wr (c0Addr d b n (4 * k)) 0) (List.range 18) t).setXlat d b n []) (List.range 72) s

/-! ## Phase 4 (R238 to R242, R256) -/

/-- A core that no placed logical id names: neither a member nor with a program (R238). -/
def State.barCore (s : State) (p : Nat) : State :=
  each (fun e (t : State) => t.wr (DIE_CORE_PROG p e) 0) (List.range 4)
    ((s.setOn (DIE_CORE_CTL_member p) false).setOn (DIE_CORE_CTL_lock p) false)

/-- A window limit as it is stored (R164). -/
def limitWord (w : Word) : Word := if 0x18000 < (bits w 0 17) then 0x18000 else w

/-- The template, programs and initial rows of a placed core, read from a copy of the stream (R237 to R240). -/
def State.loadCore (s src : State) (h : Head) (t : Stream) (l p : Nat) (r : CoreRec) : State :=
  let w := fun o => BitVec.ofNat 32 (src.confWord h t r.conf o)
  let im := t.image r
  let s2 := (s.settle p s.cycle).onCore p (fun c =>
    let c1 := (List.range 16).foldl (fun c i => c.cpWr (SPC_REGION i) (w (4 * i))) c
    let c2 := (List.range 8).foldl (fun c i => ((c.cpWr (SPC_WIN_BASE i) (w (0x40 + 12 * i))).cpWr (SPC_WIN_LIMIT i)
      (limitWord (w (0x44 + 12 * i)))).cpWr (SPC_WIN_CTL i) (w (0x48 + 12 * i))) c1
    let c3 := (c2.cpWr SPC_CNT_EN_LO (w 0xA0)).cpWr SPC_CNT_EN_HI (w 0xA4)
    let c4 := (List.range 64).foldl (fun c i => c.cpWr (SPC_CNT_INIT i) (w (0xA8 + 4 * i))) c3
    let c5 := (c4.cpSet SPC_CTL_lock 1).initCounters
    let c6 := { c5 with
      imem := ((List.range im.2).map (fun i => (i, src.imageWord h.slots im i))).filter (fun e => e.2 != 0)
      ranges := match t.wman with | some m => coreRanges m l | none => [] }
    (t.inits.filter (fun x => x.logical == l)).foldl (fun c x =>
      (List.range x.rows).foldl (fun c j => c.setPadRow (x.first + j)
        (BitVec.ofNat 512 (src.listNum h.slots (x.data + 64 * j) 64))) c) c6)
  let s3 := each (fun (e : Nat × Word) (u : State) => u.wr (DIE_CORE_PROG p e.1) (e.2 &&& 0x7FFF3FFF))
    ((List.range 4).zip r.prog) s2
  (s3.setOn (DIE_CORE_CTL_member p) true).setOn (DIE_CORE_CTL_lock p) true

/-- Recipe and watcher registers of a stage (R242); reserved bits of a recipe entry are not stored (R8, R143). -/
def State.loadStage (s src : State) (h : Head) (t : Stream) (n st : Nat) : State :=
  let w := src.rcpWord h t st
  let s1 := (((s.wr (PART_STG_REC n st) 0).wr (PART_STG_NWCFG n st)
    (BitVec.ofNat 32 (field (w 0) 16 16 * 2 ^ 16 + field (w 4) 0 4 * 2 ^ 12 + field (w 0) 0 9))).wr (PART_STG_MEAN n st)
    (BitVec.ofNat 32 ((seedMu (w 8)).getD 0)))
  each (fun k (u : State) =>
    ((u.wr (PART_RCP_CFG n st k) (BitVec.ofNat 32 (w (0x10 + 16 * k)) &&& 0xFC00FFFF)).wr (PART_RCP_OFF n st k)
      (BitVec.ofNat 32 (w (0x14 + 16 * k)) &&& 0x3FFF3FFF)).wr (PART_RCP_PLAN n st k) (BitVec.ofNat 32 (w (0x18 + 16 * k)))) (List.range 8) s1

/-- Standby banks: the translation table in every die, and the class 0 tables from the main flows (R243). -/
def State.loadTables (s : State) (n : Nat) (bind : List (Nat × Nat)) (flows : List Flow) : State :=
  let es := flows.flatMap s.flowEntries
  let s1 := s.invalidBank n true
  let s2 := each (fun (e : Nat × Nat × Nat) (t : State) =>
    let a := c0Addr e.1 (1 - t.c0Bank e.1 n) n e.2.1
    t.wr a (setBits (t.rd a) (8 * ((0x48 * n + e.2.1) % 4)) 8 (0x80 + e.2.2))) es s1
  each (fun d (t : State) => t.setXlat d (1 - t.c0Bank d n) n bind) (List.range 72) s2

/-- Phase 4: everything a stream writes but the weights. -/
def State.loadWrites (s src : State) (n : Nat) (t : Stream) (bind : List (Nat × Nat)) : State :=
  let h := t.head
  let s1 := s.loadTables n bind (t.flows.filter (fun f => f.set == 0))
  let s2 := each (fun p (u : State) =>
    match (bind.find? (fun b => b.2 == p)).bind (fun b => (t.recs[b.1]?).map (fun r => (b.1, r))) with
    | some x => u.loadCore src h t x.1 p x.2
    | none => u.barCore p) (s.partCores n) s1
  let s3 := each (fun st (u : State) => u.loadStage src h t n st) (List.range h.stages) s2
  let s4 := each (fun p (u : State) => (u.set (edgeReg p n) (t.edges.getD p 0)).setCredit
    (edgePort (decide (18 ≤ p)) (edgeDie p)) n (8 * (t.edges.getD p 0 : Int))) (List.range 34) s3
  let s5 := (((s4.set (BEAT_PLAN_LEN_ticks n) t.beatTicks).set (BEAT_PLAN_LEN_guard_units n) t.beatGuard).set
    (BEAT_PLAN_LEN_slip_limit n) t.beatSlip).set (BEAT_STATS_LEN_marks n) t.window
  (s5.set (PART_NW_CTL_stages n) h.stages).set (PART_NW_CTL_enable n) t.serve.watch

/-! ## Jobs -/

/-- A job with the code it will end with. -/
def State.setJob (s : State) (j : Job) (phase : Nat) : State :=
  { s with job := some j }.set LOAD_STAT_phase phase

/-- LOAD_CTL.go with an op and a partition, the loader idle (R254). -/
def State.openJob (s : State) (op n : Nat) : State :=
  ((((((s.set LOAD_PROGRESS_rows 0).set LOAD_CTL_op op).set LOAD_CTL_partition n).setOn LOAD_CTL_go true).setOn LOAD_STAT_busy true).set LOAD_STAT_op op).set
    LOAD_STAT_partition n

/-- The job starts with no row of a stream read (R266). -/
def blankJob (op n : Nat) : Job :=
  { op := op, part := n, code := 0, section_ := 0xFF, record := 0, masks := [], layout := none, lists := [], newHome := none
    patches := [], chan := [] }

def Job.fail (j : Job) (f : Fail) : Job := { j with code := f.code, section_ := f.sec, record := f.record }

/-- Rows read in phase 1 (R266). -/
def Head.rows (h : Head) : Nat := ceilDiv h.tableEnd 64 + ceilDiv (4 * h.clusters) 64

/-- Header, section table and FRAME are read, in class 2 on behalf of the partition; a job that a check ends before it reads the
stream has read nothing (R255, R256, R266). -/
def State.readPhase1 (s : State) (h : Head) (f : Option Fail) : State :=
  if f.any (fun x => decide (x.code ≤ 4)) || !s.listOwned (s.get LOAD_STAT_partition) h.slots (s.pair LOAD_LEN_LO LOAD_LEN_HI) then s
  else
    let t := (s.set LOAD_PROGRESS_rows h.rows).listReadBytes .uncharged h.slots 0 h.tableEnd
    match h.sec 1 with
    | some x => t.listReadBytes .uncharged h.slots x.off (4 * h.clusters)
    | none => t

/-- 0x0004: a partition that is disabled or holds no cluster (R253, R385). -/
def State.partFail (s : State) (n : Nat) : Option Fail :=
  failIf (!s.on (PART_RES_CTL_enable n) || (s.clusters n).isEmpty) 4 0xFF 0

/-- A job naming a partition whose reset is busy ends with 0x0002 (R393). -/
def State.resetFail (s : State) (n : Nat) : Option Fail := failIf (s.on (PART_RST_busy n)) 2 0xFF 0

/-- CHECK (R255). -/
def State.loadCheck (s : State) (n : Nat) : State :=
  let h := s.readHead
  let f := s.partFail n <|> s.checkHead n h
  let s1 := (s.openJob 1 n).readPhase1 h f
  match f with
  | some f => s1.setJob ((blankJob 1 n).fail f) 1
  | none => s1.setJob (blankJob 1 n) 1

/-- The PAGES lists allocated in order; the record that fails (R248). A page count outside 1 to 45,776 has no code of its own: no such
list can be had (log entry 102). -/
def State.allocPages (s : State) (n : Nat) : List (Nat × Nat × Nat) → Nat → List Nat → Except (Nat × State × List Nat) (State × List Nat)
  | [], _, heads => .ok (s, heads)
  | r :: rest, i, heads =>
    match s.allocList ⟨0, n, r.2.2.testBit 1, r.2.2.testBit 2, false, r.2.2.testBit 0, noSlot⟩ (fun _ => r.2.1) r.1 0 noSlot noSlot with
    | none => .error (i, s, heads)
    | some (h, t) => if r.1 = 0 ∨ 45776 < r.1 then .error (i, s, heads) else t.allocPages n rest (i + 1) (heads ++ [h])

/-- The layout a stream defines. -/
def Stream.layout (t : Stream) (N : Nat) (heads : List Nat) : Layout :=
  let h := t.head
  { version := h.version, stages := h.stages, cores := h.cores, total := N, frame := h.frame, src := h.slots.headD noSlot
    len := h.length, secs := h.secs.map (fun x => (x.type, x.off, x.size)), recs := t.recs, images := t.images, pages := heads
    serve := t.serve, wman := t.wman, home := none, flows := t.flows, spares := t.spares, folds := t.folds, flowSet := 0 }

/-- Place of the WMAN section in the section table. -/
def Layout.wmanIdx (l : Layout) : Nat := l.secs.findIdx (fun x => x.1 == 0x0C)

/-- Phase 5: a resident copy is taken, or a new one is fetched from the source set in PART_WGT_CTL (R359). -/
def State.loadWeights (s : State) (n : Nat) (w : Wman) (fresh : Option Nat) : State :=
  let source := s.get (PART_WGT_CTL_source n)
  let fail := fun (t : State) => { t with job := t.job.map (fun j => j.fail ⟨0x41, (j.layout.map Layout.wmanIdx).getD 0xFF, 0⟩) }
  match s.resident n w.model w.epoch w.rows w.shared, fresh with
  | some k, _ => { s with job := s.job.map (fun j => { j with layout := j.layout.map (fun l => { l with home := some k }) }) }
  | none, some k =>
    let s1 := { s with job := s.job.map (fun j => { j with layout := j.layout.map (fun l => { l with home := some k }) }) }
    if source = 1 ∧ !((s.hostPackage n).any (fun p => p.model == w.model && p.epoch == w.epoch && p.rows == w.rows)) then fail s1
    else s1.startFetch n 0 k source true (List.range (homeGroups w.rows))
  | none, none => fail s

/-- Section and record that hold the first byte of a stream that cannot be read: the record, where they all have one size. -/
def State.badPlace (s : State) (h : Head) : Nat × Nat :=
  match h.secs.find? (fun x => s.listBad h.slots x.off x.size) with
  | some x =>
    let z := ((secInfo x.type).map (·.2.2)).getD 0
    (x.idx, if z = 0 then 0 else ((List.range x.records).find? (fun i => s.listBad h.slots (x.off + z * i) z)).getD 0)
  | none => (0xFF, 0)

/-- Phases 3 to 5 of a LOAD whose checks have passed. -/
def State.loadBody (s : State) (n : Nat) (t : Stream) (j : Job) : State :=
  let ix := fun type => ((t.head.sec type).map (·.idx)).getD 0xFF
  match s.allocPages n t.pages 0 [] with
  | .error (i, u, heads) => u.setJob ({ j with lists := heads }.fail ⟨0x40, ix 0x0D, i⟩) 3
  | .ok (u, heads) =>
    let need := t.wman.any (fun w => (s.resident n w.model w.epoch w.rows w.shared).isNone &&
      (s.get (PART_WGT_CTL_source n) == 1 || s.get (PART_WGT_CTL_source n) == 2))
    let made := match t.wman with
      | some w => if need then u.newHome n w.model w.epoch w.rows w.shared else some (0, u)
      | none => some (0, u)
    match made with
    | none => u.setJob ({ j with lists := heads }.fail ⟨0x40, ix 0x0C, 0⟩) 3
    | some (k, v) =>
      let j1 := { j with lists := heads, newHome := if need then some k else none }
      match v.relocate n t heads t.relocs 0 with
      | .error i => v.setJob (j1.fail ⟨0x3B, ix 0x11, i⟩) 3
      | .ok (src, offs) =>
        match src.checkPrograms t with
        | some f => v.setJob (j1.fail f) 3
        | none =>
          if v.listBad t.head.slots 0 t.head.length then v.setJob (j1.fail ⟨0x18, (v.badPlace t.head).1, (v.badPlace t.head).2⟩) 4
          else
            let bind := v.binding n
            let j2 := { j1 with
              layout := some (t.layout (v.coreCount n) heads)
              patches := offs.eraseDups.map (fun o => (o, src.listNum t.head.slots o 8)) }
            let w := (v.loadWrites src n t bind).setJob j2 5
            match t.wman with
            | some m => w.loadWeights n m j1.newHome
            | none => w

/-- LOAD (R256): phases 1 to 5; its end is LOAD_JOB_END. -/
def State.loadLoad (s : State) (n : Nat) : State :=
  let h := s.readHead
  let f := s.resetFail n <|> failIf (s.pstate n != 0) 1 0xFF 0 <|> s.partFail n <|> s.checkHead n h
  let s1 := (s.openJob 2 n).readPhase1 h f
  let j := { blankJob 2 n with
    masks := match s.inv with | some v => (s.clusters n).map (fun g => (g, v.goodMask g)) | none => [] }
  match f with
  | some f => s1.setJob (j.fail f) 1
  | none =>
    let s2 := (s1.set LOAD_PROGRESS_rows (min (h.length / 64) (2 ^ 32 - 1))).listReadBytes .uncharged h.slots 0 h.length
    let t := s.readStream h
    match s.checkSections h <|> s.checkBody n t with
    | some f => s2.setJob (j.fail f) 2
    | none => s2.loadBody n t j

/-- ACTIVATE (R260). -/
def State.loadActivate (s : State) (n : Nat) : State :=
  let s1 := s.openJob 3 n
  let o := s.pair LOAD_ORIGIN_LO LOAD_ORIGIN_HI
  match s.resetFail n <|> failIf ((s.part n).layout.isNone || s.on (BEAT_PLAN_CTL_lock n)) 0x50 0xFF 0 <|>
      failIf (decide (o < s.tick + 2)) 0x51 0xFF 0 with
  | some f => s1.setJob ((blankJob 3 n).fail f) 0
  | none =>
    let s2 := (s1.setPair (BEAT_PLAN_ORIGIN_LO n) (BEAT_PLAN_ORIGIN_HI n) o).setOn (BEAT_PLAN_CTL_lock n) true
    (((s2.beatStart n).setOn (PART_RES_CTL_share_live n) true).set (SAGE_P_STAT_state n) 0).setJob (blankJob 3 n) 0

/-- What UNLOAD, and a hard reset, undo (R261). -/
def State.unload (s : State) (n : Nat) : State :=
  match (s.part n).layout with
  | none => s
  | some l =>
    let s1 := each (fun h (t : State) => t.freeList h) (l.pages ++ [l.src]) s
    let s2 := s1.onPart n (fun q => { q with layout := none, logical := [], stageOf := [] })
    let s3 := match l.home with
      | some k => s2.settleHome k
      | none => s2
    let s4 := each (fun p (t : State) => t.wipeCore p) (s.partCores n) ((s3.invalidBank n true).invalidBank n false)
    ((s4.setOn (PART_RES_CTL_share_live n) false).set (PART_NW_CTL_stages n) 0).set (SAGE_P_STAT_state n) 0

def State.loadUnload (s : State) (n : Nat) : State :=
  let s1 := s.openJob 4 n
  match s.resetFail n <|> failIf ((s.part n).layout.isNone || s.on (BEAT_PLAN_CTL_active n) || s.on (BEAT_PLAN_CTL_held n))
      0x52 0xFF 0 with
  | some f => s1.setJob ((blankJob 4 n).fail f) 0
  | none => (s1.unload n).setJob (blankJob 4 n) 0

/-- An op other than CHECK, LOAD, ACTIVATE and UNLOAD ends the job with 0x0004 (R263). -/
def State.loadOther (s : State) (op n : Nat) : State :=
  (s.openJob op n).setJob ((blankJob op n).fail ⟨4, 0xFF, 0⟩) 0

/-- A write of LOAD_CTL.go (R254). -/
def State.loadGo (s : State) (op n : Nat) : State :=
  if s.job.isSome then s.raise LOAD_STAT_ignored
  else match op with
    | 1 => s.loadCheck n
    | 2 => s.loadLoad n
    | 3 => s.loadActivate n
    | 4 => s.loadUnload n
    | _ => s.loadOther op n

/-- LOAD_CTL.abort ends a running LOAD with 0x0003 (R258). -/
def State.loadAbort (s : State) : State :=
  match s.job with
  | some j =>
    if j.op = 2 then
      ({ s with job := some (j.fail ⟨3, 0xFF, 0⟩) }.onPart j.part (fun q =>
        { q with wgt := q.wgt.bind (fun w => if w.op = 0 then none else some w) })).setOn LOAD_CTL_abort true
    else s
  | none => s

/-- What a LOAD that fails in phases 3 to 5 undoes: its pages freed, the partition's cores reset, its standby banks invalid, and no
layout's stages (R136, R257). -/
def State.undoLoad (s : State) (j : Job) : State :=
  let s1 := each (fun h (t : State) => t.freeList h) j.lists { s with job := none }
  let s2 := match j.newHome with
    | some k => s1.settleHome k
    | none => s1
  if 3 ≤ s.get LOAD_STAT_phase then
    (each (fun p (t : State) => t.wipeCore p) (s.partCores j.part) (s2.invalidBank j.part true)).set (PART_NW_CTL_stages j.part) 0
  else s2

/-- Phase 6 (R256, R259, R325): live weights are in place, the banks swap, the layout is bound, its stream retained. -/
def State.bindLayout (s : State) (j : Job) (l : Layout) : State :=
  let n := j.part
  let bind := s.binding n
  let s1 := s.onPart n (fun q => { q with
    layout := some l, logical := bind
    stageOf := (List.range l.recs.length).zip (l.recs.map (·.stage)) })
  let s2 := match l.home with
    | some k => (each (fun p (t : State) => t.fillLive p k) (s1.placedCores n) s1).set (PART_WGT_CUR_epoch n) (s.home k).epoch
    | none => s1
  let s3 := each (fun d (t : State) => t.swapC0 d n) (List.range 72) s2
  let slots := s3.listFrom noSlot l.src
  let s4 := each (fun (e : Nat × Nat) (t : State) => t.listPut .uncharged slots e.1 (bytesOf 8 e.2)) j.patches s3
  let s5 := each (fun i (t : State) =>
    let g := slotPage (t.slot i)
    (t.onBay (g / pagesPerBay) (fun y => y.setOwnBit (g % pagesPerBay) 14 true)).setSlot i (setField (t.slot i) 3 1 1)) slots s4
  { s5 with job := none }.set (REQ_P_TEN_swaps n) 0

/-- The end of a job: its code and detail, the loader idle, waiting LOAD_CHAN writes, its event (R254, R258, R264, R268). -/
def State.closeJob (s : State) (j : Job) : State :=
  let s0 := (((({ s with job := none }.setOn LOAD_STAT_busy false).set LOAD_STAT_phase 0).set LOAD_STAT_code j.code).done
    LOAD_CTL_go).jobAgain LOAD_CTL_go (fun w => (bits w 24 3, bits w 0 6))
  let s1 := (s0.setOn LOAD_CTL_abort false).wr LOAD_DETAIL (BitVec.ofNat 32 (j.section_ * 2 ^ 24 + j.record % 2 ^ 24))
  (each (fun (e : Nat × Word) (t : State) => t.wr (LOAD_CHAN e.1) (e.2 &&& 0x800000FF)) j.chan s1).devLatch 0

/-- The good masks of the job's clusters are no longer those of phase 1 (R258). -/
def State.masksMoved (s : State) (j : Job) : Bool := s.inv.any (fun v => j.masks.any (fun m => v.goodMask m.1 != m.2))

/-- Code a LOAD ends with: the inventory is unchanged, its home rows read (R258, R367). -/
def State.lastCode (s : State) (j : Job) (l : Layout) : Nat :=
  if s.masksMoved j then 0x42
  else match l.home, l.wman with
    | some k, some w => if s.homeBad ((List.range l.cores).flatMap (coreRanges w)) k then 0x41 else 0
    | none, some _ => 0x41
    | _, none => 0

/-- Record of WMAN whose rows of the home copy cannot be read: its head is record 0 (R253, R367). -/
def State.badEntry (s : State) (l : Layout) : Nat :=
  match l.home, l.wman with
  | some k, some w => ((List.range w.entries.length).find? (fun i =>
      (w.entries[i]?).any (fun e => s.homeBad (coreRanges { w with entries := [e] } e.logical) k))).elim 0 (· + 1)
  | _, _ => 0

/-- The job ends now. -/
def State.endJob (s : State) (j : Job) : State :=
  if j.op ≠ 2 then s.closeJob j
  else match j.layout with
    | some l =>
      if j.code = 0 then
        (let c := s.lastCode j l
         if c = 0 then (s.bindLayout j l).closeJob j
         else (s.undoLoad j).closeJob (j.fail ⟨c, if c = 0x41 then l.wmanIdx else 0xFF, if c = 0x41 then s.badEntry l else 0⟩))
      else (s.undoLoad j).closeJob j
    | none => (s.undoLoad j).closeJob j

/-- A go of the loader: during a firmware pause its job waits for the end of the pause (R535). -/
def State.loadCmd (s : State) (op n : Nat) : State :=
  if s.job.isSome || s.fw.jobs.any (fun e => decide (e.1 < 16)) then s.raise LOAD_STAT_ignored
  else if !s.fw.paused then s.loadGo op n
  else { s with fw := { s.fw with jobs := s.fw.jobs ++ [(op, n)] } }.setOn LOAD_CTL_go true

/-- The jobs that waited for the end of a firmware pause, or that start again. -/
def State.resumeJobs (s : State) : State :=
  each (fun (e : Nat × Nat) (t : State) =>
    if e.1 < 16 then (t.setOn LOAD_CTL_go false).loadGo e.1 e.2
    else (t.setOn (PART_WGT_CTL_go e.2) false).wgtGo (e.1 - 16) e.2) s.fw.jobs { s with fw := { s.fw with jobs := [] } }

/-- A write of LOAD_CTL that starts a job: op and partition are stored while none runs (R262, R263). -/
def State.loadStart (s : State) (op n : Nat) : State :=
  (if s.on LOAD_STAT_busy then s else (s.set LOAD_CTL_op op).set LOAD_CTL_partition n).loadCmd op n

/-- A command that writes LOAD_CTL with go, op and partition (R10, R263). -/
def State.loadWrite (s : State) (op n : Nat) : State :=
  (s.ask LOAD_CTL (BitVec.ofNat 32 (2 ^ 31 + op * 2 ^ 24 + n))).loadStart op n

/-- LOAD_JOB_END: not before the weights of a LOAD are there; while a reset of the partition is busy, with 0x0002 (R393). -/
def State.loadJobEnd (s : State) : State :=
  match s.job with
  | none => s
  | some j =>
    if s.fw.paused || (s.part j.part).wgt.any (fun w => w.op == 0) then s
    else s.endJob (if j.code = 0 ∧ s.on (PART_RST_busy j.part) = true then j.fail ⟨2, 0xFF, 0⟩ else j)

/-- The running job ends at once, its fetch of weights with it (R258). -/
def State.stopJob (s : State) (j : Job) (code : Nat) : State :=
  (s.onPart j.part (fun q => { q with wgt := q.wgt.bind (fun w => if w.op = 0 then none else some w) })).endJob
    (j.fail ⟨code, 0xFF, 0⟩)

/-- A reset of the partition ends its job at once with 0x0002 (R258). -/
def State.jobReset (s : State) (n : Nat) : State :=
  match s.job with
  | some j => if j.part = n then s.stopJob j 2 else s
  | none => s

/-- A change of the inventory that alters a good mask of the clusters of a LOAD ends it with 0x0042 (R258). -/
def State.jobInventory (s : State) : State :=
  match s.job with
  | some j => if j.op = 2 ∧ j.code = 0 ∧ s.masksMoved j then s.stopJob j 0x42 else s
  | none => s

/-- A write to LOAD_CHAN: during a LOAD it takes effect after the job (R268). -/
def State.writeChan (s : State) (k : Nat) (v : Word) : State :=
  match s.job with
  | some j => if j.op = 2 then { s with job := some { j with chan := j.chan ++ [(k % 16, v)] } }
      else s.wr (LOAD_CHAN (k % 16)) (v &&& 0x800000FF)
  | none => s.wr (LOAD_CHAN (k % 16)) (v &&& 0x800000FF)

/-! ## Meanings -/

def execLoadCheck (n : Nat) (s : State) : Host.Outcome State Fault Refusal :=
  .next (if n < 64 then s.writeAt LOAD_CTL fun s => s.loadWrite 1 n else s)
def execLoadLoad (n : Nat) (s : State) : Host.Outcome State Fault Refusal :=
  .next (if n < 64 then s.writeAt LOAD_CTL fun s => s.loadWrite 2 n else s)
def execLoadActivate (n : Nat) (s : State) : Host.Outcome State Fault Refusal :=
  .next (if n < 64 then s.writeAt LOAD_CTL fun s => s.loadWrite 3 n else s)
def execLoadUnload (n : Nat) (s : State) : Host.Outcome State Fault Refusal :=
  .next (if n < 64 then s.writeAt LOAD_CTL fun s => s.loadWrite 4 n else s)
def execLoadAbort (s : State) : Host.Outcome State Fault Refusal := .next (s.writeAt LOAD_CTL fun s => s.loadAbort)
def execLoadJobEnd (s : State) : Host.Outcome State Fault Refusal := .next s.loadJobEnd
def execLoadChanWrite (k : Nat) (v : Word) (s : State) : Host.Outcome State Fault Refusal :=
  .next (if k < 16 then s.writeAt (LOAD_CHAN k) fun s => s.writeChan k v else s)

end Sys2Proof.Machine
end

