-- ==== Sys2Proof/Machine/Partitions.lean ====
section
/-!
DEFINITION. Partitions (13_partitions R384 to R407): the resource record, shares, the resets and their steps, and the
virtual functions.
-/

namespace Sys2Proof.Machine

/-! ## The resource record (R384 to R388) -/

/-- A record write refused or ignored, with its cause (R402). -/
def State.refuse (s : State) (n cause : Nat) : State :=
  (s.raise (PART_RES_CTL_refused n)).set (PART_RES_CTL_cause n) cause

/-- State of a partition as PART_RES_CTL shows it: a reset that runs, else as the loader sees it (R402). -/
def State.resState (s : State) (n : Nat) : Nat :=
  if s.on (PART_RST_busy n) then (if s.on (PART_RST_hard n) then 5 else 4) else s.pstate n

/-- Why enable may not be set: 1 clusters of another enabled partition, 2 the slice; 0 if it may (R385). -/
def State.enableCause (s : State) (n : Nat) : Nat :=
  let others := (List.range 64).filter (fun m => m != n && s.on (PART_RES_CTL_enable m))
  if others.any (fun m => (List.range 18).any (fun k => s.rd (PART_RES_CL n k) &&& s.rd (PART_RES_CL m k) != 0)) then 1
  else
    let b := s.sliceBase n
    let e := b + s.sliceSize n
    if s.sliceSize n = 0 ∨ 131072 < e ∨
        others.any (fun m => decide (b < s.sliceBase m + s.sliceSize m ∧ s.sliceBase m < e)) then 2 else 0

/-- Accessors of virtual functions (R384). -/
def isVf (acc : Nat) : Bool := decide (9 ≤ acc ∧ acc < 265)

/-- A write to PART_RES_CTL. -/
def State.writeEnable (s : State) (acc n : Nat) (v : Word) : State :=
  if isVf acc then s.refuse n 5
  else
    let s1 := if v.getLsbD 30 then s.clear (PART_RES_CTL_refused n) else s
    let want := v.getLsbD 31
    if want = s1.on (PART_RES_CTL_enable n) then s1
    else if want then (let c := s1.enableCause n
                       if c = 0 then s1.setOn (PART_RES_CTL_enable n) true else s1.refuse n c)
    else if s1.resState n = 0 then s1.setOn (PART_RES_CTL_enable n) false else s1.refuse n 4

/-- Sum of a kind of share over the records, with `v` for partition `n` (R388). -/
def State.shareSum (s : State) (n v lo : Nat) : Nat :=
  (List.range 64).foldl (fun a m => a + (if m = n then field v lo 8 else bits (s.rd (PART_RES_SHARE m)) lo 8)) 0

/-- A write to PART_RES_SHARE. -/
def State.writeShare (s : State) (acc n : Nat) (v : Word) : State :=
  if isVf acc then s.refuse n 5
  else if [0, 8, 16].all (fun lo => decide (s.shareSum n v.toNat lo ≤ 256)) then s.wr (PART_RES_SHARE n) (v &&& 0xFFFFFF)
  else s.refuse n 3

/-- A write to the cluster set, the slice or the quota. -/
def State.writeRecord (s : State) (acc n a : Nat) (v : Word) : State :=
  if isVf acc then s.refuse n 5
  else if a = PART_RES_QUOTA n then s.set (PART_RES_QUOTA_pages n) (min (bits v 0 20) 823968)
  else if s.on (PART_RES_CTL_enable n) then s.refuse n 4
  else if a = PART_RES_SLICE n then s.wr a (v &&& 0x3FF01FF)
  else s.wr a v

/-- Effective shares loaded at a millisecond mark (R389). -/
def State.shareMark (s : State) (n : Nat) : State :=
  s.wr (PART_RES_SHARE_EFF n) (if s.on (PART_RES_CTL_share_live n) then s.rd (PART_RES_SHARE n) else 0)

/-! ## Requests for a reset (R392, R393) -/

/-- A reset asked for: it begins at the next tick. Soft while one is busy is ignored; hard turns a soft one hard. -/
def State.askReset (s : State) (n : Nat) (hard : Bool) : State :=
  if s.on (PART_RST_busy n) then
    if hard && !s.on (PART_RST_hard n) then
      -- both counts rise (R393); before step 1 the hard one rises there; soft and hard of one cycle are one hard reset
      let s1 := s.setOn (PART_RST_hard n) true
      if s.get (PART_RST_step n) ≠ 0 then s1.bump (PART_RST_CNT_hard n) 1
      else if s.asked (PART_RST_soft n) then s1
      else s1.bump (PART_RST_CNT_soft n) 1
    else s
  else
    ((s.setOn (PART_RST_busy n) true).setOn (if hard then PART_RST_hard n else PART_RST_soft n) true).set
      (PART_RST_TICK_tick n) (s.stamp + 1)

/-! ## The steps (R394 to R397) -/

/-- Traffic of the partition that waits: rows at an edge port for credit or in an I/O die for their frame, and frames queued for egress that have no number yet (R396). -/
def State.discardWaiting (s : State) (n : Nat) : State :=
  let gone := fun (p : Packet) => p.part == n && decide (72 ≤ p.node) && decide (p.due ≤ s.cycle) && p.source != 0x3FFF &&
    (decide (90 ≤ p.node) || !s.mayPass false (bayDie (p.node - 72)) p)
  let mine := fun (q : Queued) => q.fresh && q.owner == some n
  let s1 := each (fun (p : Packet) (t : State) => t.resetDrop n p.opTag) (s.net.filter gone)
    { s with net := s.net.filter (fun p => !gone p) }
  let s2 := each (fun (e : Nat × Conn) (t : State) =>
    let k := (e.2.held.filter mine).length
    if k = 0 then t
    else { t with conns := put t.conns e.1 { e.2 with held := e.2.held.filter (fun q => !mine q) } }.bump
      (PART_RST_DROPS_count n) k) s1.conns s1
  each (fun (e : Nat × Port) (t : State) =>
    let k := (e.2.egress.filter mine).length
    if k = 0 then t
    else (t.setPort e.1 { e.2 with egress := e.2.egress.filter (fun q => !mine q) }).bump (PART_RST_DROPS_count n) k) s2.ports s2

/-- What the model keeps of a partition's running beats, dropped: by a reset, or where the module stops. -/
def PartSt.idle (q : PartSt) : PartSt :=
  { q with
    interval := .none, ended := false, overrun := false, owed := 0, second := false, beats := [], replay := [], replays := 0
    restart := none, recent := [], symptoms := [], stall := [], lost := false, drain := none, unfold := false, resvs := []
    plans := [], planRows := [], steps := 0, pairA := none, nwReplay := false, means := [], recReq := [] }

/-- Step 1, stop, at cycle 0 of t_b. -/
def State.resetBegin (s : State) (n : Nat) : State :=
  if s.on (PART_RST_busy n) ∧ s.get (PART_RST_step n) = 0 ∧ s.cycle % 256 = 0 ∧ s.atOrAfter (s.get (PART_RST_TICK_tick n)) then
    let s0 := s.bump (SAGE_P_WITHHELD_count n) ((s.part n).beats.foldl (fun k b => k + b.gate.length) 0)
    let s1 := (s0.withdraw n).set (PART_RST_step n) 1
    let s3 := s1.bump (if s1.on (PART_RST_hard n) then PART_RST_CNT_hard n else PART_RST_CNT_soft n) 1
    let s4 := (((s3.setOn (PART_RES_CTL_share_live n) false).wr (BEAT_PLAN_CTL n) 0).wr (BEAT_STAT n) 0)
    let s5 := each (fun p (t : State) =>
      (t.onCore p (fun c => { c with inBeat := false })).setFreeze p true) (s4.partCores n) s4
    let s6 := { s5 with
      watch := s5.watch.filter (fun q => q.part != n), kept := s5.kept.filter (fun q => q.part != n) }.onPart n PartSt.idle
    let s7 := each (fun e (t : State) => (t.set (rqInflight e) 0).onReq e (fun q => { q with flights := [] })) (s6.entries n
      [1, 2, 3, 4, 5, 6, 7, 8, 9, 10, 11]) s6
    let s8 := each (fun e (t : State) => t.leave n e 10 9) (s7.entries n liveCodes) s7
    let s9 := each (fun e (t : State) => t.settleReq n e) (s8.entries n [8, 9, 10, 11]) s8
    (((s9.wgtReset n (s9.on (PART_RST_hard n))).jobReset n).discardWaiting n).set (PART_RST_step n) 2
  else s

/-- No core of the partition holds a remote tag, and no landing buffer holds a row. -/
def State.drained (s : State) (n : Nat) : Bool :=
  (s.partCores n).all (fun p => (s.core p).tags == [] && (s.core p).landing == [])

/-- Every core of the partition brought up to the present cycle. -/
def State.settleCores (s : State) (n : Nat) : State := each (fun p (t : State) => t.settle p t.cycle) (s.partCores n) s

/-- BEAT, REQ and PART words that any reset sets to zero (R397). -/
def State.zeroWords (s : State) (as : List Nat) : State := each (fun a (t : State) => t.wr a 0) as s

def softWords (n : Nat) : List Nat :=
  [BEAT_PLAN_CTL n, BEAT_PLAN_ORIGIN_LO n, BEAT_PLAN_ORIGIN_HI n, BEAT_PLAN_REST n, BEAT_CUR_LO n, BEAT_CUR_HI n,
    BEAT_CUR_START_LO n, BEAT_CUR_START_HI n, BEAT_STAT n, BEAT_STATS_WIN n, REQ_P_STEP_LO n, REQ_P_STEP_HI n,
    PART_NW_LAST n, PART_NW_LAST_TICK_LO n, PART_NW_LAST_TICK_HI n, PART_NW_REPLAYS n, PART_SHIP_SENT n,
    PART_SHIP_RECEIVED n, PART_SHIP_REBUILT n, PART_SHIP_RESENT n, PART_SHIP_FALLBACK n, PART_SHIP_FAILED n,
    PART_SHIP_DROPPED n] ++
  (List.range 8).flatMap (fun i => [BEAT_CNT n i, BEAT_CNT_LAST n i, REQ_P_CNT n i, REQ_P_CNT_LAST n i]) ++
  (List.range 4).map (PART_NW_FLAGMAP n) ++
  (List.range 128).flatMap (fun st => [PART_STG_FLAGS n st, PART_STG_CLAMP n st, PART_STG_MISS n st, PART_STG_NORM n st])

/-- Stage registers at a soft reset: recipe 0, the seeds of the retained stream. -/
def State.softStages (s : State) (n : Nat) : State :=
  let s1 := each (fun st (u : State) => u.wr (PART_STG_REC n st) (u.rd (PART_STG_REC n st) &&& 0xFFFF)) (List.range 128) s
  match (s.part n).layout with
  | none => s1
  | some l =>
    let h := s.headAt l.src
    let t := s.readStream h
    each (fun st (u : State) => u.wr (PART_STG_MEAN n st) (BitVec.ofNat 32 ((seedMu (s.rcpWord h t st 8)).getD 0)))
      (List.range l.stages) (s1.listReadBytes .uncharged h.slots t.rcpOff (144 * l.stages))

/-- Swap bits, over-budget bits and credits of the partition at every die (R397). -/
def State.resetPorts (s : State) (n : Nat) (hard : Bool) : State :=
  let word := fun (lo hi : Nat) => if n < 32 then lo else hi
  let s1 := each (fun d (t : State) =>
    each (fun a (u : State) => u.clrBit a (n % 32))
      [word (DIE_RT_C0SWAP_LO d) (DIE_RT_C0SWAP_HI d), word (DIE_EDGE_OVER_BAY_LO d) (DIE_EDGE_OVER_BAY_HI d),
        word (DIE_EDGE_OVER_LINK_LO d) (DIE_EDGE_OVER_LINK_HI d)] t) (List.range 72) s
  let s2 := { s1 with ovr := s1.ovr.filter (fun k => k % 64 != n) }.countOver
  if hard then
    let s3 := each (fun d (t : State) =>
      (((t.clrBit (word (DIE_RT_C0BANK_LO d) (DIE_RT_C0BANK_HI d)) (n % 32)).wr (DIE_EDGE_BUDGET_BAY d n) 0).wr
        (DIE_EDGE_BUDGET_LINK d n) 0)) (List.range 72) s2
    { s3 with credits := s3.credits.filter (fun e => e.1 % 64 != n) }
  else each (fun k (t : State) => t.setCredit (k / 64) n (8 * (t.budget (k / 64) n : Int)))
    (s2.creditKeys.filter (fun k => k % 64 == n)) s2

/-- The tenants of the partition: nothing active, no pages, a pending swap dropped. -/
def State.resetTenants (s : State) (n : Nat) : State :=
  (each (fun t (u : State) => (u.set (tenActive t) 0).set (tenPages t) 0) (s.tenantsOf n false) s).setOn (REQ_P_TEN_swap n) false

/-- Register effects common to both resets. -/
def State.resetCommon (s : State) (n : Nat) (hard : Bool) : State :=
  (((s.zeroWords (softWords n)).setOn (PART_NW_CTL_half n) false).resetPorts n hard).resetTenants n

/-- Live page-map slots whose page a partition owns. -/
def State.slotsOwned (s : State) (n : Nat) : List Nat :=
  ((s.ctl.filter (fun e => decide (0x3000000 ≤ e.1))).map (fun e => (e.1 - 0x3000000) / 8)).eraseDups.filter (fun i =>
    s.slotLive i && (let g := slotPage (s.slot i)
                     bits ((s.bay (g / pagesPerBay)).own (g % pagesPerBay)) 0 6 == n))

/-- Moves of the partition's pages aborted (R219). -/
def State.abortMoves (s : State) (n : Nat) : State :=
  each (fun b (t : State) =>
    match (t.bay b).move with
    | some m => if bits ((t.bay b).own m.old) 0 6 = n then t.endMove b 3 else t
    | none => t) (List.range 18) s

/-- Pages of the partition's prefixes that requests of other partitions still hold (R341). -/
def State.sharedSlots (s : State) (n : Nat) : List Nat :=
  s.pfxs.flatMap (fun e => if e.2.owner = n then s.listFrom e.2.pages e.2.head else [])

/-- Step 4, hard only: scrub, unload, pages, handles, entries and registers (log entry 70). A prefix that requests of another
partition hold keeps its pages until they settle (R341); the registers are those that R397 and
R489 name. -/
def State.hardWork (s : State) (n : Nat) : State :=
  let s1 := s.wgtReset n true
  let s2 := (s1.unload n).abortMoves n
  let s3 := each (fun p (t : State) =>
    t.onCore p (fun c => { c with pad := [], marks := [], patrol := [], imem := [], cp := [] })) (s2.partCores n) s2
  let s4 := each (fun (e : Nat × Pfx) (t : State) =>
    if e.2.owner = n then t.onPfx e.1 (fun p => { p with destroying := true }) else t) s3.pfxs s3
  let s5 := ((s4.freePfxs n).dropAdps n).resetWindows n
  let s6 := each (fun i (t : State) => (t.freeSlotOp i).1) ((s5.slotsOwned n).filter (fun i => !(s5.sharedSlots n).contains i)) s5
  let s7 := each (fun e (t : State) => t.eraseCtl (REQ_TABLE e 0) (REQ_TABLE e 0 + 128)) (s6.entries n
    [1, 2, 3, 4, 5, 6, 7, 8, 9, 10, 11]) s6
  let gone := fun (e : Nat) => s7.inSlice n e
  let s8 := { s7 with
    reqs := s7.reqs.filter (fun e => !gone e.1), peers := s7.peers.filter (fun e => !gone e.1) }
  let s9 := s8.resetCommon n true
  let base := PART_RES_CTL n
  let s10 := ((((((s9.eraseCtl (base + 0x8000) (base + 0xE010)).eraseCtl (PART_SHIP_CTL n) (PART_SHIP_BUF n + 4)).eraseCtl
    (PART_WGT_CTL n) (PART_WGT_HELDFLIP n + 4)).eraseCtl (PART_ADP_DIR n) (PART_ADP_DIR n + 4)).eraseCtl (BEAT_PLAN_LEN n) (BEAT_PLAN_LEN n + 0x100)).eraseCtl
    (REQ_P_CTL n) (REQ_P_READ n + 4)).eraseCtl (SAGE_P_CTL n) (SAGE_P_CTL n + 0x20)
  let q := s10.part n
  s10.setPart n { PartSt.reset with outq := q.outq, rstFor := q.rstFor, rstDue := q.rstDue }

/-- Step 3, and the start of step 4 of a hard reset; a soft one releases at the next tick. -/
def State.resetCores (s : State) (n : Nat) : State :=
  if s.on (PART_RST_busy n) ∧ s.get (PART_RST_step n) = 2 ∧ s.cycle % 256 = 0 ∧
      s.atOrAfter (s.get (PART_RST_TICK_tick n) + 4) ∧ (s.settleCores n).drained n then
    let s0 := s.settleCores n
    let s1 := each (fun p (t : State) => (t.coreReset p).setFreeze p false) (s0.partCores n) s0
    if s1.on (PART_RST_hard n) then
      let due := s1.cycle + 3072 + 4 * (s1.slotsOwned n).length
      ((s1.hardWork n).set (PART_RST_step n) 4).onPart n (fun q => { q with rstDue := due })
    else
      let s2 := (s1.resetCommon n false).softStages n
      ((s2.freeAdps n).set (PART_RST_step n) 3).onPart n (fun q => { q with rstDue := s.cycle + 1 })
  else s

/-- VFs mapped to a partition of a module whose function reset is in progress (R401). -/
def State.flrsOf (s : State) (module part : Nat) : List Nat :=
  (List.range 256).filter (fun i => s.bitOn (PART_VF_FLR (i / 32)) (i % 32) && s.on (PART_VF_MAP_valid i) &&
    s.get (PART_VF_MAP_module i) == module && s.get (PART_VF_MAP_partition i) == part)

/-- A partition's reset has ended, as the bridge hears of it. -/
def State.flrHeard (s : State) (module part : Nat) : State :=
  { s with hb := { s.hb with flrDone := s.hb.flrDone ++ s.flrsOf module part } }

/-- The release. A reset that became hard after its step 3 does its hard work first (R393); one asked for once more in the cycle of the
release begins anew (R10). -/
def State.resetRelease (s : State) (n : Nat) : State :=
  if s.on (PART_RST_busy n) ∧ s.cycle % 256 = 0 ∧ 3 ≤ s.get (PART_RST_step n) ∧ (s.part n).rstDue ≤ s.cycle then
    if s.get (PART_RST_step n) = 3 ∧ s.on (PART_RST_hard n) then
      let due := s.cycle + 3072 + 4 * (s.slotsOwned n).length
      ((s.hardWork n).set (PART_RST_step n) 4).onPart n (fun q => { q with rstDue := due })
    else
      let s0 := (((s.setOn (PART_RST_busy n) false).set (PART_RST_step n) 0).setOn (PART_RST_hard n) false).setOn
        (PART_RST_soft n) false
      let s1 := (if s.asked (PART_RST_hard n) then s0.askReset n true
        else if s.asked (PART_RST_soft n) then s0.askReset n false else s0).flrHeard s.ownAddr n
      each (fun m (t : State) => (t.sendTo m 8 n 1 []).1) (s.part n).rstFor (s1.onPart n (fun q => { q with rstFor := [] }))
  else s

/-! ## Virtual functions (R398 to R401) -/

/-- A write to an entry of the VF table: only while the VF's FLR bit is clear. -/
def State.writeVfMap (s : State) (acc i : Nat) (v : Word) : State :=
  if isVf acc ∨ 256 ≤ i ∨ s.bitOn (PART_VF_FLR (i / 32)) (i % 32) then s else s.wr (PART_VF_MAP i) (v &&& 0xFFFF003F)

/-- A function-level reset of VF `v`: the function's own state at once, then its partition's hard reset. -/
def State.vfFlr (s : State) (v : Nat) : State :=
  let i := v - 1
  if v = 0 ∨ 256 < v ∨ !s.isBridge ∨ s.bitOn (PART_VF_FLR (i / 32)) (i % 32) then s
  else
    let s1 := (s.setFn v PciFn.reset).setBit (PART_VF_FLR (i / 32)) (i % 32)
    let m := s1.get (PART_VF_MAP_module i)
    let p := s1.get (PART_VF_MAP_partition i)
    if !s1.on (PART_VF_MAP_valid i) then { s1 with hb := { s1.hb with flrDone := s1.hb.flrDone ++ [i] } }
    else if m = s1.ownAddr then s1.askReset p true
    else (s1.sendTo m 8 p 0 []).1

/-- The FLR completes once its partition's reset has cleared busy. -/
def State.vfFlrDone (s : State) (v : Nat) : State :=
  let i := v - 1
  if v ≠ 0 ∧ s.hb.flrDone.contains i then
    { s with hb := { s.hb with flrDone := s.hb.flrDone.filter (· != i) } }.clrBit (PART_VF_FLR (i / 32)) (i % 32)
  else s

/-- 90 ms without completion: the entry is no longer valid, the FLR completes, the bridge raises its event. -/
def State.vfFlrTimeout (s : State) (v : Nat) : State :=
  let i := v - 1
  if v ≠ 0 ∧ v ≤ 256 ∧ s.bitOn (PART_VF_FLR (i / 32)) (i % 32) ∧ !s.hb.flrDone.contains i then
    ((s.setOn (PART_VF_MAP_valid i) false).clrBit (PART_VF_FLR (i / 32)) (i % 32)).devLatch 1
  else s

/-! ## Meanings -/

def execPartEnableWrite (acc n : Nat) (v : Word) (s : State) : Host.Outcome State Fault Refusal :=
  .next (if acc < accessors ∧ n < 64 then s.writeAt (PART_RES_CTL n) fun s => s.writeEnable acc n v else s)
def execPartShareWrite (acc n : Nat) (v : Word) (s : State) : Host.Outcome State Fault Refusal :=
  .next (if acc < accessors ∧ n < 64 then s.writeAt (PART_RES_SHARE n) fun s => s.writeShare acc n v else s)
def execPartRstSoft (n : Nat) (s : State) : Host.Outcome State Fault Refusal :=
  .next (if n < 64 then s.writeAt (PART_RST n) fun s => (s.askFor (PART_RST_soft n)).askReset n false else s)
def execPartRstHard (acc n : Nat) (s : State) : Host.Outcome State Fault Refusal :=
  .next (if acc < accessors ∧ n < 64 then s.writeAt (PART_RST n) fun s => if isVf acc then s else (s.askFor (PART_RST_hard n)).askReset n true else s)
def execPartResetBegin (n : Nat) (s : State) : Host.Outcome State Fault Refusal :=
  .next (if n < 64 then s.resetBegin n else s)
def execPartResetDrainEnd (n : Nat) (s : State) : Host.Outcome State Fault Refusal :=
  .next (if n < 64 then s.resetCores n else s)
def execPartResetRelease (n : Nat) (s : State) : Host.Outcome State Fault Refusal :=
  .next (if n < 64 then s.resetRelease n else s)
def execPartEvtSet (n : Nat) (s : State) : Host.Outcome State Fault Refusal :=
  .next (if n < 64 then s.writeAt (PART_EVT_SET n) fun s => s.partEvt n 7 else s)
def execVfMapWrite (acc i : Nat) (v : Word) (s : State) : Host.Outcome State Fault Refusal :=
  .next (if acc < accessors ∧ i < 256 then s.writeAt (PART_VF_MAP i) fun s => s.writeVfMap acc i v else s)
def execVfFlr (v : Nat) (s : State) : Host.Outcome State Fault Refusal :=
  .next (if 1 ≤ v ∧ v ≤ 256 then s.vfFlr v else s)
def execVfFlrComplete (v : Nat) (s : State) : Host.Outcome State Fault Refusal :=
  .next (if 1 ≤ v ∧ v ≤ 256 then s.vfFlrDone v else s)
def execVfFlrTimeout (v : Nat) (s : State) : Host.Outcome State Fault Refusal :=
  .next (if 1 ≤ v ∧ v ≤ 256 then s.vfFlrTimeout v else s)

end Sys2Proof.Machine
end

