-- ==== Sys2Proof/Machine/Sage.lean ====
section
/-!
DEFINITION. Sage (16_faults_safety R463 to R493): the fault log, responses, replays and restarts, probes and remaps, recovery
and quarantine, the switch-off, fold and restore of dies, and the start of a module stop.
-/

namespace Sys2Proof.Machine

/-! ## Output pins (R522) -/

/-- A pin newly driven or released: the level it takes is the active one (low) where driven. -/
def State.drivePin (s : State) (name : String) (was now : Bool) : State := if was = now then s else s.emit (.pin name (!now))

/-- Any thermal rest value above 0. -/
def State.anyRth (s : State) : Bool :=
  (List.range 72).any (fun d => s.on (DIE_PWR_RTH_r_th d)) || s.pwr.bayRth.any (fun e => e.2 != 0)

/-- MOD_READY_N, MOD_FAULT_N and THERM_WARN_N as the phase, the last stop, Sage and the heat have them. -/
def State.pins (s : State) : State :=
  let ph := s.get IDENT_BOOT_phase
  let ready := ph == 6
  let fault := ph == 15 || (ph == 7 && s.pwr.stop == 2) || (ph == 6 && !s.on SAGE_STAT_ok)
  let therm := ph == 6 && s.anyRth
  let s1 := ((s.drivePin "MOD_READY_N" s.pwr.ready ready).drivePin "MOD_FAULT_N" s.pwr.fault fault).drivePin "THERM_WARN_N"
    s.pwr.therm therm
  { s1 with pwr := { s1.pwr with ready := ready, fault := fault, therm := therm } }

def State.sageEvt (s : State) (k : Nat) : State := s.setBit SAGE_EVT k

/-! ## The fault log (R491, R492) -/

/-- A report as its record spells it. -/
def Report.words (r : Report) (resp seq : Nat) : List Nat :=
  [r.stamp % 2 ^ 32,
    r.cls * 2 ^ 28 + resp * 2 ^ 24 + b2n r.core.isSome * 2 ^ 23 + b2n r.part.isSome * 2 ^ 22 + (r.part.getD 0) * 2 ^ 16 +
      (match r.core with | some p => p | none => r.unit % 128),
    (r.logical.getD 0x3FFF) * 2 ^ 18 + r.detail % 2 ^ 18,
    (seq % 2 ^ 16) * 2 ^ 16 + (r.stamp >>> 32) % 2 ^ 16]

/-- A report counted and, where the ring has room, recorded. -/
def State.logRecord (s : State) (r : Report) (resp : Nat) : State :=
  let s1 := s.bump (SAGE_DET_count r.cls) 1
  let h := s.get SAGE_LOG_head
  if (h + 1) % 64 = s.get SAGE_LOG_tail then (s1.raise SAGE_LOG_overflow).sageEvt 5
  else
    let s2 := each (fun (e : Nat × Nat) (t : State) => t.wr (SAGE_REC h e.1) (BitVec.ofNat 32 e.2))
      ((List.range 4).zip (r.words resp s.sage.seq)) s1
    { s2 with sage := { s2.sage with seq := s2.sage.seq + 1 } }.set SAGE_LOG_head ((h + 1) % 64)

/-- Response that R472 gives a report (log entry 66). -/
def Report.response (r : Report) : Nat :=
  match r.cls with
  | 1 | 3 | 4 | 6 | 7 => 2
  | 2 => if r.patrol then 0 else 1
  | 5 | 8 => 0
  | _ => r.page

/-- A report that stops the partition for a probe of its core (R472). -/
def Report.symptom (r : Report) : Bool := r.cls == 1 || r.cls == 3 || r.cls == 4 || r.cls == 7

/-- Cause of an overrun: 1 plan, 2 slip. -/
def Report.cause (r : Report) : Nat := r.detail % 8

/-- Two reports of one class against one place, within the window of R473. -/
def State.sameFault (s : State) (a b : Report) : Bool :=
  a.cls == b.cls && decide (b.stamp / 9375 ≤ a.stamp / 9375 + s.get SAGE_CTL_repeat) &&
    (if a.cls = 2 then a.unit == b.unit && a.page == b.page && a.detail == b.detail else a.logical == b.logical)

def State.repeated (s : State) (n : Nat) (r : Report) : Bool := (s.part n).recent.any (fun x => s.sameFault x r)

def State.remember (s : State) (n : Nat) (r : Report) : State :=
  s.onPart n (fun q => { q with recent := q.recent.filter (fun x => !s.sameFault x r) ++ [r] })

/-! ## Module stop (R487, R499) -/

/-- An ordered stop begins: nothing more is released, every active partition abandons its beat. `why`: 1 PWR_EN, 2 another. -/
def State.stopModule (s : State) (why : Nat) : State :=
  if s.on PWR_STAT_stopping then s
  else
    let s1 := ((s.setOn SAGE_STAT_gate_open false).setOn PWR_STAT_stopping true).setBit PWR_EVT 7
    let s2 := each (fun n (t : State) =>
      if t.on (BEAT_PLAN_CTL_active n) then
        (each (fun p (u : State) => u.onCore p (fun c => { c with inBeat := false })) (t.partCores n) (t.wr (BEAT_STAT n) 0)).onPart n
          (fun q => { q with interval := .none, overrun := true, beats := [] })
      else t) (List.range 64) s1
    { s2 with pwr := { s2.pwr with stop := why } }

/-! ## Candidates (R477) -/

/-- Core of a candidate, if it is usable. -/
def State.candCore (s : State) (n : Nat) (taken : List Nat) (l : Layout) (c : Cand) : Option Nat :=
  let q := s.part n
  let core := match c.kind with
    | 1 => if l.cores ≤ c.target then lookup? q.logical c.target else none
    | 2 => s.inv.bind (fun v => (v.goodCores c.target).getLast?)
    | _ => none
  core.filter (fun p =>
    s.isGood p && !taken.contains p && s.railsOn (p / 128) &&
      !(q.logical.any (fun e => e.2 == p && decide (e.1 < l.cores))) &&
      (c.kind == 1 || !(q.logical.any (fun e => e.2 == p))) &&
      (c.set == 0 || c.set == l.flowSet || l.flowSet == 0))

/-- First usable candidate of a logical id from place `k` of its record on. -/
def State.candidate (s : State) (n l k : Nat) (taken : List Nat) : Option (Nat × Nat) :=
  match (s.part n).layout with
  | none => none
  | some y =>
    match y.spares.find? (fun r => r.logical == l) with
    | none => none
    | some r =>
      ((List.range r.cands.length).filter (fun i => decide (k ≤ i))).findSome? (fun i =>
        (r.cands[i]?).bind (fun c => (s.candCore n taken y c).map (fun p => (i, p))))

/-! ## Restart (R474 to R479) -/

/-- Cycle in which a reload begun now ends: reloads into one cluster run one after another. -/
def reloadEnd (ps : List Probe) (spare a : Nat) : Nat :=
  (ps.filter (fun x => x.spare.any (fun p => p / 16 == spare / 16) && !x.reloaded)).foldl (fun t x => max t x.reload) a + 24576

/-- A suspect core: reset, its probe started, and the reload of its first usable candidate (R474 step 1). -/
def State.suspect (s : State) (n a : Nat) (ps : List Probe) (r : Report) : State × List Probe :=
  match r.core with
  | none => (s, ps)
  | some p =>
    if ps.any (fun x => x.core == p && x.verdict.isNone) then (s, ps)
    else
      let l := s.logicalOf n p
      let c := l.bind (fun i => s.candidate n i 0 (ps.filterMap (·.spare)))
      let end_ := match c with
        | some x => reloadEnd ps x.2 a
        | none => 0
      (s.coreReset p, ps ++ [⟨p, r.cls, l, a + 8192, none, (c.map (·.1)).getD 3, c.map (·.2), end_, false, false⟩])

/-- Steps and halves of the working beats whose tokens were not released, in the order they ran, and of a replay not done. -/
def PartSt.toReplay (q : PartSt) : List (Nat × Bool) := (q.beats.reverse.map (fun b => (b.step, b.second))) ++ q.replay

/-- Records the gate withdraws. -/
def State.withhold (s : State) (n : Nat) (bs : List BeatRec) : State :=
  s.bump (SAGE_P_WITHHELD_count n) (bs.foldl (fun k b => k + b.gate.length) 0)

/-- The partition's beats stop: no interval runs and BEAT_STAT reads zero. -/
def State.stopBeats (s : State) (n : Nat) : State :=
  let s1 := each (fun p (t : State) => t.onCore p (fun c => { c with inBeat := false })) (s.partCores n)
    ((s.wr (BEAT_STAT n) 0).setOn (BEAT_PLAN_CTL_held n) false)
  s1.onPart n (fun q => { q with interval := .none, ended := false })

/-- A restart begins (R474 step 1). -/
def State.beginRestart (s : State) (n : Nat) (rs : List Report) : State :=
  let q := s.part n
  let a := s.cycle / 256 * 256
  let s1 := (s.withhold n q.beats).stopBeats n
  let s2 := each (fun p (t : State) => t.setFreeze p true) (s1.partCores n) s1
  let r := rs.foldl (fun (x : State × List Probe) r => x.1.suspect n a x.2 r) (s2, [])
  let s3 := r.1.onPart n (fun y =>
    { y with
      restart := some ⟨a, false, r.2, none, q.toReplay⟩, beats := [], replay := [], overrun := false, lost := false, symptoms := []
      replays := y.replays + 1 })
  (((s3.set (SAGE_P_STAT_state n) 2).set (SAGE_P_STAT_response n) 2).bump (SAGE_P_RESTARTS_count n) 1).sageEvt 7

/-! ## Recovery and quarantine (R486) -/

/-- Requests with a step in the beats of the given steps: stage `i` ran step `s - i` in each. -/
def State.faultSteps (s : State) (n : Nat) (steps : List Nat) : State :=
  let d := s.depth n
  each (fun e (t : State) =>
    if (t.req e).flights.any (fun f => steps.any (fun b => decide (f.step ≤ b ∧ b < f.step + d))) then t.leave n e 11 6 else t)
    (s.entries n liveCodes) s

/-- A partition goes to recovery (7) or quarantine (8). -/
def State.giveUp (s : State) (n state : Nat) : State :=
  let q := s.part n
  let steps := (q.toReplay ++ ((q.restart.map (·.beats)).getD [])).map (·.1)
  let s1 := ((s.withhold n q.beats).stopBeats n).faultSteps n steps
  let s2 := s1.onPart n (fun y =>
    { y with restart := none, beats := [], replay := [], overrun := true, symptoms := [], stall := [], drain := none })
  (((s2.set (SAGE_P_STAT_state n) state).set (SAGE_P_STAT_response n) (state - 3)).sageEvt 1).askReset n false

/-! ## Responses -/

/-- Sage has answered `SAGE_CTL.replays` times in a row without a beat released (R471). -/
def State.tired (s : State) (n : Nat) : Bool := decide (s.get SAGE_CTL_replays ≤ (s.part n).replays)

/-- The report names an excused row (R480). -/
def State.isExcused (s : State) (n : Nat) (r : Report) : Bool := (s.part n).excused.contains (r.unit, r.page, r.detail)

/-- A core that has recorded a trap among reports. -/
def trapped (rs : List Report) (p : Option Nat) : Bool := rs.any (fun r => r.cls == 7 && r.core == p)

/-- The response to an overrun, once its beat is abandoned: a restart of the cores with a symptom (R472). -/
def State.answerOverrun (s : State) (n : Nat) : State :=
  let q := s.part n
  match q.symptoms.find? (fun r => r.cls == 6) with
  | none => s
  | some o =>
    if q.interval ≠ .none ∨ q.restart.isSome ∨ !q.overrun ∨ q.lost then s
    else
      let rs := (q.beats.reverse.flatMap (·.faults) ++ q.symptoms).filter Report.symptom
      let more := if o.cause = 1 ∧ !trapped rs o.core then [o] else []
      if s.tired n ∨ (o.cause = 2 ∧ s.repeated n o) then s.giveUp n 8
      else (if o.cause = 2 then s.remember n o else s).beginRestart n (rs ++ more)

/-- The beat a stamp falls in: the newest whose first tick is not later, unless a rest beat or a hold has begun since. -/
def State.beatOf (s : State) (n stamp : Nat) : Option Nat :=
  let q := s.part n
  let first := s.tick - (s.cycle / 256 - q.began / 256)
  if (q.interval = .rest ∨ q.interval = .hold) ∧ first ≤ stamp then none
  else (q.beats.find? (fun b => decide (b.start ≤ stamp))).map (·.index)

/-- A report joins the fault set of its beat; outside every beat a core symptom waits for the next boundary. -/
def State.faultBeat (s : State) (n : Nat) (r : Report) : State :=
  match s.beatOf n r.stamp with
  | some i => s.onPart n (fun q =>
      { q with beats := q.beats.map (fun b => if b.index = i then { b with faults := b.faults ++ [r] } else b) })
  | none => if r.symptom then s.onPart n (fun q => { q with symptoms := q.symptoms ++ [r] }) else s

/-- What Sage does with a report of a partition as it arrives. -/
def State.sageAct (s : State) (n : Nat) (r : Report) : State :=
  if s.on (PART_RST_busy n) then s
  else if r.symptom then
    match (s.part n).restart with
    | some x =>
      let y := s.suspect n (s.cycle / 256 * 256) x.probes r
      y.1.onPart n (fun q => { q with restart := some { x with probes := y.2 } })
    | none => if r.patrol then s.onPart n (fun q => { q with symptoms := q.symptoms ++ [r] }) else s.faultBeat n r
  else if r.cls = 2 then (if r.patrol || s.isExcused n r then s else s.faultBeat n r)
  else if r.cls = 6 ∧ (s.part n).overrun then (s.onPart n (fun q => { q with symptoms := q.symptoms ++ [r] })).answerOverrun n
  else s

/-- A report reaches Sage: logged, counted, answered. -/
def State.sageTake (s : State) (r0 : Report) : State :=
  let r := { r0 with logical := r0.logical <|> (r0.part.bind (fun n => r0.core.bind (s.logicalOf n))) }
  let s1 := s.logRecord r r.response
  match r.part with
  | some n => s1.sageAct n r
  | none => s1

/-- Sage is being restarted: a firmware pause in which every active partition is held (R534, R535). -/
def State.sageDown (s : State) : Bool :=
  s.fw.paused && (List.range 64).all (fun n => !s.on (BEAT_PLAN_CTL_active n) || s.on (BEAT_PLAN_CTL_held n))

/-- SAGE_REPORT: the oldest report; while Sage is down reports wait. -/
def State.sageReport (s : State) : State :=
  match s.reports with
  | r :: rest => if s.sageDown then s else { s with reports := rest }.sageTake r
  | [] => s

/-- Reports of a partition stamped before the present tick, at its boundary (log entry 52). -/
def State.sageFlush (s : State) (n : Nat) : State :=
  let due := fun (r : Report) => r.part == some n && decide (r.stamp < s.tick)
  each (fun r (t : State) => t.sageTake r) (s.reports.filter due) { s with reports := s.reports.filter (fun r => !due r) }

/-! ## Probes (R476) -/

def Core.badRows (c : Core) : List Nat := (c.marks.filter (fun e => e.2.fatal != [])).map (·.1)

/-- Data of a row of a placed core as loaded: home copy, retained stream, or zero. -/
def State.rowAsLoaded (s : State) (n l row : Nat) (c : Core) : Row :=
  match (s.part n).layout with
  | none => 0
  | some y =>
    match c.ranges.find? (fun r => decide (r.base false ≤ row ∧ row < r.base false + r.rows)), y.home with
    | some r, some k => s.listRow (s.homeSlots k) (r.home + (row - r.base false))
    | _, _ =>
      let h := s.headAt y.src
      match (s.readStream h).inits.find? (fun x => x.logical == l && decide (x.first ≤ row ∧ row < x.first + x.rows)) with
      | some x => BitVec.ofNat 512 (s.listNum h.slots (x.data + 64 * (row - x.first)) 64)
      | none => 0

/-- The row of the home copy that a row is loaded from is read by the loader. -/
def State.readAsLoaded (s : State) (n row : Nat) (c : Core) : State :=
  match c.ranges.find? (fun r => decide (r.base false ≤ row ∧ row < r.base false + r.rows)), (s.part n).layout.bind (·.home) with
  | some r, some k => s.listRead .bulk (s.homeSlots k) (r.home + (row - r.base false)) 1
  | _, _ => s

/-- The uncorrectable rows of a kept core rewritten. -/
def State.repairCore (s : State) (n p l : Nat) : State :=
  let c := s.core p
  (each (fun r (t : State) => t.readAsLoaded n r c) c.badRows s).onCore p (fun c =>
    c.badRows.foldl (fun k r => k.setPadRow r (s.rowAsLoaded n l r c)) c)

def State.onProbe (s : State) (n p : Nat) (f : Probe → Probe) : State :=
  s.onPart n (fun q => { q with
    restart := q.restart.map (fun x => { x with probes := x.probes.map (fun y => if y.core = p ∧ !y.reloaded then f y else y) }) })

/-! ## Routes and remap (R478) -/

/-- The steward writes the translation tables of every die, and the class 0 tables of a flow set, into the standby banks, and asks for
their swap at the tick `t`, the same on every die (R187, R478). -/
def State.switchRoutes (s : State) (n : Nat) (set : Option Nat) (ids : List (Nat × Nat)) (t : Nat) : State :=
  let s1 := match set, (s.part n).layout with
    | some k, some y => s.loadTables n ids (y.flows.filter (fun f => f.set == k))
    | _, _ => each (fun d (u : State) => u.setXlat d (1 - u.c0Bank d n) n ids) (List.range 72) s
  each (fun d (u : State) => (u.set (DIE_RT_SWAP_AT_tick d) t).setBit
    (if n < 32 then DIE_RT_C0SWAP_LO d else DIE_RT_C0SWAP_HI d) (n % 32)) (List.range 72) s1

/-- The set that the partition's tables hold from the swap on. -/
def State.setFlows (s : State) (n : Nat) (set : Option Nat) : State :=
  match set with
  | some k => s.onPart n (fun q => { q with layout := q.layout.map (fun y => { y with flowSet := k }) })
  | none => s

/-- A dead core whose spare is to take its logical id at the next switch of routes. -/
def Probe.moving (x : Probe) : Bool := x.verdict == some false && !x.swapped && x.spare.isSome

/-- Logical ids and cores of the partition once the dead cores among the probes have given theirs to their spares. -/
def PartSt.idsAfter (q : PartSt) (ps : List Probe) : List (Nat × Nat) :=
  (ps.filter Probe.moving).foldl (fun ids x =>
    match x.logical, x.spare with
    | some l, some sp => put (ids.filter (fun e => e.2 != sp)) l sp
    | _, _ => ids) q.logical

/-- Flow set that the candidate of a dead core names, where it is not the active one (R245). -/
def PartSt.setAfter (q : PartSt) (ps : List Probe) : Option Nat :=
  q.layout.bind (fun y => (ps.filter Probe.moving).findSome? (fun x =>
    ((y.spares.find? (fun r => some r.logical == x.logical)).bind (fun r => r.cands[x.cand]?)).bind (fun c =>
      if c.set = 0 ∨ c.set = y.flowSet then none else some c.set)))

/-- The routes of the remaps of a restart are written, which takes the steward 4,800 cycles: they switch with the first tick after
that (R478). -/
def State.planRemap (s : State) (n : Nat) : State :=
  let q := s.part n
  match q.restart with
  | some x =>
    if x.probes.any Probe.moving then
      let k := ceilDiv (s.cycle + 4800) 256
      (s.switchRoutes n (q.setAfter x.probes) (q.idsAfter x.probes) (s.tick + (k - s.cycle / 256))).onPart n (fun y =>
        { y with restart := some { x with swapAt := some (256 * k) } })
    else s
  | none => s

/-- In the tick of the swap the spare takes the logical id and the dead core is marked failed. -/
def State.remap (s : State) (n : Nat) (x : Probe) : State :=
  match x.logical, x.spare with
  | some l, some sp =>
    let s1 := (s.onPart n (fun q =>
      { q with logical := put (q.logical.filter (fun e => e.2 != sp)) l sp })).setOn (DIE_CORE_CTL_member x.core) false
    ((s1.markFailed x.core).jobInventory).onProbe n x.core (fun p => { p with swapped := true })
  | _, _ => s

/-- The remaps whose routes switch with the tick that begins (R478). -/
def State.remapTick (s : State) (n : Nat) : State :=
  let q := s.part n
  match q.restart with
  | some r =>
    if r.swapAt.any (fun c => decide (c ≤ s.cycle)) then
      (each (fun (x : Probe) (t : State) => t.remap n x) (r.probes.filter Probe.moving) (s.setFlows n (q.setAfter r.probes))).onPart n
        (fun y => { y with restart := y.restart.map (fun z => { z with swapAt := none }) })
    else s
  | none => s

/-! ## Verdicts -/

/-- CORE_PROBE_COMPLETE: `ok` is the engine test and every pattern read-back. -/
def State.probeDone (s : State) (n p : Nat) (ok : Bool) : State :=
  match ((s.part n).restart.map (·.probes)).bind (fun ps => ps.find? (fun x => x.core == p && x.verdict.isNone)) with
  | none => s
  | some x =>
    if s.cycle < x.ends then s
    else
      let pass := ok && decide ((s.core p).badRows.length ≤ 8)
      let r : Report := ⟨14, s.tick, some n, some p, 0, x.logical, b2n (!pass), if pass then 2 else 3, false⟩
      let s1 := (s.logRecord r r.response).onProbe n p (fun y => { y with verdict := some pass })
      if pass then
        let r2 : Report := ⟨x.cls, s.tick, some n, some p, 0, x.logical, 0, 0, false⟩
        let s2 := (s1.repairCore n p (x.logical.getD 0)).onProbe n p (fun y => { y with spare := none })
        if s2.repeated n r2 then s2.giveUp n 8 else s2.remember n r2
      else if x.spare.isNone then s1.giveUp n 7
      else s1.planRemap n

/-! ## Reloads -/

/-- Spare pool of a partition: good cores of its clusters that hold no placed id (R231). -/
def State.sparePool (s : State) (n : Nat) : Nat :=
  match s.inv, (s.part n).layout with
  | some v, some y => (s.clusters n).foldl (fun k g => k + popcount 16 (v.goodMask g)) 0 - y.cores
  | _, _ => 0

/-- SPARE_RELOAD_COMPLETE: the spare of a dead core holds its state; `bad` where the candidate had an uncorrectable row. -/
def State.reloadDone (s : State) (n p : Nat) (bad : Bool) : State :=
  match (s.part n).restart, (s.part n).layout with
  | some r, some y =>
    match r.probes.find? (fun x => x.core == p && x.verdict == some false && x.swapped && !x.reloaded) with
    | none => s
    | some x =>
      match x.spare, x.logical with
      | some sp, some l =>
        if s.cycle < x.reload then s
        else if bad then
          match s.candidate n l (x.cand + 1) (sp :: r.probes.filterMap (·.spare)) with
          | none => s.giveUp n 7
          | some c => (s.onProbe n p (fun z =>
              { z with cand := c.1, spare := some c.2, reload := reloadEnd r.probes c.2 s.cycle, swapped := false })).planRemap n
        else
          let h := s.headAt y.src
          let t := s.readStream h
          let rec_ := t.recs.getD l ⟨0, 0, 0, []⟩
          let s1 := s.loadCore s h t l sp rec_
          let damaged := match y.wman, y.home with
            | some w, some k => s.homeBad (coreRanges w l) k
            | _, _ => false
          let s2 := match y.home with
            | some k => s1.fillLive sp k
            | none => s1
          if damaged then s2.giveUp n 7
          else
            let s3 := ((s2.onProbe n p (fun z => { z with reloaded := true })).bump (SAGE_P_REMAPS_count n) 1).sageEvt 0
            let s4 := (s3.set (SAGE_P_STAT_response n) 3)
            if s4.sparePool n < h.spares then s4.sageEvt 4 else s4
      | _, _ => s
  | _, _ => s

/-- RESTART_DRAIN_END (R474 steps 2 and 3). -/
def State.drainEnd (s : State) (n : Nat) : State :=
  match (s.part n).restart with
  | some r =>
    if !r.drained ∧ s.cycle % 256 = 0 ∧ r.a + 1024 ≤ s.cycle ∧ (s.settleCores n).drained n then
      (each (fun p (t : State) => t.coreReset p) (s.partCores n) (s.settleCores n)).onPart n (fun q =>
        { q with restart := some { r with drained := true } })
    else s
  | none => s

/-- Step 5 may begin: drained, every probe decided, every reload done. -/
def State.replayDue (s : State) (n : Nat) : Bool :=
  match (s.part n).restart with
  | some r => r.drained && s.cycle % 256 == 0 && r.probes.all (fun x => x.verdict == some true || x.reloaded)
  | none => false

/-! ## Bay rows that repeat (R480) -/

/-- Slots of the adapter pages that a live request uses. -/
def State.adapterSlots (s : State) (e : Nat) : List Nat :=
  if s.on (rqAdapterOn e) then
    match (s.adp (s.get (rqAdapterHandle e))).bind (fun a => a.slot (s.get (rqAdapterEpoch e))) with
    | some x => s.listFrom x.pages x.head
    | none => []
  else []

/-- A Bay read repeats within its replay: the requests that name the page are faulted and the row excused; quarantine where
the page is a plan, index or directory page. -/
def State.searchPage (s : State) (n : Nat) (r : Report) : State :=
  let g := pagesPerBay * r.unit + r.page
  let names := fun (l : List Nat) => l.any (fun i => slotPage (s.slot i) == g)
  if names (s.pagesRec n (s.get (REQ_P_CTL_plan_rec n))) || names (s.kvSlots n) || names (s.dirSlots n) then s.giveUp n 8
  else
    let hit := (s.entries n liveCodes).filter (fun e => names (s.ownSlots e) || names (s.prefixSlots e) || names (s.adapterSlots e))
    ((each (fun e (t : State) => t.leave n e 11 6) hit s).onPart n (fun q =>
      { q with excused := (r.unit, r.page, r.detail) :: q.excused })).set (SAGE_P_STAT_state n) 3

/-- Sage answers withdrawn beats at a boundary (R470 to R473): `rs` their reports, `again` the beats to replay. -/
def State.answerBeats (s : State) (n : Nat) (rs : List Report) (again : List (Nat × Bool)) : State :=
  let sym := rs.filter Report.symptom
  let put_ := fun (t : State) => t.onPart n (fun q => { q with replay := again })
  if s.tired n then (put_ s).giveUp n 8
  else if sym ≠ [] then (put_ s).beginRestart n sym
  else
    let s1 := (((put_ s).set (SAGE_P_STAT_state n) 1).set (SAGE_P_STAT_response n) 1).bump (SAGE_P_REPLAYS_count n) 1
    let s2 := (s1.sageEvt 7).onPart n (fun q => { q with replays := q.replays + 1 })
    match rs.find? (fun r => r.cls == 2 && s.repeated n r && decide (0 < (s.part n).replays)) with
    | some r => s2.searchPage n r
    | none => each (fun r (t : State) => t.remember n r) (rs.filter (fun r => r.cls == 2)) s2

/-! ## Dies (R482 to R485, R508, R509) -/

def State.die (s : State) (d : Nat) : DieSt := lookupD DieSt.reset s.pwr.dies d

def State.onDie (s : State) (d : Nat) (f : DieSt → DieSt) : State :=
  { s with pwr := { s.pwr with dies := put s.pwr.dies d (f (s.die d)) } }

/-- Active partitions with a placed core in a die. -/
def State.partsOn (s : State) (d : Nat) : List Nat :=
  (List.range 64).filter (fun n => s.on (BEAT_PLAN_CTL_active n) && (s.members n).any (fun p => p / 128 == d))

/-- A partition is told of a die's switch-off: it drains for a fold, or stalls at its next boundary (R482). -/
def State.dieLeaves (s : State) (n d : Nat) : State :=
  let q := s.part n
  let plan := (q.layout.map (fun l => l.folds.any (fun f => f.die == d))).getD false
  if s.on (SAGE_P_CTL_fold n) && plan && q.folded.isNone then
    ((s.onPart n (fun q => { q with drain := some d })).set (SAGE_P_STAT_state n) 4).set (SAGE_P_STAT_die n) d
  else (s.onPart n (fun q => { q with stall := d :: q.stall })).setOn (BEAT_PLAN_CTL_hold n) true

/-- A die flagged for switch-off: 4 heat, 5 rail (R482, R501, R508). -/
def State.flagDie (s : State) (d cause : Nat) : State :=
  let x := s.die d
  if !s.railsOn d then
    if x.cause = 4 ∧ cause = 5 then ((s.onDie d (fun y => { y with cause := 5 })).set (DIE_PWR_STAT_state d) 5).setBit (DIE_PWR_STAT d) 4
    else s
  else
    let c := max x.cause cause
    let s1 := (s.set (DIE_PWR_STAT_state d) (if c = 5 then 5 else 3)).setBit (DIE_PWR_STAT d) 1
    let s2 := if cause = 5 then s1.setBit (DIE_PWR_STAT d) 4 else s1
    let s3 := s2.onDie d (fun y => { y with cause := c, flagged := some (y.flagged.getD s.tick) })
    if x.flagged.isSome then s3 else each (fun n (t : State) => t.dieLeaves n d) (s3.partsOn d) s3

/-- Sage shows the die that a partition stalls for, as its latest response and its event (R488, R493). -/
def State.showStall (s : State) (n d : Nat) : State :=
  (((s.set (SAGE_P_STAT_state n) 5).set (SAGE_P_STAT_response n) 7).set (SAGE_P_STAT_die n) d).sageEvt 2

/-- A partition's beat abandoned because a die is off at once (R482, R485): it stalls and restarts when the die is back. -/
def State.loseBeat (s : State) (n d : Nat) : State :=
  let q := s.part n
  let s1 := (s.abandon n).stopBeats n
  let s2 := s1.onPart n (fun y =>
    { y with
      lost := true, overrun := true, drain := none, stall := if y.stall.contains d then y.stall else d :: y.stall
      restart := none, replay := q.replay ++ ((q.restart.map (·.beats)).getD []) })
  s2.showStall n d

/-- The compute rails of a die off: its cores keep their contents, its PLL stops. -/
def State.railsOff (s : State) (d cause : Nat) : State :=
  let s1 := ((s.setOn (DIE_PWR_CTL_compute d) false).setOn (DIE_PWR_CTL_retention d) true).set (DIE_PWR_STAT_state d) cause
  ((s1.setBit (DIE_PWR_STAT d) 2).sageEvt 2).onDie d (fun y => { y with cause := cause, flagged := none, offAt := s.cycle, cool := 0 })

/-- DIE_SWITCHOFF: every partition with a placed core there is held or inactive, or 1 ms has passed since the flag. -/
def State.dieSwitchOff (s : State) (d : Nat) : State :=
  let x := s.die d
  match x.flagged with
  | none => s
  | some t0 =>
    let late := (s.partsOn d).filter (fun n => !s.on (BEAT_PLAN_CTL_held n))
    if s.cycle % 256 = 0 ∧ s.railsOn d ∧ (late = [] ∨ t0 + 9375 ≤ s.tick) then
      let s1 := (each (fun n (t : State) => t.loseBeat n d) late s).railsOff d x.cause
      if x.cause = 4 then
        let marks := (x.heat.filter (fun m => decide (s.tick / 9375 < m + 60000))) ++ [s.tick / 9375]
        let s2 := (s1.bump (DIE_PWR_OFFS_count d) 1).onDie d (fun y => { y with heat := marks })
        if 4 ≤ marks.length then (s2.setOn (DIE_PWR_CTL_hold_off d) true).setBit (DIE_PWR_STAT d) 5 else s2
      else s1
    else s

/-- FOLD_RUN (R483): home rows into the fold targets, translation, flow set, overrides; the hold clears. Moves of one source
take its home rows in order (log entry 71). -/
def State.foldMoves (s : State) (n : Nat) (y : Layout) (k : Nat) : List FoldMove → List (Nat × Nat) → State
  | [], _ => s
  | m :: r, used =>
    let rs : List WRange := match y.wman with | some w => coreRanges w m.source | none => []
    let rows := rs.flatMap (fun x => (List.range x.rows).map (x.home + ·))
    let from_ := lookupD 0 used m.source
    let s1 := match s.physOf n m.target with
      | some p =>
        (each (fun r (t : State) => t.listRead .bulk (s.homeSlots k) r 1) ((rows.drop from_).take m.rows) s).onCore p (fun c =>
          (((rows.drop from_).take m.rows).zip (List.range m.rows)).foldl
            (fun (c : Core) (e : Nat × Nat) => c.setPadRow (m.first + e.2) (s.listRow (s.homeSlots k) e.1)) c)
      | none => s
    s1.foldMoves n y k r (put used m.source (from_ + m.rows))

def State.foldRun (s : State) (n : Nat) : State :=
  let q := s.part n
  match q.drain, q.layout with
  | some d, some y =>
    if s.on (BEAT_PLAN_CTL_held n) ∧ q.folded = none then
      match y.folds.find? (fun f => f.die == d) with
      | none => s
      | some f =>
        let gone := q.logical.filter (fun e => e.2 / 128 == d && decide (e.1 < y.cores))
        let bad := f.moves.any (fun m => match y.wman, y.home with
          | some w, some k => s.homeBad (coreRanges w m.source) k
          | _, _ => false)
        let s1 := match y.home with
          | some k => s.foldMoves n y k f.moves []
          | none => s
        if bad then s1.giveUp n 7
        else
          let s2 := (s1.onPart n (fun q =>
            { q with
              logical := q.logical.filter (fun e => !gone.contains e), foldIds := gone, drain := none, folded := some d, second := true
              foldRec := f.overrides.map (fun o => (o.1, s.recipe n o.1)), holdClr := some s.cycle })).setFlows n (some f.set)
          let s2 := s2.switchRoutes n (some f.set) (s2.part n).logical (s.tick + 1)
          let s3 := each (fun (o : Nat × Nat) (t : State) => t.setRecipe n o.1 o.2) f.overrides s2
          (((s3.setOn (BEAT_PLAN_CTL_hold n) false).set (SAGE_P_STAT_state n) 6).set (SAGE_P_STAT_response n) 8).sageEvt 2
    else s
  | _, _ => s

/-- The main flow set, the placed ids and the recipes come back (R484). -/
def State.unfold (s : State) (n : Nat) : State :=
  let q := s.part n
  let s1 := (s.onPart n (fun q =>
    { q with
      logical := q.foldIds.foldl (fun m e => put m e.1 e.2) q.logical, foldIds := [], folded := none, foldRec := [], drain := none
      unfold := false, second := true, holdClr := some s.cycle })).setFlows n (some 0)
  let s1 := s1.switchRoutes n (some 0) (s1.part n).logical (s.tick + 1)
  let s2 := each (fun (o : Nat × Nat) (t : State) => t.setRecipe n o.1 o.2) q.foldRec s1
  ((s2.setOn (BEAT_PLAN_CTL_hold n) false).set (SAGE_P_STAT_state n) 0).set (SAGE_P_STAT_die n) 127

/-- What a die's restore does to a partition (R484): `bad` the cores that the probe of the restore finds a symptom in. -/
def State.dieReturns (s : State) (d : Nat) (bad : List Nat) (n : Nat) : State :=
  let q := s.part n
  if q.stall.contains d then
    let rest := q.stall.filter (· != d)
    let s1 := s.onPart n (fun q => { q with stall := rest })
    let mine := bad.filter (fun p => (s.members n).contains p)
    if rest ≠ [] then s1
    else if q.lost ∨ mine ≠ [] then
      (s1.setOn (BEAT_PLAN_CTL_hold n) false).set (SAGE_P_STAT_die n) 127 |>.beginRestart n
        (mine.map (fun p => (⟨14, s.tick, some n, some p, 0, s.logicalOf n p, 0, 0, false⟩ : Report)))
    else (((s1.setOn (BEAT_PLAN_CTL_hold n) false).onPart n (fun q => { q with holdClr := some s.cycle })).set (SAGE_P_STAT_state n) 0).set
      (SAGE_P_STAT_die n) 127
  else if q.folded = some d then
    if s.on (BEAT_PLAN_CTL_active n) then
      (s.onPart n (fun q => { q with drain := some d, unfold := true })).set (SAGE_P_STAT_state n) 4
    else s.unfold n
  else s

/-- A die's rails on again, its cores back at a tick boundary (R43, R484, R509). -/
def State.dieBack (s : State) (d : Nat) (bad : List Nat) : State :=
  let s1 := ((((s.setOn (DIE_PWR_CTL_compute d) true).setOn (DIE_PWR_CTL_retention d) false).set (DIE_PWR_STAT_state d) 2).setBit
    (DIE_PWR_STAT d) 3).done (DIE_PWR_CTL_restore d)
  let s2 := (s1.sageEvt 2).onDie d (fun y => { y with cause := 0, flagged := none, cool := 0 })
  each (fun n (t : State) => t.dieReturns d (bad.filter (· / 128 == d)) n) (List.range 64) s2

/-- DIE_RESTORE (R509): for heat once it has been cool for 100 marks and is not kept off; else by DIE_PWR_CTL.restore. -/
def State.dieRestore (s : State) (d : Nat) (bad : List Nat) : State :=
  let x := s.die d
  let may := s.cycle % 256 == 0 && decide (100 ≤ x.cool) && !s.on (DIE_PWR_CTL_hold_off d) && !s.on PWR_STAT_stopping && !s.railsOn d &&
    (x.cause == 4 || (x.cause == 5 && s.on (DIE_PWR_CTL_restore d)))
  let warm := fun (t : State) => if s.get (DIE_PWR_RTH_r_th d) = 0 then (t.setBit PWR_EVT 2).setBit (DIE_PWR_STAT d) 0 else t
  if may then ((warm (s.set (DIE_PWR_RTH_r_th d) 16)).dieBack d bad).pins else s

/-- DIE_PWR_CTL.restore written with 1 (R509, R513). -/
def State.restoreWrite (s : State) (d : Nat) : State :=
  (s.setOn (DIE_PWR_CTL_hold_off d) false).setOn (DIE_PWR_CTL_restore d) true

/-- A clock (10) or tick (11) fault at a die switches its rails off at once (R485). -/
def State.clockFault (s : State) (d cls : Nat) : State :=
  if s.railsOn d then
    let ns := s.partsOn d
    let s1 := (each (fun n (t : State) => t.loseBeat n d) ns s).railsOff d 6
    s1.report ⟨cls, s.tick, none, none, d, none, 0, 7, false⟩
  else s

def State.clockRecover (s : State) (d : Nat) (bad : List Nat) : State :=
  if s.cycle % 256 = 0 ∧ (s.die d).cause = 6 ∧ !s.railsOn d ∧ !s.on PWR_STAT_stopping then s.dieBack d bad else s

/-- A flag of a die cleared in the record, its good cores moved to failed_mask, in one update (R25, R26). -/
def State.clearDieFlag (s : State) (d bit : Nat) : State :=
  match s.inv with
  | none => s
  | some v =>
    let w := (List.range 128).foldl (fun w i => w.markFailed (128 * d + i)) v
    let u := { w with dieFlags := put w.dieFlags d (setField (v.dieFlag d) bit 1 0), sequence := (v.sequence + 1) % 2 ^ 32 }
    ((({ s with inv := some u }).setOn IDENT_INV_STAT_pending true).showInv).setBit EVC_DEV_LATCH 2

/-- A die not back within 10 ms: its flag is cleared, the steward writes the default tables anew, and its partitions go to recovery
(R185, R485). -/
def State.clockTimeout (s : State) (d : Nat) : State :=
  let x := s.die d
  if x.cause = 6 ∧ !s.railsOn d ∧ x.offAt + 24000000 ≤ s.cycle ∧ (s.inv.any (fun v => (v.dieFlag d).testBit 0)) then
    let ns := (List.range 64).filter (fun n => (s.part n).stall.contains d)
    each (fun n (t : State) => t.giveUp n 7) ns ((s.clearDieFlag d 0).jobInventory.installRoutes)
  else s

/-! ## Inventory, self-test, control cores -/

/-- The updated record is written to the older flash slot (R25). -/
def State.flashInv (s : State) : State :=
  match s.inv with
  | some v =>
    if s.on IDENT_INV_STAT_pending ∧ !s.pwr.inhibit then
      let older := match storedRecord s.flash.inv0, storedRecord s.flash.inv1 with
        | none, _ => true
        | some _, none => false
        | some a, some b => decide (a.sequence ≤ b.sequence)
      ({ s with flash := if older then { s.flash with inv0 := some v.stored } else { s.flash with inv1 := some v.stored } }).setOn
        IDENT_INV_STAT_pending false
    else s
  | none => s

/-- Sage's own test (R464): a failure stops the module. -/
def State.selfTest (s : State) (ok : Bool) : State :=
  if ok then (s.setOn SAGE_STAT_ok true).bump SAGE_STAT_selftests 1
  else
    let r : Report := ⟨15, s.tick, none, none, 72, none, 0, 9, false⟩
    (((s.setOn SAGE_STAT_ok false).logRecord r 9).stopModule 2).pins

/-- A control core's lockstep pair disagrees (R481). -/
def State.ccMismatch (s : State) (c : Nat) : State :=
  if 8 ≤ c then s
  else
    let m := s.tick / 9375
    let again := match lookup? s.sage.cc c with
      | some k => decide (m ≤ k + s.get SAGE_CTL_repeat)
      | none => false
    let s1 := ((s.ccStop c).sageEvt 3).report ⟨9, s.tick, none, none, c, none, 0, 10, false⟩
    { s1 with
      sage := { s1.sage with
        cc := put s1.sage.cc c m, dead := if again && !s1.sage.dead.contains c then c :: s1.sage.dead else s1.sage.dead } }

/-- A stopped control core runs again, unless it is to stay stopped. -/
def State.ccRestart (s : State) (c : Nat) : State :=
  if s.sage.dead.contains c then s else s.onEvc (fun e => { e with stopped := e.stopped.filter (· != c) })

/-! ## Meanings -/

def execSageReport (s : State) : Host.Outcome State Fault Refusal := .next s.sageReport
def execSageSelftest (ok : Bool) (s : State) : Host.Outcome State Fault Refusal := .next (s.selfTest ok)
def execRestartDrainEnd (n : Nat) (s : State) : Host.Outcome State Fault Refusal :=
  .next (if n < 64 then s.drainEnd n else s)
def execCoreProbeComplete (n p : Nat) (ok : Bool) (s : State) : Host.Outcome State Fault Refusal :=
  .next (if n < 64 ∧ p < 9216 then s.probeDone n p ok else s)
def execSpareReloadComplete (n p : Nat) (bad : Bool) (s : State) : Host.Outcome State Fault Refusal :=
  .next (if n < 64 ∧ p < 9216 then s.reloadDone n p bad else s)
def execInventoryFlashWrite (s : State) : Host.Outcome State Fault Refusal := .next s.flashInv
def execCcLockstepMismatch (c : Nat) (s : State) : Host.Outcome State Fault Refusal :=
  .next (if c < 8 then s.ccMismatch c else s)
def execCcRestart (c : Nat) (s : State) : Host.Outcome State Fault Refusal :=
  .next (if c < 8 then s.ccRestart c else s)
def execDieClockFault (d : Nat) (tickLoss : Bool) (s : State) : Host.Outcome State Fault Refusal :=
  .next (if d < 72 then s.clockFault d (if tickLoss then 11 else 10) else s)
def execDieClockRecover (d : Nat) (bad : List Nat) (s : State) : Host.Outcome State Fault Refusal :=
  .next (if d < 72 then s.clockRecover d bad else s)
def execDieClockTimeout (d : Nat) (s : State) : Host.Outcome State Fault Refusal :=
  .next (if d < 72 then s.clockTimeout d else s)
def execDieSwitchoff (d : Nat) (s : State) : Host.Outcome State Fault Refusal :=
  .next (if d < 72 then s.dieSwitchOff d else s)
def execFoldRun (n : Nat) (s : State) : Host.Outcome State Fault Refusal :=
  .next (if n < 64 then s.foldRun n else s)
def execDieRestore (d : Nat) (bad : List Nat) (s : State) : Host.Outcome State Fault Refusal :=
  .next (if d < 72 then s.dieRestore d bad else s)
def execDiePwrRestoreWrite (d : Nat) (s : State) : Host.Outcome State Fault Refusal :=
  .next (if d < 72 then s.writeAt (DIE_PWR_CTL d) fun s => (s.askFor (DIE_PWR_CTL_restore d)).restoreWrite d else s)

end Sys2Proof.Machine
end

