-- ==== Sys2Proof/Machine/Boundary.lean ====
section
/-!
DEFINITION. What a tick, a boundary and a millisecond mark do beyond the interval itself: the emit gate with the watcher and
Sage (R52, R135, R469 to R471), the planning boundary (R289, R296), swaps (R370), holds, the replay of a restart (R474),
and the governor (R504 to R508).
-/

namespace Sys2Proof.Machine

/-! ## The gate (R52, R469, R135) -/

/-- Beats whose tokens are released, oldest first, after the gate has opened; Sage's count of replays starts again. -/
def State.releaseBeats (s : State) (n : Nat) (bs : List BeatRec) : State :=
  if bs = [] ∨ !s.on SAGE_STAT_gate_open then s
  else
    let s1 := each (fun b (t : State) => t.releaseBeat n b) bs s
    let s2 := s1.onPart n (fun q => { q with replays := 0 })
    if s2.get (SAGE_P_STAT_state n) = 1 then s2.set (SAGE_P_STAT_state n) 0 else s2

/-- First beat that a watcher replay runs again: the evaluated one, or the pair's A beat (R135). -/
def watchStart (b : BeatRec) (bs : List BeatRec) : Nat :=
  if b.half then ((bs.filter (fun x => x.step == b.step && decide (x.index ≤ b.index))).map (·.index)).foldl min b.index
  else b.index

/-- The beats that a replay runs, by step and half: those withdrawn, and where the watcher flagged a pair also its A beat, whose
tokens an interval between the two may have let go (R135, R470). -/
def replayOf (lost : List BeatRec) (flagged : Option BeatRec) : List (Nat × Bool) :=
  let l := lost.map (fun b => (b.step, b.second))
  match flagged with
  | some b => if b.half && !l.contains (b.step, false) then l.dropLast ++ [(b.step, false), (b.step, b.second)] else l
  | none => l

/-- The gate at a boundary. `ended`: a working beat has just ended. `flag`: the watcher replays it. Due tokens before the first
beat to run again are released; the rest is withdrawn and answered. -/
def State.gate (s : State) (n : Nat) (ended flag : Bool) : State :=
  let q := s.part n
  let all := q.beats.reverse
  let due := if ended then all.dropLast else all
  let newest := if ended then all.getLast? else none
  let faulted := fun (b : BeatRec) => b.faults != []
  let starts := ((due.find? faulted).map (·.index)).toList ++
    (newest.toList.filter (fun b => faulted b || q.symptoms != [])).map (·.index) ++
    (if flag then newest.toList.map (fun b => watchStart b all) else [])
  let before := fun (b : BeatRec) => starts.all (fun i => decide (b.index < i))
  let lost := all.filter (fun b => !before b)
  let reports := lost.flatMap (·.faults) ++ q.symptoms
  let again := replayOf lost (if flag then newest else none) ++ q.replay
  let s1 := (s.releaseBeats n (due.filter before)).onPart n (fun y =>
    { y with beats := if lost = [] then newest.toList else [], symptoms := [] })
  let s2 := if flag then s1.onPart n (fun y => { y with nwReplay := true }) else s1
  let s3 := if lost = [] then s2 else s2.withhold n lost
  if reports ≠ [] then s3.answerBeats n reports again
  else if flag then s3.onPart n (fun y => { y with replay := again })
  else s3

/-! ## Beginning an interval -/

def allCodes : List Nat := [1, 2, 3, 4, 5, 6, 7, 8, 9, 10, 11]

/-- No request of the partition has a step in flight. -/
def State.noFlights (s : State) (n : Nat) : Bool := (s.entries n allCodes).all (fun e => (s.req e).flights == [])

/-- A stage's flip at the planning boundary of step `cur`, if one falls due (R370 step 5, R371): the state, and whether the
boundary holds for a missing tag instead. -/
def State.flipDue (s : State) (n cur : Nat) : State × Bool :=
  match (s.part n).wave, (s.part n).layout with
  | some v, some l =>
    let v1 : Wave := if v.step = none ∧ s.atOrAfter (s.get (PART_WGT_SWAP_AT_tick n)) ∧ (s.part n).folded = none then
      { v with step := some cur } else v
    match v1.step with
    | none => (s, false)
    | some s0 =>
      let s1 := s.onPart n (fun q => { q with wave := some v1 })
      if cur < s0 + (v1.stage - l.serve.stageIn) then (s1, false)
      else if s1.stageTagged n v1.stage then
        let s2 := (s1.flipStage n v1.stage).onPart n (fun q => { q with wave := some { v1 with stage := v1.stage + 1 } })
        (if v1.stage = l.serve.stageOut then s2.endWave n else s2, false)
      else ((s1.bump (PART_WGT_HELDFLIP_count n) 1).refillTags n v1.stage, true)
  | _, _ => (s, false)

/-- A planning boundary (R289, R296 event 4): the next step, its recipes, tenants, adapters, admission and plan. -/
def State.planStep (s : State) (n : Nat) : State :=
  let s1 := s.takeRecipes n
  let cur := (s1.part n).steps
  let s2 := (s1.onPart n (fun q =>
    { q with
      steps := cur + 1, allow := s1.get (REQ_P_READ_allow n), kvRec := s1.get (PART_KV_IDX_rec n)
      adpRec := s1.get (PART_ADP_DIR_rec n) })).setPair (REQ_P_STEP_LO n) (REQ_P_STEP_HI n) cur
  let s3 := (((s2.settleLost n cur).shipOutcomes n).adpBoundary n).tenantCheck n
  (((s3.admission n s3.tick).plan n cur)).beginWorking n cur false

/-- The hold at a flip whose tags are missing (R371). -/
def State.holdFlip (s : State) (n : Nat) : State := (s.beginHold n).onPart n (fun q => { q with flipHold := true })

/-- In every tick of such a hold the cores whose fill has failed are filled again; once every core of the stage has its tag, the hold
is to end. -/
def State.flipTick (w : State) (n : Nat) : State :=
  let q := w.part n
  match q.wave with
  | some v =>
    if w.on (BEAT_PLAN_CTL_held n) && q.flipHold && q.holdClr.isNone then
      let s := each (fun p (t : State) => t.settle p t.cycle) (w.stageCores n v.stage) w
      if s.stageTagged n v.stage then s.onPart n (fun q => { q with holdClr := some s.cycle }) else s.refillTags n v.stage
    else w
  | none => w

/-- A replay that the watcher caused begins, and is counted (R135, R470). -/
def State.countReplay (s : State) (n : Nat) : State :=
  if (s.part n).nwReplay then (s.bump (PART_NW_REPLAYS_count n) 1).onPart n (fun q => { q with nwReplay := false }) else s

/-- The next working beat: of a replay, a B beat, or one that begins a step. -/
def State.nextWorking (w : State) (n : Nat) : State :=
  let s := w.countReplay n
  let q := s.part n
  match q.replay with
  | (st, true) :: rest => (s.onPart n (fun y => { y with replay := rest })).beginWorking n st true
  | (st, false) :: rest =>
    let s1 := s.takeRecipes n
    let others := rest.filter (fun e => e != (st, true))
    let rest1 := if s1.on (PART_NW_CTL_half n) then (st, true) :: others else others
    (s1.onPart n (fun y => { y with replay := rest1 })).beginWorking n st false
  | [] =>
    if s.on (PART_NW_CTL_half n) && !q.second then s.beginWorking n (q.steps - 1) true
    else
      let f := s.flipDue n q.steps
      if f.2 then f.1.holdFlip n else f.1.planStep n

/-- A hold begins: for a stalled partition Sage shows the die, a fault search or an unfolding ends it again (R480, R482, R484). -/
def State.enterHold (s : State) (n : Nat) : State :=
  let s1 := s.beginHold n
  let q := s1.part n
  let s2 := match q.stall with
    | d :: _ => s1.showStall n d
    | [] => s1
  if s2.get (SAGE_P_STAT_state n) = 3 then
    (s2.setOn (BEAT_PLAN_CTL_hold n) false).onPart n (fun y => { y with holdClr := some s.cycle })
  else if q.unfold ∧ q.drain.isSome ∧ s2.noFlights n then s2.unfold n
  else s2

/-- A partition that drains has its last step released: for a fold or restore, or for a weight reload (R373, R482). -/
def State.drainedOut (s : State) (n : Nat) : Bool :=
  s.noFlights n && ((s.part n).drain.isSome || s.get (PART_WGT_STAT_state n) == 5)

/-- The interval that begins at a boundary: stop before hold before rest before work (R51, R64). -/
def State.nextInterval (s : State) (n : Nat) : State :=
  if s.on (BEAT_PLAN_CTL_stop n) then (s.setOn (BEAT_PLAN_CTL_hold n) (s.on (BEAT_PLAN_CTL_hold n) && (s.part n).interval != .hold)).endIntervals n
  else if s.on (BEAT_PLAN_CTL_hold n) ∨ s.get (SAGE_P_STAT_state n) = 3 then s.enterHold n
  else if s.drainedOut n then
    let s1 := if s.get (PART_WGT_STAT_state n) = 5 then s.set (PART_WGT_STAT_state n) 6 else s
    (s1.setOn (BEAT_PLAN_CTL_hold n) true).enterHold n
  else if 0 < (s.part n).owed then s.beginRest n
  else s.nextWorking n

/-- The working beat that is to begin, as the watcher is told of it: whether recipe requests are taken there (R134). -/
def State.takesRecipes (s : State) (n : Nat) : Bool :=
  let q := s.part n
  !s.on (BEAT_PLAN_CTL_stop n) && !s.on (BEAT_PLAN_CTL_hold n) && q.owed == 0 &&
    !(s.on (PART_NW_CTL_half n) && !q.second && q.replay == []) && !(q.replay.head?.any (·.2))

/-- A rest value that changed applies from a boundary that ends no working beat (R50). -/
def State.applyRest (s : State) (n : Nat) : State :=
  s.onPart n (fun q =>
    if q.restNew then { q with restIdx := 0, rest := s.get (BEAT_PLAN_REST_rest n), restNew := false } else q)

/-- The counters of a stats window that ends with the present tick latch and restart, before anything of this cycle is
counted (R56, R57, R327). -/
def State.latchWindow (s : State) (n : Nat) : State := if s.windowDue n then (s.closeWindow n).reqWindow n else s

/-- Boundary work after the gate (R296 events 2 to 4): the tenants' refill where a window begins, expiry, handles, pages, and
the next interval. -/
def State.afterGate (s : State) (n : Nat) (window : Bool) : State :=
  let s0 := s.startShips n
  let s1 := (if window then s0.tenantWindow n else s0).releasePoint n
  if (s1.part n).restart.isSome || (s1.part n).overrun then s1
  else (((s1.expire n).freePfxs n).freeAdps n).nextInterval n

/-- BEAT_BOUNDARY: at the end of a working beat or a rest beat. -/
def State.boundary (s : State) (n : Nat) : State :=
  if s.boundaryDue n then
    let worked := (s.part n).interval == .working
    let s1 := (((s.switchMoves n).latchWindow n).closeInterval n).sageFlush n
    let w := if worked then s1.watchBeat n (s1.takesRecipes n) else (s1.applyRest n, false)
    ((w.1.applyMeans n).gate n worked w.2).afterGate n (s.windowDue n)
  else s

/-- HOLD_END: the release that the hold deferred, then the next interval. -/
def State.holdEnd (s : State) (n : Nat) : State :=
  if s.holdEndDue n then
    let s1 := ((((s.switchMoves n).latchWindow n).setOn (BEAT_PLAN_CTL_held n) false).sageFlush n).applyRest n
    let s2 := if s1.get (SAGE_P_STAT_state n) = 3 then s1.set (SAGE_P_STAT_state n) 1 else s1
    (s2.gate n false false).afterGate n (s.windowDue n)
  else s

/-- FIRST_BEAT_BEGIN: the first working beat, step 0. -/
def State.firstBeat (s : State) (n : Nat) : State :=
  if s.firstDue n then (((((s.startPartition n).reqRestart n).tenantWindow n).expire n).freeAdps n).nextWorking n else s

/-- STATS_WINDOW_BOUNDARY: a window that ends while no boundary falls on its tick. The tick of a hold counts in the window
that begins (R56, R71). -/
def State.windowBoundary (s : State) (n : Nat) : State :=
  if s.boundaryDue n || s.holdEndDue n || !s.windowDue n then s
  else
    let s1 := (s.latchWindow n).tenantWindow n
    if s.on (BEAT_PLAN_CTL_held n) then s1.beatCnt n 6 1 else s1

/-- RESTART_REPLAY_BEGIN (R474 step 5): freeze clears, and a stop, a hold or the replay takes effect. -/
def State.replayBegin (s : State) (n : Nat) : State :=
  match (s.part n).restart with
  | some r =>
    if s.replayDue n then
      let s0 := if s.windowDue n then (s.latchWindow n).tenantWindow n else s
      let s1 := each (fun p (t : State) => t.setFreeze p false) (s.partCores n) s0
      let s2 := s1.onPart n (fun q => { q with restart := none, replay := r.beats, overrun := false })
      let s3 := (s2.set (SAGE_P_STAT_state n) (if r.beats = [] then 0 else 1)).bump (SAGE_P_REPLAYS_count n) (b2n (r.beats != []))
      if s3.on (BEAT_PLAN_CTL_stop n) then s3.endIntervals n
      else if s3.on (BEAT_PLAN_CTL_hold n) then s3.enterHold n
      else s3.nextWorking n
    else s
  | none => s

/-! ## The tick (R41) -/

/-- BEDSYNC_OUT is high for the first tick of a mark (R444). -/
def State.bedsyncLow (s : State) : State :=
  if s.pwr.bedOut then { s with pwr := { s.pwr with bedOut := false } }.emit (.pin "BEDSYNC_OUT" false) else s

/-- What a tick does that begins with the number given; jobs and moves that were asked for once more as they ended start again
(R10). -/
def State.tickWork (s : State) (number : Nat) : State :=
  let s1 := (s.beginTick number).setOn BEAT_TICK_CTL_load false
  let s2 := each (fun n (t : State) => (((t.planTick n).remapTick n).flipTick n).answerOverrun n) (s1.parts.map (·.1)) s1
  let idle := ((s2.adps.map (·.2.owner)).eraseDups).filter (fun n => !s2.on (BEAT_PLAN_CTL_active n))
  let s3 := ((each (fun n (t : State) => t.freeAdps n) idle s2).bedsyncLow).ackTick.pageAcks
  let s4 := if s3.fw.paused then s3 else s3.resumeJobs
  each (fun b (t : State) =>
    if t.on (BAY_MOVE_CTL_go b) && t.get (BAY_MOVE_STAT_state b) == 0 then t.moveGo b else t) (List.range 18) s4

/-- The counters of R199 and R226 latch and restart. -/
def State.markCounts (s : State) : State :=
  let latch := fun (f l : FieldRef) (t : State) => (t.set l (t.get f)).set f 0
  let s1 := each (fun d (t : State) =>
    latch (DIE_EDGE_BP_LINK_count d) (DIE_EDGE_BP_LINK_LAST_count d)
      (latch (DIE_EDGE_ROWS_LINK_count d) (DIE_EDGE_ROWS_LINK_LAST_count d)
        (latch (DIE_EDGE_BP_BAY_count d) (DIE_EDGE_BP_BAY_LAST_count d)
          (latch (DIE_EDGE_ROWS_BAY_count d) (DIE_EDGE_ROWS_BAY_LAST_count d) t)))) (List.range 72) s.countOver
  each (fun b (t : State) =>
    latch (BAY_COPY_ROWS_count b) (BAY_COPY_ROWS_LAST_count b)
      (latch (BAY_ROWS_WR_count b) (BAY_ROWS_WR_LAST_count b)
        (latch (BAY_ROWS_RD_count b) (BAY_ROWS_RD_LAST_count b) t))) (List.range 18) s1

/-! ## The governor (R504 to R508) -/

/-- r_cap from the input power of the mark just ended. -/
def capRule (pin cap hyst r : Nat) : Nat :=
  if cap < pin then min 32 (r + 1 + (pin - cap) / 200)
  else if pin + hyst < cap then r - 1
  else r

/-- r_th of a unit from its highest sample of the mark. -/
def thermalRule (tmax r : Nat) : Nat := if 95 ≤ tmax then min 32 (r + 2) else if tmax < 92 then r - 1 else r

/-- The input reports of a mark latched. -/
def State.latchReports (s : State) (m : MarkIn) : State :=
  let s1 := (s.wr PWR_IN_LAST m.input).wr PWR_AUX_LAST m.aux
  let put_ := fun (e : Nat × Word × Word) (t : State) => (t.wr (PWR_REP_A e.1) e.2.1).wr (PWR_REP_B e.1) (e.2.2 &&& 0x000FFF1F)
  (each put_ ((List.range 243).zip m.reports) s1).setBit PWR_EVT 0

/-- r_cap updated, and a brake's holds cleared (R505 to R507). -/
def State.capMark (s : State) : State :=
  let r := s.get PWR_GOV_r_cap
  let new := if s.on PWR_STAT_brake then 32
    else if s.on PWR_GOV_enable then capRule (s.get PWR_IN_LAST_watts) (s.get PWR_CAP_watts) (s.get PWR_GOV_hyst) r
    else if s.pwr.decay then r - 1 else 0
  let s1 := each (fun n (t : State) => if t.on (BEAT_PLAN_CTL_hold n) then t.holdClear n else t) s.pwr.braked s
  let s2 := { s1 with pwr := { s1.pwr with braked := [], decay := s.on PWR_STAT_brake || (s1.pwr.decay && new != 0) } }
  let s3 := (s2.set PWR_GOV_r_cap new).setOn PWR_STAT_brake false
  if r = 0 ∧ 0 < new then s3.setBit PWR_EVT 1 else s3

/-- Thermal rest values of the dies and Bays, whether a Bay is still hot, how long a die has been cool (R206, R508, R509). -/
def State.heatMark (s : State) (m : MarkIn) : State :=
  let s1 := each (fun (e : Nat × Nat × Word) (t : State) =>
    let r := t.get (DIE_PWR_RTH_r_th e.1)
    let new := thermalRule e.2.1 r
    let t1 := (((t.set (DIE_PWR_STAT_tmax e.1) e.2.1).wr (DIE_PWR_TEMP e.1) e.2.2).set (DIE_PWR_RTH_r_th e.1) new).onDie e.1
      (fun x => { x with cool := if e.2.1 ≤ 85 then x.cool + 1 else 0 })
    if r = 0 ∧ 0 < new then (t1.setBit PWR_EVT 2).setBit (DIE_PWR_STAT e.1) 0 else t1)
    (m.dies.filter (fun e => decide (e.1 < 72))) s
  each (fun (e : Nat × Nat) (t : State) =>
    let r := lookupD 0 t.pwr.bayRth e.1
    let new := thermalRule e.2 r
    let t0 := if e.2 ≤ 85 then t.setOn (BAY_CTL_hot e.1) false else t
    let t1 := { t0 with pwr := { t0.pwr with bayRth := put t0.pwr.bayRth e.1 new } }
    if r = 0 ∧ 0 < new then t1.setBit PWR_EVT 2 else t1) (m.bays.filter (fun e => decide (e.1 < 18))) s1

/-- The rest value of a partition (R506). -/
def State.restOf (s : State) (n : Nat) : Nat :=
  let dies := ((s.members n).map (· / 128)).eraseDups
  min 32 (((dies.map (fun d => s.get (DIE_PWR_RTH_r_th d))) ++
    ((List.range 18).filter s.bayUsable).map (fun b => lookupD 0 s.pwr.bayRth b)).foldl max (s.get PWR_GOV_r_cap))

/-- The rest values of the active partitions, for their next boundaries (R50, R506). -/
def State.restMark (s : State) (n : Nat) : State :=
  let r := s.restOf n
  if !s.on (BEAT_PLAN_CTL_active n) ∨ r = s.get (BEAT_PLAN_REST_rest n) then s
  else (s.set (BEAT_PLAN_REST_rest n) r).onPart n (fun q => { q with restNew := true })

/-- MILLISECOND_MARK: once in the first cycle of the mark's tick. -/
def State.millisecondMark (s : State) (m : MarkIn) : State :=
  if s.running ∧ s.tick % 9375 = 0 ∧ s.cycle % 256 = 0 ∧ s.pwr.marked ≠ s.tick / 9375 + 1 then
    let s' := each (fun n (t : State) => t.resetBegin n) (List.range 64) s
    let s0 := { s' with pwr := { s'.pwr with marked := s.tick / 9375 + 1 } }
    let s1 := each (fun n (t : State) => t.shareMark n) (List.range 64) s0.markCounts
    let cap := match s1.fw.capDue with
      | some w => s1.set PWR_CAP_watts w
      | none => s1
    let s2 := ((cap.latchReports m).capMark).heatMark m
    let s3 := each (fun n (t : State) => t.restMark n) (List.range 64) s2
    let s4 := { s3 with fw := { s3.fw with since := s3.fw.since + 1, capDue := none } }
    (s4.evcMark.timeMark).pins
  else s

/-! ## Meanings

A reset of the partition that begins in the cycle of a boundary, or of any other event of its beats, takes effect first (R393); one that
begins in a mark's tick, before the shares are sampled (R389). -/

/-- TICK: without a running tick counter there is no tick. -/
def execTick (s : State) : Host.Outcome State Fault Refusal := .next (if s.running then s.tickWork s.nextTick else s)

/-- TICK_LOAD_APPLY (R62): the tick that begins takes the number loaded. -/
def execTickLoadApply (s : State) : Host.Outcome State Fault Refusal :=
  .next (if s.running && s.on BEAT_TICK_CTL_load then s.tickWork (s.pair BEAT_TICK_SET_LO BEAT_TICK_SET_HI) else s)

def execMillisecondMark (m : MarkIn) (s : State) : Host.Outcome State Fault Refusal := .next (s.millisecondMark m)
def execFirstBeatBegin (n : Nat) (s : State) : Host.Outcome State Fault Refusal :=
  .next (if n < 64 then (s.resetBegin n).firstBeat n else s)
def execHoldEnd (n : Nat) (s : State) : Host.Outcome State Fault Refusal :=
  .next (if n < 64 then (s.resetBegin n).holdEnd n else s)
def execBeatBoundary (n : Nat) (s : State) : Host.Outcome State Fault Refusal :=
  .next (if n < 64 then (s.resetBegin n).boundary n else s)
def execStatsWindowBoundary (n : Nat) (s : State) : Host.Outcome State Fault Refusal :=
  .next (if n < 64 then (s.resetBegin n).windowBoundary n else s)
def execRestartReplayBegin (n : Nat) (s : State) : Host.Outcome State Fault Refusal :=
  .next (if n < 64 then (s.resetBegin n).replayBegin n else s)

end Sys2Proof.Machine
end

