-- ==== Sys2Proof/Machine/Firmware.lean ====
section
/-!
DEFINITION. Firmware, settings and attestation (19_firmware_trust R528 to R549): the bouquet's checks, transfers over the service
port, activation, confirmation and fall-back, the settings store, and quotes.
-/

namespace Sys2Proof.Machine

/-! ## The bouquet (R529, R530) -/

def hnum (h : List Byte) (o n : Nat) : Nat := ofBytes ((h.drop o).take n)

def digest (m : List Byte) (n : Nat) : List Byte := (List.range n).map (Config.shake256 m)

def signature (key index : Nat) (m : List Byte) (n : Nat) : List Byte := (List.range n).map (Config.xmssSign key index m)

/-- The image entries of a header that are in use: type, offset, length. -/
def imageEntries (h : List Byte) : List (Nat × Nat × Nat) :=
  ((List.range 8).map (fun i => (hnum h (0x80 + 16 * i) 1, hnum h (0x84 + 16 * i) 4, hnum h (0x88 + 16 * i) 4))).filter
    (fun e => e.1 != 0)

/-- Bytes of a header that are reserved or zero. -/
def reservedZero (h : List Byte) : Bool :=
  [(0x00B, 1), (0x065, 27), (0x100, 252)].all (fun e => hnum h e.1 e.2 == 0) && decide (hnum h 0x008 1 < 4) &&
    (List.range 8).all (fun i => hnum h (0x81 + 16 * i) 3 == 0)

/-- Code 0x08: an image entry outside the body, an overlap, a required type missing or repeated. -/
def imagesOk (h : List Byte) (length : Nat) : Bool :=
  let es := imageEntries h
  es.all (fun e => decide (e.2.1 + e.2.2 ≤ length)) &&
    (List.range es.length).all (fun i => (List.range es.length).all (fun j =>
      i == j || (match es[i]?, es[j]? with
        | some a, some b => decide (a.2.1 + a.2.2 ≤ b.2.1 ∨ b.2.1 + b.2.2 ≤ a.2.1)
        | _, _ => true))) &&
    [1, 2, 3, 4, 5].all (fun t => (es.filter (fun e => e.1 == t)).length == 1)

/-- The module's bit of a header's grades. -/
def State.gradeBit (s : State) : Nat := if s.get IDENT_PART_grade = 0x42 then 1 else 0

/-- First of codes 0x01 to 0x05 that a header fails, 0 if none (R530). -/
def State.headerCode (s : State) (h : List Byte) : Nat :=
  if h.length ≠ 512 ∨ hnum h 0 4 ≠ 0x51425654 ∨ crc32c (h.take 0x1FC) ≠ hnum h 0x1FC 4 ∨ !reservedZero h then 0x01
  else if hnum h 4 2 ≠ 1 then 0x02
  else if hnum h 6 2 ≠ 0x96 ∨ !(hnum h 8 1).testBit s.gradeBit ∨ s.get IDENT_PART_stepping < hnum h 9 1 then 0x03
  else if hnum h 0xA 1 < s.flash.floor then 0x04
  else if 268431360 < hnum h 0x10 8 ∨ hnum h 0x18 4 ≠ 0x200 ∨ hnum h 0x1C 4 ≠ 2820 then 0x05
  else 0

/-- What the module keeps of a valid bouquet. -/
def bankOf (h : List Byte) : Bank :=
  { code := 0, product := hnum h 6 2, grades := hnum h 8 1, stepping := hnum h 9 1, rollback := hnum h 0xA 1
    version := hnum h 0xC 4, schema := hnum h 0x60 2, dilMin := hnum h 0x62 1, dilMax := hnum h 0x63 1, tlt := hnum h 0x64 1
    digest := (h.drop 0x20).take 64 }

def Flash.bank (f : Flash) (b : Nat) : Option Bank := if b = 0 then f.bankA else f.bankB

def Flash.setBank (f : Flash) (b : Nat) (x : Option Bank) : Flash :=
  if b = 0 then { f with bankA := x } else { f with bankB := x }

/-- A bank that holds a bouquet valid for the module (R530). -/
def State.bankCode (s : State) (x : Bank) : Nat :=
  if x.code ≠ 0 ∧ x.code ≤ 2 then x.code
  else if x.product ≠ 0x96 ∨ !x.grades.testBit s.gradeBit ∨ s.get IDENT_PART_stepping < x.stepping then 0x03
  else if x.rollback < s.flash.floor then 0x04
  else x.code

def State.inactive (s : State) : Nat := 1 - s.fw.running

def State.setFlash (s : State) (f : Flash → Flash) : State := { s with flash := f s.flash }

def State.setFw (s : State) (f : Fw → Fw) : State := { s with fw := f s.fw }

def State.fwEvt (s : State) (k : Nat) : State := s.setBit FWU_EVT k

def State.fwState (s : State) (k : Nat) : State := s.set FWU_STAT_state k

/-- Registers that show the banks, the floor and the bank that runs (R525, R546, R547). -/
def State.fwShow (s : State) : State :=
  let x := (s.flash.bank s.inactive).filter (fun b => s.bankCode b == 0)
  let s1 := ((((s.set FWU_STAT_bank s.fw.running).set FWU_STAT_floor s.flash.floor).setOn FWU_STAT_inactive_valid x.isSome).set
    IDENT_BOOT_bank s.fw.running)
  ((s1.set FWU_INACT_VER_version ((x.map (·.version)).getD 0)).set FWU_INACT_INFO_schema ((x.map (·.schema)).getD 0)).set
    FWU_INACT_INFO_rollback ((x.map (·.rollback)).getD 0)

/-- IDENT_VERSION and IDENT_CAP from the running bouquet's header (R35, R529). -/
def State.showVersion (s : State) : State :=
  match s.flash.bank s.fw.running with
  | none => s
  | some x =>
    let s1 := s.wr IDENT_VERSION (BitVec.ofNat 32 x.version)
    ((s1.set IDENT_CAP_diloth_max x.dilMax).set IDENT_CAP_diloth_min x.dilMin).set IDENT_CAP_tlt_versions x.tlt

/-! ## The service port (R532, R533) -/

/-- The RESULT of a request over the service port. -/
def State.result (s : State) (status : Nat) (payload : List Byte) : State := s.emit (.service status payload)

/-- A refusal or failure of a transfer or an activation: its code, and its RESULT where the service port asked. -/
def State.fwRefuse (s : State) (svc : Bool) (code : Nat) : State :=
  let s1 := s.set FWU_STAT_code code
  if svc then s1.result code [] else s1

/-- State of the updater while nothing is under way (R546). -/
def State.fwRest (s : State) : State := s.fwState (if s.flash.staged then 4 else 0)

/-- A transfer that ends without a staged bank: event 0 (R547). -/
def State.endTransfer (s : State) (code : Nat) : State :=
  ((((s.setFw (fun f => { f with transfer := none })).fwRest).fwEvt 0).fwRefuse true code).fwShow

/-- SVC_CONNECT: one connection at a time. -/
def State.svcConnect (s : State) : State :=
  if !s.fw.link then s
  else if s.fw.conn then s.emit (.tcp false)
  else (s.setFw (fun f => { f with conn := true })).emit (.tcp true)

/-- SVC_DISCONNECT: an unfinished transfer leaves its bank as it stands, erased once a BODY has come. -/
def State.svcDisconnect (s : State) : State :=
  if !s.fw.conn then s
  else
    let s1 := s.setFw (fun f => { f with conn := false, transfer := none })
    if s.fw.transfer.isSome then s1.fwRest.fwShow else s1

/-- A message of the service port reaches the steward: a connection is open. -/
def State.svc (s : State) (f : State → State) : State := if s.fw.conn then f s else s

/-- OFFER: the checks of R530, codes 0x01 to 0x05. -/
def State.svcOffer (s : State) (h : List Byte) : State :=
  if s.get FWU_STAT_state = 6 then (s.fwEvt 0).fwRefuse true 0x0B
  else if s.fw.transfer.isSome || s.fw.act.isSome then (s.fwEvt 0).fwRefuse true 0x0A
  else
    let c := s.headerCode h
    if c ≠ 0 then (s.fwEvt 0).fwRefuse true c
    else
      ((s.setFw (fun f => { f with transfer := some ⟨1, bankOf h, hnum h 0x10 8, h, []⟩ })).fwState 1).result 0 []

/-- SIGNATURE: code 0x06. -/
def State.svcSignature (s : State) (sig : List Byte) : State :=
  match s.fw.transfer with
  | none => s.fwRefuse true 0x0A
  | some t =>
    if t.stage ≠ 1 then s.fwRefuse true 0x0A
    else if sig.length ≠ 2820 ∨ !Config.xmssVerify Config.vendorKey t.header sig then s.endTransfer 0x06
    else (s.setFw (fun f => { f with transfer := some { t with stage := 2 } })).result 0 []

/-- BODY: `flash` 0 where the flash write succeeds, 1 where it fails, 2 where writes have been inhibited for 60 s. While writes
are inhibited the message stays in the socket. -/
def State.svcBody (s : State) (data : List Byte) (flash : Nat) : State :=
  match s.fw.transfer with
  | none => s.fwRefuse true 0x0A
  | some t =>
    if t.stage < 2 ∨ data = [] ∨ 1048576 < data.length then s.fwRefuse true 0x0A
    else if s.pwr.inhibit ∧ flash ≠ 2 then s
    else
      let s1 := (s.setFlash (fun f => { f.setBank s.inactive none with staged := false })).fwState 3
      match flash with
      | 0 => ((s1.setFw (fun f => { f with transfer := some { t with stage := 3, body := t.body ++ data } })).result 0 []).fwShow
      | 1 => s1.endTransfer 0x09
      | _ => (if t.stage = 3 then s1 else s).endTransfer 0x0C

/-- A COMMIT that fails leaves the bank invalid (R533). -/
def State.failCommit (s : State) (code : Nat) : State :=
  (s.setFlash (fun f => { f.setBank s.inactive none with staged := false })).endTransfer code

/-- COMMIT: codes 0x07 and 0x08; the bank is staged. -/
def State.svcCommit (s : State) : State :=
  match s.fw.transfer with
  | none => s.fwRefuse true 0x0A
  | some t =>
    if t.stage < 2 ∨ (t.stage = 2 ∧ t.length ≠ 0) then s.fwRefuse true 0x0A
    else if t.body.length ≠ t.length ∨ digest t.body 64 ≠ t.bank.digest then s.failCommit 0x07
    else if !imagesOk t.header t.length then s.failCommit 0x08
    else
      let s1 := (s.setFlash (fun f => { f.setBank s.inactive (some t.bank) with staged := true })).setFw (fun f =>
        { f with transfer := none })
      (((s1.fwState 4).fwEvt 0).fwShow).result 0 []

/-- FWU_LEFT counts down with the marks (R534). -/
def State.leftSeconds (s : State) : Nat := if s.get FWU_STAT_state = 6 then 1800 - s.fw.since / 1000 else 0

/-- STATUS: FWU_STAT, FWU_LEFT and both banks' version words. -/
def State.svcStatus (s : State) : State :=
  let ver := fun b => ((s.flash.bank b).map (·.version)).getD 0
  s.result 0 (bytesOf 4 (s.rd FWU_STAT).toNat ++ bytesOf 4 s.leftSeconds ++ bytesOf 4 (ver 0) ++ bytesOf 4 (ver 1))

def idCertBytes : List Byte := (List.range 2948).map Config.idCert

/-! ## Settings (R538 to R540) -/

/-- The keys every schema defines. -/
def settingKeys : List Nat := [0x0001, 0x0002, 0x0003, 0x0004, 0x0005, 0x0010, 0x0011, 0x0020, 0x0021, 0x0022]

/-- Default of a key: the reset value of the register it goes to (log entry 68). -/
def settingDefault (key : Nat) : Nat :=
  match key with
  | 0x0001 => (resetWord LINK_TLT_ADDR).toNat
  | 0x0002 => (resetWord LINK_TLT_ETYPE).toNat
  | 0x0003 => (resetWord LINK_TLT_VLAN).toNat
  | 0x0004 => (resetWord LINK_TLT_MACPFX).toNat
  | 0x0005 => (resetWord LINK_TS_CTL).toNat
  | 0x0010 => (resetWord PWR_CAP).toNat
  | 0x0011 => (resetWord SAGE_CTL).toNat
  | _ => 0

def SetRec.get (r : SetRec) (key : Nat) : Nat :=
  match lookup? r.vals key with
  | some v => ofBytes v
  | none => settingDefault key

/-- The values a cap can take (R511). -/
def clampCap (w : Nat) : Nat := if w < 6000 then 6000 else if 10400 < w then 10400 else w

/-- SAGE_CTL written: a count of 0 is ignored (R490). -/
def State.writeSageCtl (s : State) (v : Nat) : State :=
  let s1 := if field v 16 8 = 0 then s else s.set SAGE_CTL_replays (field v 16 8)
  if field v 0 16 = 0 then s1 else s1.set SAGE_CTL_repeat (field v 0 16)

/-- LINK registers of keys 0x0002 to 0x0005, as the record has them. -/
def State.linkSetting (s : State) (r : SetRec) (key : Nat) : State :=
  let v := r.get key
  match key with
  | 0x0002 => s.set LINK_TLT_ETYPE_etype v
  | 0x0003 => s.set LINK_TLT_VLAN_vid v
  | 0x0004 => s.set LINK_TLT_MACPFX_prefix v
  | 0x0005 => ((s.setOn LINK_TS_CTL_load (v.testBit 3)).setOn LINK_TS_CTL_bedsync (v.testBit 2)).set LINK_TS_CTL_role (field v 0 2)
  | _ => s

/-- Start-up phase 5 and after: keys 0x0001 to 0x0005 into their registers (R539). -/
def State.linkSettings (s : State) : State :=
  let r := s.fw.settings
  let v := r.get 0x0001
  each (fun k (t : State) => t.linkSetting r k) [0x0002, 0x0003, 0x0004, 0x0005]
    ((s.set LINK_TLT_ADDR_bed (field v 16 16)).set LINK_TLT_ADDR_address (field v 0 15))

/-- A key takes effect at the point R539 names. -/
def State.settingEffect (s : State) (key : Nat) : State :=
  let r := s.fw.settings
  match key with
  | 0x0010 => s.setFw (fun f => { f with capDue := some (clampCap (r.get key)) })
  | 0x0011 => s.writeSageCtl (r.get key)
  | 0x0001 => s
  | _ => if s.get IDENT_BOOT_phase = 6 then s.linkSetting r key else s

/-- The records in memory written to flash, unless writes are inhibited; then they wait (R540). -/
def State.storeSettings (s : State) : State :=
  if s.pwr.inhibit then s.setOn FWU_STAT_nv_wait true
  else s.setFlash (fun f =>
    { f with
      settings := s.fw.settings
      older := f.older.map (fun o => { o with seq := o.seq + 1, vals := s.fw.settings.vals }) })

def SetRec.put (r : SetRec) (key : Nat) (v : List Byte) : SetRec := { r with seq := r.seq + 1, vals := Machine.put r.vals key v }

/-- SETPUT: status 0, or 0x0E. -/
def State.setPut (s : State) (key : Nat) (v : List Byte) : State × Nat :=
  if !settingKeys.contains key ∨ v.length ≠ 4 then (s.set FWU_STAT_code 0x0E, 0x0E)
  else
    let s1 := s.setFw (fun f => { f with settings := f.settings.put key v })
    (s1.storeSettings.settingEffect key, 0)

/-- SETGET or an FWU_SET_CMD read: by an accessor (R546) or over the service port. -/
def State.settingsGet (s : State) (acc : Option Nat) (key : Nat) : State :=
  match acc with
  | none => s.svc (fun s => if settingKeys.contains key then s.result 0 (bytesOf 4 (s.fw.settings.get key))
      else (s.set FWU_STAT_code 0x0E).result 0x0E [])
  | some a =>
    let k := bits (s.rdAcc a FWU_SET_SEL) 0 16
    if settingKeys.contains k then
      (s.wrAcc a FWU_SET_DATA (BitVec.ofNat 32 (s.fw.settings.get k))).wrAcc a FWU_SET_RES 0
    else (s.set FWU_STAT_code 0x0E).wrAcc a FWU_SET_RES 0x0E

/-- SETPUT or an FWU_SET_CMD write. -/
def State.settingsPut (s : State) (acc : Option Nat) (key : Nat) (v : List Byte) : State :=
  match acc with
  | none => s.svc (fun s => let r := s.setPut key v
                            r.1.result r.2 [])
  | some a =>
    let r := s.setPut (bits (s.rdAcc a FWU_SET_SEL) 0 16) (bytesOf 4 (s.rdAcc a FWU_SET_DATA).toNat)
    r.1.wrAcc a FWU_SET_RES (BitVec.ofNat 32 r.2)

/-- Step 5 of an activation: the settings for the new schema; the old record is kept until confirmation. -/
def State.migrate (s : State) (schema : Nat) : State :=
  if s.fw.settings.schema = schema then s
  else
    let old := s.fw.settings
    let s1 := s.setFw (fun f => { f with settings := { old with schema := schema, seq := 1 } })
    if s.pwr.inhibit then (s1.setFlash (fun f => { f with older := some old })).setOn FWU_STAT_nv_wait true
    else s1.setFlash (fun f => { f with older := some old, settings := s1.fw.settings })

/-! ## Activation (R534 to R537) -/

/-- Every up port pauses or resumes priorities 4 to 6 towards its peer. -/
def State.pausePorts (s : State) (pause : Bool) : State :=
  each (fun p (t : State) => each (fun k (u : State) => u.emit (.pfc p k pause)) [4, 5, 6] t)
    ((List.range 32).filter s.portUp) s

/-- Step 2: the holds are set and the pause begins. -/
def State.pauseBegin (s : State) : State :=
  let s1 := each (fun n (t : State) => if t.on (BEAT_PLAN_CTL_active n) then t.holdSet n else t) (List.range 64) s
  (s1.setFw (fun f => { f with paused := true, act := f.act.map (fun a => { a with waits := false }) })).pausePorts true

/-- Step 1: the boot record names the target as provisional, or no provisional bank where the module falls back. -/
def State.bootRecord (s : State) (a : Activation) : State :=
  if s.pwr.inhibit then (s.setFw (fun f => { f with act := some { a with waits := true } })).setOn FWU_STAT_nv_wait true
  else ((s.setFlash (fun f => { f with provisional := if a.back then none else some a.target })).setFw (fun f =>
    { f with act := some a })).pauseBegin

/-- FW_ACTIVATE. -/
def State.fwActivate (s : State) (svc : Bool) : State :=
  if svc && !s.fw.conn then s
  else if s.get FWU_STAT_state = 6 then s.fwRefuse svc 0x0B
  else if s.fw.act.isSome ∨ s.fw.transfer.isSome ∨ !s.flash.staged ∨ !(s.get FWU_STAT_state = 0 ∨ s.get FWU_STAT_state = 4) then
    s.fwRefuse svc 0x0A
  else
    let s1 := s.fwState 5
    (if svc then s1.result 0 [] else s1.setOn FWU_CTL_activate true).bootRecord ⟨s.inactive, false, false⟩

/-- An action of the updater ends: its bit clears, and one asked for in this very cycle is asked for once more (R10, R547). -/
def State.fwDone (s : State) (f : FieldRef) (act : State → State) : State :=
  let s1 := s.setOn f false
  if s.asked f then act s1 else s1

/-- The module falls back to the confirmed bank. -/
def State.fallBack (s : State) : State := (s.fwState 7).bootRecord ⟨s.flash.confirmed, true, false⟩

/-- FW_REVERT. -/
def State.fwRevert (s : State) (svc : Bool) : State :=
  if svc && !s.fw.conn then s
  else if s.get FWU_STAT_state ≠ 6 then s.fwRefuse svc 0x0A
  else (if svc then s.result 0 [] else s.setOn FWU_CTL_revert true).fallBack

/-- Step 6: the holds clear and the pause frames stop. -/
def State.pauseEnd (s : State) (us : Nat) : State :=
  let s1 := each (fun n (t : State) => if t.on (BEAT_PLAN_CTL_hold n) then t.holdClear n else t) (List.range 64) s
  ((((s1.setFw (fun f => { f with paused := false, act := none })).pausePorts false).set FWU_PAUSE_us us).resumeJobs).fwShow

/-- The images of a bank run (steps 3 to 5). -/
def State.runBank (s : State) (b : Nat) : State :=
  let s1 := (s.setFw (fun f => { f with running := b })).showVersion
  match s.flash.bank b with
  | some x => s1.migrate x.schema
  | none => s1

/-- FW_ACTIVATION_HELD: every active partition is held; `ok` where the new images start, `us` the length of the pause. -/
def State.fwHeld (s : State) (ok : Bool) (us : Nat) : State :=
  match s.fw.act with
  | none => s
  | some a =>
    if a.waits ∨ !s.sageDown then s
    else if a.back then
      let old := s.flash.older
      let s1 := (s.setFw (fun f => { f with running := a.target, settings := old.getD f.settings })).showVersion
      let s2 := s1.setFlash (fun f => { f with settings := old.getD f.settings, older := none, staged := true })
      (((((s2.pauseEnd us).fwState 4).set FWU_LEFT_seconds 0).fwEvt 2).fwEvt 1).fwDone FWU_CTL_revert (·.fwRevert false)
    else if ok then
      let s1 := (s.runBank a.target).setFlash (fun f => { f with staged := false })
      let s2 := ((s1.pauseEnd us).fwState 6).set FWU_LEFT_seconds 1800
      ((s2.setFw (fun f => { f with since := 0 })).fwEvt 1).fwDone FWU_CTL_activate (·.fwActivate false)
    else
      let s1 := (s.setFlash (fun f => { f with provisional := none })).pauseEnd us
      ((((s1.fwState 4).set FWU_STAT_code 0x0D).fwEvt 2).fwEvt 1).fwDone FWU_CTL_activate (·.fwActivate false)

/-- The non-volatile writes of a confirmation. -/
def State.confirmWrites (s : State) : State :=
  let floor := max s.flash.floor (min 64 (((s.flash.bank s.fw.running).map (·.rollback)).getD 0))
  ((s.setFlash (fun f => { f with confirmed := s.fw.running, provisional := none, floor := floor, older := none })).setFw (fun f =>
    { f with confirmWaits := false })).fwShow

/-- FW_CONFIRM: it counts at its receipt; its writes wait for any inhibit. -/
def State.fwConfirm (s : State) (svc : Bool) : State :=
  if svc && !s.fw.conn then s
  else if s.get FWU_STAT_state ≠ 6 then s.fwRefuse svc 0x0A
  else
    let s1 := (s.fwState 0).set FWU_LEFT_seconds 0
    let s2 := if svc then s1.result 0 [] else s1
    if s.pwr.inhibit then (s2.setFw (fun f => { f with confirmWaits := true })).setOn FWU_STAT_nv_wait true else s2.confirmWrites

/-- FW_PROVISIONAL_TIMEOUT: 1,800 s without CONFIRM. -/
def State.fwTimeout (s : State) : State := if s.get FWU_STAT_state = 6 then s.fallBack else s

/-- FW_NV_WAIT_TIMEOUT: 60 s of inhibit end the activation; a fall-back that waited leaves the module provisional. -/
def State.fwNvTimeout (s : State) : State :=
  match s.fw.act with
  | some a =>
    if a.waits ∧ s.pwr.inhibit then
      let s1 := ((s.setFw (fun f => { f with act := none })).set FWU_STAT_code 0x0C).setOn FWU_STAT_nv_wait
        (s.fw.confirmWaits || s.fw.settings != s.flash.settings)
      if a.back then ((s1.fwState 6).fwEvt 1).fwDone FWU_CTL_revert (·.fwRevert false)
      else (s1.fwRest.fwEvt 1).fwDone FWU_CTL_activate (·.fwActivate false)
    else s
  | none => s

/-- The writes that waited for the end of an inhibit (R497). -/
def State.nvRun (s : State) : State :=
  let s1 := (s.setOn FWU_STAT_nv_wait false).storeSettings
  let s2 := if s1.fw.confirmWaits then s1.confirmWrites else s1
  match s2.fw.act with
  | some a => if a.waits then s2.bootRecord { a with waits := false } else s2
  | none => s2

/-! ## Quotes (R541 to R545) -/

/-- Image of the inventory record (R24). -/
def Inv.image (v : Inv) : List Byte :=
  let masks := fun (f : Nat → Nat) => (List.range 576).flatMap (fun g => bytesOf 2 (f g))
  let bs := bytesOf 4 0x57564E49 ++ bytesOf 2 1 ++ bytesOf 1 v.grade ++ bytesOf 1 0 ++ bytesOf 8 v.serial.toNat ++
    bytesOf 2 v.mappable ++ bytesOf 2 v.delivered ++ bytesOf 2 v.failedCount ++ bytesOf 2 v.reserve ++ bytesOf 4 v.sequence ++
    bytesOf 4 0 ++ masks v.goodMask ++ masks v.failedMask ++ (List.range 72).flatMap (fun d => bytesOf 1 (v.dieFlag d)) ++
    (List.range 18).flatMap (fun b => bytesOf 1 (v.bayFlag b)) ++ (List.range 8).flatMap (fun k => bytesOf 1 (v.ioFlag k)) ++
    (List.range 32).flatMap (fun p => bytesOf 1 (v.portFlag p)) ++ bytesOf 2 0
  bs ++ bytesOf 4 (crc32c bs)

/-- Image of a settings record (R538). -/
def SetRec.image (r : SetRec) : List Byte :=
  let es := r.vals.flatMap (fun e => bytesOf 2 e.1 ++ bytesOf 2 e.2.length ++ e.2)
  let bs := bytesOf 4 0x54535654 ++ bytesOf 2 r.schema ++ bytesOf 2 0 ++ bytesOf 4 (20 + es.length) ++ bytesOf 4 r.seq ++ es
  bs ++ bytesOf 4 (crc32c bs)

/-- Record of a partition in a quote. -/
def State.quotePart (s : State) (n : Nat) : List Byte :=
  let id := match (s.part n).layout with
    | some y => s.listBytes (s.listFrom noSlot y.src) 0x040 16
    | none => bytesOf 16 0
  id ++ bytesOf 2 (s.modelOf n) ++ bytesOf 2 0 ++ bytesOf 4 (s.rd (PART_WGT_CUR n)).toNat ++ bytesOf 1 (s.pstate n) ++ bytesOf 7 0

/-- Bytes 0x000 to 0x9FF of a quote (R544). -/
def State.quoteBody (s : State) (nonce : List Byte) : List Byte :=
  let serial := (s.inv.map (·.serial.toNat)).getD 0
  bytesOf 4 0x54515654 ++ bytesOf 4 1 ++ bytesOf 8 serial ++ (nonce ++ bytesOf 32 0).take 32 ++
    bytesOf 8 (if s.get IDENT_BOOT_phase = 6 then s.tick else 0) ++ bytesOf 4 (s.rd IDENT_VERSION).toNat ++
    bytesOf 1 (s.fw.running + 2 * b2n (s.get FWU_STAT_state == 6) + 4 * s.get FWU_STAT_boot_fallback) ++
    bytesOf 1 s.flash.floor ++ bytesOf 2 s.fw.settings.schema ++
    ((((s.flash.bank s.fw.running).map (·.digest)).getD []) ++ bytesOf 64 0).take 64 ++
    (match s.inv with | some v => digest v.image 64 | none => digest [] 64) ++ digest s.fw.settings.image 64 ++
    bytesOf 8 ((List.range 64).foldl (fun a n => a + 2 ^ n * b2n (s.part n).layout.isSome) 0) ++ bytesOf 248 0 ++
    (List.range 64).flatMap s.quotePart

/-- A quote refused (R543): its result, and its RESULT over the service port. -/
def State.quoteRefuse (s : State) (svc : Bool) (r : Nat) : State :=
  let s1 := s.fwEvt 3
  if svc then s1.result r [] else (s1.set TRUST_CTL_result r).setOn TRUST_CTL_go false

/-- The next waiting quote begins to be signed, its index reserved. -/
def State.quoteBegin (s : State) : List (List Byte × Bool) → State
  | [] => (s.setFw (fun f => { f with quotes := [], signing := none })).setOn TRUST_CTL_busy false
  | q :: rest =>
    let i := s.fw.index
    let e := s.get TRUST_RESV_end
    let begin_ := fun (t : State) =>
      (t.setFw (fun f => { f with quotes := rest, signing := some (t.quoteBody q.1, q.2) })).setOn TRUST_CTL_busy true
    if 1048576 ≤ i then (s.quoteRefuse q.2 2).quoteBegin rest
    else if i < e then begin_ s
    else if s.pwr.inhibit then (s.quoteRefuse q.2 1).quoteBegin rest
    else begin_ ((s.setFlash (fun f => { f with keyEnd := e + 64 })).set TRUST_RESV_end (e + 64))

/-- The nonce of TRUST_NONCE0 to 7. -/
def State.nonce (s : State) : List Byte := (List.range 8).flatMap (fun k => bytesOf 4 (s.rd (TRUST_NONCE k)).toNat)

/-- QUOTE_REQUEST. -/
def State.quoteRequest (s : State) (svc : Bool) (nonce : List Byte) : State :=
  if svc && !s.fw.conn then s
  else if s.fw.signing.isSome then
    if svc then s.setFw (fun f => { f with quotes := f.quotes ++ [(nonce, true)] }) else s.set TRUST_CTL_result 3
  else
    let n := if svc then nonce else s.nonce
    (if svc then s else s.setOn TRUST_CTL_go true).quoteBegin [(n, svc)]

/-- The attestation certificate of the current key. -/
def State.certBytes (s : State) : List Byte := if s.flash.cert = [] then (List.range 2628).map Config.firstCert else s.flash.cert

/-- QUOTE_COMPLETE: signed, stored, and the next one begins. -/
def State.quoteComplete (s : State) : State :=
  match s.fw.signing with
  | none => s
  | some b =>
    let i := s.fw.index
    let q := b.1 ++ signature (1 + s.get TRUST_KEY_key) i b.1 2820 ++ s.certBytes
    let s1 := ((s.setFw (fun f => { f with quote := q, index := i + 1, newKey := f.newKey || decide (i + 1 = 983040) })).set TRUST_KEY_next
      (i + 1)).fwEvt 3
    if b.2 then (s1.result 0 q).quoteBegin s1.fw.quotes
    else
      let s2 := (s1.set TRUST_CTL_result 0).done TRUST_CTL_go
      s2.quoteBegin (s2.fw.quotes ++ (if s2.asked TRUST_CTL_go then [(s2.nonce, false)] else []))

/-- ATTEST_KEY_ROTATE: the new key is certified with the next identity index and made current; without one the old key runs on. -/
def State.keyRotate (s : State) : State :=
  let i := s.get TRUST_ID_next
  if !s.fw.newKey ∨ s.fw.signing.isSome ∨ s.pwr.inhibit then s
  else if 1024 ≤ i then s.setFw (fun f => { f with newKey := false })
  else
    let k := s.get TRUST_KEY_key + 1
    let body := bytesOf 4 k ++ (List.range 68).map (Config.attestKey k) ++ bytesOf 8 ((s.inv.map (·.serial.toNat)).getD 0) ++
      bytesOf 8 s.tick ++ bytesOf 40 0
    let s1 := s.setFlash (fun f => { f with idEnd := i + 1, keyNo := k, keyEnd := 0, cert := body ++ signature 0 i body 2500 })
    ((((s1.setFw (fun f => { f with newKey := false, index := 0 })).set TRUST_ID_next (i + 1)).set TRUST_KEY_key k).set TRUST_KEY_next 0).set
      TRUST_RESV_end 0 |>.fwEvt 3

/-! ## Meanings -/

def execSvcConnect (s : State) : Host.Outcome State Fault Refusal := .next s.svcConnect
def execSvcDisconnect (s : State) : Host.Outcome State Fault Refusal := .next s.svcDisconnect

/-- SVC_LINK_UP: the port takes its address, netmask and gateway (R539). -/
def execSvcLinkUp (s : State) : Host.Outcome State Fault Refusal :=
  .next (s.setFw (fun f => { f with
    link := true, ip := [0x0020, 0x0021, 0x0022].flatMap (fun k => bytesOf 4 (f.settings.get k)) }))

def execSvcOffer (h : List Byte) (s : State) : Host.Outcome State Fault Refusal := .next (s.svc (·.svcOffer h))
def execSvcSignature (g : List Byte) (s : State) : Host.Outcome State Fault Refusal := .next (s.svc (·.svcSignature g))
def execSvcBody (d : List Byte) (flash : Nat) (s : State) : Host.Outcome State Fault Refusal := .next (s.svc (·.svcBody d flash))
def execSvcCommit (s : State) : Host.Outcome State Fault Refusal := .next (s.svc (·.svcCommit))
def execSvcStatus (s : State) : Host.Outcome State Fault Refusal := .next (s.svc (·.svcStatus))
def execSvcIdcert (s : State) : Host.Outcome State Fault Refusal := .next (s.svc (·.result 0 idCertBytes))
def execSettingsGet (acc : Option Nat) (key : Nat) (s : State) : Host.Outcome State Fault Refusal := .next (s.settingsGet acc key)
def execSettingsPut (acc : Option Nat) (key : Nat) (v : List Byte) (s : State) : Host.Outcome State Fault Refusal :=
  .next (s.settingsPut acc key v)
def execFwActivate (svc : Bool) (s : State) : Host.Outcome State Fault Refusal :=
  .next (if svc then s.fwActivate true else (s.askFor FWU_CTL_activate).fwActivate false)
def execFwActivationHeld (ok : Bool) (us : Nat) (s : State) : Host.Outcome State Fault Refusal := .next (s.fwHeld ok us)
def execFwConfirm (svc : Bool) (s : State) : Host.Outcome State Fault Refusal := .next (s.fwConfirm svc)
def execFwRevert (svc : Bool) (s : State) : Host.Outcome State Fault Refusal :=
  .next (if svc then s.fwRevert true else (s.askFor FWU_CTL_revert).fwRevert false)
def execFwProvisionalTimeout (s : State) : Host.Outcome State Fault Refusal := .next s.fwTimeout
def execFwNvWaitTimeout (s : State) : Host.Outcome State Fault Refusal := .next s.fwNvTimeout
def execQuoteRequest (svc : Bool) (nonce : List Byte) (s : State) : Host.Outcome State Fault Refusal :=
  .next (if svc then s.quoteRequest true nonce else (s.askFor TRUST_CTL_go).quoteRequest false nonce)
def execQuoteComplete (s : State) : Host.Outcome State Fault Refusal := .next s.quoteComplete
def execAttestKeyRotate (s : State) : Host.Outcome State Fault Refusal := .next s.keyRotate

end Sys2Proof.Machine
end

