-- ==== Sys2Proof/Machine/Power.lean ====
section
/-!
DEFINITION. Supplies, sags, the ordered stop, rails, heat and the brake (17_power_thermal R494 to R509), and what a loss or
reset of the compute domains clears (18_startup_reset R519).
-/

namespace Sys2Proof.Machine

def State.setPwr (s : State) (f : Pwr → Pwr) : State := { s with pwr := f s.pwr }

def State.phase (s : State) : Nat := s.get IDENT_BOOT_phase

def State.setPhase (s : State) (k : Nat) : State := s.set IDENT_BOOT_phase k

/-- The compute domains are powered or powering: phases 3 to 6, or a self-test that overran (R515, R518). -/
def State.computeUp (s : State) : Bool :=
  decide (3 ≤ s.phase ∧ s.phase ≤ 6) || (s.phase == 15 && s.get IDENT_BOOT_fail == 5)

/-! ## What a compute reset clears (R519) -/

/-- A function of the endpoint as a compute reset leaves it: configuration and MSI-X table kept, its window, records and
completion ring, which are registers and buffers of the LINK block, cleared. -/
def PciFn.windowReset (x : PciFn) : PciFn :=
  { x with bytes := [], waiting := [], counted := [], taken := 0, busy := none, cq := 0, cqSet := false, errors := 0 }

/-- Blocks kept: IDENT, EVC, SAGE, PWR, FWU and TRUST; of the LINK block the host configuration space shown in LINK_HB_CTL. -/
def keptWord (a : Nat) : Bool :=
  decide (a < 0x10000) || decide (0x20000 ≤ a ∧ a < 0x70000) || a == LINK_HB_CTL

/-- Every block of the compute domains, memories, tables, connections and jobs at their reset state (R519, R499). -/
def State.clearCompute (s : State) : State :=
  { s with
    tick := 0, ctl := s.ctl.filter (fun e => keptWord e.1), banked := s.banked.filter (fun e => keptWord (e.1 % 2 ^ 26))
    latches := s.latches.filter (fun e => keptWord (e.1 % 2 ^ 26)), parts := [], cores := [], net := [], watch := [], rtDef := []
    xlat := [], credits := [], ovr := [], overAt := [], lanes := [], turns := [], rotors := [], classTurn := []
    bays := [], retiring := [], reports := [], homes := [], job := none
    serving := [], wreqs := [], ports := [], conns := [], rx := [], frameNo := [], seen := [], sync := SyncSt.reset, reqs := []
    tenants := [], tenHeld := [], windows := [], bridge := none, pfxs := [], adps := [], peers := [], shipNo := 0, shipOut := []
    shipIn := [], shipWait := [], kept := []
    hb := { s.hb with
      aper := [], fns := s.hb.fns.map (fun (e : Nat × PciFn) => (e.1, e.2.windowReset)), fwds := [], flrDone := [], acks := [] }
    pwr := { s.pwr with braked := [], bayRth := [], dies := [], marked := 0, bedOut := false }
    fw := { s.fw with jobs := [] } }

/-! ## The ordered stop (R499) -/

/-- Reports not yet taken go to the fault log. -/
def State.logAll (s : State) : State :=
  each (fun (r : Report) (t : State) => t.logRecord r r.response) s.reports { s with reports := [] }

/-- The steps of an ordered stop that has begun. -/
def State.finishStop (s : State) : State :=
  let s1 := (s.logAll.bedsyncLow).clearCompute
  let why := s.pwr.stop
  let s2 := (((s1.setPhase 7).set IDENT_BOOT_fail 0).setOn
    (if why = 1 then IDENT_RST_CAUSE_pwr_en else IDENT_RST_CAUSE_stop) true).setOn PWR_STAT_brake false
  (s2.setPwr (fun p => { p with armed := p.armed && (why == 1) })).pins

/-- The cause of a stop by a supply in the fault log: a rail report of the steward die (R499, log entry 74). -/
def State.logSupply (s : State) (detail : Nat) : State := s.logRecord ⟨12, s.tick, none, none, 72, none, detail, 9, false⟩ 9

/-- The island without its supply: nothing but flash and the levels of its inputs. -/
def State.islandOff (s : State) : State :=
  { State.reset with
    pending := s.pending, outbox := s.outbox, oracle := s.oracle, cycle := s.cycle, flash := s.flash
    evc := { Evc.reset with pinIn := s.evc.pinIn }, pwr := { Pwr.reset with main := s.pwr.main, en := s.pwr.en } }

/-- ORDERED_STOP. `cause` 0: a stop begun by Sage or PWR_EN; 1: 54 V below 42 V; 2: 54 V above 60 V; 3: 12 V below 10 V. -/
def State.orderedStop (s : State) (cause : Nat) : State :=
  let begun := fun (t : State) =>
    if t.computeUp && !t.on PWR_STAT_stopping then (t.logSupply cause).stopModule 2 else t
  let finish := fun (t : State) => if t.computeUp && t.on PWR_STAT_stopping then t.finishStop else t
  match cause with
  | 0 => finish s
  | 1 => finish ((begun s).setPwr (fun p => { p with main := false }) |>.setOn PWR_STAT_main_valid false)
  | 2 => finish (begun s)
  | 3 =>
    let t := (finish (begun s)).islandOff
    { t with outbox := ((((s.drivePin "MOD_READY_N" s.pwr.ready false).drivePin "MOD_FAULT_N" s.pwr.fault false).drivePin
      "THERM_WARN_N" s.pwr.therm false).bedsyncLow).outbox }
  | _ => s

/-! ## Supplies (R494, R497, R498) -/

def State.outOfRange (s : State) : State := s.setBit PWR_EVT 3

/-- SAG_BEGIN: non-volatile writes are inhibited. A second sag restarts the count of 10 ms and counts as a sag begun. -/
def State.sagBegin (s : State) : State :=
  (((s.setPwr (fun p => { p with inhibit := true })).setOn PWR_STAT_nv_inhibit true).bump PWR_SAG_CNT_count 1).setBit PWR_EVT 4

/-- SAG_END: the inhibit ends and the writes that waited run. -/
def State.sagEnd (s : State) : State :=
  if s.pwr.inhibit then
    ((((s.setPwr (fun p => { p with inhibit := false })).setOn PWR_STAT_nv_inhibit false).setBit PWR_EVT 5).nvRun).flashInv
  else s

/-- PWR_EN_CHANGE: deasserted with the compute domains up it begins an ordered stop; a fresh assertion allows a power-up and
releases MOD_FAULT_N. -/
def State.pwrEn (s : State) (level : Bool) : State :=
  if s.pwr.en = level then s
  else
    let s1 := (s.setPwr (fun p => { p with en := level })).setOn PWR_STAT_en (level && s.pwr.aux)
    if level then
      (if s1.phase = 7 ∧ s1.pwr.armed then (s1.setPwr (fun p => { p with stop := 0 })).pins else s1)
    else
      let s2 := s1.setPwr (fun p => { p with armed := true })
      if s2.computeUp then s2.stopModule 1 else s2

/-! ## Rails and heat (R501, R508) -/

/-- RAIL_FAULT of domain `i` of R504: a die's core rail flags the die, every other domain stops the module. -/
def State.railFault (s : State) (i : Nat) : State :=
  if !s.computeUp ∧ i ≠ 242 then s
  else if i < 216 ∧ i % 3 = 0 then
    (s.logRecord ⟨12, s.tick, none, none, i / 3, none, 0, 7, false⟩ 7).flagDie (i / 3) 5
  else if i < 243 then
    let unit := if i < 216 then i / 3 else if i < 234 then i - 216 else if i < 242 then i - 234 else 72
    let s1 := s.logRecord ⟨12, s.tick, none, none, unit, none, 0, 9, false⟩ 9
    if s.computeUp then s1.stopModule 2
    else ((s1.setPhase 15).set IDENT_BOOT_fail 4).pins
  else s


/-- THERMAL_CROSSING: a sensor of a compute die (kind 0), a Bay (1), an I/O die (2) or the steward die (3) has crossed a
threshold. Throttling itself follows at the marks. -/
def State.thermalCross (s : State) (kind unit threshold : Nat) : State :=
  let rep := fun (resp : Nat) (t : State) =>
    t.logRecord ⟨13, s.tick, none, none, if kind = 3 then 72 else unit, none, threshold, resp, false⟩ resp
  if !s.computeUp ∧ kind ≠ 3 then s
  else match kind, threshold with
  | 0, 105 => (rep 7 s).flagDie unit 4
  | 0, 115 => (rep 9 s).stopModule 2
  | 1, 85 => s.setOn (BAY_CTL_hot unit) true
  | 1, 105 => (rep 9 s).stopModule 2
  | 2, 115 | 3, 115 => (rep 9 s).stopModule 2
  | 0, 95 | 1, 95 => rep 0 s
  | _, _ => s

/-! ## The brake (R507) -/

/-- BRAKE: the input averaged over 100 µs exceeds 10,400 W. -/
def State.brake (s : State) : State :=
  if !s.computeUp ∨ s.on PWR_STAT_stopping then s
  else
    let ns := (List.range 64).filter (fun n => s.on (BEAT_PLAN_CTL_active n))
    let s1 := each (fun n (t : State) => t.holdSet n) ns s
    if s.on PWR_STAT_brake then s1.setPwr (fun p => { p with braked := (p.braked ++ ns).eraseDups })
    else (((s1.setPwr (fun p => { p with braked := ns })).setOn PWR_STAT_brake true).bump PWR_BRAKE_CNT_count 1).setBit PWR_EVT 6

/-! ## Meanings -/

def execOrderedStop (cause : Nat) (s : State) : Host.Outcome State Fault Refusal :=
  .next (if cause < 4 then s.orderedStop cause else s)
def execSupplyOutOfRange (s : State) : Host.Outcome State Fault Refusal := .next s.outOfRange
def execSagBegin (s : State) : Host.Outcome State Fault Refusal := .next s.sagBegin
def execSagEnd (s : State) : Host.Outcome State Fault Refusal := .next s.sagEnd
def execPwrEnChange (level : Bool) (s : State) : Host.Outcome State Fault Refusal := .next (s.pwrEn level)
def execRailFault (i : Nat) (s : State) : Host.Outcome State Fault Refusal :=
  .next (if i < 243 then s.railFault i else s)
def execThermalCrossing (kind unit threshold : Nat) (s : State) : Host.Outcome State Fault Refusal :=
  .next (if unitOk kind unit then s.thermalCross kind unit threshold else s)
def execBrake (s : State) : Host.Outcome State Fault Refusal := .next s.brake

end Sys2Proof.Machine
end

