-- ==== Sys2Proof/Machine/Startup.lean ====
section
/-!
DEFINITION. Start-up and the resets of the module (18_startup_reset R514 to R527, 19_firmware_trust R531).
-/

namespace Sys2Proof.Machine

/-! ## Island reset (R519, R520) -/

/-- The island reset: every register at its reset value, fuse and pin values loaded, flash kept. -/
def State.islandReset (s : State) (pin hostPres : Bool) : State :=
  let p := s.pwr
  let s0 := ((s.drivePin "MOD_READY_N" p.ready false).drivePin "MOD_FAULT_N" p.fault false).drivePin "THERM_WARN_N" p.therm false
  let s1 := { State.reset with
    pending := s.pending, outbox := s0.bedsyncLow.outbox, oracle := s.oracle, cycle := s.cycle, flash := s.flash, jtag := s.jtag
    evc := { Evc.reset with pinIn := s.evc.pinIn }
    pwr := { Pwr.reset with main := p.main, aux := p.aux, en := p.en, inhibit := p.inhibit, armed := true } }
  let s2 := (((s1.setOn PWR_STAT_main_valid p.main).setOn PWR_STAT_aux_valid p.aux).setOn PWR_STAT_en p.en).setOn
    PWR_STAT_nv_inhibit p.inhibit
  ((s2.raise (if pin then IDENT_RST_CAUSE_pin else IDENT_RST_CAUSE_por)).setOn LINK_HB_CTL_bridge hostPres).set
    FWU_STAT_floor s.flash.floor

/-- SUPPLY_VALID: 12 V becoming valid starts the island. -/
def State.supplyValid (s : State) (aux hostPres : Bool) : State :=
  if aux then (if s.pwr.aux then s else (s.setPwr (fun p => { p with aux := true })).islandReset false hostPres)
  else (s.setPwr (fun p => { p with main := true })).setOn PWR_STAT_main_valid s.pwr.aux

/-- MOD_RESET: MOD_RESET_N low for 10 µs. A stop is shown before the island resets. -/
def State.modReset (s : State) (hostPres : Bool) : State :=
  if !s.pwr.aux then s
  else (if s.computeUp then (s.stopModule 2).finishStop else s).islandReset true hostPres

/-! ## Boot (R515, R531) -/

/-- A bank that passes the checks of R530. -/
def State.bankPasses (s : State) (b : Nat) : Bool := (s.flash.bank b).any (fun x => s.bankCode x == 0)

/-- The valid inventory record with the higher sequence (R25). -/
def Flash.inventory (f : Flash) : Option Inv :=
  match storedRecord f.inv0, storedRecord f.inv1 with
  | some a, some b => if a.sequence < b.sequence then some b else some a
  | some a, none => some a
  | none, b => b

def State.bootFail (s : State) (code : Nat) : State := ((s.setPhase 15).set IDENT_BOOT_fail code).pins

/-- The bank that boots runs; a provisional period ends, with the older settings. -/
def State.bootBank (s : State) (b : Nat) (fallback : Bool) : State :=
  let f := s.flash
  let rec_ := if f.provisional.isSome then f.older.getD f.settings else f.settings
  let s1 := s.setFlash (fun f => { f with
    confirmed := b, provisional := none, older := none, settings := rec_
    staged := !fallback && (f.staged || f.provisional.isSome) })
  let s2 := (s1.setFw (fun w => { w with running := b, settings := rec_ })).fwShow.showVersion
  if fallback then (s2.setOn FWU_STAT_boot_fallback true).fwEvt 2 else s2

/-- The trust registers at start-up: the next index of a key is its reserved end (R543). -/
def State.bootTrust (s : State) : State :=
  let f := s.flash
  ((((s.setFw (fun w => { w with index := f.keyEnd, newKey := decide (983040 ≤ f.keyEnd) })).set TRUST_KEY_key f.keyNo).set
    TRUST_KEY_next f.keyEnd).set TRUST_RESV_end f.keyEnd).set TRUST_ID_next f.idEnd

/-- Phases 0 to 2: bank, self-test of Sage and control cores, inventory, settings. `ms`: from 12 V valid to phase 2. -/
def State.bootDone (s : State) (ok : Bool) (ms : Nat) : State :=
  if !s.pwr.aux ∨ s.phase ≠ 0 then s
  else if !ok then s.bootFail 2
  else
    let c := s.flash.confirmed
    if !s.bankPasses c ∧ !s.bankPasses (1 - c) then s.bootFail 1
    else
      let s1 := s.bootBank (if s.bankPasses c then c else 1 - c) (!s.bankPasses c)
      match s1.flash.inventory with
      | none => (s1.setOn IDENT_INV_STAT_none_valid true).bootFail 3
      | some v =>
        let s2 := (({ s1 with inv := some v }.showInv).setOn IDENT_INV_STAT_valid true).bootTrust
        let s3 := (s2.settingEffect 0x0010).settingEffect 0x0011
        ((s3.setOn SAGE_STAT_ok true).set IDENT_BOOT_MS_island (min ms 65535)).setPhase 2

/-! ## Power-up (R502, R514, R519) -/

/-- The three conditions of R495, known to the island from phase 2 on; after a stop only once PWR_EN has been asserted anew. -/
def State.mayPowerUp (s : State) : Bool :=
  (s.phase == 2 || s.phase == 7) && s.pwr.main && s.pwr.aux && s.pwr.en && s.pwr.armed && s.inv.isSome

/-- POWER_UP_STAGING: the compute reset, and the domains whose flags are set powered row by row. -/
def State.powerUp (s : State) : State :=
  if s.mayPowerUp then
    let s1 := (((s.clearCompute.setPhase 3).setOn PWR_STAT_stopping false).set IDENT_BOOT_MS_compute 0xFFFF).setPwr (fun p =>
      { p with stop := 0 })
    (each (fun d (t : State) =>
      if s.inv.any (fun v => (v.dieFlag d).testBit 0 && (v.dieFlag d).testBit 1) then
        (t.setOn (DIE_PWR_CTL_compute d) true).set (DIE_PWR_STAT_state d) 2
      else t) (List.range 72) s1).pins
  else s

/-! ## Self-test (R517, R518) -/

/-- An update of the in-memory record: its sequence rises, the write to flash is pending (R25). -/
def State.updateInv (s : State) (f : Inv → Inv) : State :=
  match s.inv with
  | none => s
  | some v =>
    ((({ s with inv := some { f v with sequence := (v.sequence + 1) % 2 ^ 32 } }).setOn IDENT_INV_STAT_pending true).showInv).setBit
      EVC_DEV_LATCH 2

/-- STARTUP_SELF_TEST, in phases 3 and 4. -/
def State.startTest (s : State) (x : TestIn) : State :=
  if s.phase ≠ 3 then s
  else
    let dieFail := fun (bit : Nat) (d : Nat) (t : State) =>
      ((t.clearDieFlag d bit).setOn (DIE_PWR_CTL_compute d) false).set (DIE_PWR_STAT_state d) 0
    let s1 := each (fun p (t : State) => t.markFailed p) (x.cores.filter (fun p => decide (p < 9216))) s
    let s2 := each (dieFail 1) (x.transit.filter (fun d => decide (d < 72))) s1
    let s3 := each (dieFail 0) (x.compute.filter (fun d => decide (d < 72))) s2
    let s4 := each (fun b (t : State) => t.updateInv (fun v => { v with bayFlags := put v.bayFlags b 0 }))
      (x.bays.filter (fun b => decide (b < 18))) s3
    let s5 := each (fun k (t : State) => t.updateInv (fun v => { v with ioFlags := put v.ioFlags k 0 }))
      (x.ios.filter (fun k => decide (k < 8))) s4
    let s6 := each (fun (e : Nat × Nat) (t : State) => t.updateInv (fun v =>
      { v with portFlags := put v.portFlags e.1 (v.portFlag e.1 &&& (15 - e.2 % 16)) })) (x.lanes.filter (fun e => decide (e.1 < 32))) s5
    if x.overrun then s6.bootFail 5 else s6.setPhase 4

/-- MODULE_READY: phases 5 and 6. `ms`: from P to phase 6. -/
def State.moduleReady (s : State) (ms : Nat) : State :=
  if s.phase ≠ 4 then s
  else
    let s1 := (({ s with tick := 0, cycle := s.tickEnd }.installRoutes).linkSettings).setOn BEAT_TICK_CTL_run true
    let s2 := each (fun p (t : State) => if t.portUsable p then t.writePortCtl p 0x80000007 else t) (List.range 32) s1
    (((s2.setOn SAGE_STAT_gate_open true).set IDENT_BOOT_MS_compute (min ms 65534)).setPhase 6).pins

/-! ## PCIe fundamental reset (R519) -/

/-- PCIE_FUNDAMENTAL_RESET: the functions' configuration, MSI-X tables, windows and rings, NumVFs, and the aperture entries but
entry 0; partitions and requests run on. -/
def State.pcieReset (s : State) : State :=
  if !s.isBridge then s.raise IDENT_RST_CAUSE_perst
  else
    let s1 := ((s.set LINK_HB_CTL_num_vfs 0).setOn LINK_HB_CTL_linkup false).raise IDENT_RST_CAUSE_perst
    { s1 with hb := { s1.hb with aper := [], fns := [], fwds := [], vfMem := false } }

/-! ## Meanings -/

def execSupplyValid (aux hostPres : Bool) (s : State) : Host.Outcome State Fault Refusal := .next (s.supplyValid aux hostPres)
def execIslandReset (pin hostPres : Bool) (s : State) : Host.Outcome State Fault Refusal :=
  .next (if s.pwr.aux then s.islandReset pin hostPres else s)
def execModReset (hostPres : Bool) (s : State) : Host.Outcome State Fault Refusal := .next (s.modReset hostPres)
def execBootVerifyDone (ok : Bool) (ms : Nat) (s : State) : Host.Outcome State Fault Refusal := .next (s.bootDone ok ms)
def execPowerUpStaging (s : State) : Host.Outcome State Fault Refusal := .next s.powerUp
def execStartupSelfTest (x : TestIn) (s : State) : Host.Outcome State Fault Refusal := .next (s.startTest x)
def execModuleReady (ms : Nat) (s : State) : Host.Outcome State Fault Refusal := .next (s.moduleReady ms)
def execPcieFundamentalReset (s : State) : Host.Outcome State Fault Refusal := .next s.pcieReset

end Sys2Proof.Machine
end

