-- ==== Sys2Proof/Machine/Space.lean ====
section
/-!
DEFINITION. Accesses to the control space (00_scope R8 to R11, 01_wafer_hierarchy R28 to R40) and to the control pages of
the cores (05_scratchpad R162): the rules of the access codes, what each register does when it is written, and what the
registers that are computed from other state read as.
-/

namespace Sys2Proof.Machine

/-! ## Access codes (R9) -/

/-- The field's new value in the word, by its access code; `locked` says whether its lock bit is set, `now` holds the bits
that hardware has set, and the amounts it has counted, in the cycle of the write: they stay (R10, R38). -/
def FieldDesc.write (f : FieldDesc) (locked : Bool) (v now w : Nat) : Nat :=
  let len := f.hi + 1 - f.lo
  let old := field w f.lo len
  let new := field v f.lo len
  let kept := field now f.lo len
  match f.acc with
  | .rw => setField w f.lo len new
  | .w1c => setField w f.lo len ((old - (old &&& new)) ||| (old &&& kept))
  | .w1s => setField w f.lo len (old ||| new)
  | .clr => setField w f.lo len kept
  | .rwo => if old = f.reset then setField w f.lo len new else w
  | .rwl => if locked then w else setField w f.lo len new
  | .ro | .wo | .ent | .ten | .rt => w

def writeFields (fs : List FieldDesc) (locked : Bool) (v now w : Nat) : Nat :=
  fs.foldl (fun w f => f.write locked v now w) w

/-- Whether a register has a bit that a write sets and hardware clears (R9). -/
def hasW1s (d : RegDesc) : Bool := d.fields.any (fun f => f.acc == .w1s)

/-- Registers held once for each accessor (R32, R215, R321, R335, R461). -/
def perAcc (r : Reg) : Bool :=
  match r with
  | .BAY_OWN_SEL | .DIE_XLT_SEL | .PART_PFX_SEL | .PART_PFX_ARG | .PART_PFX_RES | .PART_ADP_SEL | .PART_ADP_ARG
  | .PART_ADP_RES | .PART_SHIP_SEL | .LINK_OW_SEL | .LINK_HB_FN_SEL | .LINK_HB_AP_SEL | .FWU_SET_SEL | .FWU_SET_DATA
  | .FWU_SET_RES | .BAY_MAP_ARG0 | .BAY_MAP_ARG1 | .BAY_MAP_RES | .REQ_CMD_ARG_LO | .REQ_CMD_ARG_HI | .REQ_CMD_RES => true
  | _ => false

/-- Physical core of the indices die, cluster, core. -/
def coreOf (ix : List Nat) : Nat := 128 * ix.getD 0 0 + 16 * ix.getD 1 0 + ix.getD 2 0

/-- A LOAD job runs, so its operands ignore writes (R262). -/
def State.loading (s : State) : Bool := s.on LOAD_STAT_busy

/-- The plain effect of a write: fields by their codes, in the accessor's own copy where there is one. -/
def State.store (s : State) (acc a : Nat) (d : RegDesc) (locked : Bool) (v : Word) : State :=
  let new := fun (w : Word) => BitVec.ofNat 32 (writeFields d.fields locked v.toNat (s.struck a).toNat w.toNat)
  if perAcc d.reg then s.wrAcc acc a (new (s.rdAcc acc a)) else s.wr a (new (s.rd a))

/-! ## Writes that do more (by register) -/

/-- BEAT_PLAN_CTL: the lock, the record bit, the hold, and stop before start, for stop prevails (R64). -/
def State.writePlanCtl (s : State) (n : Nat) (v : Word) : State :=
  let s1 := if v.getLsbD 31 then s.setOn (BEAT_PLAN_CTL_lock n) true else s
  let s2 := if v.getLsbD 5 then s1.clear (BEAT_PLAN_CTL_late n) else s1
  let s3 := if v.getLsbD 3 then s2.holdSet n else if s2.on (BEAT_PLAN_CTL_hold n) then s2.holdClear n else s2
  if v.getLsbD 2 then s3.beatStop n else if v.getLsbD 1 then s3.beatStart n else s3

/-- LOAD_CTL: op and partition while no job runs, abort, go (R262, R263). -/
def State.writeLoadCtl (s : State) (v : Word) : State :=
  let s1 := if s.loading then s else (s.set LOAD_CTL_op (bits v 24 3)).set LOAD_CTL_partition (bits v 0 6)
  let s2 := if v.getLsbD 30 then s1.loadAbort else s1
  if v.getLsbD 31 then s2.loadStart (bits v 24 3) (bits v 0 6) else s2

/-- PART_WGT_CTL: the operands, then abort, resume and go (R378). -/
def State.writeWgtCtl (s : State) (n : Nat) (v : Word) : State :=
  let s1 := s.wr (PART_WGT_CTL n) ((s.rd (PART_WGT_CTL n) &&& 0xE0000000) ||| (v &&& 0x1F8F0000))
  let s2 := if v.getLsbD 30 then s1.wgtAbort n else s1
  let s3 := if v.getLsbD 29 then s2.wgtResume n else s2
  if v.getLsbD 31 then s3.wgtCmd (bits v 26 3) n else s3

/-- BAY_MOVE_CTL: rate, abort, go (R227). -/
def State.writeMoveCtl (s : State) (b : Nat) (v : Word) : State :=
  let s1 := s.set (⟨BAY_MOVE_CTL b, 16, 13⟩ : FieldRef) (min (bits v 16 13) 6826)
  let s2 := if v.getLsbD 30 then s1.endMove b 2 else s1
  if v.getLsbD 31 then s2.moveGo b else s2

/-- PART_STG_REC: the record bits, and a request of sel (R139). -/
def State.writeStgRec (s : State) (n st : Nat) (v : Word) : State :=
  let s1 := if v.getLsbD 30 then s.clear (PART_STG_REC_refused n st) else s
  let s2 := if v.getLsbD 29 then s1.clear (PART_STG_REC_overridden n st) else s1
  if v.getLsbD 31 then s2.recipeRequest n st (bits v 24 3) else s2.set (PART_STG_REC_sel n st) (bits v 24 3)

/-- PART_STG_NWCFG: a shift of 0 is not stored (R140). -/
def State.writeNwCfg (s : State) (n st : Nat) (v : Word) : State :=
  let s1 := s.set (PART_STG_NWCFG_ratio n st) (bits v 16 16)
  if bits v 12 4 = 0 then s1 else s1.set (PART_STG_NWCFG_shift n st) (bits v 12 4)

/-- FWU_CTL: activate, confirm, revert (R534, R537, R547). -/
def State.writeFwuCtl (s : State) (v : Word) : State :=
  let s1 := if v.getLsbD 31 then s.fwActivate false else s
  let s2 := if v.getLsbD 30 then s1.fwConfirm false else s1
  if v.getLsbD 29 then s2.fwRevert false else s2

/-- PART_SHIP_CTL: a limit of 0 is not stored (R355). -/
def State.writeShipCtl (s : State) (n : Nat) (v : Word) : State :=
  let s1 := s.wr (PART_SHIP_CTL n) ((v &&& 0xC00F0000) ||| (s.rd (PART_SHIP_CTL n) &&& 0xFFFF))
  if bits v 0 16 = 0 then s1 else s1.set (PART_SHIP_CTL_limit n) (bits v 0 16)

/-- What the host writes in each word of a request entry while it is FREE: its own fields whole, with the bits of them that are to be
zero, which SUBMIT looks at (R291, R299). -/
def entryMask (w : Nat) : Nat :=
  [0xFFFF0000, 0xFFFFFFFF, 0xFFFFFFFF, 0xFFFFFFFF, 0xFFFFFFFF, 0, 0, 0xFFFFFFFF, 0, 0xFFFFFFFF, 0xFFFF, 0xFFFFFFFF].getD w
    (if w = 21 then 0xFFFFFFFF else 0)

/-- A write to a word of a request entry: while it is FREE; else ignored and counted (R290). -/
def State.writeEntry (s : State) (e w : Nat) (v : Word) : State :=
  if s.get (rqState e) ≠ 0 then s.bump REQ_STRAY_ign_writes 1
  else
    let m := BitVec.ofNat 32 (entryMask w)
    s.wr (REQ_TABLE e w) ((s.rd (REQ_TABLE e w) &&& ~~~m) ||| (v &&& m))

/-- Bits of each word of a tenant's configuration (R300). -/
def tenantMask (w : Nat) : Nat := [0xBFF00000, 0xFFFFFFFF, 0xFFFFFFFF, 0xFFFFFFFF, 0xFFFF, 0xFFFFFFFF].getD w 0

/-- A write to a tenant's configuration: the standby bank only (R300). -/
def State.writeTenant (s : State) (bank t w : Nat) (v : Word) : State :=
  if s.get (tenBank t) = bank then s else s.wr (tenCfg bank t w) (v &&& BitVec.ofNat 32 (tenantMask w))

/-- A register of a channel: while open is set only open is taken (R460). -/
def State.writeChReg (s : State) (acc a : Nat) (c : Nat) (d : RegDesc) (v : Word) : State :=
  if isVf acc then s
  else if s.on (LINK_CH_CTL_open c) then (if a = LINK_CH_CTL c then s.set (LINK_CH_CTL_open c) (bits v 31 1) else s)
  else if a = LINK_CH_LIMIT c then s.wr a (BitVec.ofNat 32 (min (bits v 0 17) 0x18000))
  else s.store acc a d false v

/-! ### The bridge's function registers and the output windows (R461, R462) -/

def State.aperture (s : State) (k : Nat) : DWord := lookupD 0 s.hb.aper k

/-- LINK_HB_AP_HI: the selected entry is stored, its reserved bits 0 (R8, R448); entry 0 ignores writes. -/
def State.writeApHi (s : State) (acc : Nat) (v : Word) : State :=
  let k := bits (s.rdAcc acc LINK_HB_AP_SEL) 0 15
  if k = 0 then s
  else { s with hb := { s.hb with aper := put s.hb.aper k ((v &&& 0xFFFF3FFF) ++ (s.rdAcc acc LINK_HB_AP_LO &&& 0x000FFFFF) : BitVec 64) } }

/-- A write to LINK_HB_CQ_LO, LINK_HB_CQ_HI or LINK_HB_FN_STAT of a function; a ring address written sets cq_set. -/
def State.writeFnReg (s : State) (f : Nat) (r : Reg) (v : Word) : State :=
  if 256 < f then s
  else
    let x := s.pciFn f
    match r with
    | .LINK_HB_CQ_LO => s.setFn f { x with cq := x.cq / 2 ^ 32 * 2 ^ 32 + v.toNat / 4096 * 4096, cqSet := true }
    | .LINK_HB_CQ_HI => s.setFn f { x with cq := x.cq % 2 ^ 32 + v.toNat * 2 ^ 32, cqSet := true }
    | .LINK_HB_FN_STAT => s.setFn f { x with errors := min (s.struck (fnErrNow f)).toNat 0xFFFF }
    | _ => s

def State.fnWord (s : State) (f : Nat) (r : Reg) : Word :=
  if 256 < f then 0
  else
    let x := s.pciFn f
    match r with
    | .LINK_HB_CQ_LO => BitVec.ofNat 32 x.cq
    | .LINK_HB_CQ_HI => BitVec.ofNat 32 (x.cq / 2 ^ 32)
    | .LINK_HB_FN_STAT => BitVec.ofNat 32 (b2n x.cqSet * 2 ^ 31 + x.taken % 256 * 2 ^ 16 + x.errors)
    | _ => 0

/-- A write to a register of an output window: base and size only while it is closed. -/
def State.writeOwReg (s : State) (n w : Nat) (r : Reg) (v : Word) : State :=
  let x := s.window n w
  match r with
  | .LINK_OW_BASE_LO => if x.isOpen then s else s.setWindow n w { x with base := x.base / 2 ^ 32 * 2 ^ 32 + v.toNat / 4096 * 4096 }
  | .LINK_OW_BASE_HI => if x.isOpen then s else s.setWindow n w { x with base := x.base % 2 ^ 32 + v.toNat * 2 ^ 32 }
  | .LINK_OW_CTL => s.writeOwCtl n w v
  | .LINK_OW_DROP => { s with banked := wrAt bankReset s.banked (owDropKey n) (s.struck (owDropNow n)) }
  | _ => s

def State.owWord (s : State) (n w : Nat) (r : Reg) : Word :=
  let x := s.window n w
  match r with
  | .LINK_OW_BASE_LO => BitVec.ofNat 32 x.base
  | .LINK_OW_BASE_HI => BitVec.ofNat 32 (x.base / 2 ^ 32)
  | .LINK_OW_CTL => BitVec.ofNat 32 (b2n x.isOpen * 2 ^ 31 + x.size)
  | .LINK_OW_PROD => BitVec.ofNat 32 x.prod
  | .LINK_OW_DROP => rdAt bankReset s.banked (owDropKey n)
  | _ => 0

def State.owSel (s : State) (acc : Nat) : Nat × Nat :=
  let v := s.rdAcc acc LINK_OW_SEL
  (bits v 8 6, bits v 0 8)

/-! ### Registers of a core (R102 to R108) -/

/-- Core whose registers an address lies in, if any. -/
def coreOfAddr (a : Nat) : Option Nat :=
  let d := (a - 0x1000000) / 0x10000
  let o := (a - 0x1000000) % 0x10000
  if 0x1000000 ≤ a ∧ a < 0x1480000 ∧ 0x8000 ≤ o then some (128 * d + 16 * ((o - 0x8000) / 0x1000) + o % 0x1000 / 0x100) else none

/-- The core behind an address brought up to the present cycle, before its registers are read or written. -/
def State.settleAt (s : State) (a : Nat) : State :=
  match coreOfAddr a with
  | some p => if s.cores.any (fun e => e.1 == p) then s.settle p s.cycle else s
  | none => s

/-- DIE_CORE_CTL: while lock is set it is not written; freeze starts and ends with it (R102). -/
def State.writeCoreCtl (s : State) (acc a p : Nat) (d : RegDesc) (v : Word) : State :=
  let was := s.on (DIE_CORE_CTL_freeze p)
  let t := s.store acc a d (s.on (DIE_CORE_CTL_lock p)) v
  let now := t.on (DIE_CORE_CTL_freeze p)
  (t.setOn (DIE_CORE_CTL_freeze p) was).setFreeze p now

/-! ## The write -/

/-- What a write does to the register it reaches. -/
def State.writeReg (s : State) (acc a : Nat) (d : RegDesc) (ix : List Nat) (v : Word) : State :=
  let n := ix.getD 0 0
  let i := ix.getD 1 0
  let plain := fun (t : State) => t.store acc a d false v
  let nonzero := fun (len : Nat) => if bits v 0 len = 0 then s else plain s
  match d.reg with
  | .BEAT_TICK_CTL =>
    let s1 := if v.getLsbD 2 then s.clear BEAT_TICK_CTL_refused else s
    if v.getLsbD 1 then s1.tickLoad else s1
  | .BEAT_PLAN_LEN | .BEAT_PLAN_ORIGIN_LO | .BEAT_PLAN_ORIGIN_HI => s.store acc a d (s.on (BEAT_PLAN_CTL_lock n)) v
  | .BEAT_PLAN_CTL => s.writePlanCtl n v
  | .BEAT_STATS_LEN | .PART_SHIP_WAIT | .PART_WGT_WAIT | .LINK_P_RTO => nonzero 16
  | .EVC_SRC_CFG => s.writeSrcCfg n v
  | .EVC_PTGT => s.writePtgt n v
  | .EVC_CC_EOI => if acc = n then s.eoi n (bits v 0 10) else s
  | .EVC_CC_BASE => s.writeBase n (bits v 0 4)
  | .EVC_STUCK_LIM => nonzero 8
  | .EVC_PIN_CFG => s.pinPolarity (bits v 0 8)
  | .EVC_STUCK_MAP => each (fun j (t : State) => if v.getLsbD j then t.unstick (32 * n + j) else t) (List.range 32) s
  | .SAGE_CTL => s.writeSageCtl v.toNat
  | .PWR_CAP => s.set PWR_CAP_watts (clampCap (bits v 0 14))
  | .FWU_CTL => s.writeFwuCtl v
  | .FWU_SET_CMD =>
    (match bits v 0 2 with
     | 1 => s.settingsGet (some acc) 0
     | 2 => s.settingsPut (some acc) 0 []
     | _ => s)
  | .TRUST_CTL => if v.getLsbD 31 then s.quoteRequest false [] else s
  | .LOAD_CTL => s.writeLoadCtl v
  | .LOAD_SRC | .LOAD_LEN_LO | .LOAD_LEN_HI | .LOAD_ORIGIN_LO | .LOAD_ORIGIN_HI => if s.loading then s else plain s
  | .LOAD_CHAN => s.writeChan n v
  | .PART_RES_CTL => s.writeEnable acc n v
  | .PART_RES_SHARE => s.writeShare acc n v
  | .PART_RES_SLICE | .PART_RES_QUOTA | .PART_RES_CL => s.writeRecord acc n a v
  | .PART_RST =>
    -- soft and hard in one write: a hard reset, with both bits set (R393, R9)
    if v.getLsbD 1 && !isVf acc then
      let s1 := s.askReset n true
      if v.getLsbD 0 && !s.on (PART_RST_busy n) then s1.setOn (PART_RST_soft n) true else s1
    else if v.getLsbD 0 then s.askReset n false
    else s
  | .PART_EVT_SET => if v.getLsbD 0 then s.partEvt n 7 else s
  | .PART_STG_REC => s.writeStgRec n i v
  | .PART_STG_NWCFG => s.writeNwCfg n i v
  | .PART_STG_MEAN => s.writeMean n i v
  | .PART_PFX_CMD => s.pfxRun acc n (bits v 28 4)
  | .PART_ADP_CMD => s.adpRun acc n (bits v 28 4)
  | .PART_SHIP_CTL => s.writeShipCtl n v
  | .PART_SHIP_BUF => if s.shipsOf n = [] then plain s else s
  | .PART_SHIP_PEER => s.writePeer acc n v
  | .PART_WGT_CTL => s.writeWgtCtl n v
  | .PART_VF_MAP => s.writeVfMap acc n v
  | .REQ_CMD => s.reqRun acc (bits v 28 4) (bits v 0 17)
  | .REQ_P_TEN =>
    let s1 := if v.getLsbD 30 then s.clear (REQ_P_TEN_refused n) else s
    if v.getLsbD 31 then s1.tenantSwapRequest n else s1
  | .LINK_P_CTL => s.writePortCtl n v
  | .LINK_TLT_VER => nonzero 3
  | .LINK_CH_CTL | .LINK_CH_DEST | .LINK_CH_BASE | .LINK_CH_LIMIT => s.writeChReg acc a n d v
  | .LINK_HB_AP_LO => s.wrAcc acc a v
  | .LINK_HB_AP_HI => s.writeApHi acc v
  | .LINK_HB_CQ_LO | .LINK_HB_CQ_HI | .LINK_HB_FN_STAT => s.writeFnReg (bits (s.rdAcc acc LINK_HB_FN_SEL) 0 9) d.reg v
  | .LINK_OW_BASE_LO | .LINK_OW_BASE_HI | .LINK_OW_CTL | .LINK_OW_DROP =>
    s.writeOwReg (s.owSel acc).1 (s.owSel acc).2 d.reg v
  | .BAY_MOVE_CTL => s.writeMoveCtl n v
  | .BAY_MOVE_SLOT => if s.get (BAY_MOVE_STAT_state n) = 0 then plain s else s
  | .BAY_MAP_CMD => s.mapRun acc (bits v 28 4)
  | .DIE_PWR_CTL => if v.getLsbD 2 then s.restoreWrite n else s
  | .DIE_RT_DEF => s.writeDefWord n i v
  | .DIE_RT_C0 => s.writeC0Word n i v
  | .DIE_CORE_CTL => s.writeCoreCtl acc a (coreOf ix) d v
  | .DIE_CORE_PROG => s.store acc a d (s.on (DIE_CORE_CTL_lock (coreOf ix))) v
  | .DIE_EDGE_OVER_BAY_LO | .DIE_EDGE_OVER_BAY_HI => (plain s).stillOver false n
  | .DIE_EDGE_OVER_LINK_LO | .DIE_EDGE_OVER_LINK_HI => (plain s).stillOver true n
  | .REQ_TABLE => s.writeEntry n i v
  | .TENANT_CFG0 => s.writeTenant 0 n i v
  | .TENANT_CFG1 => s.writeTenant 1 n i v
  | _ => plain s

/-- REGISTER_WRITE: a write of one word with its byte enables (R30, R38, R516). -/
def State.spaceWrite (s : State) (acc a : Nat) (v : Word) (enables : Nat) : State :=
  if enables % 16 ≠ 15 ∨ a % 4 ≠ 0 then s.bump IDENT_ACC_ERR_partial_writes 1
  else
    match findReg a with
    | none => s.bump IDENT_ACC_ERR_reserved_hits 1
    | some (d, ix) => s.writeAt a (fun t => (if hasW1s d then t.ask a v else t).settleAt a |>.writeReg acc a d ix v)

/-! ## Registers computed when they are read -/

/-- IDENT_CORE_MAP's entry of a core (R40). -/
def State.coreMapEntry (s : State) (p : Nat) : Nat :=
  match s.inv with
  | none => 0
  | some v =>
    if v.isFailed p then 0xFFFF
    else if !v.isGood p then 0xBFFF
    else match (s.ownerOfCore p).bind (fun n => s.logicalOf n p) with
      | some l => l
      | none => 0x7FFF

def State.coreMapWord (s : State) (k : Nat) : Word :=
  if s.on IDENT_INV_STAT_valid then BitVec.ofNat 32 (s.coreMapEntry (2 * k) + 2 ^ 16 * s.coreMapEntry (2 * k + 1)) else 0

/-- A word of a byte string, zero past its end. -/
def wordOfBytes (l : List Byte) (k : Nat) : Word := BitVec.ofNat 32 (ofBytes ((l.drop (4 * k)).take 4))

def State.invWord (s : State) (k : Nat) : Word :=
  if s.on IDENT_INV_STAT_valid then (match s.inv with
    | some v => wordOfBytes v.image k
    | none => 0) else 0

/-- BEAT_STAT, with in_guard (R68). -/
def State.beatStatWord (s : State) (n : Nat) : Word :=
  let q := s.part n
  s.rd (BEAT_STAT n) ||| BitVec.ofNat 32 (4 * b2n (q.interval == .working && decide (q.began + s.planS n ≤ s.cycle)))

def engMask (f : Engine → Bool) : Nat :=
  b2n (f .load) + 2 * b2n (f .matrix) + 4 * b2n (f .vector) + 8 * b2n (f .send)

/-- DIE_CORE_STAT (R103). -/
def State.coreStatWord (s : State) (p : Nat) : Word :=
  let u := s.settle p s.cycle
  let c := u.core p
  BitVec.ofNat 32 (2 ^ 28 * engMask (fun e => (c.eng e).eob) + 2 ^ 24 * engMask (fun e => u.heldNow p e s.cycle) +
    2 ^ 20 * engMask (fun e => (c.eng e).trapped) + 2 ^ 15 * c.tags.length)

/-- The low four bits of six signal counters of a core (R108), by their indices. -/
def State.sigWord (s : State) (p : Nat) (l : List Nat) : Word :=
  let c := (s.settle p s.cycle).core p
  BitVec.ofNat 32 (l.foldr (fun i m => lookupD 0 c.sig i % 16 + 16 * m) 0)

/-- DIE_XLT_DATA: the entry an accessor has selected, of the partition that owns the cluster (R195). -/
def State.xltWord (s : State) (acc d : Nat) : Word :=
  let v := s.rdAcc acc (DIE_XLT_SEL d)
  match s.clusterOwner (8 * d + bits v 28 3) with
  | none => 0
  | some n => match lookup? (s.xlatAt d (bits v 31 1) n) (bits v 0 14) with
    | some p => BitVec.ofNat 32 (2 ^ 15 + p)
    | none => 0

/-- LOAD_PSTATE (R267). -/
def State.pstateWord (s : State) (i : Nat) : Word :=
  BitVec.ofNat 32 ((List.range 16).foldl (fun m j => m + 4 ^ j * s.pstate (16 * i + j)) 0)

/-- PART_PFX_DATA of the handle an accessor has selected (R354). -/
def State.pfxWord (s : State) (acc n i : Nat) : Word :=
  match s.pfx (bits (s.rdAcc acc (PART_PFX_SEL n)) 0 10) with
  | none => 0
  | some p => BitVec.ofNat 32 (match i with
    | 0 => 2 ^ 31 + 2 ^ 30 * b2n p.destroying + 2 ^ 29 * b2n p.shared + 2 ^ 16 * p.owner + p.model
    | 1 => p.epoch
    | 2 => p.positions
    | 3 => p.head
    | 4 => p.pages
    | _ => 2 ^ 16 * min p.queued 0xFFFF + min p.refs 0xFFFF)

/-- PART_ADP_DATA of the handle an accessor has selected (R383). -/
def State.adpWord (s : State) (acc n i : Nat) : Word :=
  let h := bits (s.rdAcc acc (PART_ADP_SEL n)) 0 12
  match s.adp h with
  | none => 0
  | some x =>
    let pages := fun (e : Option AdpEpoch) => (e.map (·.pages)).getD 0
    let rank := fun (e : Option AdpEpoch) => (e.map (·.rank)).getD 0
    let refs := fun (e : Option AdpEpoch) => min ((e.map (·.refs)).getD 0) 0xFFFF
    BitVec.ofNat 32 (match i with
      | 0 => 2 ^ 31 + 2 ^ 30 * b2n x.removing + 2 ^ 16 * x.owner + x.model
      | 1 => 2 ^ 24 * x.cur + 2 ^ 23 * b2n ((x.slot x.cur).any (·.resident)) +
          min (s.adpNames x.owner h [1]).length 0xFFFF
      | 2 => 2 ^ 16 * refs x.slot1 + refs x.slot0
      | _ => 2 ^ 23 * pages x.slot1 + 2 ^ 14 * pages x.slot0 + 2 ^ 7 * rank x.slot1 + rank x.slot0)

/-- KV pages reserved by the live requests of a partition (R326). -/
def State.livePages (s : State) (n : Nat) : Nat :=
  (s.entries n [2, 3, 4, 5, 6, 7]).foldl (fun k e => k + s.get (rqPages e)) 0

/-- Connections on a port (R457). -/
def State.peersOn (s : State) (p : Nat) : Nat := (s.conns.filter (fun e => e.1 / 2 ^ 15 == p)).length

/-- BAY_MOVE_DST: the page in use while the mover is not idle (R227). -/
def State.moveDstWord (s : State) (b : Nat) : Word :=
  match (s.bay b).move with
  | some m => BitVec.ofNat 32 m.new
  | none => s.rd (BAY_MOVE_DST b)

/-- Registers of a stage: those of stages that the layout does not have read as zero (04_low_bit_arithmetic, above R136). -/
def ofStage (r : Reg) : Bool :=
  match r with
  | .PART_STG_REC | .PART_STG_NWCFG | .PART_STG_MEAN | .PART_STG_FLAGS | .PART_STG_CLAMP | .PART_STG_MISS | .PART_STG_NORM
  | .PART_RCP_CFG | .PART_RCP_OFF | .PART_RCP_PLAN => true
  | _ => false

/-- The word a register reads as, before any latch. -/
def State.regWord (s : State) (acc a : Nat) (d : RegDesc) (ix : List Nat) : Word :=
  let n := ix.getD 0 0
  let i := ix.getD 1 0
  let nat := fun (k : Nat) => BitVec.ofNat 32 k
  if perAcc d.reg then s.rdAcc acc a
  else if ofStage d.reg && decide (s.get (PART_NW_CTL_stages n) ≤ i) then 0
  else match d.reg with
  | .IDENT_INV_REC => s.invWord n
  | .IDENT_CORE_MAP => s.coreMapWord n
  | .BEAT_TICK_LO => nat s.tick
  | .BEAT_TICK_HI => nat (s.tick / 2 ^ 32)
  | .BEAT_MARK => nat (s.tick / 9375)
  | .BEAT_MARK_TICK => nat (s.tick % 9375)
  | .BEAT_STAT => s.beatStatWord n
  | .EVC_SRC_CFG => s.srcWord n
  | .EVC_CC_CLAIM => s.claimWord n
  | .EVC_CC_STAT => s.ccStatWord n
  | .EVC_CC_STK => s.stkWord n i
  | .EVC_PIN_LEVEL => s.pinLevelWord
  | .EVC_STUCK_MAP => s.stuckMap n
  | .EVC_PEND_MAP => s.pendMap n
  | .FWU_LEFT => nat s.leftSeconds
  | .TRUST_QUOTE => wordOfBytes s.fw.quote n
  | .TRUST_IDCERT => wordOfBytes idCertBytes n
  | .LOAD_PSTATE => s.pstateWord n
  | .PART_RES_CTL => nat (setField (s.rd a).toNat 0 3 (s.resState n))
  | .PART_KV_IDX => nat ((s.rd a).toNat % 64 + 2 ^ 31 * b2n (s.kvReady n) +
      (if (s.part n).layout = none then 0 else 2 ^ 16 * min (strideLog (s.serve n)) 15))
  | .PART_PFX_DATA => s.pfxWord acc n i
  | .PART_SHIP_BUF => nat ((s.rd a).toNat % 64 + 256 * s.paritySlots n)
  | .PART_SHIP_PEER => s.peerWord (bits (s.rdAcc acc (PART_SHIP_SEL n)) 0 17)
  | .PART_ADP_DIR => nat ((s.rd a).toNat % 64 + 2 ^ 31 * b2n (s.dirReady n))
  | .PART_ADP_DATA => s.adpWord acc n i
  | .REQ_TABLE => s.entryWord n i
  | .REQ_P_COMMIT => nat (s.commit n)
  | .REQ_P_QUEUED => nat (s.entries n [1]).length
  | .REQ_P_LIVE => nat (s.entries n [2, 3, 4, 5, 6, 7]).length
  | .REQ_P_PAGES => nat (s.livePages n)
  | .LINK_P_STAT => nat (setField (s.rd a).toNat 0 8 (min (s.peersOn n) 255))
  | .LINK_HB_AP_LO => nat (s.aperture (bits (s.rdAcc acc LINK_HB_AP_SEL) 0 15)).toNat
  | .LINK_HB_AP_HI => nat ((s.aperture (bits (s.rdAcc acc LINK_HB_AP_SEL) 0 15)).toNat / 2 ^ 32)
  | .LINK_HB_CQ_LO | .LINK_HB_CQ_HI | .LINK_HB_FN_STAT => s.fnWord (bits (s.rdAcc acc LINK_HB_FN_SEL) 0 9) d.reg
  | .LINK_OW_BASE_LO | .LINK_OW_BASE_HI | .LINK_OW_CTL | .LINK_OW_PROD | .LINK_OW_DROP =>
    s.owWord (s.owSel acc).1 (s.owSel acc).2 d.reg
  | .BAY_CTL => nat ((s.rd a).toNat ||| b2n (s.bayUsable n))
  | .BAY_FREE => nat (s.freePages n)
  | .BAY_OWN_DATA => nat ((s.bay n).own (bits (s.rdAcc acc (BAY_OWN_SEL n)) 0 16)).toNat
  | .BAY_MOVE_DST => s.moveDstWord n
  | .DIE_RT_DEF => s.readDefWord n i
  | .DIE_XLT_DATA => s.xltWord acc n
  | .DIE_CORE_STAT => s.coreStatWord (coreOf ix)
  | .DIE_CORE_PC_LM => let c := s.core (coreOf ix); nat (2 ^ 16 * c.me.pc + c.le.pc)
  | .DIE_CORE_PC_VS => let c := s.core (coreOf ix); nat (2 ^ 16 * c.se.pc + c.ve.pc)
  | .DIE_CORE_SIG => s.sigWord (coreOf ix) [1, 2, 3, 4, 6, 7]
  | .DIE_CORE_SIG_HI => s.sigWord (coreOf ix) [8, 9, 11, 12, 13, 14]
  | .PART_EVT_SET | .FWU_SET_CMD | .PART_PFX_CMD | .PART_ADP_CMD | .REQ_CMD | .BAY_MAP_CMD | .EVC_CC_EOI => 0
  | _ => s.rd a

/-! ## Latches (R59, R214, R262, R290, R321) -/

/-- The register whose read latches this _HI register, as the distance of its address; 0 for registers that are not latched. -/
def latchedBy (r : Reg) : Nat :=
  match r with
  | .BEAT_TICK_HI | .BEAT_TICK_SET_HI | .BEAT_PLAN_ORIGIN_HI | .BEAT_CUR_HI | .BEAT_CUR_START_HI | .BEAT_OVR_TICK_HI
  | .PART_NW_LAST_TICK_HI | .LOAD_LEN_HI | .LOAD_ORIGIN_HI | .REQ_CMD_ARG_HI | .REQ_P_STEP_HI => 4
  | _ => 0

/-- Whether a read of this register latches the word that follows it. -/
def latchesNext (r : Reg) (ix : List Nat) : Bool :=
  match r with
  | .BEAT_TICK_LO | .BEAT_TICK_SET_LO | .BEAT_PLAN_ORIGIN_LO | .BEAT_CUR_LO | .BEAT_CUR_START_LO | .BEAT_OVR_TICK_LO
  | .PART_NW_LAST_TICK_LO | .LOAD_LEN_LO | .LOAD_ORIGIN_LO | .REQ_CMD_ARG_LO | .REQ_P_STEP_LO => true
  | .PAGE_MAP => ix.getD 1 0 == 0
  | _ => false

/-- Whether a register is read through the accessor's latch, if it holds one. -/
def throughLatch (r : Reg) (ix : List Nat) : Bool :=
  latchedBy r != 0 || (match r with
    | .PAGE_MAP => ix.getD 1 0 == 1
    | .REQ_TABLE => ix.getD 1 0 != 0
    | _ => false)

def State.latch (s : State) (acc a : Nat) (v : Word) : State := { s with latches := put s.latches (bankKey acc a) v }

/-- A read of a request entry's offset 0x00 latches the entry's 32 words for the accessor, in place of an earlier entry. -/
def State.latchEntry (s : State) (acc e : Nat) : State :=
  each (fun w (t : State) => t.latch acc (REQ_TABLE e w) (s.entryWord e w)) (List.range 32)
    { s with latches := s.latches.filter (fun x => !(x.1 / 2 ^ 26 == acc && decide (0x2000000 ≤ x.1 % 2 ^ 26 ∧ x.1 % 2 ^ 26 < 0x3000000))) }

/-- A read of one word: its value and what it changes (R30, R59, R415). -/
def State.spaceRead (w : State) (acc a : Nat) : Word × State :=
  let s := w.settleAt a
  match findReg a with
  -- above the record's image nothing is kept, but the range is none of the reserved ones (R39)
  | none => (0, if 0x19A8 ≤ a ∧ a < 0x2000 then s else s.bump IDENT_ACC_ERR_reserved_hits 1)
  | some (d, ix) =>
    if computeBlock a && !s.powered then (0, s.bump IDENT_ACC_ERR_reserved_hits 1)
    else if s.hidden a then (0, s)
    else
      let now := s.regWord acc a d ix
      let v := if throughLatch d.reg ix then (lookup? s.latches (bankKey acc a)).getD now else now
      match d.reg with
      | .EVC_CC_CLAIM => (v, if acc = ix.getD 0 0 then s.claim acc else s)
      | .REQ_TABLE => (v, if ix.getD 1 0 = 0 then s.latchEntry acc (ix.getD 0 0) else s)
      | r => if latchesNext r ix then
          (match findReg (a + 4) with
           | some (d2, ix2) => (v, s.latch acc (a + 4) (s.regWord acc (a + 4) d2 ix2))
           | none => (v, s))
        else (v, s)

/-- A read by a control core, whose value goes back to it; a claim gives its own value. -/
def State.readBy (s : State) (acc a : Nat) : State :=
  let r := s.spaceRead acc (a / 4 * 4)
  if a / 4 * 4 = EVC_CC_CLAIM acc ∧ acc < 8 then r.2 else r.2.emit (.readData acc (a / 4 * 4) r.1)

/-! ## Control pages (R162 to R171) -/

/-- A write of a word of a core's control page from the steward die. The core is brought up to the cycle first; a count that a write
clears keeps what falls in that cycle (R162). -/
def State.pageWrite (w : State) (p a : Nat) (v : Word) : State :=
  let s := w.settle p w.cycle
  let c := s.core p
  match findCp a with
  | none => s
  | some (d, ix) =>
    let n := ix.getD 0 0
    match d.reg with
    | .SPC_WIN_CTL => s.writeWinCtl p n v
    | .SPC_CNT => s.writeCnt p n v
    | .SPC_WIN_BASE => if c.cpOn (SPC_WIN_CTL_open n) then s else s.setCore p (c.cpSet (SPC_WIN_BASE_base n) (bits v 0 17))
    | .SPC_WIN_LIMIT =>
      if c.cpOn (SPC_WIN_CTL_open n) then s else s.setCore p (c.cpSet (SPC_WIN_LIMIT_limit n) (min (bits v 0 17) 0x18000))
    | _ => s.setCore p (c.cpWr a (BitVec.ofNat 32
        (writeFields d.fields (c.cpOn SPC_CTL_lock) v.toNat (s.struck (cpKey p a)).toNat (c.cpRd a).toNat)))

/-- The word of a core's control page as it reads now: a counter the value that the waits and increments of the cycle before have left,
an offset that R162 does not list zero (R162, R171). -/
def State.pageWord (s : State) (p a : Nat) : Word :=
  let c := s.core p
  match findCp a with
  | none => 0
  | some (d, ix) =>
    match d.reg with
    | .SPC_CNT => BitVec.ofNat 32 (c.cnt (ix.getD 0 0))
    | _ => c.cpRd a

/-- A read of a word of a control page by the steward die. -/
def State.pageRead (w : State) (acc p a : Nat) : State :=
  let s := w.settle p w.cycle
  s.emit (.readData acc a (s.pageWord p a))

/-! ## Meanings -/

/-- REGISTER_WRITE, of the control space or of a core's control page. -/
def execRegisterWrite (acc : Nat) (page : Option Nat) (a : Nat) (v : Word) (enables : Nat) (s : State) :
    Host.Outcome State Fault Refusal :=
  .next (match page with
    | none => s.spaceWrite acc a v enables
    | some p => if acc < 8 ∧ p < 9216 ∧ enables % 16 = 15 ∧ a % 4 = 0 ∧ s.powered then s.pageWrite p a v else s)

/-- LATCHING_READ: a read by a control core, of these registers or of any other, or of a core's control page. -/
def execLatchingRead (acc : Nat) (a : ReadAt) (s : State) : Host.Outcome State Fault Refusal :=
  .next (match a.page with
    | none => if acc < accessors ∧ a.addr < 2 ^ 26 then s.readBy acc a.addr else s
    | some p => if acc < 8 ∧ p < 9216 ∧ a.addr % 4 = 0 ∧ s.powered then s.pageRead acc p a.addr else s)

end Sys2Proof.Machine
end

