-- ==== Sys2Proof/Machine/HostBridge.lean ====
section
/-!
DEFINITION. The host bridge (15_links_host R445 to R456, R461) and the frames it exchanges with the modules of its bed:
host accesses through the BARs of the functions, the data aperture, command windows and records, and the kinds CTRL, CTRLR,
EVENT, RESET, OUTPUT, PAGE and CMD (log entries 54, 64).
-/

namespace Sys2Proof.Machine

/-- Accessor of a module that forwards accesses over TLT (R32). -/
def tltAcc (m : Nat) : Nat := 265 + m

def ones : Word := 0xFFFFFFFF

/-- The host's requests reach the endpoint. -/
def State.hostUp (s : State) : Bool := s.isBridge && s.on LINK_HB_CTL_linkup && s.pwr.aux

/-- Memory requests are served: from phase 2 on (R516). -/
def State.hostServed (s : State) : Bool := decide (2 ≤ s.phase)

/-- The module in a slot of the bed (R445). -/
def State.slotModule (s : State) (k : Nat) : Option Nat :=
  if k < 64 ∧ s.powered ∧ s.on (LINK_BED_SLOT_valid k) then some (s.get (LINK_BED_SLOT_module k)) else none

/-! ## Accesses through a virtual function (R399) -/

/-- Offset within a PART range of the resource record's registers. -/
def recordOffset (o : Nat) : Bool := decide (o < 0x18) || decide (0x80 ≤ o ∧ o < 0xC8)

/-- A write that came through a VF, by an accessor: the record, the VF table and PART_RST.hard are read-only to it. -/
def State.vfWrite (s : State) (acc a : Nat) (v : Word) (enables : Nat) : State :=
  let o := (a - 0x100000) % 0x10000
  if 0x100000 ≤ a ∧ a < 0x500000 ∧ s.powered then
    if recordOffset o then s.refuse ((a - 0x100000) / 0x10000) 5
    else if 0xF000 ≤ o then s
    else if o = 0x20 then s.spaceWrite acc a (v &&& 1) enables
    else s.spaceWrite acc a v enables
  else s.spaceWrite acc a v enables

/-! ## Words of an access -/

/-- Words that a byte range touches, each with the enables of its bytes. -/
def wordsOf (addr len : Nat) : List (Nat × Nat) :=
  if len = 0 then []
  else (List.range ((addr + len - 1) / 4 + 1 - addr / 4)).map (fun i =>
    let w := 4 * (addr / 4 + i)
    (w, (List.range 4).foldl (fun m j => m + 2 ^ j * b2n (decide (addr ≤ w + j ∧ w + j < addr + len))) 0))

/-- The word of a byte string that begins at `addr`, for the word at `w`. -/
def hostWord (addr : Nat) (data : List Byte) (w : Nat) : Word :=
  BitVec.ofNat 32 ((List.range 4).foldl (fun m j =>
    m + 256 ^ j * (if addr ≤ w + j then ((data.getD (w + j - addr) 0).toNat) else 0)) 0)

/-- A read answered with all ones. -/
def State.allOnes (s : State) (acc addr len : Nat) : State :=
  each (fun (w : Nat × Nat) (t : State) => t.emit (.readData acc w.1 ones)) (wordsOf addr len) s

/-! ## Forwarding as CTRL (R435, R447) -/

def fwdTag (s : State) (acc addr module : Nat) (page write : Bool) (off bytes : Nat) : State :=
  { s with hb := { s.hb with
    nextTag := s.hb.nextTag + 1
    fwds := s.hb.fwds ++ [(⟨s.hb.nextTag, acc, addr, module, page, write, off, bytes⟩ : Fwd)] } }

/-- One access as CTRL to a module. `mark`: 0 none, 1 through a VF, 2 relative to the partition's request-table slice. A
read waits for its reply, one that cannot go out for the 40 µs after which it returns all ones. -/
def State.forward (s : State) (acc addr m part mark off : Nat) (write : Option Word) : State :=
  let word := off % 2 ^ 26 + mark * 2 ^ 26
  match write with
  | some v => (s.sendTo m 4 part (word + 2 ^ 31 + 2 ^ 32 * v.toNat) []).1
  | none => fwdTag (s.sendTo m 4 part word []).1 acc addr m false false off 4

/-! ## MSI-X tables (R446, R450, log entry 62) -/

/-- A word of a function's table: address, upper address, data, vector control. -/
def PciFn.msixWord (x : PciFn) (w : Nat) : Word :=
  let e := x.ent (w / 4)
  BitVec.ofNat 32 (match w % 4 with
    | 0 => e.addr
    | 1 => e.addr / 2 ^ 32
    | 2 => e.data
    | _ => b2n e.masked)

def State.writeMsix (s : State) (f w : Nat) (v : Word) : State :=
  let x := s.pciFn f
  let e := x.ent (w / 4)
  let e1 : MsixEnt := match w % 4 with
    | 0 => { e with addr := e.addr / 2 ^ 32 * 2 ^ 32 + v.toNat }
    | 1 => { e with addr := e.addr % 2 ^ 32 + v.toNat * 2 ^ 32 }
    | 2 => { e with data := v.toNat }
    | _ => { e with masked := v.getLsbD 0 }
  (s.setFn f { x with msix := put x.msix (w / 4) e1 }).msixFlush f (w / 4)

/-- Pending-bit array of a function. -/
def PciFn.pba (x : PciFn) : Nat := x.msix.foldl (fun m e => m + 2 ^ e.1 * b2n e.2.pend.isSome) 0

/-! ## Command windows (R451 to R453) -/

/-- A write into a command window. -/
def State.windowWrite (s : State) (f addr : Nat) (data : List Byte) : State :=
  let x := s.pciFn f
  let offs := (List.range data.length).map (addr + ·)
  if offs.any (fun o => decide (16384 ≤ o) || (lookup? x.bytes o).isSome) then
    (s.setFn f { x with errors := min (x.errors + 1) 0xFFFF }).counts (fnErrNow f) 1
  else
    let bytes := (offs.zip data).foldl (fun m e => put m e.1 e.2) x.bytes
    let full := fun (r : Nat) => (List.range 64).all (fun j => (lookup? bytes (64 * r + j)).isSome)
    let rows := (offs.map (· / 64)).eraseDups.filter full
    (s.setFn f { x with bytes := bytes, waiting := x.waiting ++ rows.map (fun r => (r, s.hb.nextTag)) }).countRows f

/-- The 64 bytes of a row. -/
def PciFn.row (x : PciFn) (r : Nat) : List Byte := (List.range 64).map (fun j => (lookup? x.bytes (64 * r + j)).getD 0)

/-- Result of a record: status, field code, result. -/
structure CmdRes where
  status : Nat
  field : Nat
  result : Nat
  deriving DecidableEq, Repr

/-- A record run on the executing module (R453, R454). `vf`: it came through a VF and may name its own partition's requests
only (R399). -/
def State.runRecord (s : State) (rec_ : List Byte) (vf : Bool) : State × CmdRes :=
  let cls := hnum rec_ 0 1
  let op := hnum rec_ 1 1
  let part := hnum rec_ 3 1 % 64
  let index := hnum rec_ 8 4
  let arg := fun (i : Nat) => hnum rec_ (16 + 4 * i) 4
  if !s.powered then (s, ⟨0x12, 0, 0⟩)
  else match cls with
  | 1 =>
    if vf && s.sliceOwner index != some part then (s, ⟨2, 0, index⟩)
    else
      let r := s.reqCmd op index (arg 0 + 2 ^ 32 * arg 1)
      (r.1, ⟨r.2.1, r.2.2, index⟩)
  | 2 =>
    if s.on (PART_RST_busy part) then (s, ⟨6, 0, 0⟩)
    else
      let r := s.pfxCmd part op [arg 0, arg 1, arg 2, arg 3]
      (r.1, ⟨r.2.1, 0, r.2.2⟩)
  | 3 =>
    if s.on (PART_RST_busy part) then (s, ⟨6, 0, 0⟩)
    else
      let r := s.adpCmd part op [arg 0, arg 1, arg 2, arg 3]
      (r.1, ⟨r.2.1, 0, r.2.2.2⟩)
  | _ =>
    let r := s.mapCmd op (BitVec.ofNat 32 (arg 0)) (BitVec.ofNat 32 (arg 1))
    (r.1, ⟨r.2.status, 0, r.2.slot⟩)

/-- The completion of a function's record, by DMA to its ring (R454). -/
def State.complete (s : State) (f : Nat) (r : CmdRes) : State :=
  let x := s.pciFn f
  match x.busy with
  | none => s
  | some rec_ =>
    let n := x.taken - 1
    let ws := wordsOfNat 4 (hnum rec_ 4 4 + 2 ^ 32 * (r.status % 256) + 2 ^ 40 * r.field + 2 ^ 48 * hnum rec_ 0 1 +
      2 ^ 56 * (1 - n / 256 % 2) + 2 ^ 64 * r.result)
    (s.setFn f { x with busy := none }).emit (.hostWrite s.ownAddr f (x.cq + 16 * (n % 256)) ws)

/-- A record that no class can run: class outside 1 to 4, or a reserved field not zero. -/
def malformed (rec_ : List Byte) : Bool :=
  let cls := hnum rec_ 0 1
  decide (cls = 0 ∨ 4 < cls) || (cls != 1 && hnum rec_ 8 4 != 0) || hnum rec_ 12 4 != 0 || hnum rec_ 32 32 != 0

/-- Module of a record and its bytes as sent there, with slot and partition of the VF's map entry where a VF wrote it. -/
def State.recordTarget (s : State) (f : Nat) (rec_ : List Byte) : Option Nat × List Byte :=
  if f = 0 then (s.slotModule (hnum rec_ 2 1), rec_)
  else
    let i := f - 1
    (if s.on (PART_VF_MAP_valid i) then some (s.get (PART_VF_MAP_module i)) else none,
      (rec_.set 2 0).set 3 (BitVec.ofNat 8 (s.get (PART_VF_MAP_partition i))))

/-! ## The data aperture (R448) -/

/-- Page behind a page-map slot, for a partition: Bay and local page. -/
def State.aperturePage (s : State) (i part : Nat) (write : Bool) : Option (Nat × Nat) :=
  let v := s.slot i
  let b := slotPage v / pagesPerBay
  let page := slotPage v % pagesPerBay
  let o := (s.bay b).own page
  if s.slotLive i ∧ s.bayUsable b ∧ o.getLsbD 15 ∧ (bits o 0 6 = part ∨ (!write ∧ o.getLsbD 13)) then some (b, page) else none

/-- Bytes `x` to `x + len - 1` of a row list. -/
def sliceRows (rows : List Row) (x len : Nat) : List Byte :=
  ((rows.flatMap (fun r => bytesOf 64 r.toNat)).drop (x % 64)).take len

/-- An access to a Bay page that has to wait for the controller: it refreshes, or the tick counter does not run yet (R206). -/
def State.apertureWaits (s : State) (w : DWord) (write : Bool) : Bool :=
  bits w 61 2 == 0 && (s.aperturePage (bits w 0 20) (bits w 48 6) write).any (fun x => s.refreshing x.1 || !s.running)

/-- A read at offset `x` of an entry, on the module it names: the bytes, or none where the access is discarded. -/
def State.apertureRead (s : State) (w : DWord) (x len : Nat) : Option (List Byte) × State :=
  let part := bits w 48 6
  let rows := (List.range ((x + len + 63) / 64 - x / 64)).map (x / 64 + ·)
  if bits w 61 2 = 0 then
    match s.aperturePage (bits w 0 20) part false with
    | none => (none, s)
    | some (b, page) =>
      (some (sliceRows (rows.map (bayRow (s.bay b) page)) x len), each (fun r (t : State) => t.unitRead .bulk b page r) rows s)
  else
    match s.boundCore part (bits w 32 14) with
    | none => (none, s)
    | some p =>
      let first := bits w 0 17
      if rows.any (fun r => decide (trapRow ≤ first + r)) then (none, s)
      else
        let s1 := s.settle p s.cycle
        let data := rows.map (fun r => padRow (s1.core p).pad (first + r))
        let s2 := each (fun r (t : State) => (t.eccRow p (first + r) t.cycle false).1) rows s1
        (some (sliceRows data x len), s2)

/-- A write of whole rows at offset `x` of an entry, on the module it names; false where it is discarded. Rows for a core go to it in
class 2, from a unit whose place in the carrier the spec does not give (log entry 86), and land there as a privileged write, with
the number `op` of the write. -/
def State.apertureWrite (s : State) (w : DWord) (x : Nat) (data : List Byte) (op : Nat) : Bool × State :=
  let part := bits w 48 6
  let n := data.length / 64
  if bits w 61 2 = 0 then
    match s.aperturePage (bits w 0 20) part true with
    | none => (false, s)
    | some (b, page) =>
      (true, each (fun j (t : State) => t.unitWrite .bulk b page (x / 64 + j) (byteRow data j)) (List.range n) s)
  else
    match s.boundCore part (bits w 32 14) with
    | none => (false, s)
    | some p =>
      (true, each (fun j (t : State) =>
        t.inject
          { cls := 2, kind := .write, part := part, source := 0x3FFF, node := nodeOf p, core := p, page := 0
            row := bits w 0 17 + x / 64 + j, counter := 0, tag := 0, rows := 0, total := 1, writer := .host
            data := byteRow data j, due := 0, fails := 0, op := op } (t.cycle + 2 * j)) (List.range n) s)

/-- An entry as the bridge uses it: valid, of kind 0 or 1, and in a VF's range agreeing with the VF's map entry. -/
def State.entryModule (s : State) (k : Nat) : Option Nat :=
  let w := s.aperture k
  let m := s.slotModule (bits w 54 6)
  let i := (k - 16384) / 64
  if !w.getLsbD 63 ∨ 2 ≤ bits w 61 2 then none
  else if 16384 ≤ k ∧ !(s.on (PART_VF_MAP_valid i) && m == some (s.get (PART_VF_MAP_module i)) &&
      s.get (PART_VF_MAP_partition i) == bits w 48 6) then none
  else some (m.getD 65536)

/-- Payload of a PAGE request: the entry, the offset, the length, the data. -/
def pageMsg (w : DWord) (x len : Nat) (data : List Byte) : List Byte :=
  bytesOf 8 w.toNat ++ bytesOf 4 x ++ bytesOf 4 len ++ data

/-- An access to entry `k`, at offset `x` within it. -/
def State.apertureAccess (s : State) (acc k x : Nat) (r : HostReq) : State :=
  let w := s.aperture k
  match r with
  | .read _ len =>
    (match s.entryModule k with
     | none => s.discard4 acc (some len)
     | some m =>
       if 4096 < len ∨ 2 ^ 21 < x + len then s.discard4 acc (some len)
       else if m = s.ownAddr ∧ s.apertureWaits w false then s
       else if m = s.ownAddr then
         (match s.apertureRead w x len with
          | (some bytes, s1) => s1.emit (.pageData acc bytes)
          | (none, s1) => s1.discard4 acc (some len))
       else
         fwdTag (s.sendTo m 10 (bits w 48 6) (s.hb.nextTag % 65536) (pageMsg w x len [])).1 acc x m true false 0 len)
  | .write _ data =>
    (match s.entryModule k with
     | none => s.discard4 acc none
     | some m =>
       if w.getLsbD 60 ∨ x % 64 ≠ 0 ∨ data.length % 64 ≠ 0 ∨ 2 ^ 21 < x + data.length then s.discard4 acc none
       else if m = s.ownAddr ∧ s.apertureWaits w true then s
       else if m = s.ownAddr then
         let op := s.hb.nextTag
         let q := s.apertureWrite w x data op
         if !q.1 then s.discard4 acc none
         else if bits w 61 2 = 0 then q.2
         else (fwdTag q.2 acc x m true true 0 0).waitAck ⟨op, m, bits w 48 6, op % 65536⟩
       else
         let q := s.sendTo m 10 (bits w 48 6) (s.hb.nextTag % 65536 + 65536) (pageMsg w x data.length data)
         if q.2 then fwdTag q.1 acc x m true true 0 0 else s)

/-! ## Host accesses (R446 to R448, R399) -/

/-- Control-space words of a host access, on this module. -/
def State.hostLocal (s : State) (acc base : Nat) (r : HostReq) (vf : Bool) : State :=
  match r with
  | .read addr len =>
    each (fun (w : Nat × Nat) (t : State) =>
      let q := t.spaceRead acc (base + w.1)
      q.2.emit (.readData acc w.1 q.1)) (wordsOf addr len) s
  | .write addr data =>
    each (fun (w : Nat × Nat) (t : State) =>
      if vf then t.vfWrite acc (base + w.1) (hostWord addr data w.1) w.2
      else t.spaceWrite acc (base + w.1) (hostWord addr data w.1) w.2) (wordsOf addr data.length) s

/-- The same, forwarded; a write that does not cover a word is ignored and counted here. -/
def State.hostForward (s : State) (acc m part mark base : Nat) (r : HostReq) : State :=
  match r with
  | .read addr len =>
    each (fun (w : Nat × Nat) (t : State) => t.forward acc w.1 m part mark (base + w.1) none) (wordsOf addr len) s
  | .write addr data =>
    each (fun (w : Nat × Nat) (t : State) =>
      if w.2 = 15 then t.forward acc w.1 m part mark (base + w.1) (some (hostWord addr data w.1))
      else t.bump IDENT_ACC_ERR_partial_writes 1) (wordsOf addr data.length) s

/-- A request that finds nothing: all ones, or discarded. -/
def State.noTarget (s : State) (acc : Nat) (r : HostReq) : State :=
  match r with
  | .read addr len => s.allOnes acc addr len
  | .write _ _ => s

def reqAddr : HostReq → Nat
  | .read a _ => a
  | .write a _ => a

def reqLen : HostReq → Nat
  | .read _ l => l
  | .write _ d => d.length

/-- The same request at another address. -/
def reqTo : HostReq → Nat → HostReq
  | .read _ l, a => .read a l
  | .write _ d, a => .write a d

/-- Whether a function's memory requests are taken. -/
def State.memOn (s : State) (f : Nat) : Bool :=
  s.hostServed && (if f = 0 then (s.pciFn 0).memEn else s.hb.vfMem && decide (f ≤ s.get LINK_HB_CTL_num_vfs))

/-- HOST_BAR0_ACCESS. -/
def State.bar0 (s : State) (r : HostReq) : State :=
  if !s.hostUp then s else if !s.memOn 0 ∨ 2 ^ 26 < reqAddr r + reqLen r then s.noTarget 8 r else s.hostLocal 8 0 r false

/-- HOST_BAR2_ACCESS: the bed aperture. -/
def State.bar2 (s : State) (r : HostReq) : State :=
  let slot := reqAddr r / 2 ^ 26
  let q := reqTo r (reqAddr r % 2 ^ 26)
  if !s.hostUp then s
  else if !s.memOn 0 ∨ 64 ≤ slot ∨ 2 ^ 26 < reqAddr q + reqLen q then s.noTarget 8 r
  else match s.slotModule slot with
    | none => (match r with
        | .read _ _ => (s.bump LINK_HB_TIMEOUT_count 1).noTarget 8 r
        | .write _ _ => s)
    | some m => if m = s.ownAddr then s.hostLocal 8 0 q false else s.hostForward 8 m 0 0 0 q

/-- MSI-X table and pending bits of a function, at an offset within the table, and `true` for the pending-bit array. -/
def State.msixAccess (s : State) (f : Nat) (pba : Bool) (r : HostReq) : State :=
  match r with
  | .read addr len =>
    each (fun (w : Nat × Nat) (t : State) => t.emit (.readData (fnAcc f) w.1
      (if pba then BitVec.ofNat 32 ((t.pciFn f).pba >>> (8 * w.1)) else (t.pciFn f).msixWord (w.1 / 4)))) (wordsOf addr len) s
  | .write addr data =>
    if pba then s
    else each (fun (w : Nat × Nat) (t : State) =>
      if w.2 = 15 then t.writeMsix f (w.1 / 4) (hostWord addr data w.1) else t) (wordsOf addr data.length) s

/-- A command window: writes gather records; what a read of it returns is not stated and is free (log entry 1). -/
def State.windowAccess (s : State) (f : Nat) (r : HostReq) : State :=
  match r with
  | .read addr len =>
    each (fun (w : Nat × Nat) (t : State) =>
      let d := t.draw
      d.2.emit (.readData (fnAcc f) w.1 (BitVec.ofNat 32 d.1))) (wordsOf addr len) s
  | .write addr data => s.windowWrite f addr data

/-- HOST_BAR4_ACCESS: entry 0 holds the command window and the MSI-X table. -/
def State.bar4 (s : State) (r : HostReq) : State :=
  let k := reqAddr r / 2 ^ 21
  let x := reqAddr r % 2 ^ 21
  if !s.hostUp then s
  else if !s.memOn 0 ∨ 32768 ≤ k then s.noTarget 8 r
  else if k ≠ 0 then s.apertureAccess 8 k x (reqTo r x)
  else if x + reqLen r ≤ 0x4000 then s.windowAccess 0 (reqTo r x)
  else if 0x100000 ≤ x ∧ x + reqLen r ≤ 0x100100 then s.msixAccess 0 false (reqTo r (x - 0x100000))
  else if 0x101000 ≤ x ∧ x + reqLen r ≤ 0x101008 then s.msixAccess 0 true (reqTo r (x - 0x101000))
  else s.noTarget 8 r

/-- A word of a VF's function page: its LINK_HB_FN registers, and LINK_OW of its partition, here or on its module. -/
def State.vfPage (s : State) (v m part : Nat) (r : HostReq) : State :=
  let acc := fnAcc v
  let sel := s.rdAcc acc LINK_OW_SEL
  let own := BitVec.ofNat 32 (256 * part + bits sel 0 8)
  let one := fun (w : Nat) (put_ : Option Word) (t : State) =>
    let fnReg := fun (g : Reg) =>
      match put_ with
      | some d => t.writeFnReg v g d
      | none => t.emit (.readData acc w (t.fnWord v g))
    match w with
    | 0x0 => (match put_ with
        | some _ => t
        | none => t.emit (.readData acc w (BitVec.ofNat 32 v)))
    | 0x4 => fnReg .LINK_HB_CQ_LO
    | 0x8 => fnReg .LINK_HB_CQ_HI
    | 0xC => fnReg .LINK_HB_FN_STAT
    | 0xE0 => (match put_ with
        | some d => t.wrAcc acc LINK_OW_SEL (BitVec.ofNat 32 (256 * part + bits d 0 8))
        | none => t.emit (.readData acc w own))
    | _ =>
      if w < 0xE4 ∨ 0xF8 ≤ w then (match put_ with
        | some _ => t
        | none => t.emit (.readData acc w 0))
      else if m = t.ownAddr then
        let t1 := t.wrAcc acc LINK_OW_SEL own
        (match put_ with
         | some d => t1.spaceWrite acc (w + 0x604320) d 15
         | none =>
           let q := t1.spaceRead acc (w + 0x604320)
           q.2.emit (.readData acc w q.1))
      else (t.forward acc w m part 0 LINK_OW_SEL (some own)).forward acc w m part 0 (w + 0x604320) put_
  match r with
  | .read addr len => each (fun (w : Nat × Nat) (t : State) => one w.1 none t) (wordsOf addr len) s
  | .write addr data =>
    each (fun (w : Nat × Nat) (t : State) => if w.2 = 15 then one w.1 (some (hostWord addr data w.1)) t
      else t.bump IDENT_ACC_ERR_partial_writes 1) (wordsOf addr data.length) s

/-- VF BAR0: the partition view (R446). -/
def State.vfBar0 (s : State) (v m part : Nat) (r : HostReq) : State :=
  let acc := fnAcc v
  let x := reqAddr r
  let e := x + reqLen r
  let go := fun (mark base off : Nat) =>
    let q := reqTo r (x - off)
    if m = s.ownAddr then s.hostLocal acc (if mark = 2 then base + 128 * s.sliceBase part else base) q true
    else s.hostForward acc m part mark base q
  let readOnly := fun (base off : Nat) =>
    match r with
    | .read _ _ => go 1 base off
    | .write _ _ => s
  if e ≤ 0x10000 then go 1 (0x100000 + 0x10000 * part) 0
  else if 0x10000 ≤ x ∧ e ≤ 0x10080 then readOnly (0x11000 + 0x100 * part) 0x10000
  else if 0x11000 ≤ x ∧ e ≤ 0x11080 then readOnly (0x501000 + 0x100 * part) 0x11000
  else if 0x18000 ≤ x ∧ e ≤ 0x1C000 then s.windowAccess v (reqTo r (x - 0x18000))
  else if 0x1C000 ≤ x ∧ e ≤ 0x1C080 then s.msixAccess v false (reqTo r (x - 0x1C000))
  else if 0x1D000 ≤ x ∧ e ≤ 0x1D008 then s.msixAccess v true (reqTo r (x - 0x1D000))
  else if 0x1E000 ≤ x ∧ e ≤ 0x1E100 then s.vfPage v m part (reqTo r (x - 0x1E000))
  else if 0x1000000 ≤ x ∧ e ≤ 0x2000000 then
    if m = s.ownAddr ∧ 128 * s.sliceSize part < e - 0x1000000 then s.noTarget acc r else go 2 0x2000000 0x1000000
  else s.noTarget acc r

/-- HOST_VF_ACCESS: through BAR0 or BAR2 of a VF; an FLR or an invalid entry leaves nothing to reach (R399, R401). -/
def State.vfAccess (s : State) (v bar : Nat) (r : HostReq) : State :=
  let i := v - 1
  let acc := fnAcc v
  if !s.hostUp ∨ v = 0 ∨ 256 < v then s
  else if !s.memOn v ∨ !s.powered ∨ !s.on (PART_VF_MAP_valid i) ∨ s.bitOn (PART_VF_FLR (i / 32)) (i % 32) then s.noTarget acc r
  else if bar = 0 then s.vfBar0 v (s.get (PART_VF_MAP_module i)) (s.get (PART_VF_MAP_partition i)) r
  else
    let k := reqAddr r / 2 ^ 21
    if 64 ≤ k then s.noTarget acc r
    else s.apertureAccess acc (16384 + 64 * i + k) (reqAddr r % 2 ^ 21) (reqTo r (reqAddr r % 2 ^ 21))

/-! ## Frames received -/

/-- The sender of a frame of the bridge is known as the bed's bridge (log entry 54). -/
def State.heardBridge (s : State) (m : Nat) : State := { s with bridge := some m }

/-- CTRL_RECEIVE: the access takes effect here, and a read is answered (R435, R447). -/
def State.ctrlReceive (s : State) (k : Nat) : State :=
  match s.rxFrame k 4 with
  | none => s
  | some r =>
    let f := r.frame
    let m := f.source
    let off0 := field f.word 0 26
    let mark := field f.word 26 2
    let slice := mark == 2
    let off := if slice then off0 + 128 * s.sliceBase f.part else off0
    let s1 := (s.rxDone k).heardBridge m
    let out := slice && decide (0x2000000 + 128 * s.sliceSize f.part ≤ off0)
    if field f.word 31 1 = 1 then
      let v := BitVec.ofNat 32 (f.word >>> 32)
      if out then s1
      else if mark = 1 then s1.vfWrite (tltAcc m) off v 15
      else s1.spaceWrite (tltAcc m) off v 15
    else
      let q := if out then (ones, s1) else s1.spaceRead (tltAcc m) off
      (q.2.sendTo m 5 f.part (off0 + 2 ^ 32 * q.1.toNat) []).1

/-- CTRLR_RECEIVE: the reply completes the oldest read of its module and offset that waits. -/
def State.ctrlrReceive (s : State) (k : Nat) : State :=
  match s.rxFrame k 5 with
  | none => s
  | some r =>
    let s1 := s.rxDone k
    match s1.hb.fwds.find? (fun w => !w.page && w.module == r.frame.source && w.off % 2 ^ 26 == field r.frame.word 0 26) with
    | none => s1
    | some w =>
      ({ s1 with hb := { s1.hb with fwds := s1.hb.fwds.erase w } }).emit
        (.readData w.acc w.addr (BitVec.ofNat 32 (r.frame.word >>> 32)))

/-- EVENT_RECEIVE: the bridge writes the MSI-X message (R450). -/
def State.eventReceive (s : State) (k : Nat) : State :=
  match s.rxFrame k 6 with
  | none => s
  | some r =>
    let s1 := s.rxDone k
    if s1.isBridge then s1.hostEvent r.frame.source (field r.frame.word 0 10) (field r.frame.word 16 4) else s1

/-- RESET_RECEIVE: a hard reset asked for an FLR, or its completion (R401). -/
def State.resetReceive (s : State) (k : Nat) : State :=
  match s.rxFrame k 8 with
  | none => s
  | some r =>
    let s1 := s.rxDone k
    let n := r.frame.part % 64
    if r.frame.word % 2 = 1 then s1.flrHeard r.frame.source n
    else ((s1.heardBridge r.frame.source).askReset n true).onPart n (fun q => { q with rstFor := q.rstFor ++ [r.frame.source] })

/-- OUTPUT_RECEIVE: delivery records go to host memory, a completion completes its record (R454, R455). -/
def State.outputReceive (s : State) (k : Nat) : State :=
  match s.rxFrame k 9 with
  | none => s
  | some r =>
    let s1 := s.rxDone k
    let f := r.frame
    if !s1.isBridge then s1
    else if f.word % 2 = 1 then
      s1.complete (field f.word 8 9) ⟨hnum f.payload 0 1, hnum f.payload 1 1, hnum f.payload 4 4⟩
    else s1.emit (.hostWrite f.source (s1.vfOf f.source f.part) f.word (wordsOfNat (f.payload.length / 4) (ofBytes f.payload)))

/-- CMD_RECORD_TAKE: the next record in ring order, once it has counted (R453). A record whose module has become unreachable
while it was away is completed. Records wait during a firmware pause (R535) and while no ring address is set. -/
def State.takeRecord (w : State) (f : Nat) : State :=
  let s := w.pageAcks.countRows f
  let x := s.pciFn f
  let r := x.taken % 256
  if !s.isBridge ∨ s.fw.paused ∨ !x.cqSet ∨ 256 < f then s
  else match x.busy with
  | some rec_ =>
    (match (s.recordTarget f rec_).1 with
     | some m => if m ≠ s.ownAddr ∧ (s.portTo m).isNone then s.complete f ⟨0x12, 0, 0⟩ else s
     | none => s.complete f ⟨0x12, 0, 0⟩)
  | none =>
    if !x.counted.contains r then s
    else
      let rec_ := x.row r
      let s1 := s.setFn f { x with
        bytes := x.bytes.filter (fun e => e.1 / 64 != r), counted := x.counted.erase r, taken := x.taken + 1, busy := some rec_ }
      if malformed rec_ then s1.complete f ⟨0x10, 0, 0⟩
      else if f ≠ 0 ∧ hnum rec_ 0 1 = 4 then s1.complete f ⟨0x11, 0, 0⟩
      else match s1.recordTarget f rec_ with
        | (none, _) => s1.complete f ⟨0x12, 0, 0⟩
        | (some m, bytes) =>
          if m = s1.ownAddr then
            let q := s1.runRecord bytes (f != 0)
            q.1.complete f q.2
          else
            let q := s1.sendTo m 11 (hnum bytes 3 1 % 64) f bytes
            if q.2 then q.1 else s1.complete f ⟨0x12, 0, 0⟩

/-- PAGE_RECEIVE: a data-aperture access forwarded here, or its reply (R448). Word: [15:0] access number, [16] write, [17] reply,
[18] discarded. -/
def State.pageReceive (s : State) (k : Nat) : State :=
  match s.rxFrame k 10 with
  | none => s
  | some r =>
    let f := r.frame
    let s1 := s.rxDone k
    let tag := field f.word 0 16
    if f.word.testBit 17 then s1.pageReply f.source tag (f.word.testBit 18) f.payload
    else
      let s2 := s1.heardBridge f.source
      let w := BitVec.ofNat 64 (hnum f.payload 0 8)
      let x := hnum f.payload 8 4
      if s2.powered && s2.apertureWaits w (f.word.testBit 16) then s
      else if f.word.testBit 16 then
        let op := s2.hb.nextTag
        let q := if s2.powered then s2.apertureWrite w x (f.payload.drop 16) op else (false, s2)
        if q.1 ∧ bits w 61 2 ≠ 0 then
          { q.2 with hb := { q.2.hb with nextTag := op + 1 } }.waitAck ⟨op, f.source, f.part, tag⟩
        else (q.2.sendTo f.source 10 f.part (tag + 2 ^ 16 + 2 ^ 17 + 2 ^ 18 * b2n (!q.1)) []).1
      else
        let q := if s2.powered then s2.apertureRead w x (hnum f.payload 12 4) else (none, s2)
        (q.2.sendTo f.source 10 f.part (tag + 2 ^ 17 + 2 ^ 18 * b2n q.1.isNone) (q.1.getD [])).1

/-- CMD_RECEIVE: a record forwarded here runs, and its completion goes back as OUTPUT (R453, R454). -/
def State.cmdReceive (s : State) (k : Nat) : State :=
  match s.rxFrame k 11 with
  | none => s
  | some r =>
    let f := r.frame
    if s.fw.paused then s
    else
      let q := ((s.rxDone k).heardBridge f.source).runRecord f.payload (field f.word 0 9 != 0)
      (q.1.sendTo f.source 9 f.part (1 + 256 * field f.word 0 9)
        (bytesOf 1 q.2.status ++ bytesOf 1 q.2.field ++ bytesOf 2 0 ++ bytesOf 4 q.2.result)).1

/-- FORWARD_READ_TIMEOUT: no reply within 40 µs (R447). -/
def State.readTimeout (s : State) (tag : Nat) : State :=
  match s.hb.fwds.find? (fun w => w.tag == tag && !w.write) with
  | none => s
  | some w =>
    let s1 := ({ s with hb := { s.hb with fwds := s.hb.fwds.erase w } }).bump LINK_HB_TIMEOUT_count 1
    s1.emit (if w.page then .pageData w.acc (List.replicate w.bytes 0xFF) else .readData w.acc w.addr ones)

/-! ## Configuration space (R445, R516) -/

/-- PCIE_CONFIG_ACCESS: Request Retry Status before phase 2; else the fields written are stored. -/
def State.configAccess (s : State) (f : Nat) (r : CfgReq) : State :=
  if !s.isBridge ∨ 256 < f then s
  else if !s.hostServed then s.emit (.config f true)
  else
    let x := s.pciFn f
    let s1 := match r with
      | .other => s
      | .command mem master => s.setFn f { x with memEn := mem, master := master }
      | .msix enable mask => s.setFn f { x with msixEn := enable, msixMask := mask }
      | .sriov n enable mem =>
        if f = 0 then { s with hb := { s.hb with vfMem := enable && mem } }.set LINK_HB_CTL_num_vfs (min n 256) else s
    (s1.msixFlushAll f).emit (.config f false)

/-- PCIE_LINK_UP (R461). -/
def State.pcieUp (s : State) : State := if s.isBridge then s.setOn LINK_HB_CTL_linkup true else s

/-! ## Meanings -/

def execCtrlReceive (k : Nat) (s : State) : Host.Outcome State Fault Refusal := .next (s.ctrlReceive k)
def execCtrlrReceive (k : Nat) (s : State) : Host.Outcome State Fault Refusal := .next (s.ctrlrReceive k)
def execEventReceive (k : Nat) (s : State) : Host.Outcome State Fault Refusal := .next (s.eventReceive k)
def execResetReceive (k : Nat) (s : State) : Host.Outcome State Fault Refusal := .next (s.resetReceive k)
def execOutputReceive (k : Nat) (s : State) : Host.Outcome State Fault Refusal := .next (s.outputReceive k)
def execPageReceive (k : Nat) (s : State) : Host.Outcome State Fault Refusal := .next (s.pageReceive k)
def execCmdReceive (k : Nat) (s : State) : Host.Outcome State Fault Refusal := .next (s.cmdReceive k)
def execHostBar0Access (r : HostReq) (s : State) : Host.Outcome State Fault Refusal := .next (s.bar0 r)
def execHostBar2Access (r : HostReq) (s : State) : Host.Outcome State Fault Refusal := .next (s.bar2 r)
def execHostBar4Access (r : HostReq) (s : State) : Host.Outcome State Fault Refusal := .next (s.bar4 r)
def execHostVfAccess (v bar : Nat) (r : HostReq) (s : State) : Host.Outcome State Fault Refusal :=
  .next (if 1 ≤ v ∧ v ≤ 256 ∧ bar < 2 then s.vfAccess v bar r else s)
def execForwardReadTimeout (tag : Nat) (s : State) : Host.Outcome State Fault Refusal := .next (s.readTimeout tag)
def execLinkHbApHiWrite (acc : Nat) (v : Word) (s : State) : Host.Outcome State Fault Refusal :=
  .next (if acc < accessors then s.writeAt LINK_HB_AP_HI fun s => s.writeApHi acc v else s)
def execCmdRecordTake (f : Nat) (s : State) : Host.Outcome State Fault Refusal :=
  .next (if f < 257 then s.takeRecord f else s)
def execPcieConfigAccess (f : Nat) (r : CfgReq) (s : State) : Host.Outcome State Fault Refusal :=
  .next (if f < 257 then s.configAccess f r else s)
def execPcieLinkUp (s : State) : Host.Outcome State Fault Refusal := .next s.pcieUp

end Sys2Proof.Machine
end

