-- ==== Sys2Proof/Machine/Jtag.lean ====
section
/-!
DEFINITION. The JTAG port (20_connectors_ordering R556): the TAP controller of IEEE 1149.1 with BYPASS, IDCODE and boundary
scan of the steward die's pins (log entry 87).
-/

namespace Sys2Proof.Machine

/-- The next state of the TAP controller at a rising edge of TCK, by TMS. -/
def tapNext (t : Tap) (tms : Bool) : Tap :=
  match t, tms with
  | .reset, false => .idle
  | .reset, true => .reset
  | .idle, false => .idle
  | .idle, true => .selDr
  | .selDr, false => .capDr
  | .selDr, true => .selIr
  | .capDr, false => .shiftDr
  | .capDr, true => .exit1Dr
  | .shiftDr, false => .shiftDr
  | .shiftDr, true => .exit1Dr
  | .exit1Dr, false => .pauseDr
  | .exit1Dr, true => .updDr
  | .pauseDr, false => .pauseDr
  | .pauseDr, true => .exit2Dr
  | .exit2Dr, false => .shiftDr
  | .exit2Dr, true => .updDr
  | .updDr, false => .idle
  | .updDr, true => .selDr
  | .selIr, false => .capIr
  | .selIr, true => .reset
  | .capIr, false => .shiftIr
  | .capIr, true => .exit1Ir
  | .shiftIr, false => .shiftIr
  | .shiftIr, true => .exit1Ir
  | .exit1Ir, false => .pauseIr
  | .exit1Ir, true => .updIr
  | .pauseIr, false => .pauseIr
  | .pauseIr, true => .exit2Ir
  | .exit2Ir, false => .shiftIr
  | .exit2Ir, true => .updIr
  | .updIr, false => .idle
  | .updIr, true => .selDr

/-- What the selected data register captures: a 0 for BYPASS, the IDCODE, or the levels of the pins. -/
def Jtag.capture (j : Jtag) (pins : List Bool) : List Bool :=
  match j.ir with
  | 0 => [false]
  | 1 => true :: (List.range 31).map Config.jtagIdcode
  | _ => pins

def shiftIn (l : List Bool) (tdi : Bool) : List Bool := l.drop 1 ++ [tdi]

/-- The instruction that a value of the instruction register selects. -/
def jtagInstr (l : List Bool) : Nat := if l.all id then 0 else Config.jtagSelect l % 4

/-- A rising edge: the register of the state captures or shifts, then the controller moves. -/
def Jtag.rise (j : Jtag) (tms tdi : Bool) (pins : List Bool) : Jtag :=
  let k := match j.tap with
    | .capDr => { j with shift := j.capture pins }
    | .shiftDr => { j with shift := shiftIn j.shift tdi }
    | .capIr => { j with irShift := [true, false] ++ (List.range Config.jtagIrExtra).map Config.jtagCapture }
    | .shiftIr => { j with irShift := shiftIn j.irShift tdi }
    | _ => j
  { k with tap := tapNext j.tap tms }

/-- A falling edge: what has been shifted takes effect, and Test-Logic-Reset selects IDCODE. -/
def Jtag.fall (j : Jtag) : Jtag :=
  match j.tap with
  | .updIr => { j with ir := jtagInstr j.irShift }
  | .updDr => if 2 ≤ j.ir then { j with cells := j.shift } else j
  | .reset => { j with ir := 1 }
  | _ => j

/-- JTAG_TDO after a falling edge, where it is driven. -/
def Jtag.tdo (j : Jtag) : Option Bool :=
  match j.tap with
  | .shiftDr => j.shift.head?
  | .shiftIr => j.irShift.head?
  | _ => none

/-- JTAG_TAP_CLOCK: JTAG_TRST_N low, or an edge of TCK with TMS, TDI and the pins' levels; only while the island has power. -/
def State.tapClock (s : State) (trst rising tms tdi : Bool) (pins : List Bool) : State :=
  if !s.pwr.aux then s
  else if trst then { s with jtag := { s.jtag with tap := .reset, ir := 1 } }
  else if rising then { s with jtag := s.jtag.rise tms tdi pins }
  else
    let s1 := { s with jtag := s.jtag.fall }
    match s1.jtag.tdo with
    | some b => s1.emit (.jtag b)
    | none => s1

def execJtagTapClock (trst rising tms tdi : Bool) (pins : List Bool) (s : State) : Host.Outcome State Fault Refusal :=
  .next (s.tapClock trst rising tms tdi pins)

end Sys2Proof.Machine
end

