-- ==== Sys2Proof/Machine/Dispatch.lean ====
section
/-!
DEFINITION. The dispatch: one arm a command, each a call of the meaning of that command.
-/

namespace Sys2Proof.Machine

open Sys2Proof

def exec (i : Instr) (s : State) : Host.Outcome State Fault Refusal :=
  match i with
  | .tick => Sys2Proof.Machine.execTick s
  | .millisecondMark m => Sys2Proof.Machine.execMillisecondMark m s
  | .tickLoad => Sys2Proof.Machine.execTickLoad s
  | .tickLoadApply => Sys2Proof.Machine.execTickLoadApply s
  | .beatStart n => Sys2Proof.Machine.execBeatStart n s
  | .firstBeatBegin n => Sys2Proof.Machine.execFirstBeatBegin n s
  | .beatStop n => Sys2Proof.Machine.execBeatStop n s
  | .holdSet n => Sys2Proof.Machine.execHoldSet n s
  | .holdClear n => Sys2Proof.Machine.execHoldClear n s
  | .holdEnd n => Sys2Proof.Machine.execHoldEnd n s
  | .beatDecision n => Sys2Proof.Machine.execBeatDecision n s
  | .planOverrun n p e => Sys2Proof.Machine.execPlanOverrun n p e s
  | .beatBoundary n => Sys2Proof.Machine.execBeatBoundary n s
  | .statsWindowBoundary n => Sys2Proof.Machine.execStatsWindowBoundary n s
  | .nop e x w => Sys2Proof.Machine.execNop e x w s
  | .eob e x w => Sys2Proof.Machine.execEob e x w s
  | .wait e x w => Sys2Proof.Machine.execWait e x w s
  | .setw e x w => Sys2Proof.Machine.execSetw e x w s
  | .loop e x w => Sys2Proof.Machine.execLoop e x w s
  | .loopr e x w => Sys2Proof.Machine.execLoopr e x w s
  | .br e x w => Sys2Proof.Machine.execBr e x w s
  | .sig e x w => Sys2Proof.Machine.execSig e x w s
  | .swt e x w => Sys2Proof.Machine.execSwt e x w s
  | .seta e x w => Sys2Proof.Machine.execSeta e x w s
  | .adda e x w => Sys2Proof.Machine.execAdda e x w s
  | .lda e x w => Sys2Proof.Machine.execLda e x w s
  | .sbrel e x w => Sys2Proof.Machine.execSbrel e x w s
  | .ldl x w => Sys2Proof.Machine.execLdl x w s
  | .lds x w => Sys2Proof.Machine.execLds x w s
  | .ldr x w => Sys2Proof.Machine.execLdr x w s
  | .ldb x w => Sys2Proof.Machine.execLdb x w s
  | .mxl x w => Sys2Proof.Machine.execMxl x w s
  | .mma x w => Sys2Proof.Machine.execMma x w s
  | .mdr x w => Sys2Proof.Machine.execMdr x w s
  | .mclr x w => Sys2Proof.Machine.execMclr x w s
  | .mscw x w => Sys2Proof.Machine.execMscw x w s
  | .setxp x w => Sys2Proof.Machine.execSetxp x w s
  | .vld x w => Sys2Proof.Machine.execVld x w s
  | .vlds x w => Sys2Proof.Machine.execVlds x w s
  | .vst x w => Sys2Proof.Machine.execVst x w s
  | .vrq x w => Sys2Proof.Machine.execVrq x w s
  | .vadd x w => Sys2Proof.Machine.execVadd x w s
  | .vsub x w => Sys2Proof.Machine.execVsub x w s
  | .vmul x w => Sys2Proof.Machine.execVmul x w s
  | .vfma x w => Sys2Proof.Machine.execVfma x w s
  | .vmax x w => Sys2Proof.Machine.execVmax x w s
  | .vmin x w => Sys2Proof.Machine.execVmin x w s
  | .vcvt x w => Sys2Proof.Machine.execVcvt x w s
  | .vexp x w => Sys2Proof.Machine.execVexp x w s
  | .vrcp x w => Sys2Proof.Machine.execVrcp x w s
  | .vrsq x w => Sys2Proof.Machine.execVrsq x w s
  | .vred x w => Sys2Proof.Machine.execVred x w s
  | .vrot x w => Sys2Proof.Machine.execVrot x w s
  | .vqnt x w => Sys2Proof.Machine.execVqnt x w s
  | .vscs x w => Sys2Proof.Machine.execVscs x w s
  | .vcry x w => Sys2Proof.Machine.execVcry x w s
  | .vnw x w => Sys2Proof.Machine.execVnw x w s
  | .vmovi x w => Sys2Proof.Machine.execVmovi x w s
  | .swr x w => Sys2Proof.Machine.execSwr x w s
  | .swb x w => Sys2Proof.Machine.execSwb x w s
  | .semt x w => Sys2Proof.Machine.execSemt x w s
  | .rowLand p => Sys2Proof.Machine.execRowLand p s
  | .remoteReadServe k us => Sys2Proof.Machine.execRemoteReadServe k us s
  | .readReplyLand k => Sys2Proof.Machine.execReadReplyLand k s
  | .bayWriteAck k => Sys2Proof.Machine.execBayWriteAck k s
  | .bayRefusalNotice k => Sys2Proof.Machine.execBayRefusalNotice k s
  | .scratchpadPatrolRead p bank u => Sys2Proof.Machine.execScratchpadPatrolRead p bank u s
  | .spcWinCtlWrite p w v => Sys2Proof.Machine.execSpcWinCtlWrite p w v s
  | .spcCntWrite p k v => Sys2Proof.Machine.execSpcCntWrite p k v s
  | .nwPartArrive k => Sys2Proof.Machine.execNwPartArrive k s
  | .recipeRequest n st sel => Sys2Proof.Machine.execRecipeRequest n st sel s
  | .stgMeanWrite n st v => Sys2Proof.Machine.execStgMeanWrite n st v s
  | .hopCrcRetry k d cluster => Sys2Proof.Machine.execHopCrcRetry k d cluster s
  | .routeSwapRequest d which v => Sys2Proof.Machine.execRouteSwapRequest d which v s
  | .defaultTableSwap d => Sys2Proof.Machine.execDefaultTableSwap d s
  | .c0TableSwap d n => Sys2Proof.Machine.execC0TableSwap d n s
  | .edgeOverBudget link d n => Sys2Proof.Machine.execEdgeOverBudget link d n s
  | .edgeBudgetRecover link d n => Sys2Proof.Machine.execEdgeBudgetRecover link d n s
  | .bayReadRequest k us => Sys2Proof.Machine.execBayReadRequest k us s
  | .bayWriteRow k => Sys2Proof.Machine.execBayWriteRow k s
  | .bayRefreshTick b => Sys2Proof.Machine.execBayRefreshTick b s
  | .bayPatrolRead b u => Sys2Proof.Machine.execBayPatrolRead b u s
  | .mapAlloc acc => Sys2Proof.Machine.execMapAlloc acc s
  | .mapFree acc => Sys2Proof.Machine.execMapFree acc s
  | .mapSetnext acc => Sys2Proof.Machine.execMapSetnext acc s
  | .mapSetfill acc => Sys2Proof.Machine.execMapSetfill acc s
  | .pageRelease k => Sys2Proof.Machine.execPageRelease k s
  | .moveGo b => Sys2Proof.Machine.execMoveGo b s
  | .moveCopyRow b => Sys2Proof.Machine.execMoveCopyRow b s
  | .moveSwitch b => Sys2Proof.Machine.execMoveSwitch b s
  | .moveAbort b => Sys2Proof.Machine.execMoveAbort b s
  | .loadCheck n => Sys2Proof.Machine.execLoadCheck n s
  | .loadLoad n => Sys2Proof.Machine.execLoadLoad n s
  | .loadActivate n => Sys2Proof.Machine.execLoadActivate n s
  | .loadUnload n => Sys2Proof.Machine.execLoadUnload n s
  | .loadAbort => Sys2Proof.Machine.execLoadAbort s
  | .loadJobEnd => Sys2Proof.Machine.execLoadJobEnd s
  | .loadChanWrite k v => Sys2Proof.Machine.execLoadChanWrite k v s
  | .reqSubmit acc e => Sys2Proof.Machine.execReqSubmit acc e s
  | .reqCancel acc e => Sys2Proof.Machine.execReqCancel acc e s
  | .reqPause acc e => Sys2Proof.Machine.execReqPause acc e s
  | .reqResume acc e => Sys2Proof.Machine.execReqResume acc e s
  | .reqRelease acc e => Sys2Proof.Machine.execReqRelease acc e s
  | .reqDeadline acc e => Sys2Proof.Machine.execReqDeadline acc e s
  | .tenantSwapRequest n => Sys2Proof.Machine.execTenantSwapRequest n s
  | .pfxCreate acc n => Sys2Proof.Machine.execPfxCreate acc n s
  | .pfxDestroy acc n => Sys2Proof.Machine.execPfxDestroy acc n s
  | .prefixFree h => Sys2Proof.Machine.execPrefixFree h s
  | .shipPeerWrite acc n v => Sys2Proof.Machine.execShipPeerWrite acc n v s
  | .shipOpenReceive k => Sys2Proof.Machine.execShipOpenReceive k s
  | .shipOpenDequeue n => Sys2Proof.Machine.execShipOpenDequeue n s
  | .shipDataReceive k => Sys2Proof.Machine.execShipDataReceive k s
  | .shipEndReceive k => Sys2Proof.Machine.execShipEndReceive k s
  | .shipGroupWaitExpire e => Sys2Proof.Machine.execShipGroupWaitExpire e s
  | .shipAckReceive k => Sys2Proof.Machine.execShipAckReceive k s
  | .shipNackReceive k => Sys2Proof.Machine.execShipNackReceive k s
  | .shipAbortReceive k => Sys2Proof.Machine.execShipAbortReceive k s
  | .shipLimitExpire e => Sys2Proof.Machine.execShipLimitExpire e s
  | .wgtStage n => Sys2Proof.Machine.execWgtStage n s
  | .wgtSwap n => Sys2Proof.Machine.execWgtSwap n s
  | .wgtReload n => Sys2Proof.Machine.execWgtReload n s
  | .wgtRepair n => Sys2Proof.Machine.execWgtRepair n s
  | .wgtDiscard n => Sys2Proof.Machine.execWgtDiscard n s
  | .wgtAbort n => Sys2Proof.Machine.execWgtAbort n s
  | .wgtResume n => Sys2Proof.Machine.execWgtResume n s
  | .wgtFillComplete n => Sys2Proof.Machine.execWgtFillComplete n s
  | .wgtReloadComplete n => Sys2Proof.Machine.execWgtReloadComplete n s
  | .wgtGroupWaitExpire n => Sys2Proof.Machine.execWgtGroupWaitExpire n s
  | .wreqReceive k => Sys2Proof.Machine.execWreqReceive k s
  | .wdataReceive k => Sys2Proof.Machine.execWdataReceive k s
  | .wendReceive k => Sys2Proof.Machine.execWendReceive k s
  | .wrefuseReceive k => Sys2Proof.Machine.execWrefuseReceive k s
  | .wabortReceive k => Sys2Proof.Machine.execWabortReceive k s
  | .adpAdd acc n => Sys2Proof.Machine.execAdpAdd acc n s
  | .adpReplace acc n => Sys2Proof.Machine.execAdpReplace acc n s
  | .adpRemove acc n => Sys2Proof.Machine.execAdpRemove acc n s
  | .partEnableWrite acc n v => Sys2Proof.Machine.execPartEnableWrite acc n v s
  | .partShareWrite acc n v => Sys2Proof.Machine.execPartShareWrite acc n v s
  | .partRstSoft n => Sys2Proof.Machine.execPartRstSoft n s
  | .partRstHard acc n => Sys2Proof.Machine.execPartRstHard acc n s
  | .partResetBegin n => Sys2Proof.Machine.execPartResetBegin n s
  | .partResetDrainEnd n => Sys2Proof.Machine.execPartResetDrainEnd n s
  | .partResetRelease n => Sys2Proof.Machine.execPartResetRelease n s
  | .partEvtSet n => Sys2Proof.Machine.execPartEvtSet n s
  | .vfMapWrite acc j v => Sys2Proof.Machine.execVfMapWrite acc j v s
  | .vfFlr v => Sys2Proof.Machine.execVfFlr v s
  | .vfFlrComplete v => Sys2Proof.Machine.execVfFlrComplete v s
  | .vfFlrTimeout v => Sys2Proof.Machine.execVfFlrTimeout v s
  | .evcLevelChange n => Sys2Proof.Machine.execEvcLevelChange n s
  | .evcClaim c => Sys2Proof.Machine.execEvcClaim c s
  | .evcEoi c src => Sys2Proof.Machine.execEvcEoi c src s
  | .evcEoiPop c => Sys2Proof.Machine.execEvcEoiPop c s
  | .evcStuckClear n => Sys2Proof.Machine.execEvcStuckClear n s
  | .extEvtPinChange k level => Sys2Proof.Machine.execExtEvtPinChange k level s
  | .pinFilterExpire k => Sys2Proof.Machine.execPinFilterExpire k s
  | .pinPolarityWrite v => Sys2Proof.Machine.execPinPolarityWrite v s
  | .portTrain p offered works => Sys2Proof.Machine.execPortTrain p offered works s
  | .portTrainRetryExpire p => Sys2Proof.Machine.execPortTrainRetryExpire p s
  | .pcsLockLoss p => Sys2Proof.Machine.execPcsLockLoss p s
  | .frameReceive p a => Sys2Proof.Machine.execFrameReceive p a s
  | .pfcReceive p prio pause => Sys2Proof.Machine.execPfcReceive p prio pause s
  | .helloReceive k => Sys2Proof.Machine.execHelloReceive k s
  | .helloSendTimer p => Sys2Proof.Machine.execHelloSendTimer p s
  | .connHelloTimeout p m => Sys2Proof.Machine.execConnHelloTimeout p m s
  | .ackReceive k => Sys2Proof.Machine.execAckReceive k s
  | .linkRtoExpire p m => Sys2Proof.Machine.execLinkRtoExpire p m s
  | .rowsFrameClose ch => Sys2Proof.Machine.execRowsFrameClose ch s
  | .rowsReceive k => Sys2Proof.Machine.execRowsReceive k s
  | .ctrlReceive k => Sys2Proof.Machine.execCtrlReceive k s
  | .ctrlrReceive k => Sys2Proof.Machine.execCtrlrReceive k s
  | .eventReceive k => Sys2Proof.Machine.execEventReceive k s
  | .timeReceive k m => Sys2Proof.Machine.execTimeReceive k m s
  | .bedsyncEdge => Sys2Proof.Machine.execBedsyncEdge s
  | .resetReceive k => Sys2Proof.Machine.execResetReceive k s
  | .outputReceive k => Sys2Proof.Machine.execOutputReceive k s
  | .pageReceive k => Sys2Proof.Machine.execPageReceive k s
  | .cmdReceive k => Sys2Proof.Machine.execCmdReceive k s
  | .hostBar0Access r => Sys2Proof.Machine.execHostBar0Access r s
  | .hostBar2Access r => Sys2Proof.Machine.execHostBar2Access r s
  | .hostBar4Access r => Sys2Proof.Machine.execHostBar4Access r s
  | .hostVfAccess v bar r => Sys2Proof.Machine.execHostVfAccess v bar r s
  | .forwardReadTimeout tag => Sys2Proof.Machine.execForwardReadTimeout tag s
  | .linkHbApHiWrite acc v => Sys2Proof.Machine.execLinkHbApHiWrite acc v s
  | .cmdRecordTake f => Sys2Proof.Machine.execCmdRecordTake f s
  | .outputQueueDrain n cons => Sys2Proof.Machine.execOutputQueueDrain n cons s
  | .pcieFundamentalReset => Sys2Proof.Machine.execPcieFundamentalReset s
  | .sageReport => Sys2Proof.Machine.execSageReport s
  | .sageSelftest ok => Sys2Proof.Machine.execSageSelftest ok s
  | .restartDrainEnd n => Sys2Proof.Machine.execRestartDrainEnd n s
  | .coreProbeComplete n p ok => Sys2Proof.Machine.execCoreProbeComplete n p ok s
  | .spareReloadComplete n p bad => Sys2Proof.Machine.execSpareReloadComplete n p bad s
  | .restartReplayBegin n => Sys2Proof.Machine.execRestartReplayBegin n s
  | .inventoryFlashWrite => Sys2Proof.Machine.execInventoryFlashWrite s
  | .ccLockstepMismatch c => Sys2Proof.Machine.execCcLockstepMismatch c s
  | .ccRestart c => Sys2Proof.Machine.execCcRestart c s
  | .dieClockFault d tickLoss => Sys2Proof.Machine.execDieClockFault d tickLoss s
  | .dieClockRecover d bad => Sys2Proof.Machine.execDieClockRecover d bad s
  | .dieClockTimeout d => Sys2Proof.Machine.execDieClockTimeout d s
  | .dieSwitchoff d => Sys2Proof.Machine.execDieSwitchoff d s
  | .foldRun n => Sys2Proof.Machine.execFoldRun n s
  | .dieRestore d bad => Sys2Proof.Machine.execDieRestore d bad s
  | .diePwrRestoreWrite d => Sys2Proof.Machine.execDiePwrRestoreWrite d s
  | .supplyValid aux hostPres => Sys2Proof.Machine.execSupplyValid aux hostPres s
  | .sagBegin => Sys2Proof.Machine.execSagBegin s
  | .sagEnd => Sys2Proof.Machine.execSagEnd s
  | .supplyOutOfRange => Sys2Proof.Machine.execSupplyOutOfRange s
  | .pwrEnChange level => Sys2Proof.Machine.execPwrEnChange level s
  | .orderedStop cause => Sys2Proof.Machine.execOrderedStop cause s
  | .powerUpStaging => Sys2Proof.Machine.execPowerUpStaging s
  | .railFault j => Sys2Proof.Machine.execRailFault j s
  | .thermalCrossing kind unit threshold => Sys2Proof.Machine.execThermalCrossing kind unit threshold s
  | .brake => Sys2Proof.Machine.execBrake s
  | .islandReset pin hostPres => Sys2Proof.Machine.execIslandReset pin hostPres s
  | .modReset hostPres => Sys2Proof.Machine.execModReset hostPres s
  | .bootVerifyDone ok ms => Sys2Proof.Machine.execBootVerifyDone ok ms s
  | .startupSelfTest x => Sys2Proof.Machine.execStartupSelfTest x s
  | .moduleReady ms => Sys2Proof.Machine.execModuleReady ms s
  | .svcConnect => Sys2Proof.Machine.execSvcConnect s
  | .svcOffer h => Sys2Proof.Machine.execSvcOffer h s
  | .svcSignature g => Sys2Proof.Machine.execSvcSignature g s
  | .svcBody d flash => Sys2Proof.Machine.execSvcBody d flash s
  | .svcCommit => Sys2Proof.Machine.execSvcCommit s
  | .fwActivate svc => Sys2Proof.Machine.execFwActivate svc s
  | .fwActivationHeld ok us => Sys2Proof.Machine.execFwActivationHeld ok us s
  | .fwConfirm svc => Sys2Proof.Machine.execFwConfirm svc s
  | .fwRevert svc => Sys2Proof.Machine.execFwRevert svc s
  | .fwProvisionalTimeout => Sys2Proof.Machine.execFwProvisionalTimeout s
  | .svcStatus => Sys2Proof.Machine.execSvcStatus s
  | .svcIdcert => Sys2Proof.Machine.execSvcIdcert s
  | .settingsGet acc key => Sys2Proof.Machine.execSettingsGet acc key s
  | .settingsPut acc key v => Sys2Proof.Machine.execSettingsPut acc key v s
  | .quoteRequest svc nonce => Sys2Proof.Machine.execQuoteRequest svc nonce s
  | .quoteComplete => Sys2Proof.Machine.execQuoteComplete s
  | .attestKeyRotate => Sys2Proof.Machine.execAttestKeyRotate s
  | .registerWrite acc page a v enables => Sys2Proof.Machine.execRegisterWrite acc page a v enables s
  | .latchingRead acc a => Sys2Proof.Machine.execLatchingRead acc a s
  | .pcieConfigAccess f r => Sys2Proof.Machine.execPcieConfigAccess f r s
  | .pcieLinkUp => Sys2Proof.Machine.execPcieLinkUp s
  | .portLinkUp p => Sys2Proof.Machine.execPortLinkUp p s
  | .svcDisconnect => Sys2Proof.Machine.execSvcDisconnect s
  | .svcLinkUp => Sys2Proof.Machine.execSvcLinkUp s
  | .fwNvWaitTimeout => Sys2Proof.Machine.execFwNvWaitTimeout s
  | .ioDieFault k => Sys2Proof.Machine.execIoDieFault k s
  | .wreqServeDone k => Sys2Proof.Machine.execWreqServeDone k s
  | .wgtHomeReady n => Sys2Proof.Machine.execWgtHomeReady n s
  | .jtagTapClock trst rising tms tdi pins => Sys2Proof.Machine.execJtagTapClock trst rising tms tdi pins s

end Sys2Proof.Machine
end

