-- ==== Sys2Proof/Safety.lean ====
section
/-!
DEFINITION. What the claims speak of: when a command runs and what the next state holds, the registers it leaves as they
were, whether a register write takes effect, when an engine may issue, and the canonical form of every sparse memory.
-/

namespace Sys2Proof.Machine

open Sys2Proof

/-- The command answers a next state, and that state is as `P` says. -/
def Runs (i : Instr) (s : State) (P : State → Prop) : Prop := ∃ t, exec i s = .next t ∧ P t

/-- Every control-space register but those at the addresses `as` reads in `t` as it did in `s`. -/
def State.keeps (s t : State) (as : List Nat) : Prop := ∀ a, a ∉ as → t.rd a = s.rd a

/-- Nothing but the control space and the record of the present cycle (R10) has changed, and of the control space only the
registers at the addresses `as`. -/
def State.onlyRegs (s t : State) (as : List Nat) : Prop := t = { s with ctl := t.ctl, now := t.now } ∧ s.keeps t as

/-- A write to the register at `a` takes effect: its block is powered, its unit is there, and no reset of its partition is
under way (R221, R393, R461, R516). -/
def State.opens (s : State) (a : Nat) : Bool :=
  !(computeBlock a && !s.powered) && !s.hidden a && !(resetGuard a).any (fun n => s.on (PART_RST_busy n))

/-- The state of a core as an engine of it sees it in the present cycle: every effect that is due has taken place, and the
accesses under way of the engines that come before it have made their claims (R75, R152). -/
def State.landed (s : State) (p : Nat) (e : Engine) : State := s.ahead p s.cycle (enginePrio e)

/-- No two of the rows lie in one bank, so that one claim cycle serves them all (R153). -/
def Core.apart (c : Core) (rows : List Nat) : Bool := decide (rows.map c.bank).Nodup

/-- An engine issues an instruction in the present cycle: the core exists and the engine runs, the environment upsets no
word, the occupancy of the instruction before has elapsed, and neither a trap, a wait nor an interlock stands in its way
(R74, R90, R99). -/
def State.issuesNow (s : State) (x : At) (e : Engine) (plan : State → Nat → Plan) : Bool :=
  decide (x.core < 9216) && s.mayRun x.core e && decide (x.upsets = []) &&
    decide ((((s.landed x.core e).core x.core).eng e).ready ≤ s.cycle) &&
    ((plan (s.landed x.core e) s.cycle).cause ((s.landed x.core e).core x.core)).isNone &&
    (plan (s.landed x.core e) s.cycle).free ((s.landed x.core e).core x.core) e s.cycle

/-- An engine after an instruction of `occ` cycles that issued in cycle `t` and left the program at `f` (R74, R76). -/
def Eng.after (x : Eng) (t occ : Nat) (f : Nat × List LoopFrame) (mismatch : Bool) : Eng :=
  { x with
    pc := f.1 % 16384, loops := f.2, ready := t + occ, heldSum := x.heldSum + (t - x.ready)
    residue := x.residue || mismatch }

/-- The core has the effect on its list of those that take place in cycle `due`. -/
def Core.awaits (c : Core) (due : Nat) (e : Eff) : Prop := (⟨due, e⟩ : Pend) ∈ c.pend

/-- The sparse memories of a core are in canonical form: scratchpad and configuration registers. -/
def Core.canonical (c : Core) : Bool := Memory.wf c.pad && canon cpResetWord c.cp

/-- A Bay's memory is in canonical form. -/
def Bay.canonical (y : Bay) : Bool := Memory.wf y.mem

/-- Every sparse memory of the state is in canonical form, so that equal contents are equal data. -/
def State.canonical (s : State) : Bool :=
  canon resetWord s.ctl && canon bankReset s.banked && s.cores.all (fun c => c.2.canonical) &&
    s.bays.all (fun y => y.2.canonical)

end Sys2Proof.Machine
end

