-- ==== Sys2Proof/WellFormed.lean ====
section
/-!
DEFINITION. Well-formed commands. A command names a thing the module has: a partition below 64, a die below 72, a core
below 9,216, and so on; an engine operation carries a word that spells it (R88, R78). `exec` leaves the state as it is
on a command that names a thing that does not exist (log entries 6, 99), and refuses an engine operation whose word
spells another.
-/

namespace Sys2Proof

open Sys2Proof.Machine

def Instr.wf : Instr → Bool
  | .tick => true
  | .millisecondMark _ => true
  | .tickLoad => true
  | .tickLoadApply => true
  | .beatStart n => decide (n < 64)
  | .firstBeatBegin n => decide (n < 64)
  | .beatStop n => decide (n < 64)
  | .holdSet n => decide (n < 64)
  | .holdClear n => decide (n < 64)
  | .holdEnd n => decide (n < 64)
  | .beatDecision n => decide (n < 64)
  | .planOverrun n p _ => decide (n < 64 ∧ p < 9216)
  | .beatBoundary n => decide (n < 64)
  | .statsWindowBoundary n => decide (n < 64)
  | .nop e x w => decide (x.core < 9216) && spells e 0x00 w
  | .eob e x w => decide (x.core < 9216) && spells e 0x01 w
  | .wait e x w => decide (x.core < 9216) && spells e 0x02 w
  | .setw e x w => decide (x.core < 9216) && spells e 0x03 w
  | .loop e x w => decide (x.core < 9216) && spells e 0x04 w
  | .loopr e x w => decide (x.core < 9216) && spells e 0x05 w
  | .br e x w => decide (x.core < 9216) && spells e 0x06 w
  | .sig e x w => decide (x.core < 9216) && spells e 0x07 w
  | .swt e x w => decide (x.core < 9216) && spells e 0x08 w
  | .seta e x w => decide (x.core < 9216) && spells e 0x09 w
  | .adda e x w => decide (x.core < 9216) && spells e 0x0A w
  | .lda e x w => decide (x.core < 9216) && spells e 0x0B w
  | .sbrel e x w => decide (x.core < 9216) && spells e 0x0C w
  | .ldl x w => decide (x.core < 9216) && spells .load 0x10 w
  | .lds x w => decide (x.core < 9216) && spells .load 0x11 w
  | .ldr x w => decide (x.core < 9216) && spells .load 0x12 w
  | .ldb x w => decide (x.core < 9216) && spells .load 0x13 w
  | .mxl x w => decide (x.core < 9216) && spells .matrix 0x40 w
  | .mma x w => decide (x.core < 9216) && spells .matrix 0x41 w
  | .mdr x w => decide (x.core < 9216) && spells .matrix 0x42 w
  | .mclr x w => decide (x.core < 9216) && spells .matrix 0x43 w
  | .mscw x w => decide (x.core < 9216) && spells .matrix 0x44 w
  | .setxp x w => decide (x.core < 9216) && spells .matrix 0x45 w
  | .vld x w => decide (x.core < 9216) && spells .vector 0x80 w
  | .vlds x w => decide (x.core < 9216) && spells .vector 0x81 w
  | .vst x w => decide (x.core < 9216) && spells .vector 0x82 w
  | .vrq x w => decide (x.core < 9216) && spells .vector 0x83 w
  | .vadd x w => decide (x.core < 9216) && spells .vector 0x84 w
  | .vsub x w => decide (x.core < 9216) && spells .vector 0x85 w
  | .vmul x w => decide (x.core < 9216) && spells .vector 0x86 w
  | .vfma x w => decide (x.core < 9216) && spells .vector 0x87 w
  | .vmax x w => decide (x.core < 9216) && spells .vector 0x88 w
  | .vmin x w => decide (x.core < 9216) && spells .vector 0x89 w
  | .vcvt x w => decide (x.core < 9216) && spells .vector 0x8A w
  | .vexp x w => decide (x.core < 9216) && spells .vector 0x8B w
  | .vrcp x w => decide (x.core < 9216) && spells .vector 0x8C w
  | .vrsq x w => decide (x.core < 9216) && spells .vector 0x8D w
  | .vred x w => decide (x.core < 9216) && spells .vector 0x8E w
  | .vrot x w => decide (x.core < 9216) && spells .vector 0x8F w
  | .vqnt x w => decide (x.core < 9216) && spells .vector 0x90 w
  | .vscs x w => decide (x.core < 9216) && spells .vector 0x91 w
  | .vcry x w => decide (x.core < 9216) && spells .vector 0x92 w
  | .vnw x w => decide (x.core < 9216) && spells .vector 0x93 w
  | .vmovi x w => decide (x.core < 9216) && spells .vector 0x94 w
  | .swr x w => decide (x.core < 9216) && spells .send 0xC0 w
  | .swb x w => decide (x.core < 9216) && spells .send 0xC1 w
  | .semt x w => decide (x.core < 9216) && spells .send 0xC2 w
  | .rowLand p => decide (p < 9216)
  | .remoteReadServe _ _ => true
  | .readReplyLand _ => true
  | .bayWriteAck _ => true
  | .bayRefusalNotice _ => true
  | .scratchpadPatrolRead p bank _ => decide (p < 9216 ∧ bank < 32)
  | .spcWinCtlWrite p w _ => decide (p < 9216 ∧ w < 8)
  | .spcCntWrite p k _ => decide (p < 9216 ∧ k < 64)
  | .nwPartArrive _ => true
  | .recipeRequest n st sel => decide (n < 64 ∧ st < 128 ∧ sel < 8)
  | .stgMeanWrite n st _ => decide (n < 64 ∧ st < 128)
  | .hopCrcRetry _ d _ => decide (d < 72)
  | .routeSwapRequest d which _ => decide (d < 72 ∧ which < 3)
  | .defaultTableSwap d => decide (d < 72)
  | .c0TableSwap d n => decide (d < 72 ∧ n < 64)
  | .edgeOverBudget _ d n => decide (d < 72 ∧ n < 64)
  | .edgeBudgetRecover _ d n => decide (d < 72 ∧ n < 64)
  | .bayReadRequest _ _ => true
  | .bayWriteRow _ => true
  | .bayRefreshTick b => decide (b < 18)
  | .bayPatrolRead b _ => decide (b < 18)
  | .mapAlloc acc => decide (acc < accessors)
  | .mapFree acc => decide (acc < accessors)
  | .mapSetnext acc => decide (acc < accessors)
  | .mapSetfill acc => decide (acc < accessors)
  | .pageRelease _ => true
  | .moveGo b => decide (b < 18)
  | .moveCopyRow b => decide (b < 18)
  | .moveSwitch b => decide (b < 18)
  | .moveAbort b => decide (b < 18)
  | .loadCheck n => decide (n < 64)
  | .loadLoad n => decide (n < 64)
  | .loadActivate n => decide (n < 64)
  | .loadUnload n => decide (n < 64)
  | .loadAbort => true
  | .loadJobEnd => true
  | .loadChanWrite k _ => decide (k < 16)
  | .reqSubmit acc e => decide (acc < accessors ∧ e < 131072)
  | .reqCancel acc e => decide (acc < accessors ∧ e < 131072)
  | .reqPause acc e => decide (acc < accessors ∧ e < 131072)
  | .reqResume acc e => decide (acc < accessors ∧ e < 131072)
  | .reqRelease acc e => decide (acc < accessors ∧ e < 131072)
  | .reqDeadline acc e => decide (acc < accessors ∧ e < 131072)
  | .tenantSwapRequest n => decide (n < 64)
  | .pfxCreate acc n => decide (acc < accessors ∧ n < 64)
  | .pfxDestroy acc n => decide (acc < accessors ∧ n < 64)
  | .prefixFree h => decide (h < 1024)
  | .shipPeerWrite acc n _ => decide (acc < accessors ∧ n < 64)
  | .shipOpenReceive _ => true
  | .shipOpenDequeue n => decide (n < 64)
  | .shipDataReceive _ => true
  | .shipEndReceive _ => true
  | .shipGroupWaitExpire e => decide (e < 131072)
  | .shipAckReceive _ => true
  | .shipNackReceive _ => true
  | .shipAbortReceive _ => true
  | .shipLimitExpire e => decide (e < 131072)
  | .wgtStage n => decide (n < 64)
  | .wgtSwap n => decide (n < 64)
  | .wgtReload n => decide (n < 64)
  | .wgtRepair n => decide (n < 64)
  | .wgtDiscard n => decide (n < 64)
  | .wgtAbort n => decide (n < 64)
  | .wgtResume n => decide (n < 64)
  | .wgtFillComplete n => decide (n < 64)
  | .wgtReloadComplete n => decide (n < 64)
  | .wgtGroupWaitExpire n => decide (n < 64)
  | .wreqReceive _ => true
  | .wdataReceive _ => true
  | .wendReceive _ => true
  | .wrefuseReceive _ => true
  | .wabortReceive _ => true
  | .adpAdd acc n => decide (acc < accessors ∧ n < 64)
  | .adpReplace acc n => decide (acc < accessors ∧ n < 64)
  | .adpRemove acc n => decide (acc < accessors ∧ n < 64)
  | .partEnableWrite acc n _ => decide (acc < accessors ∧ n < 64)
  | .partShareWrite acc n _ => decide (acc < accessors ∧ n < 64)
  | .partRstSoft n => decide (n < 64)
  | .partRstHard acc n => decide (acc < accessors ∧ n < 64)
  | .partResetBegin n => decide (n < 64)
  | .partResetDrainEnd n => decide (n < 64)
  | .partResetRelease n => decide (n < 64)
  | .partEvtSet n => decide (n < 64)
  | .vfMapWrite acc i _ => decide (acc < accessors ∧ i < 256)
  | .vfFlr v => decide (1 ≤ v ∧ v ≤ 256)
  | .vfFlrComplete v => decide (1 ≤ v ∧ v ≤ 256)
  | .vfFlrTimeout v => decide (1 ≤ v ∧ v ≤ 256)
  | .evcLevelChange n => decide (n < 1024)
  | .evcClaim c => decide (c < 8)
  | .evcEoi c src => decide (c < 8 ∧ src < 1024)
  | .evcEoiPop c => decide (c < 8)
  | .evcStuckClear n => decide (n < 1024)
  | .extEvtPinChange k _ => decide (k < 8)
  | .pinFilterExpire k => decide (k < 8)
  | .pinPolarityWrite v => decide (v < 256)
  | .portTrain p offered works => decide (p < 32 ∧ offered < 8 ∧ works < 8)
  | .portTrainRetryExpire p => decide (p < 32)
  | .pcsLockLoss p => decide (p < 32)
  | .frameReceive p _ => decide (p < 32)
  | .pfcReceive p prio _ => decide (p < 32 ∧ prio < 8)
  | .helloReceive _ => true
  | .helloSendTimer p => decide (p < 32)
  | .connHelloTimeout p m => decide (p < 32 ∧ m < 32768)
  | .ackReceive _ => true
  | .linkRtoExpire p m => decide (p < 32 ∧ m < 32768)
  | .rowsFrameClose ch => decide (ch < 256)
  | .rowsReceive _ => true
  | .ctrlReceive _ => true
  | .ctrlrReceive _ => true
  | .eventReceive _ => true
  | .timeReceive _ _ => true
  | .bedsyncEdge => true
  | .resetReceive _ => true
  | .outputReceive _ => true
  | .pageReceive _ => true
  | .cmdReceive _ => true
  | .hostBar0Access _ => true
  | .hostBar2Access _ => true
  | .hostBar4Access _ => true
  | .hostVfAccess v bar _ => decide (1 ≤ v ∧ v ≤ 256 ∧ bar < 2)
  | .forwardReadTimeout _ => true
  | .linkHbApHiWrite acc _ => decide (acc < accessors)
  | .cmdRecordTake f => decide (f < 257)
  | .outputQueueDrain n _ => decide (n < 64)
  | .pcieFundamentalReset => true
  | .sageReport => true
  | .sageSelftest _ => true
  | .restartDrainEnd n => decide (n < 64)
  | .coreProbeComplete n p _ => decide (n < 64 ∧ p < 9216)
  | .spareReloadComplete n p _ => decide (n < 64 ∧ p < 9216)
  | .restartReplayBegin n => decide (n < 64)
  | .inventoryFlashWrite => true
  | .ccLockstepMismatch c => decide (c < 8)
  | .ccRestart c => decide (c < 8)
  | .dieClockFault d _ => decide (d < 72)
  | .dieClockRecover d _ => decide (d < 72)
  | .dieClockTimeout d => decide (d < 72)
  | .dieSwitchoff d => decide (d < 72)
  | .foldRun n => decide (n < 64)
  | .dieRestore d _ => decide (d < 72)
  | .diePwrRestoreWrite d => decide (d < 72)
  | .supplyValid _ _ => true
  | .sagBegin => true
  | .sagEnd => true
  | .supplyOutOfRange => true
  | .pwrEnChange _ => true
  | .orderedStop cause => decide (cause < 4)
  | .powerUpStaging => true
  | .railFault i => decide (i < 243)
  | .thermalCrossing kind unit _ => unitOk kind unit
  | .brake => true
  | .islandReset _ _ => true
  | .modReset _ => true
  | .bootVerifyDone _ _ => true
  | .startupSelfTest _ => true
  | .moduleReady _ => true
  | .svcConnect => true
  | .svcOffer _ => true
  | .svcSignature _ => true
  | .svcBody _ _ => true
  | .svcCommit => true
  | .fwActivate _ => true
  | .fwActivationHeld _ _ => true
  | .fwConfirm _ => true
  | .fwRevert _ => true
  | .fwProvisionalTimeout => true
  | .svcStatus => true
  | .svcIdcert => true
  | .settingsGet _ _ => true
  | .settingsPut _ _ _ => true
  | .quoteRequest _ _ => true
  | .quoteComplete => true
  | .attestKeyRotate => true
  | .registerWrite acc page a _ enables =>
    decide (acc < accessors ∧ a < 2 ^ 26 ∧ enables < 16) && page.all (fun p => decide (acc < 8 ∧ p < 9216))
  | .latchingRead acc a => decide (acc < accessors ∧ a.addr < 2 ^ 26) && a.page.all (fun p => decide (acc < 8 ∧ p < 9216))
  | .pcieConfigAccess f _ => decide (f < 257)
  | .pcieLinkUp => true
  | .portLinkUp p => decide (p < 32)
  | .svcDisconnect => true
  | .svcLinkUp => true
  | .fwNvWaitTimeout => true
  | .ioDieFault k => decide (k < 8)
  | .wreqServeDone _ => true
  | .wgtHomeReady n => decide (n < 64)
  | .jtagTapClock _ _ _ _ _ => true

end Sys2Proof
end

