-- ==== Sys2Proof/Certificates/Slice0/Obligations.lean ====
section
/-!
DEFINITION. The statements for the provers.
-/

open Sys2Proof Sys2Proof.Machine

/-! ## The engines of a core (03_core_engines, 04_low_bit_arithmetic) -/

/-- Program flow (R76, R92): NOP goes on to the next word and occupies its engine for the cycles it names, BR jumps, LOOP and
LOOPR open a loop of their body or pass it over, EOB ends the engine's part of the beat. -/
def Obligations.FlowOperationsMoveTheProgram : Prop :=
  ∀ (e : Engine) (x : At) (w : DWord) (s : State),
    let u := ((s.landed x.core e).core x.core).eng e
    (spells e 0x00 w = true → s.issuesNow x e (planNop e w x.core) = true →
      Runs (.nop e x w) s fun t =>
        (t.core x.core).eng e = u.after s.cycle (bits w 0 17 + 1) (nextPc u.loops u.pc) x.mismatch) ∧
    (spells e 0x06 w = true → s.issuesNow x e (planBr e w x.core) = true →
      Runs (.br e x w) s fun t =>
        (t.core x.core).eng e = u.after s.cycle 2 (((u.pc : Int) + signed (bits w 0 16) 16).toNat, u.loops) x.mismatch) ∧
    (spells e 0x04 w = true → s.issuesNow x e (planLoop e w x.core) = true →
      Runs (.loop e x w) s fun t =>
        (t.core x.core).eng e =
          u.after s.cycle 1 (u.pc + 1, ⟨u.pc + 1, u.pc + bits w 16 14, bits w 0 16⟩ :: u.loops) x.mismatch) ∧
    (spells e 0x05 w = true → s.issuesNow x e (planLoopr e w x.core) = true →
      Runs (.loopr e x w) s fun t =>
        let n := min (bits (((s.landed x.core e).core x.core).areg e (bits w 44 4)) 0 16) (bits w 0 16 + 1)
        (t.core x.core).eng e =
          u.after s.cycle 1
            (if n = 0 then nextPc u.loops (u.pc + bits w 16 14)
             else (u.pc + 1, ⟨u.pc + 1, u.pc + bits w 16 14, n - 1⟩ :: u.loops)) x.mismatch) ∧
    (spells e 0x01 w = true → s.issuesNow x e (planEob e w x.core) = true →
      Runs (.eob e x w) s fun t =>
        ((t.core x.core).eng e).eob = true ∧ ((t.core x.core).eng e).eobAt = s.cycle ∧
          ((t.core x.core).eng e).pc = u.pc % 16384)

/-- Waits, wait amounts and signals (R90, R83, R92): WAIT takes its amount from the arrival counter it names, SETW sets the wait
amount from the next cycle on, SIG adds to the counter of the pair once its engine's writes are readable, SWT takes from it. -/
def Obligations.WaitsAndSignalsMoveTheirCounters : Prop :=
  ∀ (e : Engine) (x : At) (w : DWord) (s : State),
    let c := (s.landed x.core e).core x.core
    (spells e 0x02 w = true → s.issuesNow x e (planWait w) = true →
      Runs (.wait e x w) s fun t =>
        (t.core x.core).cpGet (SPC_CNT_value (bits w 50 6)) = c.cpGet (SPC_CNT_value (bits w 50 6)) - bits w 0 24) ∧
    (spells e 0x03 w = true → s.issuesNow x e (planSetw e w x.core) = true →
      Runs (.setw e x w) s fun t => (t.core x.core).awaits (s.cycle + 1) (.wamt e (bits w 0 24))) ∧
    (spells e 0x07 w = true → s.issuesNow x e (planSig e w x.core) = true →
      Runs (.sig e x w) s fun t =>
        (t.core x.core).awaits (max (s.cycle + 2) (c.writesDone e)) (.sig (4 * engineCode e + bits w 46 2) (bits w 0 6))) ∧
    (spells e 0x08 w = true → s.issuesNow x e (planSwt e w x.core) = true →
      Runs (.swt e x w) s fun t =>
        let k := 4 * bits w 46 2 + engineCode e
        lookupD 0 (t.core x.core).sig k = lookupD 0 c.sig k - bits w 0 6)

/-- Address registers and stage-buffer release (R86, R92): SETA replaces the low or the high part of the register and ADDA adds to
one field of it, both from the next cycle on; the effect names the field's lowest bit, its width and its new value. LDA loads 48 bits of a scratchpad row six cycles later, where the row is
marked with no upset. SBREL frees the rows of its run that hold data. -/
def Obligations.AddressOperationsWriteTheirRegister : Prop :=
  ∀ (e : Engine) (x : At) (w : DWord) (s : State),
    let c := (s.landed x.core e).core x.core
    let r := bits w 44 4
    (spells e 0x09 w = true → s.issuesNow x e (planSeta e w x.core) = true →
      Runs (.seta e x w) s fun t =>
        (t.core x.core).awaits (s.cycle + 1)
          (if bits w 32 1 = 0 then .areg e r 0 32 (bits w 0 32) else .areg e r 32 16 (bits w 0 16))) ∧
    (spells e 0x0A w = true → s.issuesNow x e (planAdda e w x.core) = true →
      Runs (.adda e x w) s fun t =>
        (t.core x.core).awaits (s.cycle + 1)
          (if bits w 42 2 = 0 then
             (let len := if kindOf (c.areg e r) = 2 then 15 else 17
              .areg e r 0 len (bits (c.areg e r) 0 len + bits w 0 32))
           else if bits w 42 2 = 1 then .areg e r 20 20 (bits (c.areg e r) 20 20 + bits w 0 32)
           else .areg e r 32 14 (bits (c.areg e r) 32 14 + bits w 0 32))) ∧
    (spells e 0x0B w = true → s.issuesNow x e (planLda e w x.core) = true →
      let row := c.live (effRow (c.areg e (bits w 40 4)) (bits w 0 17))
      lookup? c.marks row = none →
      Runs (.lda e x w) s fun t =>
        (t.core x.core).awaits (s.cycle + 6)
          (.areg e r 0 48 (field (padRow c.pad row).toNat (64 * bits w 37 3) 48))) ∧
    (spells e 0x0C w = true → s.issuesNow x e (planSbrel e w x.core) = true →
      Runs (.sbrel e x w) s fun t =>
        ∀ i ∈ sbRows (bits w 42 2) (bits w 33 9) (bits w 27 6 + 1), ∀ d, lookup? c.sb i = some ⟨some d⟩ →
          (t.core x.core).awaits (s.cycle + 1) (.sbFree i))

/-- Reads of the load engine (R79, R87, R93): every form marks its stage-buffer rows pending. LDL and LDS take their first rows from
the scratchpad, valid four cycles after they issue where none is marked with an upset and no two of them share a bank. LDR and LDB take the lowest free tag and, where the route to
their target is whole, put one read request into the network. -/
def Obligations.LoadEngineReadsFillTheStageBuffers : Prop :=
  ∀ (x : At) (w : DWord) (s : State),
    let u := s.landed x.core .load
    let c := u.core x.core
    let a := c.areg .load (bits w 44 4)
    let n := bits w 27 6 + 1
    let part := (u.ownerOfCore x.core).getD 0
    (spells .load 0x10 w = true → s.issuesNow x .load (planLocal false w x.core) = true →
      Runs (.ldl x w) s fun t =>
        (∀ i ∈ sbTarget w, lookup? (t.core x.core).sb i = some ⟨none⟩) ∧
        (c.marks = [] → c.apart ((c.liveRows (effRow a (bits w 0 17)) n).take 4) → ∀ j, j < n → j < 4 → (t.core x.core).awaits (s.cycle + 4) (.sb (512 * bits w 42 2 + (bits w 33 9 + j) % 512)
          (padRow c.pad (c.live ((effRow a (bits w 0 17) + j) % 2 ^ 17)))))) ∧
    (spells .load 0x11 w = true → s.issuesNow x .load (planLocal true w x.core) = true →
      Runs (.lds x w) s fun t =>
        (∀ i ∈ sbTarget w, lookup? (t.core x.core).sb i = some ⟨none⟩) ∧
        (c.marks = [] → (t.core x.core).awaits (s.cycle + 4) (.sb (512 * bits w 42 2 + bits w 33 9)
          (padRow c.pad (c.live (effRow a (bits w 0 17) % 2 ^ 17)))))) ∧
    (spells .load 0x12 w = true → s.issuesNow x .load (planLdr w x.core) = true →
      ∀ g q dies, c.freeTag = some g → u.translate x.core part (bits a 32 14) = some q →
      u.route (bits w 17 2) part x.core (q / 128) q none = .ok dies →
      Runs (.ldr x w) s fun t =>
        (∀ i ∈ sbTarget w, lookup? (t.core x.core).sb i = some ⟨none⟩) ∧
        lookup? (t.core x.core).tags g = some ⟨.load, c.le.pc, 512 * bits w 42 2 + bits w 33 9, n, n⟩ ∧
        ∃ k, t.net = u.net ++ [k] ∧ k.kind = .readReq ∧ k.core = q ∧ k.row = effRow a (bits w 0 17) ∧ k.rows = n - 1 ∧
          k.tag = g ∧ k.due = s.cycle + requestLatency (clusterHops x.core (q / 128) q) (crossings dies)) ∧
    (spells .load 0x13 w = true → s.issuesNow x .load (planLdb w x.core) = true →
      ∀ g dies, c.freeTag = some g → u.route 1 part x.core (72 + bits a 40 5) 0 none = .ok dies →
      Runs (.ldb x w) s fun t =>
        (∀ i ∈ sbTarget w, lookup? (t.core x.core).sb i = some ⟨none⟩) ∧
        lookup? (t.core x.core).tags g = some ⟨.load, c.le.pc, 512 * bits w 42 2 + bits w 33 9, n, n⟩ ∧
        ∃ k, t.net = u.net ++ [k] ∧ k.kind = .readReq ∧ k.node = 72 + bits a 40 5 ∧ k.page = bits a 20 20 ∧
          k.row = effBayRow a (bits w 0 17) ∧ k.rows = n - 1 ∧ k.tag = g)

/-- The matrix engine (R94 to R96, R113 to R119): MXL writes rows into the X store, MMA adds its products to an accumulator, MDR moves an
accumulator to the result queue or the scratchpad, MCLR clears one, MSCW loads the scale window and SETXP the X pointer. The forms that
read or write the scratchpad are stated for one group of rows, no two in one bank and none marked with an upset. -/
def Obligations.MatrixOperationsWriteTheirTarget : Prop :=
  ∀ (x : At) (w : DWord) (s : State),
    let c := (s.landed x.core .matrix).core x.core
    let a := c.areg .matrix (bits w 23 4)
    let occ := mmaOcc (bits w 33 3) (bits w 32 1) (decide (bits w 28 1 = 1))
    let n := bits w 17 6 + 1
    let filled := fun (t : State) (due : Nat) (rows : List Row) =>
      ∀ i d, rows[i]? = some d →
        (t.core x.core).awaits due (.x ((bits w 32 9 + 2 * i) % 512) (BitVec.ofNat 256 d.toNat)) ∧
        (t.core x.core).awaits due (.x ((bits w 32 9 + 2 * i + 1) % 512) (BitVec.ofNat 256 (d.toNat >>> 256)))
    (spells .matrix 0x40 w = true → s.issuesNow x .matrix (planMxl w x.core) = true →
      (bits w 41 3 = 0 → n ≤ 32 → c.marks = [] → c.apart (c.liveRows (effRow a (bits w 0 17)) n) →
        Runs (.mxl x w) s fun t => filled t (s.cycle + 5) ((c.liveRows (effRow a (bits w 0 17)) n).map (padRow c.pad))) ∧
      (bits w 41 3 = 1 →
        Runs (.mxl x w) s fun t => filled t (s.cycle + 4 + ceilDiv n 32) ((sbOff w n).map c.sbData)) ∧
      (bits w 41 3 = 2 →
        Runs (.mxl x w) s fun t =>
          filled t (s.cycle + 4 + ceilDiv n 32) (c.xq.take n) ∧ (t.core x.core).xq = c.xq.drop n)) ∧
    (spells .matrix 0x41 w = true → s.issuesNow x .matrix (planMma w x.core) = true →
      let rows := c.liveRows (effRow a (bits w 0 17)) (imageRows (bits w 33 3) (bits w 32 1))
      let image := if bits w 31 1 = 0 then rowsNum (rows.map (padRow c.pad))
        else rowsNum ((sbOff w (imageRows (bits w 33 3) (bits w 32 1))).map c.sbData)
      (bits w 31 1 = 0 → rows.length ≤ 32 ∧ c.marks = [] ∧ c.apart rows) →
      Runs (.mma x w) s fun t =>
        (t.core x.core).awaits (s.cycle + 9 + occ) (.acc (bits w 45 3) ((List.range 64).map (c.operand w image).sum))) ∧
    (spells .matrix 0x42 w = true → s.issuesNow x .matrix (planMdr w x.core) = true →
      let q := c.accOf (bits w 45 3)
      (bits w 44 1 = 0 →
        Runs (.mdr x w) s fun t =>
          (t.core x.core).awaits (s.cycle + 3) (.rqPush ⟨q.ref, q.list⟩) ∧ (t.core x.core).rqUsed = c.rqUsed + 1) ∧
      (bits w 44 1 = 1 →
        Runs (.mdr x w) s fun t => c.apart (c.liveRows (effRow a (bits w 0 17)) 4) → ∀ j, j < 4 →
          (t.core x.core).awaits (s.cycle + 4)
            (.pad (some .matrix) (c.live ((effRow a (bits w 0 17) + j) % 2 ^ 17)) (accRow q.list j)))) ∧
    (spells .matrix 0x43 w = true → s.issuesNow x .matrix (planMclr w x.core) = true →
      Runs (.mclr x w) s fun t =>
        (t.core x.core).accOf (bits w 45 3) = ⟨bits w 0 8, []⟩ ∧
          ∀ p ∈ (t.core x.core).pend, ∀ l, p.eff ≠ .acc (bits w 45 3) l) ∧
    (spells .matrix 0x44 w = true → s.issuesNow x .matrix (planMscw w x.core) = true →
      Runs (.mscw x w) s fun t => c.marks = [] → c.apart (c.liveRows (effRow a (bits w 0 17)) 32) →
        (t.core x.core).awaits (s.cycle + 6) (.scale ((c.liveRows (effRow a (bits w 0 17)) 32).map (padRow c.pad)))) ∧
    (spells .matrix 0x45 w = true → s.issuesNow x .matrix (planSetxp w x.core) = true →
      Runs (.setxp x w) s fun t => (t.core x.core).awaits (s.cycle + 1) (.xptr (bits w 0 9)))

/-- Lane operations of the vector engine (R97, R120): VADD, VSUB, VMUL, VFMA, VMAX and VMIN write the function of their lanes four cycles
after they issue; VCVT, VRED, VROT and VMOVI write theirs after their own latency. -/
def Obligations.VectorLaneOperationsWriteTheirLanes : Prop :=
  ∀ (x : At) (w : DWord) (s : State),
    let c := (s.landed x.core .vector).core x.core
    let z := is32 w
    let lane := fun r i => laneV z (c.v r) i
    let lands := fun (t : State) (lat : Nat) (v : VReg) => (t.core x.core).awaits (s.cycle + lat) (.vreg (vd w % 32) v)
    (spells .vector 0x84 w = true → s.issuesNow x .vector (planLanes 4 1 w x.core (binLanes w FV.add)) = true →
      Runs (.vadd x w) s fun t => lands t 4 (mapLanes z fun i => FV.add (lane (va w) i) (lane (vb w) i))) ∧
    (spells .vector 0x85 w = true → s.issuesNow x .vector (planLanes 4 1 w x.core (binLanes w (fun a b => FV.add a b.neg))) = true →
      Runs (.vsub x w) s fun t => lands t 4 (mapLanes z fun i => FV.add (lane (va w) i) (lane (vb w) i).neg)) ∧
    (spells .vector 0x86 w = true → s.issuesNow x .vector (planLanes 4 1 w x.core (binLanes w FV.mul)) = true →
      Runs (.vmul x w) s fun t => lands t 4 (mapLanes z fun i => FV.mul (lane (va w) i) (lane (vb w) i))) ∧
    (spells .vector 0x87 w = true → s.issuesNow x .vector (planLanes 4 1 w x.core (fmaLanes w)) = true →
      Runs (.vfma x w) s fun t => lands t 4 (mapLanes z fun i => FV.add (FV.mul (lane (va w) i) (lane (vb w) i)) (lane (vc w) i))) ∧
    (spells .vector 0x88 w = true → s.issuesNow x .vector (planLanes 4 1 w x.core fun _ => []) = true →
      Runs (.vmax x w) s fun t => lands t 4 (pickLanes z true (c.v (va w)) (c.v (vb w)))) ∧
    (spells .vector 0x89 w = true → s.issuesNow x .vector (planLanes 4 1 w x.core fun _ => []) = true →
      Runs (.vmin x w) s fun t => lands t 4 (pickLanes z false (c.v (va w)) (c.v (vb w)))) ∧
    (spells .vector 0x8A w = true → s.issuesNow x .vector (planLanes 4 (subOp w + 1) w x.core (cvtLanes w)) = true →
      Runs (.vcvt x w) s fun t =>
        if subOp w = 0 then lands t 4 (mapLanes false fun i => laneV true (c.v (va w + i / 32)) (i % 32))
        else lands t 4 (mapLanes true fun i => laneV false (c.v (va w)) i) ∧
          (t.core x.core).awaits (s.cycle + 4) (.vreg ((vd w + 1) % 32) (mapLanes true fun i => laneV false (c.v (va w)) (32 + i)))) ∧
    (spells .vector 0x8E w = true → s.issuesNow x .vector (planLanes 6 1 w x.core (redLanes w)) = true →
      Runs (.vred x w) s fun t =>
        lands t 6 (splat z (if subOp w = 0 then redSum z (c.v (va w)) else redMax z (c.v (va w))))) ∧
    (spells .vector 0x8F w = true → s.issuesNow x .vector (planLanes 6 1 w x.core fun _ => []) = true →
      Runs (.vrot x w) s fun t => lands t 6 (rotate z (c.v (va w)) (c.v (vb w)) (c.v (vc w)))) ∧
    (spells .vector 0x94 w = true → s.issuesNow x .vector (planLanes 1 1 w x.core fun _ => []) = true →
      Runs (.vmovi x w) s fun t => lands t 1 (splat z (bits w 0 32)))

/-- VEXP, VRCP and VRSQ (R120): eight cycles after it issues, each lane of the result holds a value within 1 ulp of its function; which
one is a free number of the lane (log entry 13), for every value of that number. -/
def Obligations.NearFunctionsWriteAllowedValues : Prop :=
  ∀ (x : At) (w : DWord) (s : State),
    let c := (s.landed x.core .vector).core x.core
    let lands := fun (t : State) (f : Nat → FV → Nat) =>
      ∃ k : Nat → Nat, (t.core x.core).awaits (s.cycle + 8)
        (.vreg (vd w) (mapLanes32 (is32 w) fun i => f (k i) (laneV (is32 w) (c.v (va w)) i)))
    (spells .vector 0x8B w = true → s.issuesNow x .vector (planNear vexp w x.core) = true →
      Runs (.vexp x w) s fun t => lands t vexp) ∧
    (spells .vector 0x8C w = true → s.issuesNow x .vector (planNear vrcp w x.core) = true →
      Runs (.vrcp x w) s fun t => lands t vrcp) ∧
    (spells .vector 0x8D w = true → s.issuesNow x .vector (planNear vrsq w x.core) = true →
      Runs (.vrsq x w) s fun t => lands t vrsq)

/-- Moves of the vector engine (R97, R82, R119): VLD and VLDS read two rows, VST writes two, each at its latency where the two share no bank, VRQ pops the result queue into two registers. -/
def Obligations.VectorMovesCarryTheirRows : Prop :=
  ∀ (x : At) (w : DWord) (s : State),
    let c := (s.landed x.core .vector).core x.core
    let rows := c.liveRows (effRow (c.areg .vector (bits w 23 4)) (bits w 0 17)) 2
    (spells .vector 0x80 w = true → s.issuesNow x .vector (planVld w x.core) = true →
      Runs (.vld x w) s fun t => c.marks = [] → c.apart rows →
        (t.core x.core).awaits (s.cycle + 4) (.vreg (vd w) (twoRows (rows.map (padRow c.pad))))) ∧
    (spells .vector 0x81 w = true → s.issuesNow x .vector (planVlds w x.core) = true →
      Runs (.vlds x w) s fun t =>
        (t.core x.core).awaits (s.cycle + 2) (.vreg (vd w) (twoRows ((sbRows (bits w 9 2) (bits w 0 9) 2).map c.sbData)))) ∧
    (spells .vector 0x82 w = true → s.issuesNow x .vector (planVst w x.core) = true →
      Runs (.vst x w) s fun t => c.apart rows → ∀ j row, rows[j]? = some row →
        (t.core x.core).awaits (s.cycle + 4)
          (.pad (some .vector) row (BitVec.ofNat 512 ((c.v (vd w)).toNat >>> (512 * j))))) ∧
    (spells .vector 0x83 w = true → s.issuesNow x .vector (planVrq w x.core) = true → ∀ q r, c.rq = q :: r →
      Runs (.vrq x w) s fun t =>
        (t.core x.core).rq = r ∧
        (t.core x.core).awaits (s.cycle + 4) (.vreg (vd w) (ofLanes true ((q.elems.map (rqToFp32 q.ref)).take 32))) ∧
        (t.core x.core).awaits (s.cycle + 4) (.vreg (vd w + 1) (ofLanes true ((q.elems.map (rqToFp32 q.ref)).drop 32))))

/-- Quantisation, scales, carry and the watcher part (R121 to R124, R130): six cycles after it issues VQNT has queued or stored its row,
appended its scales, counted its clamps and written the carry; VSCS stores the collector, which is empty then, VCRY moves the carry,
and VNW sends the watch unit the sum and the clamp tally, which it clears, where the route to the steward is whole. -/
def Obligations.QuantisationMovesRowScalesAndCarry : Prop :=
  ∀ (x : At) (w : DWord) (s : State),
    let u := s.landed x.core .vector
    let c := u.core x.core
    let row := c.live (effRow (c.areg .vector (bits w 23 4)) (bits w 0 17))
    (spells .vector 0x90 w = true → s.issuesNow x .vector (planVqnt w x.core) = true →
      Runs (.vqnt x w) s fun t =>
        (t.core x.core).awaits (s.cycle + 6)
          (if bits w 19 1 = 1 then .xqPush (c.vqnt w).row else .pad (some .vector) row (c.vqnt w).row) ∧
        (t.core x.core).awaits (s.cycle + 6) (.collect (c.vqnt w).scales) ∧
        (t.core x.core).awaits (s.cycle + 6) (.tally (c.vqnt w).clamps) ∧
        (bits w 20 3 < 2 → (t.core x.core).awaits (s.cycle + 6) (.carry (c.vqnt w).carry true))) ∧
    (spells .vector 0x91 w = true → s.issuesNow x .vector (planVscs w x.core) = true →
      Runs (.vscs x w) s fun t =>
        (t.core x.core).awaits (s.cycle + 4) .emptied ∧
        (t.core x.core).awaits (s.cycle + 4) (.pad (some .vector) row (BitVec.ofNat 512 (ofBytes c.collector)))) ∧
    (spells .vector 0x92 w = true → s.issuesNow x .vector (planVcry w x.core) = true →
      Runs (.vcry x w) s fun t =>
        if subOp w = 0 then (t.core x.core).awaits (s.cycle + 4) (.carry (BitVec.ofNat 32 (c.v (va w)).toNat) false)
        else (t.core x.core).awaits (s.cycle + 4) (.vreg (vd w) (BitVec.ofNat 1024 c.carry.toNat))) ∧
    (spells .vector 0x93 w = true → s.issuesNow x .vector (planVnw w x.core) = true →
      ∀ dies, u.route 3 ((u.ownerOfCore x.core).getD 0) x.core 98 0 none = .ok dies →
      Runs (.vnw x w) s fun t =>
        (t.core x.core).tally = 0 ∧
        ∃ q, t.watch = s.watch ++ [q] ∧ q.slot = bits w 0 4 ∧ q.sum = BitVec.ofNat 32 (c.v (va w)).toNat ∧
          q.tally = c.tally ∧ q.issued = s.cycle ∧
          q.due = s.cycle + routeLatency (clusterHops x.core 98 0) (crossings dies))

/-- The send engine (R98, R87, R468): SWR and SWB put one packet a row into the network where the route is whole, two cycles apart, and SWB
takes the lowest free tag until the rows are acknowledged; SEMT gives the word of its row to the emit gate, whose 65th record of a beat is
dropped and sets SAGE_EVT.gate. Rows from the scratchpad are read as they are sent: the first, where no row is marked with an upset, as it stands when
the instruction issues. -/
def Obligations.SendEngineSendsItsRows : Prop :=
  ∀ (x : At) (w : DWord) (s : State),
    let u := s.landed x.core .send
    let c := u.core x.core
    let a := c.areg .send (bits w 44 4)
    let n := bits w 34 6 + 1
    let part := (u.ownerOfCore x.core).getD 0
    (spells .send 0xC0 w = true → s.issuesNow x .send (planSwr w x.core) = true → bits w 31 1 = 1 → kindOf a = 1 →
      ∀ q dies, u.translate x.core part (bits a 32 14) = some q →
      u.route (bits w 32 2) part x.core (q / 128) q none = .ok dies →
      Runs (.swr x w) s fun t =>
        t.net.length = s.net.length + n ∧
        ∀ j, j < n → ∃ k ∈ t.net, k.kind = .write ∧ k.core = q ∧ k.row = (bits a 0 17 + j) % 2 ^ 17 ∧ k.counter = bits w 50 6 ∧
          k.data = c.sbData (512 * bits w 9 2 + (bits w 0 9 + j) % 512) ∧
          k.due = s.cycle + 2 * j + 1 + routeLatency (clusterHops x.core (q / 128) q) (crossings dies)) ∧
    (spells .send 0xC0 w = true → s.issuesNow x .send (planSwr w x.core) = true → bits w 31 1 = 0 → kindOf a = 1 →
      ∀ q dies, u.translate x.core part (bits a 32 14) = some q →
      u.route (bits w 32 2) part x.core (q / 128) q none = .ok dies →
      Runs (.swr x w) s fun t =>
        t.net.length = s.net.length + n ∧
        (c.marks = [] → ∃ k ∈ t.net, k.kind = .write ∧ k.core = q ∧ k.row = bits a 0 17 ∧ k.late = false ∧
          k.data = padRow c.pad (c.live (effRow (c.areg .send (bits w 40 4)) (bits w 0 17))) ∧
          k.due = s.cycle + 1 + routeLatency (clusterHops x.core (q / 128) q) (crossings dies))) ∧
    (spells .send 0xC1 w = true → s.issuesNow x .send (planSwb w x.core) = true → bits w 31 1 = 1 →
      ∀ g dies, c.freeTag = some g → u.route 1 part x.core (72 + bits a 40 5) 0 none = .ok dies →
      Runs (.swb x w) s fun t =>
        t.net.length = s.net.length + n ∧
        lookup? (t.core x.core).tags g = some ⟨.send, c.se.pc, 0, n, n⟩ ∧
        ∀ j, j < n → ∃ k ∈ t.net, k.kind = .bayWrite ∧ k.node = 72 + bits a 40 5 ∧ k.page = bits a 20 20 ∧
          k.row = effBayRow a j ∧ k.tag = g ∧ k.data = c.sbData (512 * bits w 9 2 + (bits w 0 9 + j) % 512)) ∧
    (spells .send 0xC2 w = true → s.issuesNow x .send (planSemt w x.core) = true →
      let row := c.live (effRow a (bits w 0 17))
      ∀ b r, lookup? c.marks row = none → (u.part part).beats = b :: r →
      Runs (.semt x w) s fun t =>
        if b.gate.length < 64 then
          (t.part part).beats =
            { b with gate := b.gate ++ [⟨x.core, BitVec.ofNat 64 ((padRow c.pad row).toNat >>> (64 * bits w 37 3))⟩] } :: r
        else t.bitOn SAGE_EVT 6 = true ∧ (t.part part).beats = b :: r)

/-- Traps (R99, R107), stated for LDL: an instruction that would trap does not issue. The engine stops for the beat, the trap is reported to Sage, and
where DIE_CORE_TRAP holds none it takes the cause, the engine and the word offset.
A word that spells another operation, or that breaks R78, is no instruction (R78, R91): the engine operation is refused. -/
def Obligations.TrapsAndWrongWordsStopAnOperation : Prop :=
  (∀ (x : At) (w : DWord) (s : State) (k : Nat),
     let u := s.landed x.core .load
     let x0 := (u.core x.core).le
     x.core < 9216 → x.upsets = [] → s.mayRun x.core .load = true → x0.ready ≤ s.cycle →
     spells .load 0x10 w = true → (planLocal false w x.core u s.cycle).cause (u.core x.core) = some k → k < 8 → x0.pc < 16384 →
     Runs (.ldl x w) s fun t =>
       (t.core x.core).le.trapped = true ∧ (t.core x.core).le.pc = x0.pc ∧ (t.core x.core).sb = (u.core x.core).sb ∧
       (∃ r, t.reports = u.reports ++ [r] ∧ r.cls = 7 ∧ r.core = some x.core ∧ r.detail = k) ∧
       (u.on (DIE_CORE_TRAP_valid x.core) = false →
         t.rd (DIE_CORE_TRAP x.core) = BitVec.ofNat 32 (2 ^ 31 + k * 2 ^ 28 + x0.pc))) ∧
  (∀ (e : Engine) (x : At) (w : DWord) (s : State),
     (spells e 0x00 w = false → exec (.nop e x w) s = .refused .undefinedWord) ∧
     (spells e 0x06 w = false → exec (.br e x w) s = .refused .undefinedWord) ∧
     (spells .load 0x10 w = false → exec (.ldl x w) s = .refused .undefinedWord) ∧
     (spells .matrix 0x41 w = false → exec (.mma x w) s = .refused .undefinedWord) ∧
     (spells .vector 0x90 w = false → exec (.vqnt x w) s = .refused .undefinedWord) ∧
     (spells .send 0xC2 w = false → exec (.semt x w) s = .refused .undefinedWord))

/-- The frame of the vector engine's register operations: whatever such an operation does, no core but its own changes, nor a Bay, the flash, the
tick counter or the queue, nor, where no access to the core's scratchpad is under way, the network or a partition; and where it issues at once with no effect due before it, the scratchpad, the stage
buffers, the queues, the accumulators, the X store, the vector registers (until its result lands) and the other engines of its core are as they were. -/
def Obligations.VectorArithmeticFrame : Prop :=
  ∀ (x : At) (w : DWord) (s t : State) (i : Instr),
    i ∈ [.vadd x w, .vsub x w, .vmul x w, .vfma x w, .vmax x w, .vmin x w, .vcvt x w, .vred x w, .vrot x w, .vmovi x w] →
    exec i s = .next t →
    (∀ p, p ≠ x.core → t.core p = s.core p) ∧ ((s.core x.core).runs = [] → (s.core x.core).serves = [] → t.net = s.net ∧ t.parts = s.parts) ∧
    (let c := (s.landed x.core .vector).core x.core
     s.issuesNow x .vector (planLanes 4 1 w x.core fun _ => []) = true → s.landed x.core .vector = s →
       (t.core x.core).pad = c.pad ∧ (t.core x.core).sb = c.sb ∧ (t.core x.core).rq = c.rq ∧ (t.core x.core).xq = c.xq ∧
       (t.core x.core).acc = c.acc ∧ (t.core x.core).xstore = c.xstore ∧ (t.core x.core).vreg = c.vreg ∧
       (t.core x.core).le = c.le ∧ (t.core x.core).me = c.me ∧ (t.core x.core).se = c.se) ∧
    t.bays = s.bays ∧ t.flash = s.flash ∧ t.tick = s.tick ∧ t.pending = s.pending

/-! ## Time and beats (02_beat) -/

/-- TICK and TICK_LOAD_APPLY (R41, R62): while the tick counter runs, a tick moves it by one, or to the number loaded where a load
waits, and begins at the next multiple of 256 cycles. Before it runs a tick cannot happen and changes nothing (log
entry 6). No tick touches flash, the JTAG port or the queue.
A load of the tick counter (R44, R62): while a partition is active or held it is refused and flagged; otherwise it waits for the
next tick. Nothing but BEAT_TICK_CTL changes. -/
def Obligations.TickCounterAdvancesAndLoads : Prop :=
  (∀ s : State,
     (s.running = true →
       Runs .tick s fun t =>
         t.tick = (if s.on BEAT_TICK_CTL_load then s.pair BEAT_TICK_SET_LO BEAT_TICK_SET_HI else (s.tick + 1) % 2 ^ 64) ∧
         t.cycle = (s.cycle / 256 + 1) * 256 ∧ t.flash = s.flash ∧ t.jtag = s.jtag ∧ t.pending = s.pending) ∧
     (s.running = true → s.on BEAT_TICK_CTL_load = true →
       Runs .tickLoadApply s fun t =>
         t.tick = s.pair BEAT_TICK_SET_LO BEAT_TICK_SET_HI ∧ t.cycle = (s.cycle / 256 + 1) * 256) ∧
     (s.running = false → exec .tick s = .next s ∧ exec .tickLoadApply s = .next s)) ∧
  (∀ s : State, s.opens BEAT_TICK_CTL = true →
     Runs .tickLoad s fun t =>
       s.onlyRegs t [BEAT_TICK_CTL] ∧
       ((∃ n, n < 64 ∧ (s.on (BEAT_PLAN_CTL_active n) = true ∨ s.on (BEAT_PLAN_CTL_held n) = true)) →
         t.get BEAT_TICK_CTL_refused = 1 ∧ t.get BEAT_TICK_CTL_load = s.get BEAT_TICK_CTL_load) ∧
       ((∀ n, n < 64 → s.on (BEAT_PLAN_CTL_active n) = false ∧ s.on (BEAT_PLAN_CTL_held n) = false) →
         t.get BEAT_TICK_CTL_load = 1 ∧ t.get BEAT_TICK_CTL_refused = s.get BEAT_TICK_CTL_refused))

/-- Writes of start, stop and hold (R51, R64): a start on a locked plan inside R45 waits for an origin tick that is still to come and is
refused as late otherwise; a stop is set where the partition is active and cancels a waiting start where it is not; hold is set and
cleared. Each changes only BEAT_PLAN_CTL of its partition. -/
def Obligations.PlanControlWritesSetTheirBits : Prop :=
  ∀ (n : Nat) (s : State), n < 64 → s.opens (BEAT_PLAN_CTL n) = true →
    (s.on (BEAT_PLAN_CTL_lock n) = true → s.planOk n = true → s.on (BEAT_PLAN_CTL_active n) = false →
      s.on (BEAT_PLAN_CTL_stop n) = false →
      Runs (.beatStart n) s fun t =>
        s.onlyRegs t [BEAT_PLAN_CTL n] ∧
        (if s.tick < s.origin n then t.get (BEAT_PLAN_CTL_start n) = 1 ∧ t.get (BEAT_PLAN_CTL_late n) = s.get (BEAT_PLAN_CTL_late n)
         else t.get (BEAT_PLAN_CTL_late n) = 1 ∧ t.get (BEAT_PLAN_CTL_start n) = s.get (BEAT_PLAN_CTL_start n))) ∧
    (Runs (.beatStop n) s fun t =>
      s.keeps t [BEAT_PLAN_CTL n] ∧
      (if s.on (BEAT_PLAN_CTL_active n) then t.get (BEAT_PLAN_CTL_stop n) = 1
       else t.get (BEAT_PLAN_CTL_start n) = 0 ∧ t.parts = s.parts)) ∧
    (Runs (.holdSet n) s fun t => s.onlyRegs t [BEAT_PLAN_CTL n] ∧ t.get (BEAT_PLAN_CTL_hold n) = 1) ∧
    (Runs (.holdClear n) s fun t => s.keeps t [BEAT_PLAN_CTL n] ∧ t.get (BEAT_PLAN_CTL_hold n) = 0)

/-- BEAT_DECISION (R48): at the last cycle of a working beat or slip tick, a complete beat ends at the next tick, an incomplete one slips
a tick while slip ticks are left, and otherwise overruns with cause slip, which is recorded, counted, raised and reported.
PLAN_OVERRUN (R47, R69): in the first cycle of the tick in which an engine's plan clock stands at the guard or past it before its EOB,
the beat overruns with cause plan: the lowest logical core that is late in that cycle, and of it the lowest engine, are recorded
and reported. -/
def Obligations.BeatsEndSlipOrOverrun : Prop :=
  (∀ (n : Nat) (s : State), n < 64 → (s.part n).interval = .working → (s.part n).overrun = false → (s.part n).ended = false →
     s.tickEnd = (s.part n).began + 256 * (s.planB n + s.get (BEAT_STAT_slip_used n)) →
     (s.beatComplete n = true →
       Runs (.beatDecision n) s fun t => (t.part n).ended = true ∧ t.ctl = s.ctl ∧ t.cores = s.cores ∧ t.cycle = s.tickEnd - 1) ∧
     (s.beatComplete n = false → s.get (BEAT_STAT_slip_used n) < s.planL n →
       Runs (.beatDecision n) s fun t =>
         t.get (BEAT_STAT_slip_used n) = s.get (BEAT_STAT_slip_used n) + 1 ∧ t.parts = s.parts ∧ t.cores = s.cores) ∧
     (s.beatComplete n = false → s.planL n ≤ s.get (BEAT_STAT_slip_used n) →
       Runs (.beatDecision n) s fun t =>
         (t.part n).overrun = true ∧ t.tick = s.tick ∧ t.bays = s.bays ∧ t.get (BEAT_STAT_slip_used n) = s.get (BEAT_STAT_slip_used n) ∧
         (∃ r, t.reports.getLast? = some r ∧ r.cls = 6 ∧ r.part = some n ∧ r.detail % 8 = 2) ∧
         (s.on (BEAT_OVR_valid n) = false → t.get (BEAT_OVR_cause n) = 2))) ∧
  (∀ (n p : Nat) (e : Engine) (since u p' : Nat) (e' : Engine) (s : State), n < 64 → p < 9216 →
     (s.part n).interval = .working → (s.part n).overrun = false → s.cycle ≤ u → u < s.tickEnd →
     (∀ x, s.cycle ≤ x → x < u → (s.settleAll n x).lateEngines n p e since x = []) →
     let v := (s.settleAll n u).at u
     (v.lateEngines n p e since u).head? = some (p', e') →
     Runs (.planOverrun n p ⟨e, since⟩) s fun t =>
       (t.part n).overrun = true ∧ (∃ r ∈ t.reports, r.cls = 6 ∧ r.part = some n ∧ r.core = some p' ∧ r.detail = 1 + 8 * engineCode e') ∧
       (v.on (BEAT_OVR_valid n) = false → t.get (BEAT_OVR_cause n) = 1 ∧ t.get (BEAT_OVR_engine n) = engineCode e') ∧
       t.bays = s.bays ∧ t.net = v.net ∧ t.tick = s.tick)

/-- Boundaries (R46, R50, R51, R64, R129, R474). A partition that no reset holds, with nothing reported or found faulty in its beats,
that neither folds nor takes new weights, is stopped at its boundary where stop is set; else held where hold is set; else it
begins the rest beats that its pattern owes; else the next working beat, each in this very cycle. So at the boundary
that ends a working beat or a rest beat, and at the end of a hold. A first beat is working beat 1, and active is set; a
restart's replay begins the same way.
Stats windows (R56, R57, R71): at the end of a window no boundary falls on, the eight counters move to their last-window registers and
start again from 0, but that a held partition counts the tick in the window that begins; and the window is counted. -/
def Obligations.IntervalsAndWindowsBeginAtTheirBoundaries : Prop :=
  (∀ (n : Nat) (s : State), n < 64 → s.on (PART_RST_busy n) = false →
     let q := s.part n
     let quiet := (∀ r ∈ s.reports, r.part = some n → s.tick ≤ r.stamp) ∧ q.symptoms = [] ∧ (∀ b ∈ q.beats, b.faults = []) ∧
       q.restart = none ∧ q.overrun = false ∧ q.drain = none ∧ q.wave = none ∧ s.get (PART_WGT_STAT_state n) ≠ 5
     let begins := fun (owed : Nat) (t : State) =>
       if s.on (BEAT_PLAN_CTL_stop n) then (t.part n).interval = .none ∧ t.get (BEAT_PLAN_CTL_active n) = 0
       else if s.on (BEAT_PLAN_CTL_hold n) then
         (t.part n).interval = .hold ∧ (t.part n).began = s.cycle ∧ t.get (BEAT_PLAN_CTL_held n) = 1
       else if 0 < owed then (t.part n).interval = .rest ∧ (t.part n).began = s.cycle ∧ t.get (BEAT_STAT_in_rest n) = 1
       else (t.part n).interval = .working ∧ (t.part n).began = s.cycle ∧ t.get (BEAT_STAT_in_beat n) = 1 ∧
         t.pair (BEAT_CUR_LO n) (BEAT_CUR_HI n) = (s.pair (BEAT_CUR_LO n) (BEAT_CUR_HI n) + 1) % 2 ^ 48
     (s.boundaryDue n = true → quiet → s.get (SAGE_P_STAT_state n) ≠ 3 →
       Runs (.beatBoundary n) s
         (begins (if q.interval = .working then q.owed + ((q.restIdx + 1) * q.rest / 16 - q.restIdx * q.rest / 16) else q.owed))) ∧
     (s.holdEndDue n = true → quiet → Runs (.holdEnd n) s (begins q.owed)) ∧
     (s.firstDue n = true → q.wave = none →
       Runs (.firstBeatBegin n) s fun t =>
         t.get (BEAT_PLAN_CTL_active n) = 1 ∧ t.get (BEAT_PLAN_CTL_start n) = 0 ∧ (t.part n).interval = .working ∧
         (t.part n).began = s.cycle ∧ t.pair (BEAT_CUR_LO n) (BEAT_CUR_HI n) = 1 ∧ t.tick = s.tick) ∧
     (s.replayDue n = true → q.drain = none → q.wave = none →
       Runs (.restartReplayBegin n) s fun t =>
         (t.part n).restart = none ∧ (t.part n).overrun = false ∧ begins 0 t)) ∧
  (∀ (n : Nat) (s : State), n < 64 → s.on (PART_RST_busy n) = false → s.windowDue n = true → s.boundaryDue n = false →
     s.holdEndDue n = false →
     Runs (.statsWindowBoundary n) s fun t =>
       (∀ i, i < 8 → t.get (BEAT_CNT_LAST_count n i) = s.get (BEAT_CNT_count n i) ∧
         t.get (BEAT_CNT_count n i) = if i = 6 ∧ s.on (BEAT_PLAN_CTL_held n) = true then 1 else 0) ∧
       t.get (BEAT_STATS_WIN_windows n) = (s.get (BEAT_STATS_WIN_windows n) + 1) % 2 ^ 32 ∧
       t.cores = s.cores ∧ t.bays = s.bays ∧ t.reqs = s.reqs)

/-- MILLISECOND_MARK (R42, R504): in the first cycle of a tick that is a multiple of 9,375, once, and with no reset of a partition waiting
to begin, the input and auxiliary power reported are latched, the marked flag of PWR_EVT is set, and a cap that was due is
in force.
The governor (R505 to R507): at a mark r_cap rises by 1 and by one for every 200 W above the cap, at most to 32, falls by one below the band
of the hysteresis, and is 32 after a brake. While the governor is off it is 0 except for the fall after a brake. -/
def Obligations.MarksLatchReportsAndGovern : Prop :=
  (∀ (m : MarkIn) (s : State), s.running = true → s.tick % 9375 = 0 → s.cycle % 256 = 0 → s.pwr.marked ≠ s.tick / 9375 + 1 →
     (∀ n, n < 64 → s.on (PART_RST_busy n) = false) →
     Runs (.millisecondMark m) s fun t =>
       t.pwr.marked = s.tick / 9375 + 1 ∧ t.rd PWR_IN_LAST = m.input ∧ t.rd PWR_AUX_LAST = m.aux ∧ t.bitOn PWR_EVT 0 = true ∧
       t.pwr.braked = [] ∧ t.fw.capDue = none ∧ t.cores = s.cores ∧ t.bays = s.bays ∧ t.tick = s.tick) ∧
  (∀ (m : MarkIn) (s : State), s.running = true → s.tick % 9375 = 0 → s.cycle % 256 = 0 → s.pwr.marked ≠ s.tick / 9375 + 1 →
     (∀ n, n < 64 → s.on (PART_RST_busy n) = false) → s.fw.capDue = none →
     Runs (.millisecondMark m) s fun t =>
       let r := s.get PWR_GOV_r_cap
       let pin := bits m.input 0 16
       let cap := s.get PWR_CAP_watts
       t.on PWR_STAT_brake = false ∧
       t.get PWR_GOV_r_cap =
         if s.on PWR_STAT_brake then 32
         else if s.on PWR_GOV_enable then
           (if cap < pin then min 32 (r + 1 + (pin - cap) / 200) else if pin < cap - s.get PWR_GOV_hyst then r - 1 else r)
         else if s.pwr.decay then r - 1 else 0)

/-! ## Landing, remote reads, Bays (05_scratchpad, 06_carrier_network, 07_bays) -/

/-- ROW_LAND (R152, R155, R156, R160): the row of the landing buffer that the bank order grants in the present cycle, a promoted one before
the engines' claims under way and another after them, leaves the buffer; a row
another core has written outside the weight rows is written, readable a cycle later, and its enabled counter rises two
cycles later; on a weight row it is dropped, counted and the landing event is reported. Stated
where no further row for the core is on its way. -/
def Obligations.GrantedRowLandsAndIsCounted : Prop :=
  ∀ (p i : Nat) (l : Landing) (s : State), p < 9216 → (∀ k ∈ s.net, isWriteTo p k = false) →
    ∀ v : State,
    (((s.settle p s.cycle).core p).nextLanding s.cycle true = some i ∧ v = s.settle p s.cycle ∨
      ((s.settle p s.cycle).core p).nextLanding s.cycle true = none ∧
        ((s.ahead p s.cycle 7).core p).nextLanding s.cycle false = some i ∧ v = s.ahead p s.cycle 7) →
    let c := v.core p
    c.landing[i]? = some l → l.writer = .core →
    Runs (.rowLand p) s fun t =>
      (t.core p).landing = eraseAt c.landing i ∧
      (if c.weightRow l.row then
         (∃ r, t.reports = v.reports ++ [r] ∧ r.cls = 8 ∧ r.core = some p ∧ r.detail = 2) ∧ (t.core p).pad = c.pad ∧
         (t.core p).cpGet SPC_DROPS_read_only = satAdd SPC_DROPS_read_only.len (c.cpGet SPC_DROPS_read_only) 1
       else
         (t.core p).awaits (s.cycle + 1) (.pad none l.row l.data) ∧
         (c.cntOn l.counter = true → (t.core p).awaits (s.cycle + 2) (.cnt l.counter l.row .core))) ∧
      t.bays = s.bays ∧ ∀ q, q ≠ p → t.core q = s.core q

/-- REMOTE_READ_SERVE and READ_REPLY_LAND (R79, R87, R177): a read request that its core accepts leaves the network, and one reply for
each of its rows is on its way where the route back is whole; where the core makes no other access and the bank of the first row is
free, that row is read in this cycle. A reply row lands in its stage-buffer row a cycle later and counts against its tag,
which the last row frees in that cycle.
BAY_WRITE_ACK and BAY_REFUSAL_NOTICE (R183, R204, R212): an acknowledgement that the core's routers let pass frees the send engine's
tag; a notice frees the tag and traps the engine that held it with cause 4. -/
def Obligations.RequestsAreAnsweredAndFreeTheirTags : Prop :=
  (∀ (k : Nat) (pk : Packet) (s : State), s.net[k]? = some pk → pk.due ≤ s.cycle → pk.core < 9216 → s.deliveryDrop pk = none →
     (pk.kind = .readReq → pk.node < 72 →
       ∀ hops, s.route pk.cls pk.part pk.core (nodeOf pk.source) pk.source none = .ok hops →
       Runs (.remoteReadServe k []) s fun t =>
         t.net.length = s.net.length + pk.rows ∧
         (∀ j, j ≤ pk.rows → ∃ q ∈ t.net, q.kind = .readReply ∧ q.core = pk.source ∧ q.tag = pk.tag ∧ q.rows = pk.rows - j) ∧
         (let c := (s.settle pk.core s.cycle).core pk.core
          let row := c.live (pk.row % 2 ^ 17)
          (s.core pk.core).runs = [] → (s.core pk.core).serves = [] → s.cycle < pk.due + 8 →
          c.banksFree s.cycle 9 [c.bank row] = true → c.marks = [] →
          ∃ q ∈ t.net, q.kind = .readReply ∧ q.core = pk.source ∧ q.tag = pk.tag ∧ q.rows = pk.rows ∧ q.late = false ∧
            q.data = padRow c.pad row)) ∧
     (pk.kind = .readReply → ∀ g, lookup? (s.core pk.core).tags pk.tag = some g →
       Runs (.readReplyLand k) s fun t =>
         t.net = eraseAt s.net k ∧
         (t.core pk.core).awaits (s.cycle + 1)
           (.sb (g.sb / 512 * 512 + (g.sb % 512 + (pk.total - 1 - pk.rows)) % 512) pk.data) ∧
         (if g.left ≤ 1 then (t.core pk.core).awaits (s.cycle + 1) (.tagFree pk.tag)
          else lookup? (t.core pk.core).tags pk.tag = some { g with left := g.left - 1 }))) ∧
  (∀ (k : Nat) (pk : Packet) (s : State), s.net[k]? = some pk → pk.due ≤ s.cycle → s.deliveryDrop pk = none →
     (pk.kind = .bayAck →
       Runs (.bayWriteAck k) s fun t =>
         t.net = eraseAt s.net k ∧ lookup? (t.core pk.core).tags pk.tag = none ∧ t.ctl = s.ctl ∧ t.bays = s.bays) ∧
     (pk.kind = .control →
       let v := (s.dropNet k).settle pk.core s.cycle
       ∀ g, lookup? (v.core pk.core).tags pk.tag = some g →
       Runs (.bayRefusalNotice k) s fun t =>
         t.net = v.net ∧ lookup? (t.core pk.core).tags pk.tag = none ∧
         ((t.core pk.core).eng g.engine).trapped = true ∧
         ∃ r, t.reports = v.reports ++ [r] ∧ r.cls = 7 ∧ r.core = some pk.core ∧ r.detail = 4))

/-- SCRATCHPAD_PATROL_READ and BAY_PATROL_READ (R151, R209): the patrol reads the next row of its bank, or of its Bay, and moves on; a
scratchpad row that it has corrected is written back first. Where the environment upsets nothing, the data of
every scratchpad and Bay stay as they are.
BAY_REFRESH_TICK (R54, R206): in the ticks that are its own modulo 18 a Bay refreshes, and in another tick the
event cannot happen and changes nothing (log entry 6). -/
def Obligations.BaysRefreshAndPatrolsMoveOn : Prop :=
  (∀ s : State,
     (∀ p bank u, p < 9216 → bank < 32 →
       let c := (s.ahead p s.cycle 10).core p
       c.cpOn SPC_PATROL_enable = true → c.claims.any (fun k => k.cycle == s.cycle && k.bank == bank) = false →
       Runs (.scratchpadPatrolRead p bank u) s fun t =>
         (if let some row := lookup? c.fixes bank then
            lookup? (t.core p).marks row = none ∧ lookup? (t.core p).fixes bank = none ∧ (t.core p).patrol = c.patrol
          else lookupD 0 (t.core p).patrol bank = lookupD 0 c.patrol bank + 1) ∧
         (u = none → (t.core p).pad = c.pad) ∧ t.bays = s.bays) ∧
     (∀ b u, b < 18 → s.bayUsable b = true → s.running = true → s.on (BAY_CTL_patrol b) = true → s.refreshing b = false →
       s.bayQueued b = false → s.copyDue b = false → (s.bay b).patrolTick ≠ s.cycle / 256 →
       Runs (.bayPatrolRead b u) s fun t =>
         (t.bay b).patrol = ((s.bay b).patrol + 1) % (45776 * 32768) ∧ (t.bay b).patrolled = 1 ∧
         (u = none → (t.bay b).mem = (s.bay b).mem) ∧ t.cores = s.cores)) ∧
  (∀ (b : Nat) (s : State), b < 18 →
     (s.running = true → s.tick % 18 = b →
       Runs (.bayRefreshTick b) s fun t =>
         (t.bay b).refreshed = some s.tick ∧ (t.bay b).mem = (s.bay b).mem ∧ t.ctl = s.ctl ∧ ∀ c, c ≠ b → t.bay c = s.bay c) ∧
     (s.tick % 18 ≠ b → exec (.bayRefreshTick b) s = .next s))

/-- Window controls and arrival counters of the control page (R158, R161, R164, R171): a write to a window control takes effect with the
next cycle: to a closed window's it sets every field; on an open window only
`open` changes. A counter, enabled or not, takes the written value while its core is frozen or in no active
partition; otherwise the write is ignored. -/
def Obligations.ControlPageWritesFollowTheirGates : Prop :=
  ∀ (p : Nat) (v : Word) (s : State), p < 9216 → s.powered = true →
    let c := (s.settle p s.cycle).core p
    (∀ w, w < 8 →
      (Runs (.spcWinCtlWrite p w v) s fun t =>
        (t.core p).awaits (s.cycle + 1) (.winCtl w v) ∧ (t.core p).cp = c.cp ∧ (t.core p).pad = c.pad ∧
        ∀ q, q ≠ p → t.core q = s.core q) ∧
      ∀ x : Core,
        let y := (x.apply (.winCtl w v)).1
        y.cpRd (SPC_WIN_CTL w) =
          (if (x.cpRd (SPC_WIN_CTL w)).getLsbD 31 then setBits (x.cpRd (SPC_WIN_CTL w)) 31 1 (bits v 31 1)
           else v &&& 0x87C0007F) ∧
        (∀ a, a ≠ SPC_WIN_CTL w → y.cpRd a = x.cpRd a) ∧ y.pad = x.pad) ∧
    (∀ k, k < 64 →
      (s.on (DIE_CORE_CTL_freeze p) = true ∨ ∀ n, s.ownerOfCore p = some n → s.on (BEAT_PLAN_CTL_active n) = false) →
      Runs (.spcCntWrite p k v) s fun t =>
        (t.core p).cpGet (SPC_CNT_value k) = bits v 0 24 ∧ (t.core p).pad = c.pad ∧ ∀ q, q ≠ p → t.core q = s.core q) ∧
    (∀ k n, k < 64 → s.on (DIE_CORE_CTL_freeze p) = false → s.ownerOfCore p = some n → s.on (BEAT_PLAN_CTL_active n) = true →
      Runs (.spcCntWrite p k v) s fun t => t.core p = c ∧ ∀ q, q ≠ p → t.core q = s.core q)

/-- Bays serve (R203 to R212): a read request that the Bay takes and does not refuse leaves the network and is counted, and each of its rows is
answered where the route back is whole; a write row it takes is stored, and reads back as written. Where the Bay refuses, it counts and
reports the refusal and stores nothing, and it drops the rows of that SWB still to come. -/
def Obligations.BayServesOrRefusesARow : Prop :=
  ∀ (k b : Nat) (pk : Packet) (u s : State),
    (∀ hops, s.bayTake k .readReq = some (u, b, pk) → (s.bay b).refuses pk false = none → (s.bay b).marks = [] →
      s.route pk.cls pk.part 0x3FFF (nodeOf pk.source) pk.source (some (bayDie b)) = .ok hops →
      Runs (.bayReadRequest k []) s fun t =>
        t.net.length = s.net.length + pk.rows ∧
        (∀ j, j ≤ pk.rows → ∃ q ∈ t.net, q.kind = .readReply ∧ q.core = pk.source ∧ q.rows = pk.rows - j ∧
          q.data = bayRow (s.bay b) pk.page ((pk.row + j) % 32768)) ∧
        (t.bay b).mem = (s.bay b).mem ∧
        t.get (BAY_ROWS_RD_count b) = satAdd (BAY_ROWS_RD_count b).len (s.get (BAY_ROWS_RD_count b)) (pk.rows + 1)) ∧
    (let v := s.freshDue k
     v.bayTake k .bayWrite = some (u, b, pk) →
      (lookup? (s.bay b).dead pk.opKey = none → (s.bay b).refuses pk true = none → (s.bay b).move = none →
        Runs (.bayWriteRow k) s fun t =>
          bayRow (t.bay b) pk.page (pk.row % 32768) = pk.data ∧
          (∀ page row, page ≠ pk.page ∨ row ≠ pk.row % 32768 → row < 32768 →
            bayRow (t.bay b) page row = bayRow (s.bay b) page row) ∧
          ∀ c, c ≠ b → (t.bay c).mem = (s.bay c).mem) ∧
      (∀ cause, lookup? (s.bay b).dead pk.opKey = none → (s.bay b).refuses pk true = some cause →
        Runs (.bayWriteRow k) s fun t =>
          (∃ r, t.reports.take (v.reports.length + 1) = v.reports ++ [r] ∧ r.cls = 8 ∧ r.unit = b ∧ r.detail = 8 + cause) ∧
          t.get (BAY_REFUSE_count b) = satAdd 32 (s.get (BAY_REFUSE_count b)) 1 ∧ ∀ c, (t.bay c).mem = (s.bay c).mem) ∧
      (lookup? (s.bay b).dead pk.opKey ≠ none →
        Runs (.bayWriteRow k) s fun t => t.reports = v.reports ∧ ∀ c, (t.bay c).mem = (s.bay c).mem))

/-- Map commands (R213 to R216, R228): ALLOC of a page of a named Bay for an enabled partition within its quota takes the page most recently returned, gives its
slot in the result register of the accessor, marks the page's owner and counts it against the quota. -/
def Obligations.AllocTakesTheMostRecentPage : Prop :=
  ∀ (acc page i : Nat) (r : List Nat) (s : State), acc < accessors → s.opens BAY_MAP_CMD = true →
    let a0 := s.rdAcc acc BAY_MAP_ARG0
    let b := bits a0 0 5
    let n := bits a0 8 6
    s.bayUsable b = true → s.on (PART_RES_CTL_enable n) = true → s.on (PART_RST_busy n) = false → bits (s.rdAcc acc BAY_MAP_ARG1) 0 20 = noSlot →
    (s.bay b).returned = page :: r → page < pagesPerBay → 0 < s.get BAY_MAP_SLOTS_free →
    s.get (PART_RES_USED_pages n) < s.get (PART_RES_QUOTA_pages n) → s.freeSlot.1 = some i → i < noSlot →
    Runs (.mapAlloc acc) s fun t =>
      t.rdAcc acc BAY_MAP_RES = BitVec.ofNat 32 i ∧ t.slotLive i = true ∧ slotPage (t.slot i) = pagesPerBay * b + page ∧
      slotNext (t.slot i) = noSlot ∧ slotEpoch (t.slot i) = slotEpoch (s.slot i) ∧ (t.bay b).returned = r ∧
      bits ((t.bay b).own page) 0 6 = n ∧ ((t.bay b).own page).getLsbD 15 = true ∧
      t.get BAY_MAP_SLOTS_free = s.get BAY_MAP_SLOTS_free - 1 ∧
      t.get (PART_RES_USED_pages n) = s.get (PART_RES_USED_pages n) + 1 ∧ (t.bay b).mem = (s.bay b).mem

/-- FREE, SETNEXT and SETFILL (R216, R228): a free slot is no longer valid, its epoch has risen and its page retires, writable by nobody; the link and the fill of a
live slot are replaced, and nothing else of it.
PAGE_RELEASE (R216, R218): a retiring page past its second release point becomes free and is credited to its partition's quota, or, if a
move retired it, ends the move; before that the event cannot happen and changes nothing (log entry 6). -/
def Obligations.SlotsChangeAndRetiredPagesReturn : Prop :=
  (∀ (acc : Nat) (s : State), acc < accessors → s.opens BAY_MAP_CMD = true →
     let i := bits (s.rdAcc acc BAY_MAP_ARG1) 0 20
     let v := bits (s.rdAcc acc BAY_MAP_ARG0) 0 20
     let f := bits (s.rdAcc acc BAY_MAP_ARG0) 0 12
     s.slotLive i = true →
     ((s.bay (slotPage (s.slot i) / pagesPerBay)).move = none →
       Runs (.mapFree acc) s fun t =>
         t.slotLive i = false ∧ slotEpoch (t.slot i) = (slotEpoch (s.slot i) + 1) % 64 ∧
         ((t.bay (slotPage (s.slot i) / pagesPerBay)).own (slotPage (s.slot i) % pagesPerBay)).getLsbD 12 = true ∧
         (∃ r, t.retiring = s.retiring ++ [r] ∧ r.bay = slotPage (s.slot i) / pagesPerBay ∧ r.page = slotPage (s.slot i) % pagesPerBay ∧
           r.left = 2) ∧
         bits (t.rdAcc acc BAY_MAP_RES) 28 4 = 0) ∧
     ((v = noSlot ∨ s.slotLive v = true) →
       Runs (.mapSetnext acc) s fun t =>
         slotNext (t.slot i) = v ∧ slotPage (t.slot i) = slotPage (s.slot i) ∧ slotFill (t.slot i) = slotFill (s.slot i) ∧
         (∀ j, j ≠ i → j < noSlot → t.slot j = s.slot j) ∧ t.bays = s.bays) ∧
     (f ≤ 2048 →
       Runs (.mapSetfill acc) s fun t =>
         slotFill (t.slot i) = f ∧ slotPage (t.slot i) = slotPage (s.slot i) ∧ slotNext (t.slot i) = slotNext (s.slot i) ∧
         (∀ j, j ≠ i → j < noSlot → t.slot j = s.slot j) ∧ t.bays = s.bays)) ∧
  (∀ (k : Nat) (r : Retiring) (s : State), s.retiring[k]? = some r →
     (0 < r.left → exec (.pageRelease k) s = .next s) ∧
     (r.left = 0 →
       Runs (.pageRelease k) s fun t =>
         t.retiring = eraseAt s.retiring k ∧ (t.bay r.bay).returned = r.page :: (s.bay r.bay).returned ∧
         (t.bay r.bay).own r.page = 0 ∧ (t.bay r.bay).mem = (s.bay r.bay).mem ∧
         (if r.mover then (t.bay r.bay).move = none ∧ t.get (BAY_MOVE_STAT_state r.bay) = 0
          else t.get (PART_RES_USED_pages r.part) = s.get (PART_RES_USED_pages r.part) - 1)))

/-- The page mover (R217 to R219): a go on an idle mover, a live slot that is not pinned, and a free destination begins the copy; each copied row reads in the
new page as in the old; the switch gives the slot the new page and retires the old; an abort returns the destination. -/
def Obligations.MoverCopiesSwitchesAndAborts : Prop :=
  ∀ (b : Nat) (s : State), b < 18 →
    (let i := s.get (BAY_MOVE_SLOT_slot b)
     let dst := s.get (BAY_MOVE_DST_page b)
     let d := if dst = 0xFFFF then (s.lowestFree b).getD pagesPerBay else dst
     s.opens (BAY_MOVE_CTL b) = true → s.get (BAY_MOVE_STAT_state b) = 0 → s.slotLive i = true → (s.slot i).testBit 1 = false →
     slotPage (s.slot i) / pagesPerBay = b → (s.bay b).isFree d = true → s.bayUsable b = true →
     Runs (.moveGo b) s fun t =>
       (t.bay b).move = some ⟨i, slotPage (s.slot i) % pagesPerBay, d⟩ ∧ t.get (BAY_MOVE_STAT_state b) = 1 ∧
       t.get (BAY_MOVE_STAT_cursor b) = 0 ∧ ((t.bay b).own d).getLsbD 11 = true ∧ (t.slot i).testBit 4 = true ∧ (t.bay b).mem = (s.bay b).mem) ∧
    (∀ m, (s.bay b).move = some m → s.copyDue b = true → s.running = true → s.refreshing b = false → s.bayQueued b = false →
     s.get (BAY_MOVE_STAT_cursor b) < 32768 →
     Runs (.moveCopyRow b) s fun t =>
       bayRow (t.bay b) m.new (s.get (BAY_MOVE_STAT_cursor b)) = bayRow (s.bay b) m.old (s.get (BAY_MOVE_STAT_cursor b)) ∧
       t.get (BAY_MOVE_STAT_cursor b) = s.get (BAY_MOVE_STAT_cursor b) + 1 ∧
       (s.get (BAY_MOVE_STAT_cursor b) = 32767 → t.get (BAY_MOVE_STAT_state b) = 2)) ∧
    (∀ m, (s.bay b).move = some m → s.get (BAY_MOVE_STAT_state b) = 2 → s.cycle % 256 = 0 →
     (s.on (BEAT_PLAN_CTL_active (s.moveOwner b)) = false ∨ s.on (BEAT_PLAN_CTL_held (s.moveOwner b)) = true ∨
       s.atBoundary (s.moveOwner b) = true) → m.new < pagesPerBay →
     Runs (.moveSwitch b) s fun t =>
       slotPage (t.slot m.slot) = pagesPerBay * b + m.new ∧ t.get (BAY_MOVE_STAT_state b) = 3 ∧ t.get (BAY_MOVE_STAT_result b) = 1 ∧
       (∃ r, t.retiring = s.retiring ++ [r] ∧ r.bay = b ∧ r.page = m.old ∧ r.left = 2) ∧ (t.bay b).mem = (s.bay b).mem) ∧
    (∀ m, s.opens (BAY_MOVE_CTL b) = true → (s.bay b).move = some m →
     (s.get (BAY_MOVE_STAT_state b) = 1 ∨ s.get (BAY_MOVE_STAT_state b) = 2) →
     Runs (.moveAbort b) s fun t =>
       (t.bay b).move = none ∧ t.get (BAY_MOVE_STAT_state b) = 0 ∧ t.get (BAY_MOVE_STAT_result b) = 2 ∧
       (t.bay b).returned = m.new :: (s.bay b).returned ∧ (t.bay b).mem = (s.bay b).mem)

/-- Hop retries (R181): a packet whose CRC fails at a crossing is sent again 8 or 16 cycles later, and every router it has still to enter
it enters that much later; the fourth failure on one crossing drops it, counts the drop and reports it.
Edge budgets (R190, R191, R199): a port whose credit is used up is held for its partition and shows the bit; with credit again it is released. -/
def Obligations.CrossingsRetryAndEdgePortsHold : Prop :=
  (∀ (k d : Nat) (cluster : Bool) (pk : Packet) (s : State), d < 72 → s.net[k]? = some pk →
     let key := 2 * d + b2n cluster + 1
     let n := if pk.failKey = key then pk.fails else 0
     let w := if cluster then 8 else 16
     (n < 3 →
       Runs (.hopCrcRetry k d cluster) s fun t =>
         t.net = replaceAt s.net k
           { pk with
             fails := n + 1, failKey := key, due := pk.due + w
             path := pk.path.map (fun x => if s.cycle ≤ x.2 then (x.1, x.2 + w) else x) } ∧
         s.keeps t [DIE_NET_RETRY d] ∧ t.reports = s.reports) ∧
     (3 ≤ n →
       Runs (.hopCrcRetry k d cluster) s fun t =>
         t.net = eraseAt s.net k ∧ t.get (DIE_NET_DROP_exhausted d) = satAdd 8 (s.get (DIE_NET_DROP_exhausted d)) 1 ∧
         ∃ r, t.reports = s.reports ++ [r] ∧ r.cls = 5 ∧ r.unit = d ∧ r.detail = 1)) ∧
  (∀ (link : Bool) (d n : Nat) (s : State), d < 72 → n < 64 →
     (s.canOver link d n = true →
       Runs (.edgeOverBudget link d n) s fun t =>
         t.portHeld (edgePort link d) n = true ∧ t.bitOn (overReg link d n) (n % 32) = true ∧ t.credits = s.credits ∧ t.net = s.net) ∧
     (s.portHeld (edgePort link d) n = true → 0 < s.credit (edgePort link d) n →
       Runs (.edgeBudgetRecover link d n) s fun t =>
         t.portHeld (edgePort link d) n = false ∧ t.credits = s.credits ∧ t.net = s.net ∧
         ∀ k, k ≠ 64 * edgePort link d + n → t.ovr.contains k = s.ovr.contains k))

/-- Route tables (R185, R187, R192, R193): a swap asked for is noted; a default swap that is due makes the standby bank the active one and mirrors it; a class 0 swap does the
same for one partition. Each clears its request, where no write of the same cycle has asked again (R10). -/
def Obligations.RouteTablesSwapTheirBanks : Prop :=
  ∀ (d : Nat) (s : State), d < 72 →
    (∀ v : Word, s.opens (DIE_RT_CTL d) = true →
      (v.getLsbD 2 = true →
        Runs (.routeSwapRequest d 0 v) s fun t => t.get (DIE_RT_CTL_def_swap d) = 1 ∧ s.onlyRegs t [DIE_RT_CTL d]) ∧
      (Runs (.routeSwapRequest d 1 v) s fun t =>
        t.rd (DIE_RT_C0SWAP_LO d) = s.rd (DIE_RT_C0SWAP_LO d) ||| v ∧ s.onlyRegs t [DIE_RT_C0SWAP_LO d]) ∧
      (Runs (.routeSwapRequest d 2 v) s fun t =>
        t.rd (DIE_RT_C0SWAP_HI d) = s.rd (DIE_RT_C0SWAP_HI d) ||| v ∧ s.onlyRegs t [DIE_RT_C0SWAP_HI d])) ∧
    (s.canSwapDefault d = true → s.asked (DIE_RT_CTL_def_swap d) = false →
      Runs (.defaultTableSwap d) s fun t =>
        t.get (DIE_RT_CTL_def_bank d) = 1 - s.get (DIE_RT_CTL_def_bank d) ∧ t.get (DIE_RT_CTL_def_swap d) = 0 ∧
        (∀ n, t.defAt d 0 n = s.defAt d (1 - s.get (DIE_RT_CTL_def_bank d)) n ∧
          t.defAt d 1 n = s.defAt d (1 - s.get (DIE_RT_CTL_def_bank d)) n) ∧
        (∀ e n bank, e ≠ d → e < 72 → bank < 2 → t.defAt e bank n = s.defAt e bank n)) ∧
    (∀ n, n < 64 → s.canSwapC0 d n = true →
      s.asked ⟨if n < 32 then DIE_RT_C0SWAP_LO d else DIE_RT_C0SWAP_HI d, n % 32, 1⟩ = false →
      Runs (.c0TableSwap d n) s fun t =>
        t.c0Bank d n = 1 - s.c0Bank d n ∧ t.c0SwapSet d n = false ∧
        (∀ node, node < 72 → t.c0At d (s.c0Bank d n) n node = s.c0At d (1 - s.c0Bank d n) n node) ∧
        t.rtDef = s.rtDef ∧ t.cores = s.cores)

/-! ## The loader (08_layout_stream R254 to R268) -/

/-- The loader's commands. A go while no job runs starts the job named (R254): CHECK reads the stream and
leaves cores, requests, partitions and Bay memory as they are (R255); LOAD takes the partition and keeps a job for it (R256); ACTIVATE locks the plan, stores the origin and makes the
shares live (R260); UNLOAD leaves the partition without layout and logical ids (R261). A go while a job runs is ignored and
recorded (R263). An abort ends a LOAD with code 3 (R258). LOAD_CHAN is written at once, or after the LOAD that runs (R268).
LOAD_JOB_END (R254, R256, R259, R264): once the weights a LOAD waits for are there, the job ends: the loader is idle, its code
is shown, its event is latched, where no write of this cycle asks for a job again (R10); a LOAD without error binds the layout and the logical ids. -/
def Obligations.LoaderRunsItsJobsToTheirEnd : Prop :=
  (∀ (n : Nat) (s : State), n < 64 → s.opens LOAD_CTL = true → s.fw.paused = false → (∀ e ∈ s.fw.jobs, 16 ≤ e.1) →
     (s.job = none →
       Runs (.loadCheck n) s (fun t =>
         (∃ j, t.job = some j ∧ j.op = 1 ∧ j.part = n) ∧ t.get LOAD_STAT_busy = 1 ∧ t.get LOAD_STAT_op = 1 ∧
         t.cores = s.cores ∧ t.parts = s.parts ∧ t.reqs = s.reqs ∧ t.net = s.net ∧ ∀ b, (t.bay b).mem = (s.bay b).mem) ∧
       Runs (.loadLoad n) s (fun t => ∃ j, t.job = some j ∧ j.op = 2 ∧ j.part = n)) ∧
     (s.job = none → s.on (PART_RST_busy n) = false → ∀ l, (s.part n).layout = some l →
       (s.on (BEAT_PLAN_CTL_lock n) = false → s.tick + 2 ≤ s.pair LOAD_ORIGIN_LO LOAD_ORIGIN_HI →
         Runs (.loadActivate n) s (fun t =>
           t.get (BEAT_PLAN_CTL_lock n) = 1 ∧
           t.pair (BEAT_PLAN_ORIGIN_LO n) (BEAT_PLAN_ORIGIN_HI n) = s.pair LOAD_ORIGIN_LO LOAD_ORIGIN_HI ∧
           t.get (PART_RES_CTL_share_live n) = 1 ∧ t.get (SAGE_P_STAT_state n) = 0 ∧ t.job = some (blankJob 3 n) ∧
           (s.planOk n = true → s.on (BEAT_PLAN_CTL_active n) = false → s.on (BEAT_PLAN_CTL_stop n) = false →
             t.get (BEAT_PLAN_CTL_start n) = 1) ∧
           t = { s with ctl := t.ctl, job := t.job, now := t.now })) ∧
       (s.on (BEAT_PLAN_CTL_active n) = false → s.on (BEAT_PLAN_CTL_held n) = false →
         Runs (.loadUnload n) s (fun t =>
           (t.part n).layout = none ∧ (t.part n).logical = [] ∧ (t.part n).stageOf = [] ∧
           t.get (PART_RES_CTL_share_live n) = 0 ∧ t.get (PART_NW_CTL_stages n) = 0 ∧ t.job = some (blankJob 4 n)))) ∧
     (∀ j, s.job = some j →
       (∀ i ∈ [Instr.loadCheck n, Instr.loadLoad n, Instr.loadActivate n, Instr.loadUnload n],
         Runs i s (fun t => t.get LOAD_STAT_ignored = 1 ∧ s.onlyRegs t [LOAD_CTL, LOAD_STAT])) ∧
       (j.op = 2 →
         Runs .loadAbort s (fun t =>
           (∃ k, t.job = some k ∧ k.op = 2 ∧ k.part = j.part ∧ k.code = 3) ∧ t.get LOAD_CTL_abort = 1 ∧
           (t.part j.part).wgt.any (fun w => w.op == 0) = false ∧ t.cores = s.cores ∧ t.bays = s.bays))) ∧
     (∀ k (v : Word), k < 16 →
       (s.job.any (fun j => j.op == 2) = false →
         Runs (.loadChanWrite k v) s (fun t => t.rd (LOAD_CHAN k) = v &&& 0x800000FF ∧ s.onlyRegs t [LOAD_CHAN k])) ∧
       (∀ j, s.job = some j → j.op = 2 →
         Runs (.loadChanWrite k v) s (fun t =>
           t = { s with job := t.job } ∧ t.job = some { j with chan := j.chan ++ [(k, v)] })))) ∧
  (∀ (j : Job) (s : State), s.fw.paused = false → s.job = some j → (s.part j.part).wgt.any (fun w => w.op == 0) = false →
     s.on (PART_RST_busy j.part) = false → s.asked LOAD_CTL_go = false →
     Runs .loadJobEnd s fun t =>
       t.job = none ∧ t.get LOAD_STAT_busy = 0 ∧ t.get LOAD_CTL_go = 0 ∧ t.bitOn EVC_DEV_LATCH 0 = true ∧
       (j.op ≠ 2 → t.get LOAD_STAT_code = j.code % 65536 ∧ t.cores = s.cores ∧ t.bays = s.bays ∧ t.parts = s.parts) ∧
       (j.op = 2 → j.code = 0 → ∀ l, j.layout = some l → s.lastCode j l = 0 →
         t.get LOAD_STAT_code = 0 ∧ (t.part j.part).layout = some l ∧ (t.part j.part).logical = s.binding j.part))

/-! ## Weights (12_weights R358 to R379) -/

/-- Weight commands while no job of the partition runs (R370 to R373, R378): STAGE of a resident copy stages it, under the epoch drawn where the
copy does not come from a host package (a free value, log entry 1); SWAP, RELOAD and REPAIR start; DISCARD drops the staged copy and the tags; an
abort ends a job with result 9; RESUME goes on after the group that failed.
Weight jobs complete (R365, R370, R373): once every placed core has the tag of the copy's epoch, its standby ranges filled, the copy is staged; a home-only STAGE
sets home_ready and a REPAIR clears damaged; RELOAD makes the staged copy the layout's, and the partition runs on; the wait for a group's messages ends in
its evaluation; before that the event cannot happen and changes nothing (log entry 6). -/
def Obligations.WeightCommandsStartAndEndTheirJobs : Prop :=
  (∀ (n : Nat) (s : State), n < 64 → s.opens (PART_WGT_CTL n) = true → s.fw.paused = false → s.asked (PART_WGT_CTL_go n) = false →
     ((s.part n).wgt = none → s.on (PART_WGT_CTL_go n) = false →
       (∀ w k, s.wman n = some w → s.get (PART_WGT_STAT_state n) = 0 → s.on (PART_WGT_STAT_home_ready n) = false →
         (s.part n).staged = none → (s.on (PART_WGT_CTL_home_only n) = true ∨ w.shadowed = true) →
         s.get (PART_WGT_CTL_source n) ≠ 1 →
         s.resident n w.model (Config.freeNat s.oracle % 2 ^ 32) w.rows w.shared = some k →
         Runs (.wgtStage n) s (fun t =>
           (t.part n).staged = some k ∧ (∃ x, (t.part n).wgt = some x ∧ x.op = 1 ∧ x.home = k ∧ x.ready = true) ∧
           t.get (PART_WGT_NEW_epoch n) = Config.freeNat s.oracle % 2 ^ 32 ∧
           (t.home k).complete = true ∧ (∀ p, (t.core p).pad = (s.core p).pad) ∧ ∀ b, (t.bay b).mem = (s.bay b).mem)) ∧
       ((s.part n).staged.isSome = true → s.get (PART_WGT_STAT_state n) = 3 →
         Runs (.wgtSwap n) s (fun t =>
           t.get (PART_WGT_STAT_state n) = 4 ∧ t.get (PART_WGT_CTL_go n) = 1 ∧ (t.part n).wave.isSome = true ∧
           (t.part n).staged = (s.part n).staged ∧ t = { s with ctl := t.ctl, parts := t.parts, now := t.now })) ∧
       ((s.part n).staged.isSome = true → s.on (PART_WGT_STAT_home_ready n) = true →
         Runs (.wgtReload n) s (fun t =>
           t.get (PART_WGT_STAT_state n) = 5 ∧ t.get (PART_WGT_CTL_go n) = 1 ∧
           s.onlyRegs t [PART_WGT_CTL n, PART_WGT_STAT n])) ∧
       (∀ k, (s.part n).layout.bind (·.home) = some k → s.get (PART_WGT_STAT_state n) = 0 → s.badGroups k = [] →
         Runs (.wgtRepair n) s (fun t =>
           (∃ x, (t.part n).wgt = some x ∧ x.op = 4 ∧ x.home = k ∧ x.ready = true) ∧ t.get (PART_WGT_STAT_state n) = 1 ∧
           t.cores = s.cores ∧ t.bays = s.bays)) ∧
       Runs (.wgtDiscard n) s (fun t =>
         (t.part n).staged = none ∧ (t.part n).wave = none ∧ t.get (PART_WGT_STAT_state n) = 0 ∧
         t.get (PART_WGT_STAT_result n) = 0 ∧ t.get (PART_WGT_CTL_go n) = 0 ∧
         ∀ p ∈ s.placedCores n, (t.core p).standby = none)) ∧
     (∀ w, (s.part n).wgt = some w → w.op ≠ 0 →
       Runs (.wgtAbort n) s (fun t =>
         (t.part n).wgt = none ∧ (t.part n).staged = none ∧ t.get (PART_WGT_STAT_state n) = 0 ∧
         t.get (PART_WGT_STAT_result n) = 9 ∧ t.get (PART_WGT_CTL_go n) = 0 ∧
         ∀ p ∈ s.placedCores n, (t.core p).standby = none)) ∧
     (∀ w p u v bad rebuilt, s.get (PART_WGT_STAT_state n) = 7 → (s.part n).wgt = some w → w.op ≠ 0 →
       s.package (s.listFrom noSlot (s.get (PART_WGT_SRC_slot n))) = some p →
       s.hostGroups (s.listFrom noSlot (s.get (PART_WGT_SRC_slot n))) p = .ok (u, rebuilt) →
       u.intake (s.listFrom noSlot (s.get (PART_WGT_SRC_slot n))) (s.homeSlots w.home) p = .ok (v, bad) →
       Runs (.wgtResume n) s (fun t =>
         (t.part n).wgt = some { w with ready := true } ∧ (t.home w.home).complete = true ∧
         t.get (PART_WGT_STAT_state n) = (if w.op = 1 ∧ w.homeOnly = false then 2 else 1) ∧ ∀ p, (t.core p).pad = (s.core p).pad))) ∧
  (∀ (n : Nat) (s : State), n < 64 → s.fw.paused = false →
     (∀ w, (s.part n).wgt = some w → w.op = 1 → w.ready = true →
       (w.homeOnly = false →
         let v := each (fun p (u : State) => u.settle p u.cycle) (s.placedCores n) s
         (∀ p ∈ v.placedCores n, (v.core p).standby = some (s.home w.home).epoch) →
         Runs (.wgtFillComplete n) s (fun t =>
           t.get (PART_WGT_STAT_state n) = 3 ∧ t.get (PART_WGT_STAT_result n) = 0 ∧ (t.part n).wgt = none ∧ t.cores = v.cores)) ∧
       (w.homeOnly = true →
         Runs (.wgtHomeReady n) s (fun t =>
           t.get (PART_WGT_STAT_home_ready n) = 1 ∧ t.get (PART_WGT_STAT_result n) = 0 ∧ (t.part n).wgt = none ∧
           (s.evtHeld n = false → t.bitOn (PART_EVT n) 3 = true) ∧ t.cores = s.cores ∧ t.bays = s.bays))) ∧
     (∀ w, (s.part n).wgt = some w → w.op = 4 → w.ready = true →
       Runs (.wgtHomeReady n) s (fun t =>
         (t.home w.home).damaged = false ∧ t.get (PART_WGT_STAT_result n) = 0 ∧ (t.part n).wgt = none ∧ t.cores = s.cores)) ∧
     (∀ k l, (s.part n).staged = some k → (s.part n).layout = some l → s.get (PART_WGT_STAT_state n) = 6 →
       Runs (.wgtReloadComplete n) s (fun t =>
         (∃ y, (t.part n).layout = some y ∧ y.home = some k) ∧ (t.part n).staged = none ∧
         t.get (PART_WGT_STAT_home_ready n) = 0 ∧ t.get (PART_WGT_STAT_state n) = 0 ∧ t.get (PART_WGT_STAT_result n) = 0 ∧
         t.get (BEAT_PLAN_CTL_hold n) = 0)) ∧
     (∀ w, (s.part n).wgt = some w → w.source = 2 → w.ready = false → w.op ≠ 0 →
       (s.tick < w.since + s.get (PART_WGT_WAIT_ticks n) → exec (.wgtGroupWaitExpire n) s = .next s) ∧
       (w.since + s.get (PART_WGT_WAIT_ticks n) ≤ s.tick → w.left = [] →
         (∀ k, k < 18 → unitsLost w (homePages (s.home w.home).rows) k = false) →
         Runs (.wgtGroupWaitExpire n) s (fun t =>
           (t.home w.home).complete = true ∧ (t.part n).wgt = some { w with ready := true } ∧
           (∀ p, (t.core p).pad = (s.core p).pad) ∧ ∀ b, (t.bay b).mem = (s.bay b).mem))))

/-- Weight messages (R365, R366): a WREQ for a copy held is served at once while fewer than four are; the end of a group's messages frees its place for
the oldest that waits; WDATA marks its 128 rows; WEND of a whole last group completes the copy; a refusal is a failed try;
WABORT ends what its module was being served. Each message that comes leaves its buffer. -/
def Obligations.WeightMessagesMoveTheTransfer : Prop :=
  ∀ (k : Nat) (s : State),
    let u := s.rxDone k
    (∀ r m h, s.wgtMsg k 1 = some (r, m) → headOk m = true → u.served (msgNum m 8 2) (msgNum m 0x0C 4) = some h →
      Runs (.wreqReceive k) s (fun t =>
        let v : Serving := ⟨r.frame.source, msgNum m 4 4, msgNum m 8 2, msgNum m 0x0C 4, msgNum m 0x0A 2, h⟩
        t.serving = (if s.serving.length < 4 then s.serving ++ [v] else s.serving) ∧
        t.wreqs = (if s.serving.length < 4 then s.wreqs else s.wreqs ++ [v]) ∧ t.cores = s.cores ∧
        ∀ b, (t.bay b).mem = (s.bay b).mem)) ∧
    (∀ v, s.serving[k]? = some v →
      let x := { s with serving := eraseAt s.serving k }.settleHome v.home
      (s.wreqs = [] →
        Runs (.wreqServeDone k) s (fun t => t.serving = eraseAt s.serving k ∧ t.wreqs = [] ∧ t.cores = s.cores)) ∧
      (∀ w rest h, s.wreqs = w :: rest → x.served w.model w.epoch = some h →
        Runs (.wreqServeDone k) s (fun t =>
          t.serving = eraseAt s.serving k ++ [{ w with home := h }] ∧ t.wreqs = rest ∧ t.cores = s.cores))) ∧
    (∀ r m n w, s.wgtMsg k 2 = some (r, m) → headOk m = true → u.jobOf m = some (n, w) →
      Runs (.wdataReceive k) s (fun t =>
        (∃ x, (t.part n).wgt = some x ∧ x.since = s.tick ∧
          x.got = (2048 * msgNum m 0x10 1 + msgNum m 0x14 4 / 128) :: w.got ∧ x.group = w.group ∧ x.ready = w.ready) ∧
        t.rx = eraseAt s.rx k ∧ t.cores = s.cores)) ∧
    (∀ r m n w, s.wgtMsg k 3 = some (r, m) → headOk m = true → u.jobOf m = some (n, w) → w.op ≠ 0 → w.left = [] →
      (∀ i, i < 18 → unitsLost w (homePages (u.home w.home).rows) i = false) →
      Runs (.wendReceive k) s (fun t =>
        (t.home w.home).complete = true ∧ (t.part n).wgt = some { w with ready := true } ∧ t.rx = eraseAt s.rx k ∧
        (∀ b, (t.bay b).mem = (s.bay b).mem) ∧ ∀ p, (t.core p).pad = (s.core p).pad)) ∧
    (∀ r m n w i, s.wgtMsg k 4 = some (r, m) → headOk m = true → u.jobOf m = some (n, w) →
      w.tries + 1 < u.get (PART_WGT_CTL_retries n) → n < 64 → u.nextPeer n (w.peer + 1) = some i →
      u.tooOld (u.get (PART_WGT_PEER_module n i)) 13 = false →
      Runs (.wrefuseReceive k) s (fun t =>
        (∃ x, (t.part n).wgt = some x ∧ x.peer = i ∧ x.tries = w.tries + 1 ∧ x.got = []) ∧ t.rx = eraseAt s.rx k)) ∧
    (∀ r m, s.wgtMsg k 5 = some (r, m) → headOk m = true → u.jobOf m = none →
      Runs (.wabortReceive k) s (fun t =>
        t.serving = s.serving.filter (fun v => !(v.module == r.frame.source && v.job == msgNum m 4 4)) ∧
        t.wreqs = s.wreqs.filter (fun v => !(v.module == r.frame.source && v.job == msgNum m 4 4)) ∧
        t.rx = eraseAt s.rx k ∧ t.cores = s.cores ∧ ∀ b, (t.bay b).mem = (s.bay b).mem))

/-! ## Requests, prefixes, adapters, shipments (10_request_engine, 11_kv_prefixes_shipping, 12_weights) -/

/-- Request commands (R297 to R299, R322): on an entry of an enabled slice whose partition is in no reset, SUBMIT queues a FREE entry whose fields
pass, CANCEL takes a live one to CANCELLED with reason 1, PAUSE and RESUME keep and give back the state, RELEASE frees a settled one, DEADLINE
stores the new deadline; the accessor's result register shows status 0. REQ_P_TEN.swap asks for the swap of the tenants (R325). -/
def Obligations.RequestCommandsAnswerAndAct : Prop :=
  ∀ (acc e n : Nat) (s : State), acc < accessors → e < 131072 → s.opens REQ_CMD = true → s.sliceOwner e = some n →
    s.on (PART_RST_busy n) = false →
    let ok := BitVec.ofNat 32 e
    let c := s.get (rqState e)
    ((s.part n).layout.isSome = true → c = 0 → s.submitField n e = none →
      Runs (.reqSubmit acc e) s (fun t =>
        t.get (rqState e) = 1 ∧ t.get (rqReason e) = 0 ∧ t.rdAcc acc REQ_CMD_RES = ok ∧
        t.get (rqPriority e) = min (bits (s.ten (s.get (rqTenant e)) 0) 20 4) (s.get (rqPriority e)) ∧
        t.get (rqKvHead e) = noSlot ∧ t.reqPair e 14 = s.tick % 2 ^ 64 ∧ t.cores = s.cores ∧ t.bays = s.bays)) ∧
    ((s.part n).layout.isSome = true → c = 0 → ∀ f, s.submitField n e = some f →
      Runs (.reqSubmit acc e) s (fun t =>
        t.rdAcc acc REQ_CMD_RES = BitVec.ofNat 32 (3 * 2 ^ 28 + f * 2 ^ 24 + e) ∧ t = { s with banked := t.banked })) ∧
    (isLive c = true →
      Runs (.reqCancel acc e) s (fun t => t.get (rqState e) = 10 ∧ t.get (rqReason e) = 1 ∧ t.rdAcc acc REQ_CMD_RES = ok) ∧
      Runs (.reqDeadline acc e) s (fun t =>
        t.deadline e = (s.rdAcc acc REQ_CMD_ARG_LO).toNat + 2 ^ 32 * (s.rdAcc acc REQ_CMD_ARG_HI).toNat ∧
        t.rdAcc acc REQ_CMD_RES = ok ∧ s.keeps t [REQ_TABLE e 2, REQ_TABLE e 3] ∧
        t = { s with ctl := t.ctl, banked := t.banked })) ∧
    ((c = 2 ∨ c = 3 ∨ c = 4) →
      Runs (.reqPause acc e) s (fun t =>
        t.get (rqState e) = 5 ∧ t.get (rqPausedFrom e) = c ∧ t.rdAcc acc REQ_CMD_RES = ok ∧
        (∀ r ∈ (t.part n).resvs, r.req ≠ e) ∧ s.keeps t [REQ_TABLE e 0, REQ_TABLE e 22])) ∧
    (c = 5 →
      Runs (.reqResume acc e) s (fun t =>
        t.get (rqState e) = s.get (rqPausedFrom e) % 16 ∧ t.rdAcc acc REQ_CMD_RES = ok ∧ s.keeps t [REQ_TABLE e 0] ∧
        t = { s with ctl := t.ctl, banked := t.banked })) ∧
    (isTerminal c = true → s.settled n e = true →
      Runs (.reqRelease acc e) s (fun t =>
        t.get (rqState e) = 0 ∧ t.rdAcc acc REQ_CMD_RES = ok ∧ s.keeps t [REQ_TABLE e 0] ∧
        t = { s with ctl := t.ctl, banked := t.banked })) ∧
    (s.opens (REQ_P_TEN n) = true →
      Runs (.tenantSwapRequest n) s (fun t => t.get (REQ_P_TEN_swap n) = 1 ∧ s.onlyRegs t [REQ_P_TEN n]))

/-- Prefix and adapter commands (R338, R341, R352, R353, R375, R382): CREATE takes the lowest free handle for a closed, pinned, read-only list, DESTROY
marks it, and a marked prefix nobody uses is freed with event 5; ADD takes the lowest free adapter handle, REPLACE gives the handle its next epoch,
REMOVE marks it or frees it at once; the accessor's result register shows status 0 with the handle. -/
def Obligations.PrefixAndAdapterCommandsAnswer : Prop :=
  ∀ (acc n : Nat) (s : State), acc < accessors → n < 64 → s.on (PART_RST_busy n) = false →
    (s.opens (PART_PFX_CMD n) = true →
      let a := fun i => (s.rdAcc acc (PART_PFX_ARG n i)).toNat
      (∀ y l h, (s.part n).layout = some y → a 1 % 2 ^ 24 ≠ 0 → a 1 % 64 = 0 → s.roPinned n (a 0 % 2 ^ 20) = some l →
        ceilDiv (a 1 % 2 ^ 24 * y.serve.kvRows) 32768 ≤ l.length → firstFrom (fun h => (s.pfx h).isNone) 0 1024 = some h →
        Runs (.pfxCreate acc n) s (fun t =>
          (∃ p, t.pfx h = some p ∧ p.owner = n ∧ p.destroying = false ∧ p.positions = a 1 % 2 ^ 24 ∧ p.head = a 0 % 2 ^ 20 ∧
            p.pages = l.length ∧ p.key = a 2 + 2 ^ 32 * a 3 ∧ p.queued = 0 ∧ p.refs = 0) ∧
          t.rdAcc acc (PART_PFX_RES n) = BitVec.ofNat 32 h ∧ (∀ g, g ≠ h → t.pfx g = s.pfx g) ∧
          t = { s with pfxs := t.pfxs, banked := t.banked })) ∧
      (∀ p, s.pfx (a 0 % 2 ^ 10) = some p → p.owner = n → p.destroying = false →
        Runs (.pfxDestroy acc n) s (fun t =>
          t.pfx (a 0 % 2 ^ 10) = some { p with destroying := true } ∧
          t.rdAcc acc (PART_PFX_RES n) = BitVec.ofNat 32 (a 0 % 2 ^ 10) ∧ t = { s with pfxs := t.pfxs, banked := t.banked }))) ∧
    (∀ h p, h < 1024 → s.pfx h = some p → p.owner = n → p.destroying = true → p.queued = 0 → p.refs = 0 → s.cycle % 256 = 0 →
      (s.on (BEAT_PLAN_CTL_active n) = false ∨ s.atBoundary n = true) →
      Runs (.prefixFree h) s (fun t =>
        t.pfx h = none ∧ (∀ g, g ≠ h → t.pfx g = s.pfx g) ∧ (s.evtHeld n = false → t.bitOn (PART_EVT n) 5 = true) ∧
        t.cores = s.cores)) ∧
    (s.opens (PART_ADP_CMD n) = true →
      let a := fun i => (s.rdAcc acc (PART_ADP_ARG n i)).toNat
      let rank := a 1 % 2 ^ 7
      let model := field (a 1) 16 16
      let h := a 3 % 2 ^ 12
      (∀ k, s.dirReady n = true → 1 ≤ rank → rank ≤ 64 → model = s.modelOf n → s.adpList n (a 0 % 2 ^ 20) (a 2 % 2 ^ 9) = true →
        firstFrom (fun k => (s.adp k).isNone) 0 4096 = some k →
        Runs (.adpAdd acc n) s (fun t =>
          t.adp k = some ⟨n, model, false, false, 0, some ⟨0, a 0 % 2 ^ 20, a 2 % 2 ^ 9, rank, 0, false⟩, none⟩ ∧
          t.rdAcc acc (PART_ADP_RES n) = BitVec.ofNat 32 k ∧ (∀ g, g ≠ k → t.adp g = s.adp g) ∧
          t = { s with adps := t.adps, banked := t.banked })) ∧
      (∀ x, s.dirReady n = true → s.adp h = some x → x.owner = n → x.removing = false →
        (if (x.cur + 1) % 256 % 2 = 0 then x.slot0 else x.slot1) = none → 1 ≤ rank → rank ≤ 64 → model = x.model →
        s.adpList n (a 0 % 2 ^ 20) (a 2 % 2 ^ 9) = true →
        Runs (.adpReplace acc n) s (fun t =>
          (∃ y, t.adp h = some y ∧ y.cur = (x.cur + 1) % 256 ∧ y.owner = n ∧
            y.slot y.cur = some ⟨y.cur, a 0 % 2 ^ 20, a 2 % 2 ^ 9, rank, 0, false⟩) ∧
          t.rdAcc acc (PART_ADP_RES n) = BitVec.ofNat 32 ((x.cur + 1) % 256 * 2 ^ 20 + h) ∧
          t = { s with adps := t.adps, banked := t.banked })) ∧
      (∀ x, s.adp h = some x → x.owner = n → x.removing = false → a 0 % 2 = 0 →
        Runs (.adpRemove acc n) s (fun t =>
          t.adp h = (if s.adpNames n h liveCodes = [] then none else some { x with removing := true, force := false }) ∧
          (∀ g, g ≠ h → t.adp g = s.adp g) ∧
          t.rdAcc acc (PART_ADP_RES n) = BitVec.ofNat 32 (x.cur * 2 ^ 20 + h))))

/-- Shipping (R342 to R350): the peer word of a FREE entry of the slice is stored; an OPEN that agrees takes a parity slot or waits for one, and the
oldest that waits takes a freed one; DATA is kept once; the end of a whole group, by END or by the wait, takes the
next group; an answer moves the sender on; an ABORT or the limit fails the sender's request with reason 8, and at the receiver an ABORT
makes the request fall back where the partition allows it. -/
def Obligations.ShipmentsFollowTheirMessages : Prop :=
  (∀ (acc n : Nat) (v : Word) (s : State), acc < accessors → n < 64 → s.opens (PART_SHIP_PEER n) = true →
    let e := bits (s.rdAcc acc (PART_SHIP_SEL n)) 0 17
    (s.inSlice n e = true → s.get (rqState e) = 0 → s.on (PART_RST_busy n) = false →
      Runs (.shipPeerWrite acc n v) s (fun t => t.peerWord e = v ∧ t = { s with peers := t.peers })) ∧
    (s.get (rqState e) ≠ 0 → exec (.shipPeerWrite acc n v) s = .next s)) ∧
  (∀ (k : Nat) (s : State),
    let u := s.rxDone k
    (∀ module m n, s.shipRx k 1 = some (module, m) → headOk m = true →
      let e := msgNum m 8 4 % 2 ^ 17
      u.sliceOwner e = some n → u.openTwice e module m = false → u.openOk n e module m = true →
      (∀ x, (lookup? u.shipIn e).map (·.parity) = some x ∨
          lookup? u.shipIn e = none ∧ u.freeParity n = some x ∧ (∀ w ∈ u.shipWait, w.part = n → w.req = e) →
        Runs (.shipOpenReceive k) s (fun t =>
          ∃ i, lookup? t.shipIn e = some i ∧ i.parity = x ∧ i.module = module ∧ i.group = 0 ∧ i.done = false)) ∧
      (lookup? u.shipIn e = none → (u.freeParity n = none ∨ ∃ w ∈ u.shipWait, w.part = n ∧ w.req ≠ e) →
        Runs (.shipOpenReceive k) s (fun t =>
          t.shipWait = s.shipWait.filter (fun w => w.req != e) ++ [⟨n, e, module, m⟩] ∧ t.shipIn = s.shipIn))) ∧
    (∀ module m n e i, s.shipRx k 2 = some (module, m) → u.inOf module m = some (n, e, i) → i.done = false →
      msgNum m 0x10 2 = i.group → i.got.contains (2048 * msgNum m 0x12 1 + msgNum m 0x14 4 / 128) = false →
      msgNum m 0x14 4 < shardRows i.pages i.group (msgNum m 0x12 1) → msgNum m 0x12 1 ≤ 17 →
      Runs (.shipDataReceive k) s (fun t =>
        lookup? t.shipIn e = some { i with
          got := (2048 * msgNum m 0x12 1 + msgNum m 0x14 4 / 128) :: i.got, first := some (i.first.getD s.tick) } ∧
        t.rx = eraseAt s.rx k)) ∧
    (∀ module m n e i, s.shipRx k 3 = some (module, m) → u.inOf module m = some (n, e, i) → i.done = false →
      msgNum m 0x10 2 = i.group → (∀ q, q < shardRows i.pages i.group 0 / 128 → i.lacking q = []) →
      Runs (.shipEndReceive k) s (fun t =>
        lookup? t.shipIn e = some { i with
          group := i.group + 1, got := [], first := none, nacks := 0, done := decide (i.pages ≤ 128 * (i.group + 1)) } ∧
        (i.pages ≤ 128 * (i.group + 1) → (t.req e).outcome = 1) ∧ t.bays = s.bays)) ∧
    (∀ module m n e o, s.shipRx k 4 = some (module, m) → u.outOf module m = some (n, e, o) →
      (msgNum m 0x13 1 = 0 → o.opened = true → u.tooOld module 12 = false →
        Runs (.shipAckReceive k) s (fun t => lookup? t.shipOut e = some { o with since := s.mark, opened := false })) ∧
      (msgNum m 0x13 1 = 1 →
        Runs (.shipAckReceive k) s (fun t =>
          lookup? t.shipOut e = none ∧ (isLive (u.get (rqState e)) = true → t.get (rqState e) = 8)))) ∧
    (∀ module m n e o, s.shipRx k 5 = some (module, m) → u.outOf module m = some (n, e, o) → o.opened = false →
      msgNum m 0x10 2 = o.group → u.tooOld module 12 = false →
      Runs (.shipNackReceive k) s (fun t =>
        lookup? t.shipOut e = some { o with since := s.mark } ∧ t.rx = eraseAt s.rx k ∧ ∀ b, (t.bay b).mem = (s.bay b).mem)) ∧
    (∀ module m, s.shipRx k 6 = some (module, m) →
      (∀ n e o, u.inOf module m = none → u.outOf module m = some (n, e, o) →
        Runs (.shipAbortReceive k) s (fun t =>
          lookup? t.shipOut e = none ∧
          (isLive (u.get (rqState e)) = true → t.get (rqState e) = 11 ∧ t.get (rqReason e) = 8))) ∧
      (∀ n e i, u.inOf module m = some (n, e, i) → u.get (rqState e) = 7 → (u.req e).outcome ≠ 2 →
        Runs (.shipAbortReceive k) s (fun t =>
          lookup? t.shipIn e = none ∧
          (if s.on (PART_SHIP_CTL_fallback n) && u.promptOk n e then (t.req e).outcome = 2
           else t.get (rqState e) = 11 ∧ t.get (rqReason e) = 8))))) ∧
  (∀ (n : Nat) (w : ShipWait) (x : Nat) (s : State), n < 64 → s.shipWait.find? (fun w => w.part == n) = some w →
    s.freeParity n = some x →
    Runs (.shipOpenDequeue n) s (fun t =>
      t.shipWait = s.shipWait.filter (fun y => y.req != w.req) ∧
      ∃ i, lookup? t.shipIn w.req = some i ∧ i.parity = x ∧ i.module = w.module)) ∧
  (∀ (e n : Nat) (i : ShipIn) (t0 : Nat) (s : State), e < 131072 → lookup? s.shipIn e = some i → s.sliceOwner e = some n →
    i.first = some t0 → i.done = false →
    (s.tick < t0 + s.get (PART_SHIP_WAIT_ticks n) → exec (.shipGroupWaitExpire e) s = .next s) ∧
    (t0 + s.get (PART_SHIP_WAIT_ticks n) ≤ s.tick → (∀ q, q < shardRows i.pages i.group 0 / 128 → i.lacking q = []) →
      Runs (.shipGroupWaitExpire e) s (fun t =>
        lookup? t.shipIn e = some { i with
          group := i.group + 1, got := [], first := none, nacks := 0, done := decide (i.pages ≤ 128 * (i.group + 1)) } ∧
        t.bays = s.bays))) ∧
  (∀ (e n : Nat) (o : ShipOut) (s : State), e < 131072 → s.sliceOwner e = some n → lookup? s.shipOut e = some o →
    (s.mark < o.since + s.get (PART_SHIP_CTL_limit n) → exec (.shipLimitExpire e) s = .next s) ∧
    (o.since + s.get (PART_SHIP_CTL_limit n) ≤ s.mark →
      Runs (.shipLimitExpire e) s (fun t =>
        lookup? t.shipOut e = none ∧
        (isLive (s.get (rqState e)) = true → t.get (rqState e) = 11 ∧ t.get (rqReason e) = 8))))

/-- Recipes and the watcher (R130, R139, R141): a request of a recipe is stored with its tick; a written mean is stored as R141 has it, after
the evaluation where one is due in this cycle; a part that arrives leaves the
way to the watch unit and counts its clamped values, and is kept where its evaluation is still to come and its slot is occupied. -/
def Obligations.RecipesMeansAndPartsAreTaken : Prop :=
  (∀ (n st sel : Nat) (s : State), n < 64 → st < 128 → sel < 8 → s.opens (PART_STG_REC n st) = true →
    Runs (.recipeRequest n st sel) s (fun t =>
      t.get (PART_STG_REC_sel n st) = sel ∧ t.get (PART_STG_REC_req n st) = 1 ∧ lookupD 0 (t.part n).recReq st = s.tick ∧
      s.keeps t [PART_STG_REC n st] ∧ t = { s with ctl := t.ctl, parts := t.parts })) ∧
  (∀ (n st : Nat) (v : Word) (s : State), n < 64 → st < 128 → s.opens (PART_STG_MEAN n st) = true → s.on (PART_RST_busy n) = false →
    Runs (.stgMeanWrite n st v) s (fun t =>
      if s.boundaryDue n then
        (t.part n).means = (s.part n).means ++
          [(st, if v.getLsbD 31 = true ∨ bits v 23 8 = 255 ∨ bits v 23 8 = 0 then 0 else v)] ∧ t.ctl = s.ctl
      else t.rd (PART_STG_MEAN n st) = (if v.getLsbD 31 = true ∨ bits v 23 8 = 255 ∨ bits v 23 8 = 0 then 0 else v) ∧
      s.onlyRegs t [PART_STG_MEAN n st])) ∧
  (∀ (k : Nat) (q : Part130) (s : State), s.watch[k]? = some q → q.due ≤ s.cycle → q.part < 64 → q.stage < 128 →
    let keep := match (s.part q.part).stepOf q.beat with
      | some step => s.on (PART_NW_CTL_enable q.part) && decide ((s.part q.part).evaluated < q.beat) &&
          (s.occupied q.part step q.stage).testBit q.slot
      | none => false
    Runs (.nwPartArrive k) s (fun t =>
      t.watch = eraseAt s.watch k ∧
      t.get (PART_STG_CLAMP_count q.part q.stage) =
        satAdd (PART_STG_CLAMP_count q.part q.stage).len (s.get (PART_STG_CLAMP_count q.part q.stage)) q.tally ∧
      t.kept = (if keep then s.kept ++ [q] else s.kept) ∧ s.keeps t [PART_STG_CLAMP q.part q.stage]))

/-! ## Partitions, virtual functions (13_partitions R384 to R407) -/

/-- Partition records (R385, R388, R402): enable is set where clusters and slice are free and cleared where the partition is empty, else the write is refused
with its cause; shares are stored while every kind's sum over the records is at most 256, else refused with cause 3; a write through a VF is refused with cause 5. -/
def Obligations.PartitionRecordWritesAreGatedByCause : Prop :=
  ∀ (acc n : Nat) (v : Word) (s : State), acc < accessors → n < 64 → s.opens (PART_RES_CTL n) = true →
    (isVf acc = true → ∀ i ∈ [Instr.partEnableWrite acc n v, Instr.partShareWrite acc n v],
      Runs i s (fun t =>
        t.get (PART_RES_CTL_refused n) = 1 ∧ t.get (PART_RES_CTL_cause n) = 5 ∧ s.onlyRegs t [PART_RES_CTL n])) ∧
    (isVf acc = false → v.getLsbD 31 = true → s.on (PART_RES_CTL_enable n) = false →
      (s.enableCause n = 0 →
        Runs (.partEnableWrite acc n v) s (fun t => t.get (PART_RES_CTL_enable n) = 1 ∧ s.onlyRegs t [PART_RES_CTL n])) ∧
      (s.enableCause n ≠ 0 →
        Runs (.partEnableWrite acc n v) s (fun t =>
          t.get (PART_RES_CTL_enable n) = 0 ∧ t.get (PART_RES_CTL_refused n) = 1 ∧
          t.get (PART_RES_CTL_cause n) = s.enableCause n ∧ s.onlyRegs t [PART_RES_CTL n]))) ∧
    (isVf acc = false → v.getLsbD 31 = false → s.on (PART_RES_CTL_enable n) = true →
      Runs (.partEnableWrite acc n v) s (fun t =>
        (if s.resState n = 0 then t.get (PART_RES_CTL_enable n) = 0
         else t.get (PART_RES_CTL_enable n) = 1 ∧ t.get (PART_RES_CTL_refused n) = 1 ∧ t.get (PART_RES_CTL_cause n) = 4) ∧
        s.onlyRegs t [PART_RES_CTL n])) ∧
    (isVf acc = false →
      ((∀ lo ∈ [0, 8, 16], s.shareSum n v.toNat lo ≤ 256) →
        Runs (.partShareWrite acc n v) s (fun t =>
          t.rd (PART_RES_SHARE n) = v &&& 0xFFFFFF ∧ s.onlyRegs t [PART_RES_SHARE n])) ∧
      (∀ lo ∈ [0, 8, 16], 256 < s.shareSum n v.toNat lo →
        Runs (.partShareWrite acc n v) s (fun t =>
          t.rd (PART_RES_SHARE n) = s.rd (PART_RES_SHARE n) ∧ t.get (PART_RES_CTL_refused n) = 1 ∧
          t.get (PART_RES_CTL_cause n) = 3 ∧ s.onlyRegs t [PART_RES_CTL n])))

/-- Resets of a partition (R392 to R397): a request is noted for the next tick; at its tick the partition stops, its cores freeze and nothing of its
beats is left; drained, its cores are reset, a hard reset scrubbing the scratchpads and unloading the layout; the release clears busy, where no write of its cycle asks again (R10). A VF
asks for no hard reset. PART_EVT_SET raises bit 7 of the partition's event register. -/
def Obligations.PartitionResetsRunTheirSteps : Prop :=
  ∀ (n : Nat) (s : State), n < 64 →
    (s.opens (PART_RST n) = true → s.on (PART_RST_busy n) = false →
      Runs (.partRstSoft n) s (fun t =>
        t.get (PART_RST_busy n) = 1 ∧ t.get (PART_RST_soft n) = 1 ∧ t.get (PART_RST_TICK_tick n) = (s.tick + 1) % 2 ^ 32 ∧
        s.onlyRegs t [PART_RST n, PART_RST_TICK n]) ∧
      ∀ acc, acc < accessors →
        (isVf acc = false →
          Runs (.partRstHard acc n) s (fun t =>
            t.get (PART_RST_busy n) = 1 ∧ t.get (PART_RST_hard n) = 1 ∧ t.get (PART_RST_TICK_tick n) = (s.tick + 1) % 2 ^ 32 ∧
            s.onlyRegs t [PART_RST n, PART_RST_TICK n])) ∧
        (isVf acc = true → exec (.partRstHard acc n) s = .next s)) ∧
    (s.on (PART_RST_busy n) = true → s.cycle % 256 = 0 →
      (s.get (PART_RST_step n) = 0 → s.atOrAfter (s.get (PART_RST_TICK_tick n)) = true →
        Runs (.partResetBegin n) s (fun t =>
          t.get (PART_RST_step n) = 2 ∧ t.rd (BEAT_PLAN_CTL n) = 0 ∧ t.rd (BEAT_STAT n) = 0 ∧
          (t.part n).interval = .none ∧ (t.part n).beats = [] ∧ (∀ q ∈ t.watch, q.part ≠ n) ∧
          (s.job = none → ∀ p ∈ s.partCores n, t.get (DIE_CORE_CTL_freeze p) = 1))) ∧
      (s.get (PART_RST_step n) = 2 → s.atOrAfter (s.get (PART_RST_TICK_tick n) + 4) = true →
        (s.settleCores n).drained n = true →
        (s.on (PART_RST_hard n) = false →
          Runs (.partResetDrainEnd n) s (fun t =>
            t.get (PART_RST_step n) = 3 ∧ (t.part n).rstDue = s.cycle + 1 ∧
            ∀ p ∈ s.partCores n, t.get (DIE_CORE_CTL_freeze p) = 0)) ∧
        (s.on (PART_RST_hard n) = true →
          Runs (.partResetDrainEnd n) s (fun t =>
            t.get (PART_RST_step n) = 4 ∧ (t.part n).layout = none ∧ (t.part n).logical = [] ∧
            ∀ p ∈ s.partCores n, (t.core p).pad = [] ∧ (t.core p).imem = []))) ∧
      (3 ≤ s.get (PART_RST_step n) → (s.part n).rstDue ≤ s.cycle →
        ¬(s.get (PART_RST_step n) = 3 ∧ s.on (PART_RST_hard n) = true) →
        s.asked (PART_RST_hard n) = false → s.asked (PART_RST_soft n) = false →
        Runs (.partResetRelease n) s (fun t =>
          t.get (PART_RST_busy n) = 0 ∧ t.get (PART_RST_step n) = 0 ∧ t.get (PART_RST_hard n) = 0 ∧ t.get (PART_RST_soft n) = 0 ∧
          (t.part n).rstFor = [] ∧ s.keeps t [PART_RST n] ∧ t.cores = s.cores ∧ t.bays = s.bays))) ∧
    (s.opens (PART_EVT_SET n) = true → s.evtHeld n = false →
      Runs (.partEvtSet n) s (fun t => t.bitOn (PART_EVT n) 7 = true ∧ s.onlyRegs t [PART_EVT n]))

/-- Virtual functions (R398 to R401): an entry of the VF table is written while its FLR bit is clear; an FLR puts the function's own state at reset, sets the bit and
asks for the hard reset of the partition mapped on this module; its completion clears the bit; after 90 ms without it the entry is no longer valid. -/
def Obligations.FunctionResetsRunToTheirEnd : Prop :=
  ∀ (v : Nat) (s : State), 1 ≤ v → v ≤ 256 →
    let i := v - 1
    let a := PART_VF_FLR (i / 32)
    (∀ acc (x : Word), acc < accessors → s.opens (PART_VF_MAP i) = true → isVf acc = false → s.bitOn a (i % 32) = false →
      Runs (.vfMapWrite acc i x) s (fun t => t.rd (PART_VF_MAP i) = x &&& 0xFFFF003F ∧ s.onlyRegs t [PART_VF_MAP i])) ∧
    (∀ acc (x : Word), s.bitOn a (i % 32) = true → s.opens (PART_VF_MAP i) = true → exec (.vfMapWrite acc i x) s = .next s) ∧
    (s.isBridge = true → s.bitOn a (i % 32) = false →
      Runs (.vfFlr v) s (fun t =>
        t.pciFn v = PciFn.reset ∧ t.bitOn a (i % 32) = true ∧
        (s.on (PART_VF_MAP_valid i) = false → i ∈ t.hb.flrDone) ∧
        (s.on (PART_VF_MAP_valid i) = true → s.get (PART_VF_MAP_module i) = s.ownAddr →
          t.on (PART_RST_busy (s.get (PART_VF_MAP_partition i))) = true) ∧
        t.cores = s.cores ∧ t.bays = s.bays)) ∧
    (s.hb.flrDone.contains i = true →
      Runs (.vfFlrComplete v) s (fun t =>
        t.bitOn a (i % 32) = false ∧ t.hb.flrDone.contains i = false ∧ s.keeps t [a] ∧ t.parts = s.parts)) ∧
    (s.bitOn a (i % 32) = true → s.hb.flrDone.contains i = false →
      Runs (.vfFlrTimeout v) s (fun t =>
        t.bitOn a (i % 32) = false ∧ t.get (PART_VF_MAP_valid i) = 0 ∧ t.bitOn EVC_DEV_LATCH 1 = true ∧
        s.onlyRegs t [a, PART_VF_MAP i, EVC_DEV_LATCH]))

/-! ## The event controller (14_event_controller R408 to R426) -/

/-- The event controller (R411, R414 to R417): it sees a source's level; a claim by a running core returns the best offer and puts it on the core's stack; an end of interrupt
is a pop asked for, and the pop takes the top entry, with the mismatch bit where another source was named; a stuck bit that was not set in
this cycle (R10) is cleared with its count.
The external event pins (R419, R426): a change of the input starts its filter; a level held for the filter's time becomes the filtered one and, where it is active, sets
the pin's bit; a written polarity restarts the filters of the pins it changes and sets no status bit. -/
def Obligations.EventsAreClaimedAndPinsFiltered : Prop :=
  (∀ s : State,
     (∀ n, n < 1024 → srcExists n = true →
       Runs (.evcLevelChange n) s (fun t =>
         t.evc.seen.testBit n = s.srcLevel n ∧ (∀ m, m ≠ n → t.evc.seen.testBit m = s.evc.seen.testBit m) ∧
         t.evc.stks = s.evc.stks ∧ s.keeps t [EVC_HOST_DROP])) ∧
     (∀ c, c < 8 → s.evc.stopped.contains c = false →
       Runs (.evcClaim c) s (fun t =>
         t.outbox = s.outbox ++ [.readData c (EVC_CC_CLAIM c) (s.claimWord c)] ∧
         t.stack c = (match s.bestOffer c with
           | some (n, prio) => (⟨n, prio, false⟩ : StackEnt) :: s.stack c
           | none => s.stack c) ∧
         (∀ d, d ≠ c → t.stack d = s.stack d) ∧ t.ctl = s.ctl) ∧
       (∀ src, src < 1024 →
         Runs (.evcEoi c src) s (fun t =>
           t.evc.eois = s.evc.eois ++ [(c, src)] ∧ t = { s with evc := t.evc } ∧ t.evc.stks = s.evc.stks)) ∧
       (∀ src top below, s.evc.eois.find? (fun e => e.1 == c) = some (c, src) → s.stack c = top :: below →
         Runs (.evcEoiPop c) s (fun t =>
           t.stack c = below ∧ t.evc.eois = s.evc.eois.erase (c, src) ∧
           (top.source ≠ src → t.get (EVC_CC_STAT_eoi_mismatch c) = 1))) ∧
       (∀ src, s.evc.eois.find? (fun e => e.1 == c) = some (c, src) → s.stack c = [] →
         Runs (.evcEoiPop c) s (fun t => t.stack c = [] ∧ t.get (EVC_CC_STAT_eoi_empty c) = 1))) ∧
     (∀ n, n < 1024 → srcExists n = true → bits (s.struck (EVC_SRC_CFG n)) 29 1 = 0 →
       Runs (.evcStuckClear n) s (fun t =>
         t.get (EVC_SRC_CFG_stuck n) = 0 ∧ lookup? t.evc.reentry n = none ∧ t.evc.stks = s.evc.stks ∧
         s.keeps t [EVC_SRC_CFG n, EVC_HOST_DROP]))) ∧
  ((∀ (k : Nat) (level : Bool) (s : State), k < 8 → s.evc.pinIn.testBit k ≠ level →
     Runs (.extEvtPinChange k level) s (fun t =>
       t.evc.pinIn.testBit k = level ∧
       ((level != (s.get EVC_PIN_CFG_polarity).testBit k) ≠ s.evc.pinFilt.testBit k → t.evc.pinRuns.testBit k = true ∧ t.ctl = s.ctl) ∧
       t.evc.pinFilt = s.evc.pinFilt ∧ s.keeps t [EVC_PIN_STAT, EVC_PIN_SHORT k])) ∧
   (∀ (k : Nat) (s : State), k < 8 → s.evc.pinRuns.testBit k = true →
     Runs (.pinFilterExpire k) s (fun t =>
       t.evc.pinFilt.testBit k = s.pinRaw k ∧ t.evc.pinRuns.testBit k = false ∧
       (s.pinRaw k = true → t.bitOn EVC_PIN_STAT k = true) ∧ (s.pinRaw k = false → t.ctl = s.ctl) ∧ s.keeps t [EVC_PIN_STAT])) ∧
   (∀ (v : Nat) (s : State), v < 256 →
     Runs (.pinPolarityWrite v) s (fun t =>
       t.get EVC_PIN_CFG_polarity = v ∧ s.keeps t [EVC_PIN_CFG] ∧ t.evc.pinIn = s.evc.pinIn ∧
       ∀ k, k < 8 → (s.get EVC_PIN_CFG_polarity).testBit k ≠ v.testBit k →
         t.evc.pinRuns.testBit k = false ∧ t.evc.pinFilt.testBit k = t.pinRaw k)))

/-! ## Ports, connections, channels, time (15_links_host R428 to R444) -/

/-- Ports (R428, R429, R432 to R434, R437): training ends in the best common mode that works, or waits and tries again; a trained port comes up, and goes
back to training where its lock is lost; a frame whose CRC fails is counted, one that fits is taken into the receive
buffer, a sequenced one only with the number expected, and of a kind for the own bed only from there (that a foreign one takes its number is the
model's reading, log entry 129); a PFC frame pauses its priority, or
lets it go on. -/
def Obligations.PortsTrainAndReceive : Prop :=
  ∀ (p : Nat) (s : State), p < 32 →
    (∀ offered works, offered < 8 → works < 8 → s.portUsable p = true → s.on (LINK_P_CTL_enable p) = true →
      (s.port p).phase = .training → s.asked (LINK_P_CTL_retrain p) = false →
      Runs (.portTrain p offered works) s (fun t =>
        (t.port p).phase = (match bestMode (s.get (LINK_P_CTL_modes p) &&& offered &&& works) with
          | some m => .trained m
          | none => .waiting) ∧
        t.get (LINK_P_CTL_retrain p) = 0 ∧ s.keeps t [LINK_P_CTL p] ∧ ∀ q, q ≠ p → t.port q = s.port q)) ∧
    ((s.port p).phase = .waiting →
      Runs (.portTrainRetryExpire p) s (fun t => (t.port p).phase = .training ∧ t = { s with ports := t.ports })) ∧
    (∀ m, (s.port p).phase = .trained m → m < 4 →
      Runs (.portLinkUp p) s (fun t =>
        (t.port p).phase = .up ∧ t.get (LINK_P_STAT_up p) = 1 ∧ t.get (LINK_P_STAT_mode p) = m ∧ s.keeps t [LINK_P_STAT p])) ∧
    (s.portUp p = true →
      Runs (.pcsLockLoss p) s (fun t =>
        (t.port p).phase = .training ∧ t.get (LINK_P_STAT_up p) = 0 ∧ t.bitOn (LINK_P_EVT p) 0 = true ∧
        s.onlyRegs { t with ports := s.ports } [LINK_P_STAT p, LINK_P_EVT p]) ∧
      (∀ prio pause, prio < 8 →
        Runs (.pfcReceive p prio pause) s (fun t =>
          (t.port p).paused.testBit prio = (if 4 ≤ prio then pause else (s.port p).paused.testBit prio) ∧
          t.get (LINK_P_PFC_RX_count p) = satAdd (LINK_P_PFC_RX_count p).len (s.get (LINK_P_PFC_RX_count p)) 1 ∧
          s.keeps t [LINK_P_PFC_RX p])) ∧
      (∀ a : Arrival,
        (a.crcOk = false →
          Runs (.frameReceive p a) s (fun t =>
            t.rx = s.rx ∧ t.conns = s.conns ∧
            t.get (LINK_P_RX_BAD_count p) = satAdd (LINK_P_RX_BAD_count p).len (s.get (LINK_P_RX_BAD_count p)) 1)) ∧
        (a.crcOk = true → a.etype = s.get LINK_TLT_ETYPE_etype → 4 ≤ a.frame.prio →
          (a.frame.kind = 1 →
            Runs (.frameReceive p a) s (fun t => t.rx = s.rx ++ [⟨p, a.frame⟩] ∧ t.conns = s.conns)) ∧
          (∀ c, sequenced a.frame.kind = true → a.frame.source ≠ s.ownAddr → s.conn p a.frame.source = some c →
            (a.frame.seq = c.nextRx →
              Runs (.frameReceive p a) s (fun t =>
                t.rx = (if bedOnly a.frame.kind = true ∧ a.frame.bed ≠ s.get LINK_TLT_ADDR_bed then s.rx
                  else s.rx ++ [⟨p, a.frame⟩]) ∧
                ∃ d, t.conn p a.frame.source = some d ∧ d.nextRx = (c.nextRx + 1) % 2 ^ 32 ∧ d.version = c.version)) ∧
            (a.frame.seq ≠ c.nextRx →
              Runs (.frameReceive p a) s (fun t =>
                t.rx = s.rx ∧ ∃ d, t.conn p a.frame.source = some d ∧ d.nextRx = c.nextRx))))))

/-- Connections (R436, R437): HELLO is sent at its tick and makes or keeps the connection with the best common version; silence, or the eighth sending of a frame, ends the
connection with its event; an acknowledgement drops what is before the number it names, and the sends of the rest count
anew where it has advanced; a time-out sends everything
unacknowledged again. -/
def Obligations.ConnectionsAreMadeKeptAndLost : Prop :=
  (∀ (p : Nat) (s : State), p < 32 → s.portUp p = true → s.running = true → s.tick % 93750 = 0 → s.cycle % 256 = 0 →
    (s.port p).paused.testBit 7 = false → (s.port p).egress = [] →
    Runs (.helloSendTimer p) s (fun t =>
      ∃ h f, t.outbox = s.outbox ++ [.frame p h f] ∧ f.kind = 1 ∧ f.source = s.ownAddr ∧ t.ctl = s.ctl ∧ t.conns = s.conns)) ∧
  (∀ (k v : Nat) (r : Rx) (s : State), s.rxFrame k 1 = some r →
    let m := msgNum r.frame.payload 2 2 % 32768
    m ≠ s.ownAddr → bestMode (s.get LINK_TLT_VER_enabled &&& msgNum r.frame.payload 0 2) = some v → 6 ≤ r.frame.payload.length →
    Runs (.helloReceive k) s (fun t =>
      t.rx = eraseAt s.rx k ∧
      ∃ c, t.conn r.port m = some c ∧ c.version = v ∧
        (s.conn r.port m = none → c.nextTx = 0 ∧ c.nextRx = 0 ∧ c.unacked = [] ∧ c.held = []) ∧
        ∀ d, s.conn r.port m = some d → c.nextTx = d.nextTx ∧ c.nextRx = d.nextRx ∧ c.unacked = d.unacked)) ∧
  (∀ (p m : Nat) (c : Conn) (s : State), p < 32 → m < 32768 → s.conn p m = some c →
    Runs (.connHelloTimeout p m) s (fun t =>
      t.conn p m = none ∧ t.bitOn (LINK_P_EVT p) 2 = true ∧
      t.get (LINK_P_RX_DROP_count p) =
        satAdd (LINK_P_RX_DROP_count p).len (s.get (LINK_P_RX_DROP_count p)) (c.unacked.length + c.held.length +
          ((s.port p).egress.filter (fun q => q.fresh && q.frame.dest == m)).length)) ∧
    (c.unacked ≠ [] → (s.port p).egress = [] → (∀ u ∈ c.unacked, u.sends < 8) →
      Runs (.linkRtoExpire p m) s (fun t =>
        t.conn p m = some { c with unacked := c.unacked.map (fun u => { u with sends := u.sends + 1 }) } ∧
        t.get (LINK_P_RESENT_count p) =
          satAdd (LINK_P_RESENT_count p).len (s.get (LINK_P_RESENT_count p)) c.unacked.length ∧
        s.keeps t [LINK_P_RESENT p])) ∧
    ((∃ u ∈ c.unacked, 8 ≤ u.sends) →
      Runs (.linkRtoExpire p m) s (fun t => t.conn p m = none ∧ t.bitOn (LINK_P_EVT p) 2 = true))) ∧
  (∀ (k : Nat) (r : Rx) (c : Conn) (s : State), s.rxFrame k 2 = some r → s.conn r.port r.frame.source = some c → c.held = [] →
    r.frame.flags % 2 = 0 → (c.unacked.any (fun u => u.frame.seq == r.frame.ack) = true ∨ r.frame.ack = c.nextTx) →
    Runs (.ackReceive k) s (fun t =>
      t.conn r.port r.frame.source = some { c with
        unacked :=
          let left := c.unacked.dropWhile (fun u => u.frame.seq != r.frame.ack)
          if left.length = c.unacked.length then left else left.map (fun u => { u with sends := 0 }) } ∧
      t.rx = eraseAt s.rx k))

/-- Channels and the bed's time (R439 to R444, R458): a channel with rows closes a frame, which takes the next number and its rows out of the network; the rows of a frame received
set out for the core that holds the logical id, and a second copy of a duplicated frame is counted and dropped; a slave takes the difference
of the numberings from a response, and an edge of the bed's pin ends its count of edges that did not come; an I/O die's fault is shown. -/
def Obligations.ChannelsAndTimeAreServed : Prop :=
  ∀ s : State,
    (∀ ch i p0, ch < 256 → (∀ k ∈ s.net, k.late = false) → (s.channelRows ch (s.tickEnd - 1)).head? = some (i, p0) →
      s.mayPass true p0.lastDie p0 = true →
      Runs (.rowsFrameClose ch) s (fun t =>
        lookupD 0 t.frameNo ch = (lookupD 0 s.frameNo ch + 1) % 2 ^ 32 ∧ (∀ q ∈ t.net, q ∈ s.net) ∧ t.net.length < s.net.length ∧
        t.cores = s.cores)) ∧
    (∀ k r, s.rxFrame k 3 = some r →
      let f := r.frame
      let u := s.rxDone k
      (∀ l p hd, f.flags.testBit 1 = false → (s.part f.part).layout = some l → s.physOf f.part f.logical = some p →
        f.logical < l.total → f.base + field f.word 8 17 + field f.word 25 6 < trapRow →
        u.route 1 f.part 0x3FFF (nodeOf p) p (some (ioEntryDie (r.port / 4) (nodeOf p))) = .ok hd →
        Runs (.rowsReceive k) s (fun t =>
          t.net.length = s.net.length + field f.word 25 6 + 1 ∧ t.rx = eraseAt s.rx k ∧ t.cores = s.cores ∧
          ∀ j, j ≤ field f.word 25 6 → ∃ q ∈ t.net, q.core = p ∧ q.row = f.base + field f.word 8 17 + j ∧
            q.writer = .link ∧ q.data = byteRow f.payload j)) ∧
      (f.flags.testBit 1 = true → s.seen.contains (f.source, f.word % 256, f.word / 2 ^ 32) = true →
        Runs (.rowsReceive k) s (fun t =>
          t.net = s.net ∧ t.seen = s.seen ∧
          t.get (LINK_P_DUP_count r.port) = satAdd (LINK_P_DUP_count r.port).len (u.get (LINK_P_DUP_count r.port)) 1))) ∧
    (∀ k r, s.rxFrame k 7 = some r → s.get LINK_TS_CTL_role = 2 →
      (r.port < 32 → Runs (.timeReceive k .sync) s (fun t => t.get LINK_TS_CTL_port = r.port ∧ t.rx = eraseAt s.rx k)) ∧
      (∀ tick t1 t2 t3 t4,
        Runs (.timeReceive k (.delayResp tick t1 t2 t3 t4)) s (fun t =>
          t.sync.diff = (tick : Int) - (s.tick : Int) ∧ t.sync.missed = 0 ∧ t.rx = eraseAt s.rx k ∧ t.tick = s.tick))) ∧
    (s.get LINK_TS_CTL_role = 2 → s.bedsyncOn = true →
      Runs .bedsyncEdge s (fun t =>
        t.sync = { s.sync with noEdge := 0 } ∧ t.get LINK_TS_STAT_pin_missing = 0 ∧
        t = { s with ctl := t.ctl, sync := t.sync } ∧ s.keeps t [LINK_TS_STAT])) ∧
    (∀ k, k < 8 → Runs (.ioDieFault k) s (fun t => t.get (LINK_IO_STAT_fault k) = 1 ∧ s.onlyRegs t [LINK_IO_STAT k]))

/-! ## The host bridge (15_links_host R445 to R456, R461) -/

/-- Host accesses (R399, R446 to R448, R453, R461): a read of a word through BAR0, through the own slot of BAR2 or through a VF's partition view returns the word the register space
answers that function, and a write through BAR0 is a register write; BAR4 entry 0 gathers the bytes of records, another entry reads the page it names; a VF cannot write its record;
LINK_HB_AP_HI stores the selected entry with LINK_HB_AP_LO, entry 0 excepted. -/
def Obligations.HostAccessesReachTheirTarget : Prop :=
  ∀ s : State, s.hostUp = true →
    (∀ addr, addr % 4 = 0 → addr + 4 ≤ 2 ^ 26 → s.memOn 0 = true →
      Runs (.hostBar0Access (.read addr 4)) s (fun t =>
        t = (s.spaceRead 8 addr).2.emit (.readData 8 addr (s.spaceRead 8 addr).1)) ∧
      (∀ data : List Byte, data.length = 4 →
        exec (.hostBar0Access (.write addr data)) s = exec (.registerWrite 8 none addr (hostWord addr data addr) 15) s ∧
        Runs (.hostBar0Access (.write addr data)) s (fun t => t = s.spaceWrite 8 addr (hostWord addr data addr) 15)) ∧
      (∀ slot, slot < 64 → s.slotModule slot = some s.ownAddr →
        Runs (.hostBar2Access (.read (2 ^ 26 * slot + addr) 4)) s (fun t =>
          t = (s.spaceRead 8 addr).2.emit (.readData 8 addr (s.spaceRead 8 addr).1)))) ∧
    (s.memOn 0 = false → ∀ addr, addr % 4 = 0 →
      Runs (.hostBar0Access (.read addr 4)) s (fun t => t = { s with outbox := s.outbox ++ [.readData 8 addr 0xFFFFFFFF] })) ∧
    (∀ x (data : List Byte), s.memOn 0 = true → x + data.length ≤ 0x4000 →
      (∀ o, x ≤ o → o < x + data.length → lookup? (s.pciFn 0).bytes o = none) →
      Runs (.hostBar4Access (.write x data)) s (fun t =>
        (∀ j, j < data.length → lookup? (t.pciFn 0).bytes (x + j) = data[j]?) ∧
        (t.pciFn 0).errors = (s.pciFn 0).errors ∧ t.ctl = s.ctl ∧ t.bays = s.bays ∧
        (x % 64 = 0 → data.length = 64 → s.hb.fwds = [] → x / 64 ∈ (t.pciFn 0).counted))) ∧
    (∀ k x len bytes, s.memOn 0 = true → 1 ≤ k → k < 32768 → len ≤ 4096 → x + len ≤ 2 ^ 21 → x < 2 ^ 21 →
      s.entryModule k = some s.ownAddr → s.apertureWaits (s.aperture k) false = false →
      (s.apertureRead (s.aperture k) x len).1 = some bytes →
      Runs (.hostBar4Access (.read (2 ^ 21 * k + x) len)) s (fun t => t.outbox.getLast? = some (.pageData 8 bytes))) ∧
    (∀ v x, 1 ≤ v → v ≤ 256 → s.memOn v = true → s.powered = true → s.on (PART_VF_MAP_valid (v - 1)) = true →
      s.bitOn (PART_VF_FLR ((v - 1) / 32)) ((v - 1) % 32) = false → s.get (PART_VF_MAP_module (v - 1)) = s.ownAddr →
      x % 4 = 0 → x + 4 ≤ 0x10000 →
      let n := s.get (PART_VF_MAP_partition (v - 1))
      Runs (.hostVfAccess v 0 (.read x 4)) s (fun t =>
        t = (s.spaceRead (8 + v) (0x100000 + 0x10000 * n + x)).2.emit
          (.readData (8 + v) x (s.spaceRead (8 + v) (0x100000 + 0x10000 * n + x)).1)) ∧
      (x < 0x18 → ∀ data : List Byte, data.length = 4 →
        Runs (.hostVfAccess v 0 (.write x data)) s (fun t =>
          t.get (PART_RES_CTL_refused n) = 1 ∧ t.get (PART_RES_CTL_cause n) = 5 ∧ s.onlyRegs t [PART_RES_CTL n]))) ∧
    (∀ acc (v : Word), acc < accessors → s.opens LINK_HB_AP_HI = true →
      let k := bits (s.rdAcc acc LINK_HB_AP_SEL) 0 15
      (k ≠ 0 →
        Runs (.linkHbApHiWrite acc v) s (fun t =>
          t.aperture k = ((v &&& 0xFFFF3FFF) ++ (s.rdAcc acc LINK_HB_AP_LO &&& 0x000FFFFF) : BitVec 64) ∧ (∀ i, i ≠ k → t.aperture i = s.aperture i) ∧
          t = { s with hb := t.hb })) ∧
      (k = 0 → exec (.linkHbApHiWrite acc v) s = .next s))

/-- The endpoint (R445, R447, R461, R516, R519): a configuration request is answered with a retry before phase 2 and then takes effect; link-up is shown; a fundamental
reset clears functions, aperture entries and NumVFs and nothing else; a read without an answer returns all ones and is counted.
Records and delivery (R453 to R456): the next record that has counted is taken in ring order, its bytes leave the window, and a malformed one is completed with status
0x10; the oldest queued delivery record is written once its window has room;
with none queued nothing happens (log entry 6). -/
def Obligations.EndpointAnswersAndTakesRecordsInOrder : Prop :=
  (∀ s : State,
     (∀ f r, f < 257 → s.isBridge = true → s.hostServed = false →
       Runs (.pcieConfigAccess f r) s (fun t => t = { s with outbox := s.outbox ++ [.config f true] })) ∧
     (∀ f mem master, f < 257 → s.isBridge = true → s.hostServed = true →
       Runs (.pcieConfigAccess f (.command mem master)) s (fun t =>
         (t.pciFn f).memEn = mem ∧ (t.pciFn f).master = master ∧ t.outbox.getLast? = some (.config f false) ∧ t.ctl = s.ctl)) ∧
     (s.isBridge = true →
       Runs .pcieLinkUp s (fun t => t.get LINK_HB_CTL_linkup = 1 ∧ s.onlyRegs t [LINK_HB_CTL]) ∧
       Runs .pcieFundamentalReset s (fun t =>
         t.get LINK_HB_CTL_num_vfs = 0 ∧ t.get LINK_HB_CTL_linkup = 0 ∧ t.get IDENT_RST_CAUSE_perst = 1 ∧
         t.hb.aper = [] ∧ t.hb.fns = [] ∧ t.hb.fwds = [] ∧ s.keeps t [LINK_HB_CTL, IDENT_RST_CAUSE] ∧
         t = { s with ctl := t.ctl, hb := t.hb, now := t.now })) ∧
     (∀ tag w, s.hb.fwds.find? (fun w => w.tag == tag && !w.write) = some w →
       Runs (.forwardReadTimeout tag) s (fun t =>
         t.hb.fwds = s.hb.fwds.erase w ∧
         t.get LINK_HB_TIMEOUT_count = satAdd LINK_HB_TIMEOUT_count.len (s.get LINK_HB_TIMEOUT_count) 1 ∧
         t.outbox = s.outbox ++ [if w.page then .pageData w.acc (List.replicate w.bytes 0xFF)
           else .readData w.acc w.addr 0xFFFFFFFF] ∧ s.keeps t [LINK_HB_TIMEOUT]))) ∧
  ((∀ (f : Nat) (w : State), f < 257 →
     let s := w.pageAcks.countRows f
     let x := s.pciFn f
     let r := x.taken % 256
     s.isBridge = true → s.fw.paused = false → x.cqSet = true → x.busy = none → x.counted.contains r = true →
     let s1 := s.setFn f { x with
       bytes := x.bytes.filter (fun e => e.1 / 64 != r), counted := x.counted.erase r, taken := x.taken + 1, busy := some (x.row r) }
     (malformed (x.row r) = true →
       Runs (.cmdRecordTake f) w (fun t =>
         (t.pciFn f).taken = x.taken + 1 ∧ (t.pciFn f).counted = x.counted.erase r ∧
         (∀ j, j < 64 → lookup? (t.pciFn f).bytes (64 * r + j) = none) ∧
         (t.pciFn f).busy = none ∧ t.outbox.length = s.outbox.length + 1 ∧ t.ctl = s.ctl ∧ t.cores = s.cores)) ∧
     (malformed (x.row r) = false → f = 0 ∨ hnum (x.row r) 0 1 ≠ 4 →
       (∀ m bytes, s1.recordTarget f (x.row r) = (some m, bytes) → m = s1.ownAddr →
         Runs (.cmdRecordTake f) w (fun t => t = (s1.runRecord bytes (f != 0)).1.complete f (s1.runRecord bytes (f != 0)).2)) ∧
       (∀ bytes, s1.recordTarget f (x.row r) = (none, bytes) →
         Runs (.cmdRecordTake f) w (fun t => t = s1.complete f ⟨0x12, 0, 0⟩))) ∧
     (malformed (x.row r) = false → f ≠ 0 → hnum (x.row r) 0 1 = 4 →
       Runs (.cmdRecordTake f) w (fun t => t = s1.complete f ⟨0x11, 0, 0⟩))) ∧
   (∀ (n cons : Nat) (r : OutRec) (rest : List OutRec) (s : State), n < 64 → (s.part n).outq = r :: rest →
     (s.window n r.window).prod < (if (s.window n r.window).full then cons else (s.window n r.window).cons) +
       (s.window n r.window).records →
     Runs (.outputQueueDrain n cons) s (fun t =>
       (t.part n).outq = rest ∧ (t.window n r.window).prod = (s.window n r.window).prod + 1 ∧ t.ctl = s.ctl ∧ t.cores = s.cores)) ∧
   (∀ (n cons : Nat) (s : State), n < 64 → (s.part n).outq = [] → exec (.outputQueueDrain n cons) s = .next s))

/-- Frames between bridge and modules (R399, R401, R435, R447, R448, R450, R453 to R455): CTRL is the register access it names, for its module's accessor; CTRLR and the reply to PAGE
complete what waits; EVENT becomes the MSI-X message of its vector; RESET asks for the hard reset or tells of its end; OUTPUT goes to host memory;
CMD and PAGE requests leave their buffer and name the bridge; during the pause of an activation CMD waits. -/
def Obligations.BridgeFramesTakeEffect : Prop :=
  ∀ (k : Nat) (r : Rx) (s : State),
    let f := r.frame
    let u := s.rxDone k
    (s.rxFrame k 4 = some r → field f.word 31 1 = 1 → field f.word 26 2 = 0 →
      Runs (.ctrlReceive k) s (fun t =>
        exec (.registerWrite (265 + f.source) none (field f.word 0 26) (BitVec.ofNat 32 (f.word >>> 32)) 15)
          { u with bridge := some f.source } = .next t)) ∧
    (s.rxFrame k 4 = some r → field f.word 31 1 = 0 →
      let o := field f.word 0 26
      let out := field f.word 26 2 == 2 && decide (0x2000000 + 128 * s.sliceSize f.part ≤ o)
      let a := if field f.word 26 2 = 2 then o + 128 * s.sliceBase f.part else o
      let h : State := { u with bridge := some f.source }
      (out = false →
        Runs (.ctrlReceive k) s (fun t =>
          t = ((h.spaceRead (265 + f.source) a).2.sendTo f.source 5 f.part
            (o + 2 ^ 32 * (h.spaceRead (265 + f.source) a).1.toNat) []).1)) ∧
      (out = true →
        Runs (.ctrlReceive k) s (fun t => t = (h.sendTo f.source 5 f.part (o + 2 ^ 32 * 0xFFFFFFFF) []).1))) ∧
    (s.rxFrame k 5 = some r → ∀ w,
      s.hb.fwds.find? (fun w => !w.page && w.module == f.source && w.off % 2 ^ 26 == field f.word 0 26) = some w →
      Runs (.ctrlrReceive k) s (fun t =>
        t.hb.fwds = s.hb.fwds.erase w ∧ t.outbox = u.outbox ++ [.readData w.acc w.addr (BitVec.ofNat 32 (f.word >>> 32))] ∧
        t.rx = eraseAt s.rx k)) ∧
    (s.rxFrame k 6 = some r → u.isBridge = true → field f.word 0 10 < 512 →
      let x := s.pciFn 0
      let e := x.ent (field f.word 16 4)
      (x.msixEn = true → x.msixMask = false → x.master = true → e.masked = false →
        Runs (.eventReceive k) s (fun t =>
          t.outbox = u.outbox ++ [.msix 0 (field f.word 16 4) e.addr e.data] ∧ t.rx = eraseAt s.rx k)) ∧
      (e.masked = true →
        Runs (.eventReceive k) s (fun t =>
          t.outbox = u.outbox ∧ ((t.pciFn 0).ent (field f.word 16 4)).pend = some (field f.word 0 10)))) ∧
    (s.rxFrame k 8 = some r →
      (f.word % 2 = 0 →
        Runs (.resetReceive k) s (fun t =>
          t.on (PART_RST_busy (f.part % 64)) = true ∧ t.on (PART_RST_hard (f.part % 64)) = true ∧
          f.source ∈ (t.part (f.part % 64)).rstFor ∧ t.rx = eraseAt s.rx k)) ∧
      (f.word % 2 = 1 →
        Runs (.resetReceive k) s (fun t =>
          t.hb.flrDone = s.hb.flrDone ++ u.flrsOf f.source (f.part % 64) ∧ t.rx = eraseAt s.rx k ∧ t.cores = s.cores))) ∧
    (s.rxFrame k 9 = some r → u.isBridge = true → f.word % 2 = 0 →
      Runs (.outputReceive k) s (fun t =>
        t.outbox = u.outbox ++
          [.hostWrite f.source (u.vfOf f.source f.part) f.word (wordsOfNat (f.payload.length / 4) (ofBytes f.payload))] ∧
        t.rx = eraseAt s.rx k)) ∧
    (s.rxFrame k 10 = some r →
      let w := BitVec.ofNat 64 (hnum f.payload 0 8)
      let x := hnum f.payload 8 4
      let h : State := { u with bridge := some f.source }
      (f.word.testBit 17 = false → u.powered = true → h.apertureWaits w (f.word.testBit 16) = true →
        exec (.pageReceive k) s = .next s) ∧
      (f.word.testBit 17 = false → f.word.testBit 16 = false → u.powered = true → h.apertureWaits w false = false →
        let q := h.apertureRead w x (hnum f.payload 12 4)
        Runs (.pageReceive k) s (fun t =>
          t = (q.2.sendTo f.source 10 f.part (field f.word 0 16 + 2 ^ 17 + 2 ^ 18 * b2n q.1.isNone) (q.1.getD [])).1)) ∧
      (f.word.testBit 17 = false → f.word.testBit 16 = true → u.powered = true → h.apertureWaits w true = false → bits w 61 2 = 0 →
        let q := h.apertureWrite w x (f.payload.drop 16) h.hb.nextTag
        Runs (.pageReceive k) s (fun t =>
          t = (q.2.sendTo f.source 10 f.part (field f.word 0 16 + 2 ^ 16 + 2 ^ 17 + 2 ^ 18 * b2n (!q.1)) []).1)) ∧
      (∀ w, f.word.testBit 17 = true → f.word.testBit 18 = false → w.write = false →
        s.hb.fwds.find? (fun w => w.page && w.module == f.source && w.tag % 65536 == field f.word 0 16) = some w →
        Runs (.pageReceive k) s (fun t =>
          t.hb.fwds = s.hb.fwds.erase w ∧ t.outbox = u.outbox ++ [.pageData w.acc f.payload] ∧ t.rx = eraseAt s.rx k))) ∧
    (s.rxFrame k 11 = some r →
      (s.fw.paused = true → exec (.cmdReceive k) s = .next s) ∧
      (s.fw.paused = false →
        let h : State := { u with bridge := some f.source }
        let q := h.runRecord f.payload (field f.word 0 9 != 0)
        Runs (.cmdReceive k) s (fun t =>
          t = (q.1.sendTo f.source 9 f.part (1 + 256 * field f.word 0 9)
            (bytesOf 1 q.2.status ++ bytesOf 1 q.2.field ++ bytesOf 2 0 ++ bytesOf 4 q.2.result)).1)))

/-! ## The register space (01_wafer_hierarchy, 00_scope, 20_connectors_ordering) -/

/-- Register accesses (R8, R30, R32, R38, R59): a partial write, or an access that finds no register, changes only the error counts; each accessor has its own copy of a map
argument, so that a write of one leaves the others; an open window of a core's page keeps its base. A read of BEAT_TICK_LO latches the high word for the accessor,
and the read of the high word returns what was latched. -/
def Obligations.RegisterAccessesFollowTheirCodes : Prop :=
  ∀ (acc : Nat) (v : Word) (s : State),
    (∀ a en, en % 16 ≠ 15 →
      Runs (.registerWrite acc none a v en) s (fun t =>
        t.get IDENT_ACC_ERR_partial_writes =
          satAdd IDENT_ACC_ERR_partial_writes.len (s.get IDENT_ACC_ERR_partial_writes) 1 ∧ s.onlyRegs t [IDENT_ACC_ERR])) ∧
    (∀ a, a % 4 = 0 → findReg a = none →
      Runs (.registerWrite acc none a v 15) s (fun t =>
        t.get IDENT_ACC_ERR_reserved_hits =
          satAdd IDENT_ACC_ERR_reserved_hits.len (s.get IDENT_ACC_ERR_reserved_hits) 1 ∧ s.onlyRegs t [IDENT_ACC_ERR])) ∧
    (s.opens BAY_MAP_ARG0 = true →
      Runs (.registerWrite acc none BAY_MAP_ARG0 v 15) s (fun t =>
        t.rdAcc acc BAY_MAP_ARG0 = v ∧
        (∀ b, b ≠ acc → t.rdAcc b BAY_MAP_ARG0 = s.rdAcc b BAY_MAP_ARG0) ∧ t = { s with banked := t.banked })) ∧
    (∀ p w, acc < 8 → p < 9216 → w < 8 → s.powered = true →
      let u := s.settle p s.cycle
      Runs (.registerWrite acc (some p) (SPC_WIN_BASE w) v 15) s (fun t =>
        (t.core p).cpGet (SPC_WIN_BASE_base w) =
          (if (u.core p).cpOn (SPC_WIN_CTL_open w) then (u.core p).cpGet (SPC_WIN_BASE_base w) else bits v 0 17) ∧
        (t.core p).pad = (u.core p).pad ∧ t = { u with cores := t.cores })) ∧
    (∀ p a, acc < 8 → p < 9216 → a % 4 = 0 → s.powered = true →
      let u := s.settle p s.cycle
      Runs (.latchingRead acc ⟨some p, a⟩) s (fun t => t = u.emit (.readData acc a (u.pageWord p a)))) ∧
    (acc < accessors → s.powered = true →
      Runs (.latchingRead acc ⟨none, BEAT_TICK_LO⟩) s (fun t =>
        t.outbox = s.outbox ++ [.readData acc BEAT_TICK_LO (BitVec.ofNat 32 s.tick)] ∧
        lookup? t.latches (bankKey acc BEAT_TICK_HI) = some (BitVec.ofNat 32 (s.tick / 2 ^ 32)) ∧ t.ctl = s.ctl) ∧
      ∀ h, lookup? s.latches (bankKey acc BEAT_TICK_HI) = some h →
        Runs (.latchingRead acc ⟨none, BEAT_TICK_HI⟩) s (fun t =>
          t = { s with outbox := s.outbox ++ [.readData acc BEAT_TICK_HI h] }))

/-- The JTAG port (R556; what IEEE 1149.1 leaves to the implementation is free, log entry 87): JTAG_TRST_N puts the controller into Test-Logic-Reset with IDCODE selected; a rising edge moves it by TMS and shifts the
register of its state; a falling edge drives JTAG_TDO only while shifting. Nothing else of the module changes. -/
def Obligations.TapControllerFollowsItsPins : Prop :=
  ∀ (tms tdi : Bool) (pins : List Bool) (s : State), s.pwr.aux = true →
    (∀ rising,
      Runs (.jtagTapClock true rising tms tdi pins) s (fun t =>
        t.jtag.tap = .reset ∧ t.jtag.ir = 1 ∧ t = { s with jtag := t.jtag })) ∧
    Runs (.jtagTapClock false true tms tdi pins) s (fun t =>
      t.jtag.tap = tapNext s.jtag.tap tms ∧
      (s.jtag.tap = .shiftDr → t.jtag.shift = s.jtag.shift.drop 1 ++ [tdi] ∧ t.jtag.irShift = s.jtag.irShift) ∧
      (s.jtag.tap = .shiftIr → t.jtag.irShift = s.jtag.irShift.drop 1 ++ [tdi] ∧ t.jtag.shift = s.jtag.shift) ∧
      (s.jtag.tap = .capDr → s.jtag.ir = 0 → t.jtag.shift = [false]) ∧ t = { s with jtag := t.jtag }) ∧
    Runs (.jtagTapClock false false tms tdi pins) s (fun t =>
      t.jtag.tap = s.jtag.tap ∧ (s.jtag.tap ≠ .shiftDr → s.jtag.tap ≠ .shiftIr → t.outbox = s.outbox) ∧
      (∀ b l, s.jtag.tap = .shiftDr → s.jtag.shift = b :: l → t.outbox = s.outbox ++ [.jtag b]) ∧
      (s.jtag.tap = .reset → t.jtag.ir = 1) ∧ t.ctl = s.ctl ∧ t.cores = s.cores)

/-! ## Sage (16_faults_safety R463 to R493) -/

/-- Sage (R464, R472 to R478, R481, R491): the oldest report is taken, counted and, where the ring has room, recorded; its own test sets what SAGE_STAT shows, and a failure
stops the module; a drained restart resets the cores, nothing of theirs left in progress; a probe's verdict and a reload are kept with the restart, and a dead core's routes switch with the first tick after 4,800 cycles; a control core whose pair
disagrees stops with an empty stack and is reported, and one that is not to stay stopped runs again; a pending inventory record goes to the older flash slot. -/
def Obligations.SageAnswersWhatIsReported : Prop :=
  ∀ s : State,
    (∀ r rest, s.reports = r :: rest → s.sageDown = false → r.part = none → r.cls < 16 →
      Runs .sageReport s (fun t =>
        t.reports = rest ∧ t.get (SAGE_DET_count r.cls) = satAdd (SAGE_DET_count r.cls).len (s.get (SAGE_DET_count r.cls)) 1 ∧
        (if (s.get SAGE_LOG_head + 1) % 64 = s.get SAGE_LOG_tail then
           t.get SAGE_LOG_overflow = 1 ∧ t.get SAGE_LOG_head = s.get SAGE_LOG_head
         else
           t.get SAGE_LOG_head = (s.get SAGE_LOG_head + 1) % 64 ∧
           t.rd (SAGE_REC (s.get SAGE_LOG_head) 0) = BitVec.ofNat 32 (r.stamp % 2 ^ 32)) ∧
        t.cores = s.cores ∧ t.bays = s.bays ∧ t.parts = s.parts)) ∧
    (∀ ok,
      Runs (.sageSelftest ok) s (fun t =>
        t.on SAGE_STAT_ok = ok ∧ (ok = true → s.onlyRegs t [SAGE_STAT]) ∧ (ok = false → t.on PWR_STAT_stopping = true))) ∧
    (∀ n r, n < 64 → (s.part n).restart = some r → r.drained = false → s.cycle % 256 = 0 → r.a + 1024 ≤ s.cycle →
      (s.settleCores n).drained n = true →
      Runs (.restartDrainEnd n) s (fun t =>
        (t.part n).restart = some { r with drained := true } ∧ ∀ p ∈ s.partCores n,
          (t.core p).runs = [] ∧ (t.core p).pend = [] ∧
          ((s.core p).runs = [] → (s.core p).pend = [] → t.core p = (s.core p).clear))) ∧
    (∀ n p r x, n < 64 → p < 9216 → (s.part n).restart = some r →
      r.probes.find? (fun x => x.core == p && x.verdict.isNone) = some x → x.ends ≤ s.cycle →
      (x.spare.isSome = true →
        Runs (.coreProbeComplete n p false) s (fun t =>
          ∃ y, (t.part n).restart = some y ∧ y.probes.length = r.probes.length ∧
            (∀ z ∈ y.probes, z.core = p → z.reloaded = false → z.verdict = some false) ∧
            (x.swapped = false → x.reloaded = false → y.swapAt = some (256 * ceilDiv (s.cycle + 4800) 256)))) ∧
      ((s.core p).badRows.length ≤ 8 → (s.part n).recent = [] →
        Runs (.coreProbeComplete n p true) s (fun t =>
          ∃ y, (t.part n).restart = some y ∧ y.probes.length = r.probes.length ∧
            ∀ z ∈ y.probes, z.core = p → z.reloaded = false → z.verdict = some true ∧ z.spare = none))) ∧
    (∀ n p r y x sp l, n < 64 → p < 9216 → (s.part n).restart = some r → (s.part n).layout = some y →
      r.probes.find? (fun x => x.core == p && x.verdict == some false && x.swapped && !x.reloaded) = some x →
      x.spare = some sp → x.logical = some l → x.reload ≤ s.cycle →
      (∀ w k, y.wman = some w → y.home = some k → s.homeBad (coreRanges w l) k = false) →
      Runs (.spareReloadComplete n p false) s (fun t =>
        ∃ q, (t.part n).restart = some q ∧ ∀ z ∈ q.probes, z.core = p → z.reloaded = true)) ∧
    (∀ v, s.inv = some v → s.on IDENT_INV_STAT_pending = true → s.pwr.inhibit = false →
      Runs .inventoryFlashWrite s (fun t =>
        t.get IDENT_INV_STAT_pending = 0 ∧ t.inv = some v ∧
        (∀ a b, storedRecord s.flash.inv0 = some a → storedRecord s.flash.inv1 = some b →
          (a.sequence ≤ b.sequence → t.flash.inv0 = some v.stored ∧ t.flash.inv1 = s.flash.inv1) ∧
          (b.sequence < a.sequence → t.flash.inv0 = s.flash.inv0 ∧ t.flash.inv1 = some v.stored)) ∧
        s.keeps t [IDENT_INV_STAT])) ∧
    (∀ c, c < 8 →
      Runs (.ccLockstepMismatch c) s (fun t =>
        t.stack c = [] ∧ c ∈ t.evc.stopped ∧ t.bitOn SAGE_EVT 3 = true ∧
        (∃ r, t.reports = s.reports ++ [r] ∧ r.cls = 9 ∧ r.unit = c) ∧ ∀ d, d ≠ c → t.stack d = s.stack d) ∧
      Runs (.ccRestart c) s (fun t =>
        (s.sage.dead.contains c = false → c ∉ t.evc.stopped) ∧ (s.sage.dead.contains c = true → t = s) ∧
        t.evc.stks = s.evc.stks ∧ t.ctl = s.ctl))

/-- Dies (R482 to R485, R508, R509): a clock fault switches a die's rails off at once and is reported; a flagged die is switched off once its partitions are held, or
1 ms has passed; a die comes back at the start of a tick, when its clock does, or when it has been cool for 100 marks, and not before (log
entry 6); one that is not back within 10 ms
loses its flag in the record; a drained partition with a fold plan runs folded. -/
def Obligations.DiesAreSwitchedOffAndReturn : Prop :=
  ∀ (d : Nat) (s : State), d < 72 →
    (∀ loss, s.railsOn d = true →
      Runs (.dieClockFault d loss) s (fun t =>
        t.get (DIE_PWR_CTL_compute d) = 0 ∧ t.get (DIE_PWR_CTL_retention d) = 1 ∧ t.get (DIE_PWR_STAT_state d) = 6 ∧
        (t.die d).cause = 6 ∧ (t.die d).flagged = none ∧
        ∃ r, t.reports.getLast? = some r ∧ r.unit = d ∧ r.cls = (if loss then 11 else 10))) ∧
    (∀ bad, s.cycle % 256 = 0 → (s.die d).cause = 6 → s.railsOn d = false → s.on PWR_STAT_stopping = false →
      Runs (.dieClockRecover d bad) s (fun t =>
        (t.die d).cause = 0 ∧ (t.die d).flagged = none ∧
        ((∀ n, n < 64 → (s.part n).stall.contains d = false ∧ (s.part n).folded ≠ some d) →
          t.get (DIE_PWR_CTL_compute d) = 1 ∧ t.get (DIE_PWR_CTL_retention d) = 0 ∧ t.get (DIE_PWR_STAT_state d) = 2 ∧
          t.cores = s.cores))) ∧
    (∀ v, (s.die d).cause = 6 → s.railsOn d = false → (s.die d).offAt + 24000000 ≤ s.cycle → s.inv = some v →
      (v.dieFlag d).testBit 0 = true →
      Runs (.dieClockTimeout d) s (fun t =>
        ∃ w, t.inv = some w ∧ (w.dieFlag d).testBit 0 = false ∧ w.sequence = (v.sequence + 1) % 2 ^ 32 ∧
          ∀ e, e ≠ d → w.dieFlag e = v.dieFlag e)) ∧
    (∀ t0, (s.die d).flagged = some t0 → s.cycle % 256 = 0 → s.railsOn d = true →
      ((∀ n ∈ s.partsOn d, s.on (BEAT_PLAN_CTL_held n) = true) ∨ t0 + 9375 ≤ s.tick) →
      Runs (.dieSwitchoff d) s (fun t =>
        t.get (DIE_PWR_CTL_compute d) = 0 ∧ t.get (DIE_PWR_CTL_retention d) = 1 ∧ (t.die d).flagged = none ∧
        (t.die d).cause = (s.die d).cause)) ∧
    (∀ bad, s.cycle % 256 = 0 → 100 ≤ (s.die d).cool → s.on (DIE_PWR_CTL_hold_off d) = false → s.on PWR_STAT_stopping = false → s.railsOn d = false →
      (s.die d).cause = 4 →
      Runs (.dieRestore d bad) s (fun t => (t.die d).cause = 0 ∧ (t.die d).flagged = none ∧ (t.die d).cool = 0)) ∧
    (∀ bad, (s.die d).cool < 100 → exec (.dieRestore d bad) s = .next s) ∧
    (s.opens (DIE_PWR_CTL d) = true →
      Runs (.diePwrRestoreWrite d) s (fun t =>
        t.get (DIE_PWR_CTL_restore d) = 1 ∧ t.get (DIE_PWR_CTL_hold_off d) = 0 ∧ s.onlyRegs t [DIE_PWR_CTL d])) ∧
    (∀ n y f, n < 64 → (s.part n).drain = some d → (s.part n).layout = some y → s.on (BEAT_PLAN_CTL_held n) = true →
      (s.part n).folded = none → y.folds.find? (fun f => f.die == d) = some f →
      (∀ m ∈ f.moves, ∀ w k, y.wman = some w → y.home = some k → s.homeBad (coreRanges w m.source) k = false) →
      Runs (.foldRun n) s (fun t =>
        (t.part n).folded = some d ∧ (t.part n).drain = none ∧ t.get (BEAT_PLAN_CTL_hold n) = 0 ∧
        t.get (SAGE_P_STAT_state n) = 6 ∧ t.get (SAGE_P_STAT_response n) = 8))

/-! ## Power, heat, start-up (17_power_thermal, 18_startup_reset) -/

/-- Between 42.0 V and 46.0 V (R498) PWR_EVT.supply is set and nothing else is done. -/
def Obligations.SupplyOutOfRangeOnlySetsItsEvent : Prop :=
  ∀ s : State, Runs .supplyOutOfRange s fun t => t.bitOn PWR_EVT 3 = true ∧ s.onlyRegs t [PWR_EVT] ∧
    ∀ i, i < 32 → i ≠ 3 → t.bitOn PWR_EVT i = s.bitOn PWR_EVT i

/-- Supplies, rails and heat (R494 to R508): a supply is taken as valid, the island supply starting the island; a sag inhibits non-volatile writes until it ends; PWR_EN down with the compute
domains up begins the ordered stop, whose end leaves the compute domains empty and flash as it was; a power-up begins from there in phase 3; a rail
fault flags its die or stops the module; a hot die is flagged, a hotter one stops the module; the brake holds every active partition. -/
def Obligations.PowerIsStagedBrakedAndStopped : Prop :=
  ∀ s : State,
    (∀ pres,
      (s.pwr.aux = false →
        Runs (.supplyValid true pres) s (fun t =>
          t.pwr.aux = true ∧ t.get IDENT_RST_CAUSE_por = 1 ∧ t.get IDENT_BOOT_phase = 0 ∧ t.flash = s.flash ∧ t.cores = [])) ∧
      Runs (.supplyValid false pres) s (fun t =>
        t.pwr.main = true ∧ t.on PWR_STAT_main_valid = s.pwr.aux ∧ s.keeps t [PWR_STAT] ∧ t.cores = s.cores)) ∧
    Runs .sagBegin s (fun t =>
      t.pwr = { s.pwr with inhibit := true } ∧ t.get PWR_STAT_nv_inhibit = 1 ∧ t.bitOn PWR_EVT 4 = true ∧
      t.get PWR_SAG_CNT_count = satAdd PWR_SAG_CNT_count.len (s.get PWR_SAG_CNT_count) 1 ∧
      s.keeps t [PWR_STAT, PWR_SAG_CNT, PWR_EVT] ∧ t.flash = s.flash) ∧
    (s.pwr.inhibit = true →
      Runs .sagEnd s (fun t =>
        t.pwr.inhibit = false ∧ t.get PWR_STAT_nv_inhibit = 0 ∧ t.bitOn PWR_EVT 5 = true ∧ t.flash.settings = s.fw.settings)) ∧
    (∀ level, s.pwr.en ≠ level →
      Runs (.pwrEnChange level) s (fun t =>
        t.pwr.en = level ∧ t.on PWR_STAT_en = (level && s.pwr.aux) ∧
        (level = false → s.computeUp = true → s.on PWR_STAT_stopping = false →
          t.on PWR_STAT_stopping = true ∧ t.on SAGE_STAT_gate_open = false ∧ t.pwr.stop = 1))) ∧
    (∀ cause, cause < 3 → s.computeUp = true → (cause = 0 → s.on PWR_STAT_stopping = true) →
      Runs (.orderedStop cause) s (fun t =>
        t.get IDENT_BOOT_phase = 7 ∧ t.get IDENT_BOOT_fail = 0 ∧ t.cores = [] ∧ t.bays = [] ∧ t.parts = [] ∧ t.job = none ∧
        t.tick = 0 ∧ t.flash = s.flash)) ∧
    (s.mayPowerUp = true →
      Runs .powerUpStaging s (fun t =>
        t.get IDENT_BOOT_phase = 3 ∧ t.pwr.stop = 0 ∧ t.cores = [] ∧ t.parts = [] ∧ t.flash = s.flash ∧
        ∀ d v, d < 72 → s.inv = some v → (v.dieFlag d).testBit 0 = true → (v.dieFlag d).testBit 1 = true →
          t.get (DIE_PWR_CTL_compute d) = 1 ∧ t.get (DIE_PWR_STAT_state d) = 2)) ∧
    (∀ i, s.computeUp = true →
      (i < 216 → i % 3 = 0 → s.railsOn (i / 3) = true → (s.die (i / 3)).cause ≤ 5 →
        Runs (.railFault i) s (fun t => (t.die (i / 3)).cause = 5 ∧ (t.die (i / 3)).flagged.isSome = true)) ∧
      (i < 243 → ¬(i < 216 ∧ i % 3 = 0) → s.on PWR_STAT_stopping = false →
        Runs (.railFault i) s (fun t => t.on PWR_STAT_stopping = true ∧ t.pwr.stop = 2))) ∧
    (s.computeUp = true →
      (∀ d, d < 72 → s.railsOn d = true →
        Runs (.thermalCrossing 0 d 105) s (fun t =>
          (t.die d).cause = max (s.die d).cause 4 ∧ (t.die d).flagged.isSome = true)) ∧
      (∀ b, b < 18 → Runs (.thermalCrossing 1 b 85) s (fun t => t.get (BAY_CTL_hot b) = 1 ∧ s.onlyRegs t [BAY_CTL b])) ∧
      (∀ kind unit threshold, (kind, threshold) ∈ [(0, 115), (1, 105), (2, 115), (3, 115)] → unitOk kind unit = true →
        s.on PWR_STAT_stopping = false →
        Runs (.thermalCrossing kind unit threshold) s (fun t => t.on PWR_STAT_stopping = true ∧ t.pwr.stop = 2)) ∧
      (s.on PWR_STAT_stopping = false → s.on PWR_STAT_brake = false →
        Runs .brake s (fun t =>
          t.get PWR_STAT_brake = 1 ∧ t.bitOn PWR_EVT 6 = true ∧
          t.get PWR_BRAKE_CNT_count = satAdd PWR_BRAKE_CNT_count.len (s.get PWR_BRAKE_CNT_count) 1 ∧
          (∀ n, n < 64 → s.on (BEAT_PLAN_CTL_active n) = true → t.get (BEAT_PLAN_CTL_hold n) = 1) ∧ t.cores = s.cores)))

/-- Start-up (R514 to R520, R531): an island reset, and one by MOD_RESET_N, leaves phase 0 with its cause shown and flash kept, and no core, partition or inventory in memory; a verified boot reaches phase 2 with
the newest inventory and the confirmed bank, a failed one phase 15; the self-test takes failed cores out and reaches phase 4; the module
is ready in phase 6 with its tick counter from 0 and the gate open. -/
def Obligations.StartUpPassesItsPhases : Prop :=
  ∀ s : State,
    (∀ pin pres, s.pwr.aux = true →
      Runs (.islandReset pin pres) s (fun t =>
        t.get IDENT_BOOT_phase = 0 ∧ t.on IDENT_RST_CAUSE_pin = pin ∧ t.on IDENT_RST_CAUSE_por = !pin ∧
        t.on LINK_HB_CTL_bridge = pres ∧ t.flash = s.flash ∧ t.cores = [] ∧ t.parts = [] ∧ t.inv = none ∧
        t.pwr.aux = true ∧ t.pwr.main = s.pwr.main)) ∧
    (∀ pres, s.pwr.aux = true →
      Runs (.modReset pres) s (fun t =>
        t.get IDENT_BOOT_phase = 0 ∧ t.on IDENT_RST_CAUSE_pin = true ∧ t.flash = s.flash ∧ t.cores = [] ∧ t.parts = [])) ∧
    (∀ ms, s.pwr.aux = true → s.get IDENT_BOOT_phase = 0 →
      Runs (.bootVerifyDone false ms) s (fun t => t.get IDENT_BOOT_phase = 15 ∧ t.get IDENT_BOOT_fail = 2 ∧ t.inv = s.inv) ∧
      ∀ v, s.bankPasses s.flash.confirmed = true → s.flash.inventory = some v →
        Runs (.bootVerifyDone true ms) s (fun t =>
          t.get IDENT_BOOT_phase = 2 ∧ t.inv = some v ∧ t.get IDENT_INV_STAT_valid = 1 ∧ t.get SAGE_STAT_ok = 1 ∧
          t.fw.running = s.flash.confirmed ∧ t.get IDENT_BOOT_MS_island = min ms 65535)) ∧
    (∀ x : TestIn, s.get IDENT_BOOT_phase = 3 →
      Runs (.startupSelfTest x) s (fun t =>
        (x.overrun = false → t.get IDENT_BOOT_phase = 4) ∧
        (x.overrun = true → t.get IDENT_BOOT_phase = 15 ∧ t.get IDENT_BOOT_fail = 5) ∧
        ∀ p ∈ x.cores, t.isGood p = false)) ∧
    (∀ ms, s.get IDENT_BOOT_phase = 4 →
      Runs (.moduleReady ms) s (fun t =>
        t.get IDENT_BOOT_phase = 6 ∧ t.get BEAT_TICK_CTL_run = 1 ∧ t.tick = 0 ∧ t.get SAGE_STAT_gate_open = 1 ∧
        t.get IDENT_BOOT_MS_compute = min ms 65534))

/-! ## Firmware, settings, attestation (19_firmware_trust R528 to R549) -/

/-- The service port (R530, R532, R533, R546): one connection at a time; an OFFER whose header passes opens a transfer; a SIGNATURE that verifies lets bodies come, one that does not ends the
transfer with code 6; a BODY erases the inactive bank and is kept; COMMIT checks digest and images, and stages the bank or leaves it invalid. -/
def Obligations.ServicePortTransfersABouquet : Prop :=
  ∀ s : State,
    (s.fw.link = true →
      (s.fw.conn = false →
        Runs .svcConnect s (fun t => t.fw = { s.fw with conn := true } ∧ t.outbox = s.outbox ++ [.tcp true] ∧ t.ctl = s.ctl)) ∧
      (s.fw.conn = true → Runs .svcConnect s (fun t => t = { s with outbox := s.outbox ++ [.tcp false] }))) ∧
    Runs .svcLinkUp s (fun t =>
      t.fw.link = true ∧ t.fw.ip = [0x0020, 0x0021, 0x0022].flatMap (fun k => bytesOf 4 (s.fw.settings.get k)) ∧
      t = { s with fw := t.fw }) ∧
    (s.fw.conn = true →
      Runs .svcDisconnect s (fun t => t.fw.conn = false ∧ t.fw.transfer = none ∧ t.flash = s.flash) ∧
      Runs .svcStatus s (fun t =>
        ∃ m, t = { s with outbox := s.outbox ++ [.service 0 m] } ∧ m.length = 16 ∧
          m.take 4 = bytesOf 4 (s.rd FWU_STAT).toNat ∧ (m.drop 4).take 4 = bytesOf 4 s.leftSeconds) ∧
      Runs .svcIdcert s (fun t => t = { s with outbox := s.outbox ++ [.service 0 ((List.range 2948).map Config.idCert)] }) ∧
      (∀ h, s.flash.provisional = none → s.fw.transfer = none → s.fw.act = none →
        Runs (.svcOffer h) s (fun t =>
          (s.headerCode h = 0 → t.fw.transfer = some ⟨1, bankOf h, hnum h 0x10 8, h, []⟩ ∧ t.get FWU_STAT_state = 1) ∧
          (s.headerCode h ≠ 0 → t.fw.transfer = none ∧ t.get FWU_STAT_code = s.headerCode h) ∧
          t.outbox = s.outbox ++ [.service (s.headerCode h) []] ∧ t.flash = s.flash)) ∧
      (∀ x g, s.fw.transfer = some x → x.stage = 1 → g.length = 2820 →
        Runs (.svcSignature g) s (fun t =>
          (if Config.xmssVerify Config.vendorKey x.header g = true then t.fw.transfer = some { x with stage := 2 }
           else t.fw.transfer = none ∧ t.get FWU_STAT_code = 6) ∧ t.flash = s.flash)) ∧
      (∀ x data, s.fw.transfer = some x → 2 ≤ x.stage → data ≠ [] → data.length ≤ 1048576 → s.pwr.inhibit = false →
        Runs (.svcBody data 0) s (fun t =>
          t.fw.transfer = some { x with stage := 3, body := x.body ++ data } ∧ t.flash.bank s.inactive = none ∧
          t.flash.staged = false ∧ t.get FWU_STAT_state = 3) ∧
        Runs (.svcBody data 1) s (fun t => t.fw.transfer = none ∧ t.get FWU_STAT_code = 9)) ∧
      (∀ x, s.fw.transfer = some x → x.stage = 3 → x.body.length = x.length →
        Runs .svcCommit s (fun t =>
          t.fw.transfer = none ∧
          (if digest x.body 64 ≠ x.bank.digest then
             t.get FWU_STAT_code = 7 ∧ t.flash = { s.flash.setBank s.inactive none with staged := false }
           else if imagesOk x.header x.length = false then
             t.get FWU_STAT_code = 8 ∧ t.flash = { s.flash.setBank s.inactive none with staged := false }
           else t.flash = { s.flash.setBank s.inactive (some x.bank) with staged := true } ∧ t.get FWU_STAT_state = 4))))

/-- Activation (R534 to R537): an activation of a staged bank names it provisional and pauses the module; once every active partition is held it runs, in the provisional
state; a confirmation makes it the confirmed bank and raises the rollback floor, which never falls; a revert, or 1,800 s without confirmation, begins the
fall-back; 60 s of inhibit end an activation that waits, with code 0x0C. -/
def Obligations.ActivationIsProvisionalUntilConfirmed : Prop :=
  ∀ (svc : Bool) (s : State), (svc = true → s.fw.conn = true) →
    ((s.get FWU_STAT_state = 0 ∨ s.get FWU_STAT_state = 4) → s.fw.act = none → s.fw.transfer = none → s.flash.staged = true →
      s.pwr.inhibit = false →
      Runs (.fwActivate svc) s (fun t =>
        t.get FWU_STAT_state = 5 ∧ t.flash = { s.flash with provisional := some s.inactive } ∧ t.fw.paused = true ∧
        t.fw.act = some ⟨s.inactive, false, false⟩ ∧
        ∀ n, n < 64 → s.on (BEAT_PLAN_CTL_active n) = true → t.get (BEAT_PLAN_CTL_hold n) = 1)) ∧
    (∀ a us, s.fw.act = some a → a.waits = false → a.back = false → s.sageDown = true →
      s.asked FWU_CTL_activate = false →
      Runs (.fwActivationHeld true us) s (fun t =>
        t.fw.running = a.target ∧ t.fw.act = none ∧ t.fw.paused = false ∧ t.get FWU_STAT_state = 6 ∧
        t.get FWU_LEFT_seconds = 1800 ∧ t.bitOn FWU_EVT 1 = true ∧ t.flash.staged = false) ∧
      Runs (.fwActivationHeld false us) s (fun t =>
        t.fw.running = s.fw.running ∧ t.fw.act = none ∧ t.fw.paused = false ∧ t.get FWU_STAT_state = 4 ∧
        t.get FWU_STAT_code = 13 ∧ t.flash.provisional = none ∧ t.bitOn FWU_EVT 1 = true ∧ t.bitOn FWU_EVT 2 = true)) ∧
    (s.get FWU_STAT_state = 6 → s.pwr.inhibit = false →
      Runs (.fwConfirm svc) s (fun t =>
        t.get FWU_STAT_state = 0 ∧ t.flash.confirmed = s.fw.running ∧ t.flash.provisional = none ∧
        s.flash.floor ≤ t.flash.floor ∧
        ∀ x, s.flash.bank s.fw.running = some x → t.flash.floor = max s.flash.floor (min 64 x.rollback)) ∧
      ∀ i ∈ [Instr.fwRevert svc, Instr.fwProvisionalTimeout],
        Runs i s (fun t =>
          t.get FWU_STAT_state = 7 ∧ t.flash.provisional = none ∧ t.fw.act = some ⟨s.flash.confirmed, true, false⟩ ∧
          t.fw.paused = true ∧ t.flash.confirmed = s.flash.confirmed)) ∧
    (∀ a, s.fw.act = some a → a.waits = true → s.pwr.inhibit = true →
      s.asked FWU_CTL_activate = false → s.asked FWU_CTL_revert = false →
      Runs .fwNvWaitTimeout s (fun t =>
        t.fw.act = none ∧ t.get FWU_STAT_code = 12 ∧ (a.back = true → t.get FWU_STAT_state = 6) ∧ t.flash = s.flash))

/-- Settings and quotes (R538 to R545, R549): a key of the schema is read into the accessor's data register and written from it, with its result, and stored in flash unless writes are inhibited;
another key ends with 0x0E; a quote is signed one at a time with the next index; the key is rotated with the next identity index. -/
def Obligations.SettingsAndQuotesAreKept : Prop :=
  ∀ s : State,
    (∀ a key,
      let k := bits (s.rdAcc a FWU_SET_SEL) 0 16
      (settingKeys.contains k = true →
        Runs (.settingsGet (some a) key) s (fun t =>
          t.rdAcc a FWU_SET_DATA = BitVec.ofNat 32 (s.fw.settings.get k) ∧ t.rdAcc a FWU_SET_RES = 0 ∧
          t = { s with banked := t.banked }) ∧
        ∀ v, Runs (.settingsPut (some a) key v) s (fun t =>
          t.fw.settings.get k = (s.rdAcc a FWU_SET_DATA).toNat ∧ t.rdAcc a FWU_SET_RES = 0 ∧
          (∀ j, j ≠ k → t.fw.settings.get j = s.fw.settings.get j) ∧
          (s.pwr.inhibit = false → t.flash.settings = t.fw.settings) ∧ (s.pwr.inhibit = true → t.flash = s.flash))) ∧
      (settingKeys.contains k = false →
        ∀ v, ∀ i ∈ [Instr.settingsGet (some a) key, Instr.settingsPut (some a) key v],
          Runs i s (fun t => t.rdAcc a FWU_SET_RES = 0x0E ∧ t.get FWU_STAT_code = 0x0E ∧ t.fw = s.fw ∧ t.flash = s.flash))) ∧
    (∀ svc nonce, (svc = true → s.fw.conn = true) → s.fw.signing = none → s.fw.index < s.get TRUST_RESV_end →
      s.fw.index < 1048576 →
      Runs (.quoteRequest svc nonce) s (fun t =>
        (∃ b, t.fw.signing = some (b, svc)) ∧ t.get TRUST_CTL_busy = 1 ∧ t.fw.index = s.fw.index ∧ t.flash = s.flash)) ∧
    (∀ b, s.fw.signing = some b → s.fw.quotes = [] → (b.2 = true ∨ s.asked TRUST_CTL_go = false) →
      Runs .quoteComplete s (fun t =>
        t.fw.signing = none ∧ t.fw.index = s.fw.index + 1 ∧ t.fw.quote.take b.1.length = b.1 ∧ t.get TRUST_CTL_busy = 0 ∧
        t.bitOn FWU_EVT 3 = true ∧ t.flash = s.flash)) ∧
    (s.fw.newKey = true → s.fw.signing = none → s.pwr.inhibit = false → s.get TRUST_ID_next < 1024 →
      Runs .attestKeyRotate s (fun t =>
        t.flash.keyNo = s.get TRUST_KEY_key + 1 ∧ t.fw.index = 0 ∧ t.fw.newKey = false ∧
        t.get TRUST_ID_next = s.get TRUST_ID_next + 1 ∧ t.get TRUST_KEY_next = 0 ∧ t.bitOn FWU_EVT 3 = true))

/-! ## The whole machine -/

/-- A step runs the command at the front of the queue on the state with the queue's rest (the order is the model's own, log entry 7). -/
def Obligations.StepRunsTheFrontCommand : Prop :=
  (∀ (c : Instr) (rest : List Instr) (s : State), step { s with pending := c :: rest } = exec c { s with pending := rest }) ∧
  ∀ s : State, s.pending = [] → step s = .next s

/-- What reset leaves (R43, R458, R70, R519): register fields at the values the spec gives for reset. That
queues, memories and tables list nothing is the model's form of what is empty or zero after reset (log entry 3). -/
def Obligations.ResetLeavesTheResetValues : Prop :=
  State.reset.tick = 0 ∧ State.reset.get IDENT_BOOT_phase = 0 ∧ State.reset.get BEAT_TICK_CTL_run = 0 ∧
  State.reset.get LINK_TLT_ETYPE_etype = 0x88B5 ∧ State.reset.get LINK_TLT_VER_enabled = 7 ∧
  (∀ n, n < 64 → State.reset.get (BEAT_STATS_LEN_marks n) = 100) ∧
  State.reset.pending = [] ∧ State.reset.cores = [] ∧ State.reset.bays = [] ∧ State.reset.job = none ∧ State.reset.net = []

/-- IDENT_CAP (R36): its fields at reset, the reserved bits among them, and that a write leaves the register as it is. -/
def Obligations.CapabilitiesAtReset : Prop :=
  State.reset.get IDENT_CAP_diloth_max = 3 ∧ State.reset.get IDENT_CAP_diloth_min = 2 ∧
  State.reset.get IDENT_CAP_tlt_versions = 7 ∧ bits (State.reset.rd IDENT_CAP) 3 13 = 0 ∧
  ∀ (acc : Nat) (v : Word) (s : State),
    Runs (.registerWrite acc none IDENT_CAP v 15) s fun t => t.rd IDENT_CAP = s.rd IDENT_CAP

/-- Every sparse memory of the state after reset is in canonical form. -/
def Obligations.ResetIsCanonical : Prop := State.reset.canonical = true

/-- Every step keeps the canonical form of every sparse memory: registers, accessor registers, scratchpads, control pages and Bays. -/
def Obligations.EveryStepKeepsCanonicalForm : Prop :=
  ∀ s t : State, s.canonical = true → step s = .next t → t.canonical = true

/-- No step lowers the rollback floor kept in flash (R528, R537). -/
def Obligations.RollbackFloorNeverFalls : Prop :=
  ∀ s t : State, step s = .next t → s.flash.floor ≤ t.flash.floor
end

