-- ==== Sys2Proof/Laws/Bits.lean ====
section
/-!
SUPPORT. The laws of bit fields and of the two kinds of sparse table: what a read after a write gives, and that writes
keep the canonical form.
-/

namespace Sys2Proof.Machine

variable {β : Type}

/-! ## Keyed tables -/

/-- A lookup after a write: the entry written at its key, what was there at every other key. -/
@[simp] theorem lookupD_put (d : β) (m : List (Nat × β)) (k : Nat) (v : β) (j : Nat) :
    lookupD d (put m k v) j = if j = k then v else lookupD d m j := by
  induction m with
  | nil => simp [put, lookupD, eq_comm]
  | cons e r ih =>
    obtain ⟨i, w⟩ := e
    simp only [put]
    split
    · simp [lookupD, eq_comm]
    split
    · subst_vars; simp only [lookupD, eq_comm]; split <;> rfl
    · simp only [lookupD, ih]; split
      next h => subst h; rw [if_neg (by omega)]
      next => rfl

@[simp] theorem lookup?_put (m : List (Nat × β)) (k : Nat) (v : β) (j : Nat) :
    lookup? (put m k v) j = if j = k then some v else lookup? m j := by
  induction m with
  | nil => simp [put, lookup?, eq_comm]
  | cons e r ih =>
    obtain ⟨i, w⟩ := e
    simp only [put]
    split
    · simp [lookup?, eq_comm]
    split
    · subst_vars; simp only [lookup?, eq_comm]; split <;> rfl
    · simp only [lookup?, ih]; split
      next h => subst h; rw [if_neg (by omega)]
      next => rfl

/-- Of two writes of one entry the later remains. -/
@[simp] theorem put_put (m : List (Nat × β)) (k : Nat) (v w : β) : put (put m k v) k w = put m k w := by
  induction m with
  | nil => simp [put]
  | cons e r ih =>
    obtain ⟨i, u⟩ := e
    simp only [put]
    split
    · simp [put]
    split
    · subst_vars; simp [put]
    · simp only [put, *, if_false]

/-- A lookup after a removal. -/
@[simp] theorem lookupD_del (d : β) (m : List (Nat × β)) (k j : Nat) :
    lookupD d (del m k) j = if j = k then d else lookupD d m j := by
  induction m with
  | nil => simp [del, lookupD]
  | cons e r ih =>
    obtain ⟨i, w⟩ := e
    simp only [del] at ih
    by_cases h : i = k
    · subst h; simp only [del, List.filter_cons, bne_self_eq_false, Bool.false_eq_true, if_false, ih, lookupD, eq_comm]
      split <;> rfl
    · simp only [del, List.filter_cons, bne_iff_ne, ne_eq, h, not_false_eq_true, if_true, lookupD, ih]
      split
      next hj => subst hj; rw [if_neg h]
      next => rfl

@[simp] theorem lookup?_del (m : List (Nat × β)) (k j : Nat) :
    lookup? (del m k) j = if j = k then none else lookup? m j := by
  induction m with
  | nil => simp [del, lookup?]
  | cons e r ih =>
    obtain ⟨i, w⟩ := e
    simp only [del] at ih
    by_cases h : i = k
    · subst h; simp only [del, List.filter_cons, bne_self_eq_false, Bool.false_eq_true, if_false, ih, lookup?, eq_comm]
      split <;> rfl
    · simp only [del, List.filter_cons, bne_iff_ne, ne_eq, h, not_false_eq_true, if_true, lookup?, ih]
      split
      next hj => subst hj; rw [if_neg h]
      next => rfl

/-! ## Sparse memories -/

theorem rdAt_put (d : Nat → β) (m : List (Nat × β)) (k : Nat) (v : β) (j : Nat) :
    rdAt d (put m k v) j = if j = k then v else rdAt d m j := by
  induction m with
  | nil => simp [put, rdAt, eq_comm]
  | cons e r ih =>
    obtain ⟨i, w⟩ := e
    simp only [put]
    split
    · simp [rdAt, eq_comm]
    split
    · subst_vars; simp only [rdAt, eq_comm]; split <;> rfl
    · simp only [rdAt, ih]; split
      next h => subst h; rw [if_neg (by omega)]
      next => rfl

theorem rdAt_del (d : Nat → β) (m : List (Nat × β)) (k j : Nat) :
    rdAt d (del m k) j = if j = k then d k else rdAt d m j := by
  induction m with
  | nil => simp only [del, List.filter_nil, rdAt]; split <;> simp_all
  | cons e r ih =>
    obtain ⟨i, w⟩ := e
    simp only [del] at ih
    by_cases h : i = k
    · subst h; simp only [del, List.filter_cons, bne_self_eq_false, Bool.false_eq_true, if_false, ih, rdAt, eq_comm]
      split <;> rfl
    · simp only [del, List.filter_cons, bne_iff_ne, ne_eq, h, not_false_eq_true, if_true, rdAt, ih]
      split
      next hj => subst hj; rw [if_neg h]
      next => rfl

/-- A read after a write: the value written at the key written, and what was there at every other key. -/
@[simp] theorem rdAt_wrAt [DecidableEq β] (d : Nat → β) (m : List (Nat × β)) (k : Nat) (v : β) (j : Nat) :
    rdAt d (wrAt d m k v) j = if j = k then v else rdAt d m j := by
  simp only [wrAt]; split
  next h => subst h; exact rdAt_del d m k j
  next => exact rdAt_put d m k v j

/-! ## The canonical form -/

theorem rising_tail {e : Nat × β} {r : List (Nat × β)} (h : rising (e :: r) = true) : rising r = true := by
  cases r with
  | nil => rfl
  | cons f r => simp only [rising, Bool.and_eq_true] at h; exact h.2

theorem rising_head_lt {e : Nat × β} {r : List (Nat × β)} (h : rising (e :: r) = true) : ∀ f ∈ r, e.1 < f.1 := by
  induction r generalizing e with
  | nil => simp
  | cons g r ih =>
    simp only [rising, Bool.and_eq_true, decide_eq_true_eq] at h
    intro f hf
    rcases List.mem_cons.1 hf with rfl | hf
    · exact h.1
    · exact Nat.lt_trans h.1 (ih h.2 f hf)

theorem rising_cons {e : Nat × β} {r : List (Nat × β)} (h : ∀ f ∈ r, e.1 < f.1) (hr : rising r = true) :
    rising (e :: r) = true := by
  cases r with
  | nil => rfl
  | cons f r => simp only [rising, Bool.and_eq_true, decide_eq_true_eq]; exact ⟨h f List.mem_cons_self, hr⟩

theorem mem_put {m : List (Nat × β)} {k : Nat} {v : β} {f : Nat × β} (hf : f ∈ put m k v) : f ∈ m ∨ f = (k, v) := by
  induction m with
  | nil => exact .inr (by simpa [put] using hf)
  | cons e r ih =>
    obtain ⟨i, w⟩ := e
    simp only [put] at hf
    repeat' split at hf
    · exact (List.mem_cons.1 hf).symm
    · exact (List.mem_cons.1 hf).symm.imp_left (List.mem_cons_of_mem _)
    · rcases List.mem_cons.1 hf with rfl | hf
      · exact .inl List.mem_cons_self
      · exact (ih hf).imp_left (List.mem_cons_of_mem _)

theorem rising_put {m : List (Nat × β)} (h : rising m = true) (k : Nat) (v : β) : rising (put m k v) = true := by
  induction m with
  | nil => rfl
  | cons e r ih =>
    obtain ⟨i, w⟩ := e
    have hlt := rising_head_lt h
    simp only [put]
    split
    next hk =>
      refine rising_cons (fun f hf => ?_) h
      rcases List.mem_cons.1 hf with rfl | hf
      · exact hk
      · exact Nat.lt_trans hk (hlt f hf)
    next hk =>
      split
      next hki => subst hki; exact rising_cons hlt (rising_tail h)
      next hki =>
        refine rising_cons (fun f hf => ?_) (ih (rising_tail h))
        rcases mem_put hf with hf | rfl
        · exact hlt f hf
        · simp only; omega

theorem rising_filter {m : List (Nat × β)} (h : rising m = true) (p : Nat × β → Bool) : rising (m.filter p) = true := by
  induction m with
  | nil => rfl
  | cons e r ih =>
    have hr := ih (rising_tail h)
    by_cases hp : p e = true
    · rw [List.filter_cons_of_pos hp]
      exact rising_cons (fun f hf => rising_head_lt h f (List.mem_of_mem_filter hf)) hr
    · rw [List.filter_cons_of_neg hp]; exact hr

theorem canon_iff [DecidableEq β] (d : Nat → β) (m : List (Nat × β)) :
    canon d m = true ↔ rising m = true ∧ ∀ e ∈ m, e.2 ≠ d e.1 := by
  simp [canon]

@[simp] theorem canon_nil [DecidableEq β] (d : Nat → β) : canon d [] = true := rfl

/-- Dropping entries keeps the canonical form. -/
theorem canon_filter [DecidableEq β] (d : Nat → β) {m : List (Nat × β)} (h : canon d m = true) (p : Nat × β → Bool) :
    canon d (m.filter p) = true := by
  rw [canon_iff] at h ⊢
  exact ⟨rising_filter h.1 p, fun e he => h.2 e (List.mem_of_mem_filter he)⟩

/-- A write keeps the canonical form. -/
theorem canon_wrAt [DecidableEq β] (d : Nat → β) {m : List (Nat × β)} (h : canon d m = true) (k : Nat) (v : β) :
    canon d (wrAt d m k v) = true := by
  simp only [wrAt]; split
  · exact canon_filter d h _
  · rename_i hv
    rw [canon_iff] at h ⊢
    refine ⟨rising_put h.1 k v, fun e he => ?_⟩
    rcases mem_put he with he | rfl
    · exact h.2 e he
    · exact hv

/-! ## Folds of a state change -/

/-- What every step of a fold keeps, the fold keeps. -/
theorem foldl_keeps {σ α : Type} (P : σ → Prop) {f : σ → α → σ} (hf : ∀ s a, P s → P (f s a)) :
    ∀ (l : List α) (s : σ), P s → P (l.foldl f s)
  | [], _, h => h
  | a :: r, s, h => foldl_keeps P hf r (f s a) (hf s a h)

/-- A reading that no step of a fold alters is the same after the fold. -/
theorem foldl_same {σ α γ : Type} (g : σ → γ) {f : σ → α → σ} (hf : ∀ s a, g (f s a) = g s) (l : List α) (s : σ) :
    g (l.foldl f s) = g s := foldl_keeps (fun t => g t = g s) (fun t a h => (hf t a).trans h) l s rfl

theorem each_foldl {σ α : Type} (f : α → σ → σ) : ∀ (l : List α) (s : σ), each f l s = l.foldl (fun t a => f a t) s
  | [], _ => rfl
  | a :: r, s => each_foldl f r (f a s)

/-- What every change of a list keeps, all of them keep. -/
theorem each_keeps {σ α : Type} (P : σ → Prop) {f : α → σ → σ} (hf : ∀ a s, P s → P (f a s)) (l : List α) (s : σ)
    (h : P s) : P (each f l s) := by
  rw [each_foldl]; exact foldl_keeps P (fun t a => hf a t) l s h

/-- A reading that no change of a list alters is the same after all of them. -/
theorem each_eq {σ α γ : Type} (g : σ → γ) {f : α → σ → σ} (hf : ∀ a s, g (f a s) = g s) (l : List α) (s : σ) :
    g (each f l s) = g s := by
  rw [each_foldl]; exact foldl_same g (fun t a => hf a t) l s

/-! ## Fields -/

theorem field_eq (w lo len : Nat) : field w lo len = w / 2 ^ lo % 2 ^ len := by
  simp [field, Nat.shiftRight_eq_div_pow]

theorem field_lt (w lo len : Nat) : field w lo len < 2 ^ len := Nat.mod_lt _ (Nat.two_pow_pos len)

/-- A field just written reads as what was written, cut to its width. -/
@[simp] theorem field_setField (w lo len v : Nat) : field (setField w lo len v) lo len = v % 2 ^ len := by
  have h0 : 0 < 2 ^ lo := Nat.two_pow_pos lo
  have h1 : (w >>> (lo + len)) * 2 ^ (lo + len) = (w >>> (lo + len)) * 2 ^ len * 2 ^ lo := by rw [Nat.pow_add]; ring
  have h2 : setField w lo len v = w % 2 ^ lo + (v % 2 ^ len + (w >>> (lo + len)) * 2 ^ len) * 2 ^ lo := by
    rw [setField, h1]; ring
  rw [field_eq, h2, Nat.add_mul_div_right _ _ h0, Nat.div_eq_of_lt (Nat.mod_lt _ h0), Nat.zero_add, Nat.add_mul_mod_self_right,
    Nat.mod_mod]

/-- A write of one field leaves every other bit as it was. -/
theorem testBit_setField (w lo len v i : Nat) :
    (setField w lo len v).testBit i = if i < lo then w.testBit i else if i < lo + len then v.testBit (i - lo) else w.testBit i := by
  have e : setField w lo len v = 2 ^ lo * (2 ^ len * (w >>> (lo + len)) + v % 2 ^ len) + w % 2 ^ lo := by
    rw [setField, Nat.pow_add]; ring
  rw [e, Nat.testBit_two_pow_mul_add _ (Nat.mod_lt _ (Nat.two_pow_pos lo))]
  split
  · rw [Nat.testBit_mod_two_pow]; simp [*]
  · rw [Nat.testBit_two_pow_mul_add _ (Nat.mod_lt _ (Nat.two_pow_pos len))]
    split
    · rw [if_pos (by omega), Nat.testBit_mod_two_pow]; simp [*]
    · rw [if_neg (by omega), Nat.testBit_shiftRight]; congr 1; omega

/-- A write of a field leaves every field that shares no bit with it as it was. -/
theorem field_setField_ne (w lo len v lo' len' : Nat) (h : lo' + len' ≤ lo ∨ lo + len ≤ lo') :
    field (setField w lo len v) lo' len' = field w lo' len' := by
  refine Nat.eq_of_testBit_eq fun i => ?_
  simp only [field, Nat.testBit_mod_two_pow, Nat.testBit_shiftRight, testBit_setField]
  by_cases hi : i < len'
  · simp only [hi, decide_true, Bool.true_and]
    split
    · rfl
    · rw [if_neg (by omega)]
  · simp [hi]

theorem setField_lt (w lo len v n : Nat) (hw : w < 2 ^ n) (h : lo + len ≤ n) : setField w lo len v < 2 ^ n := by
  refine Nat.lt_pow_two_of_testBit _ fun i hi => ?_
  rw [testBit_setField, if_neg (by omega), if_neg (by omega)]
  exact Nat.testBit_lt_two_pow (Nat.lt_of_lt_of_le hw (Nat.pow_le_pow_right (by omega) hi))

/-- A field of a word just written reads as what was written, cut to its width. -/
theorem bits_setBits {n : Nat} (w : BitVec n) (lo len v : Nat) (h : lo + len ≤ n) :
    bits (setBits w lo len v) lo len = v % 2 ^ len := by
  rw [bits, setBits, BitVec.toNat_ofNat, Nat.mod_eq_of_lt (setField_lt _ _ _ _ _ w.isLt h), field_setField]

/-- A write of a field leaves every field of the word that shares no bit with it as it was. -/
theorem bits_setBits_ne {n : Nat} (w : BitVec n) (lo len v lo' len' : Nat) (h : lo + len ≤ n)
    (h' : lo' + len' ≤ lo ∨ lo + len ≤ lo') : bits (setBits w lo len v) lo' len' = bits w lo' len' := by
  rw [bits, setBits, BitVec.toNat_ofNat, Nat.mod_eq_of_lt (setField_lt _ _ _ _ _ w.isLt h), field_setField_ne _ _ _ _ _ _ h', bits]

end Sys2Proof.Machine
end

