-- ==== Sys2Proof/Laws/State.lean ====
section
/-!
SUPPORT. The laws of the state's updates: for each update and each field it does not write, that the field is unchanged;
then what a read after a write gives.
-/

namespace Sys2Proof.Machine

variable (s : State)

@[simp] theorem State.wr_pending (a : Nat) (v : Word) : (s.wr a v).pending = s.pending := rfl
@[simp] theorem State.wr_outbox (a : Nat) (v : Word) : (s.wr a v).outbox = s.outbox := rfl
@[simp] theorem State.wr_oracle (a : Nat) (v : Word) : (s.wr a v).oracle = s.oracle := rfl
@[simp] theorem State.wr_tick (a : Nat) (v : Word) : (s.wr a v).tick = s.tick := rfl
@[simp] theorem State.wr_cycle (a : Nat) (v : Word) : (s.wr a v).cycle = s.cycle := rfl
@[simp] theorem State.wr_banked (a : Nat) (v : Word) : (s.wr a v).banked = s.banked := rfl
@[simp] theorem State.wr_latches (a : Nat) (v : Word) : (s.wr a v).latches = s.latches := rfl
@[simp] theorem State.wr_inv (a : Nat) (v : Word) : (s.wr a v).inv = s.inv := rfl
@[simp] theorem State.wr_parts (a : Nat) (v : Word) : (s.wr a v).parts = s.parts := rfl
@[simp] theorem State.wr_cores (a : Nat) (v : Word) : (s.wr a v).cores = s.cores := rfl
@[simp] theorem State.wr_net (a : Nat) (v : Word) : (s.wr a v).net = s.net := rfl
@[simp] theorem State.wr_lanes (a : Nat) (v : Word) : (s.wr a v).lanes = s.lanes := rfl
@[simp] theorem State.wr_watch (a : Nat) (v : Word) : (s.wr a v).watch = s.watch := rfl
@[simp] theorem State.wr_rtDef (a : Nat) (v : Word) : (s.wr a v).rtDef = s.rtDef := rfl
@[simp] theorem State.wr_xlat (a : Nat) (v : Word) : (s.wr a v).xlat = s.xlat := rfl
@[simp] theorem State.wr_credits (a : Nat) (v : Word) : (s.wr a v).credits = s.credits := rfl
@[simp] theorem State.wr_ovr (a : Nat) (v : Word) : (s.wr a v).ovr = s.ovr := rfl
@[simp] theorem State.wr_overAt (a : Nat) (v : Word) : (s.wr a v).overAt = s.overAt := rfl
@[simp] theorem State.wr_turns (a : Nat) (v : Word) : (s.wr a v).turns = s.turns := rfl
@[simp] theorem State.wr_rotors (a : Nat) (v : Word) : (s.wr a v).rotors = s.rotors := rfl
@[simp] theorem State.wr_classTurn (a : Nat) (v : Word) : (s.wr a v).classTurn = s.classTurn := rfl
@[simp] theorem State.wr_bays (a : Nat) (v : Word) : (s.wr a v).bays = s.bays := rfl
@[simp] theorem State.wr_retiring (a : Nat) (v : Word) : (s.wr a v).retiring = s.retiring := rfl
@[simp] theorem State.wr_reports (a : Nat) (v : Word) : (s.wr a v).reports = s.reports := rfl
@[simp] theorem State.wr_homes (a : Nat) (v : Word) : (s.wr a v).homes = s.homes := rfl
@[simp] theorem State.wr_job (a : Nat) (v : Word) : (s.wr a v).job = s.job := rfl
@[simp] theorem State.wr_serving (a : Nat) (v : Word) : (s.wr a v).serving = s.serving := rfl
@[simp] theorem State.wr_wreqs (a : Nat) (v : Word) : (s.wr a v).wreqs = s.wreqs := rfl
@[simp] theorem State.wr_ports (a : Nat) (v : Word) : (s.wr a v).ports = s.ports := rfl
@[simp] theorem State.wr_conns (a : Nat) (v : Word) : (s.wr a v).conns = s.conns := rfl
@[simp] theorem State.wr_rx (a : Nat) (v : Word) : (s.wr a v).rx = s.rx := rfl
@[simp] theorem State.wr_frameNo (a : Nat) (v : Word) : (s.wr a v).frameNo = s.frameNo := rfl
@[simp] theorem State.wr_seen (a : Nat) (v : Word) : (s.wr a v).seen = s.seen := rfl
@[simp] theorem State.wr_sync (a : Nat) (v : Word) : (s.wr a v).sync = s.sync := rfl
@[simp] theorem State.wr_reqs (a : Nat) (v : Word) : (s.wr a v).reqs = s.reqs := rfl
@[simp] theorem State.wr_tenants (a : Nat) (v : Word) : (s.wr a v).tenants = s.tenants := rfl
@[simp] theorem State.wr_tenHeld (a : Nat) (v : Word) : (s.wr a v).tenHeld = s.tenHeld := rfl
@[simp] theorem State.wr_windows (a : Nat) (v : Word) : (s.wr a v).windows = s.windows := rfl
@[simp] theorem State.wr_bridge (a : Nat) (v : Word) : (s.wr a v).bridge = s.bridge := rfl
@[simp] theorem State.wr_pfxs (a : Nat) (v : Word) : (s.wr a v).pfxs = s.pfxs := rfl
@[simp] theorem State.wr_adps (a : Nat) (v : Word) : (s.wr a v).adps = s.adps := rfl
@[simp] theorem State.wr_peers (a : Nat) (v : Word) : (s.wr a v).peers = s.peers := rfl
@[simp] theorem State.wr_shipNo (a : Nat) (v : Word) : (s.wr a v).shipNo = s.shipNo := rfl
@[simp] theorem State.wr_shipOut (a : Nat) (v : Word) : (s.wr a v).shipOut = s.shipOut := rfl
@[simp] theorem State.wr_shipIn (a : Nat) (v : Word) : (s.wr a v).shipIn = s.shipIn := rfl
@[simp] theorem State.wr_shipWait (a : Nat) (v : Word) : (s.wr a v).shipWait = s.shipWait := rfl
@[simp] theorem State.wr_kept (a : Nat) (v : Word) : (s.wr a v).kept = s.kept := rfl
@[simp] theorem State.wr_evc (a : Nat) (v : Word) : (s.wr a v).evc = s.evc := rfl
@[simp] theorem State.wr_hb (a : Nat) (v : Word) : (s.wr a v).hb = s.hb := rfl
@[simp] theorem State.wr_sage (a : Nat) (v : Word) : (s.wr a v).sage = s.sage := rfl
@[simp] theorem State.wr_pwr (a : Nat) (v : Word) : (s.wr a v).pwr = s.pwr := rfl
@[simp] theorem State.wr_flash (a : Nat) (v : Word) : (s.wr a v).flash = s.flash := rfl
@[simp] theorem State.wr_fw (a : Nat) (v : Word) : (s.wr a v).fw = s.fw := rfl
@[simp] theorem State.wr_jtag (a : Nat) (v : Word) : (s.wr a v).jtag = s.jtag := rfl
@[simp] theorem State.wr_now (a : Nat) (v : Word) : (s.wr a v).now = s.now := rfl

@[simp] theorem State.set_pending (f : FieldRef) (v : Nat) : (s.set f v).pending = s.pending := rfl
@[simp] theorem State.set_outbox (f : FieldRef) (v : Nat) : (s.set f v).outbox = s.outbox := rfl
@[simp] theorem State.set_oracle (f : FieldRef) (v : Nat) : (s.set f v).oracle = s.oracle := rfl
@[simp] theorem State.set_tick (f : FieldRef) (v : Nat) : (s.set f v).tick = s.tick := rfl
@[simp] theorem State.set_cycle (f : FieldRef) (v : Nat) : (s.set f v).cycle = s.cycle := rfl
@[simp] theorem State.set_banked (f : FieldRef) (v : Nat) : (s.set f v).banked = s.banked := rfl
@[simp] theorem State.set_latches (f : FieldRef) (v : Nat) : (s.set f v).latches = s.latches := rfl
@[simp] theorem State.set_inv (f : FieldRef) (v : Nat) : (s.set f v).inv = s.inv := rfl
@[simp] theorem State.set_parts (f : FieldRef) (v : Nat) : (s.set f v).parts = s.parts := rfl
@[simp] theorem State.set_cores (f : FieldRef) (v : Nat) : (s.set f v).cores = s.cores := rfl
@[simp] theorem State.set_net (f : FieldRef) (v : Nat) : (s.set f v).net = s.net := rfl
@[simp] theorem State.set_lanes (f : FieldRef) (v : Nat) : (s.set f v).lanes = s.lanes := rfl
@[simp] theorem State.set_watch (f : FieldRef) (v : Nat) : (s.set f v).watch = s.watch := rfl
@[simp] theorem State.set_rtDef (f : FieldRef) (v : Nat) : (s.set f v).rtDef = s.rtDef := rfl
@[simp] theorem State.set_xlat (f : FieldRef) (v : Nat) : (s.set f v).xlat = s.xlat := rfl
@[simp] theorem State.set_credits (f : FieldRef) (v : Nat) : (s.set f v).credits = s.credits := rfl
@[simp] theorem State.set_ovr (f : FieldRef) (v : Nat) : (s.set f v).ovr = s.ovr := rfl
@[simp] theorem State.set_overAt (f : FieldRef) (v : Nat) : (s.set f v).overAt = s.overAt := rfl
@[simp] theorem State.set_turns (f : FieldRef) (v : Nat) : (s.set f v).turns = s.turns := rfl
@[simp] theorem State.set_rotors (f : FieldRef) (v : Nat) : (s.set f v).rotors = s.rotors := rfl
@[simp] theorem State.set_classTurn (f : FieldRef) (v : Nat) : (s.set f v).classTurn = s.classTurn := rfl
@[simp] theorem State.set_bays (f : FieldRef) (v : Nat) : (s.set f v).bays = s.bays := rfl
@[simp] theorem State.set_retiring (f : FieldRef) (v : Nat) : (s.set f v).retiring = s.retiring := rfl
@[simp] theorem State.set_reports (f : FieldRef) (v : Nat) : (s.set f v).reports = s.reports := rfl
@[simp] theorem State.set_homes (f : FieldRef) (v : Nat) : (s.set f v).homes = s.homes := rfl
@[simp] theorem State.set_job (f : FieldRef) (v : Nat) : (s.set f v).job = s.job := rfl
@[simp] theorem State.set_serving (f : FieldRef) (v : Nat) : (s.set f v).serving = s.serving := rfl
@[simp] theorem State.set_wreqs (f : FieldRef) (v : Nat) : (s.set f v).wreqs = s.wreqs := rfl
@[simp] theorem State.set_ports (f : FieldRef) (v : Nat) : (s.set f v).ports = s.ports := rfl
@[simp] theorem State.set_conns (f : FieldRef) (v : Nat) : (s.set f v).conns = s.conns := rfl
@[simp] theorem State.set_rx (f : FieldRef) (v : Nat) : (s.set f v).rx = s.rx := rfl
@[simp] theorem State.set_frameNo (f : FieldRef) (v : Nat) : (s.set f v).frameNo = s.frameNo := rfl
@[simp] theorem State.set_seen (f : FieldRef) (v : Nat) : (s.set f v).seen = s.seen := rfl
@[simp] theorem State.set_sync (f : FieldRef) (v : Nat) : (s.set f v).sync = s.sync := rfl
@[simp] theorem State.set_reqs (f : FieldRef) (v : Nat) : (s.set f v).reqs = s.reqs := rfl
@[simp] theorem State.set_tenants (f : FieldRef) (v : Nat) : (s.set f v).tenants = s.tenants := rfl
@[simp] theorem State.set_tenHeld (f : FieldRef) (v : Nat) : (s.set f v).tenHeld = s.tenHeld := rfl
@[simp] theorem State.set_windows (f : FieldRef) (v : Nat) : (s.set f v).windows = s.windows := rfl
@[simp] theorem State.set_bridge (f : FieldRef) (v : Nat) : (s.set f v).bridge = s.bridge := rfl
@[simp] theorem State.set_pfxs (f : FieldRef) (v : Nat) : (s.set f v).pfxs = s.pfxs := rfl
@[simp] theorem State.set_adps (f : FieldRef) (v : Nat) : (s.set f v).adps = s.adps := rfl
@[simp] theorem State.set_peers (f : FieldRef) (v : Nat) : (s.set f v).peers = s.peers := rfl
@[simp] theorem State.set_shipNo (f : FieldRef) (v : Nat) : (s.set f v).shipNo = s.shipNo := rfl
@[simp] theorem State.set_shipOut (f : FieldRef) (v : Nat) : (s.set f v).shipOut = s.shipOut := rfl
@[simp] theorem State.set_shipIn (f : FieldRef) (v : Nat) : (s.set f v).shipIn = s.shipIn := rfl
@[simp] theorem State.set_shipWait (f : FieldRef) (v : Nat) : (s.set f v).shipWait = s.shipWait := rfl
@[simp] theorem State.set_kept (f : FieldRef) (v : Nat) : (s.set f v).kept = s.kept := rfl
@[simp] theorem State.set_evc (f : FieldRef) (v : Nat) : (s.set f v).evc = s.evc := rfl
@[simp] theorem State.set_hb (f : FieldRef) (v : Nat) : (s.set f v).hb = s.hb := rfl
@[simp] theorem State.set_sage (f : FieldRef) (v : Nat) : (s.set f v).sage = s.sage := rfl
@[simp] theorem State.set_pwr (f : FieldRef) (v : Nat) : (s.set f v).pwr = s.pwr := rfl
@[simp] theorem State.set_flash (f : FieldRef) (v : Nat) : (s.set f v).flash = s.flash := rfl
@[simp] theorem State.set_fw (f : FieldRef) (v : Nat) : (s.set f v).fw = s.fw := rfl
@[simp] theorem State.set_jtag (f : FieldRef) (v : Nat) : (s.set f v).jtag = s.jtag := rfl
@[simp] theorem State.set_now (f : FieldRef) (v : Nat) : (s.set f v).now = s.now := rfl

@[simp] theorem State.setOn_pending (f : FieldRef) (b : Bool) : (s.setOn f b).pending = s.pending := rfl
@[simp] theorem State.setOn_outbox (f : FieldRef) (b : Bool) : (s.setOn f b).outbox = s.outbox := rfl
@[simp] theorem State.setOn_oracle (f : FieldRef) (b : Bool) : (s.setOn f b).oracle = s.oracle := rfl
@[simp] theorem State.setOn_tick (f : FieldRef) (b : Bool) : (s.setOn f b).tick = s.tick := rfl
@[simp] theorem State.setOn_cycle (f : FieldRef) (b : Bool) : (s.setOn f b).cycle = s.cycle := rfl
@[simp] theorem State.setOn_banked (f : FieldRef) (b : Bool) : (s.setOn f b).banked = s.banked := rfl
@[simp] theorem State.setOn_latches (f : FieldRef) (b : Bool) : (s.setOn f b).latches = s.latches := rfl
@[simp] theorem State.setOn_inv (f : FieldRef) (b : Bool) : (s.setOn f b).inv = s.inv := rfl
@[simp] theorem State.setOn_parts (f : FieldRef) (b : Bool) : (s.setOn f b).parts = s.parts := rfl
@[simp] theorem State.setOn_cores (f : FieldRef) (b : Bool) : (s.setOn f b).cores = s.cores := rfl
@[simp] theorem State.setOn_net (f : FieldRef) (b : Bool) : (s.setOn f b).net = s.net := rfl
@[simp] theorem State.setOn_lanes (f : FieldRef) (b : Bool) : (s.setOn f b).lanes = s.lanes := rfl
@[simp] theorem State.setOn_watch (f : FieldRef) (b : Bool) : (s.setOn f b).watch = s.watch := rfl
@[simp] theorem State.setOn_rtDef (f : FieldRef) (b : Bool) : (s.setOn f b).rtDef = s.rtDef := rfl
@[simp] theorem State.setOn_xlat (f : FieldRef) (b : Bool) : (s.setOn f b).xlat = s.xlat := rfl
@[simp] theorem State.setOn_credits (f : FieldRef) (b : Bool) : (s.setOn f b).credits = s.credits := rfl
@[simp] theorem State.setOn_ovr (f : FieldRef) (b : Bool) : (s.setOn f b).ovr = s.ovr := rfl
@[simp] theorem State.setOn_overAt (f : FieldRef) (b : Bool) : (s.setOn f b).overAt = s.overAt := rfl
@[simp] theorem State.setOn_turns (f : FieldRef) (b : Bool) : (s.setOn f b).turns = s.turns := rfl
@[simp] theorem State.setOn_rotors (f : FieldRef) (b : Bool) : (s.setOn f b).rotors = s.rotors := rfl
@[simp] theorem State.setOn_classTurn (f : FieldRef) (b : Bool) : (s.setOn f b).classTurn = s.classTurn := rfl
@[simp] theorem State.setOn_bays (f : FieldRef) (b : Bool) : (s.setOn f b).bays = s.bays := rfl
@[simp] theorem State.setOn_retiring (f : FieldRef) (b : Bool) : (s.setOn f b).retiring = s.retiring := rfl
@[simp] theorem State.setOn_reports (f : FieldRef) (b : Bool) : (s.setOn f b).reports = s.reports := rfl
@[simp] theorem State.setOn_homes (f : FieldRef) (b : Bool) : (s.setOn f b).homes = s.homes := rfl
@[simp] theorem State.setOn_job (f : FieldRef) (b : Bool) : (s.setOn f b).job = s.job := rfl
@[simp] theorem State.setOn_serving (f : FieldRef) (b : Bool) : (s.setOn f b).serving = s.serving := rfl
@[simp] theorem State.setOn_wreqs (f : FieldRef) (b : Bool) : (s.setOn f b).wreqs = s.wreqs := rfl
@[simp] theorem State.setOn_ports (f : FieldRef) (b : Bool) : (s.setOn f b).ports = s.ports := rfl
@[simp] theorem State.setOn_conns (f : FieldRef) (b : Bool) : (s.setOn f b).conns = s.conns := rfl
@[simp] theorem State.setOn_rx (f : FieldRef) (b : Bool) : (s.setOn f b).rx = s.rx := rfl
@[simp] theorem State.setOn_frameNo (f : FieldRef) (b : Bool) : (s.setOn f b).frameNo = s.frameNo := rfl
@[simp] theorem State.setOn_seen (f : FieldRef) (b : Bool) : (s.setOn f b).seen = s.seen := rfl
@[simp] theorem State.setOn_sync (f : FieldRef) (b : Bool) : (s.setOn f b).sync = s.sync := rfl
@[simp] theorem State.setOn_reqs (f : FieldRef) (b : Bool) : (s.setOn f b).reqs = s.reqs := rfl
@[simp] theorem State.setOn_tenants (f : FieldRef) (b : Bool) : (s.setOn f b).tenants = s.tenants := rfl
@[simp] theorem State.setOn_tenHeld (f : FieldRef) (b : Bool) : (s.setOn f b).tenHeld = s.tenHeld := rfl
@[simp] theorem State.setOn_windows (f : FieldRef) (b : Bool) : (s.setOn f b).windows = s.windows := rfl
@[simp] theorem State.setOn_bridge (f : FieldRef) (b : Bool) : (s.setOn f b).bridge = s.bridge := rfl
@[simp] theorem State.setOn_pfxs (f : FieldRef) (b : Bool) : (s.setOn f b).pfxs = s.pfxs := rfl
@[simp] theorem State.setOn_adps (f : FieldRef) (b : Bool) : (s.setOn f b).adps = s.adps := rfl
@[simp] theorem State.setOn_peers (f : FieldRef) (b : Bool) : (s.setOn f b).peers = s.peers := rfl
@[simp] theorem State.setOn_shipNo (f : FieldRef) (b : Bool) : (s.setOn f b).shipNo = s.shipNo := rfl
@[simp] theorem State.setOn_shipOut (f : FieldRef) (b : Bool) : (s.setOn f b).shipOut = s.shipOut := rfl
@[simp] theorem State.setOn_shipIn (f : FieldRef) (b : Bool) : (s.setOn f b).shipIn = s.shipIn := rfl
@[simp] theorem State.setOn_shipWait (f : FieldRef) (b : Bool) : (s.setOn f b).shipWait = s.shipWait := rfl
@[simp] theorem State.setOn_kept (f : FieldRef) (b : Bool) : (s.setOn f b).kept = s.kept := rfl
@[simp] theorem State.setOn_evc (f : FieldRef) (b : Bool) : (s.setOn f b).evc = s.evc := rfl
@[simp] theorem State.setOn_hb (f : FieldRef) (b : Bool) : (s.setOn f b).hb = s.hb := rfl
@[simp] theorem State.setOn_sage (f : FieldRef) (b : Bool) : (s.setOn f b).sage = s.sage := rfl
@[simp] theorem State.setOn_pwr (f : FieldRef) (b : Bool) : (s.setOn f b).pwr = s.pwr := rfl
@[simp] theorem State.setOn_flash (f : FieldRef) (b : Bool) : (s.setOn f b).flash = s.flash := rfl
@[simp] theorem State.setOn_fw (f : FieldRef) (b : Bool) : (s.setOn f b).fw = s.fw := rfl
@[simp] theorem State.setOn_jtag (f : FieldRef) (b : Bool) : (s.setOn f b).jtag = s.jtag := rfl
@[simp] theorem State.setOn_now (f : FieldRef) (b : Bool) : (s.setOn f b).now = s.now := rfl

@[simp] theorem State.bump_pending (f : FieldRef) (n : Nat) : (s.bump f n).pending = s.pending := rfl
@[simp] theorem State.bump_outbox (f : FieldRef) (n : Nat) : (s.bump f n).outbox = s.outbox := rfl
@[simp] theorem State.bump_oracle (f : FieldRef) (n : Nat) : (s.bump f n).oracle = s.oracle := rfl
@[simp] theorem State.bump_tick (f : FieldRef) (n : Nat) : (s.bump f n).tick = s.tick := rfl
@[simp] theorem State.bump_cycle (f : FieldRef) (n : Nat) : (s.bump f n).cycle = s.cycle := rfl
@[simp] theorem State.bump_banked (f : FieldRef) (n : Nat) : (s.bump f n).banked = s.banked := rfl
@[simp] theorem State.bump_latches (f : FieldRef) (n : Nat) : (s.bump f n).latches = s.latches := rfl
@[simp] theorem State.bump_inv (f : FieldRef) (n : Nat) : (s.bump f n).inv = s.inv := rfl
@[simp] theorem State.bump_parts (f : FieldRef) (n : Nat) : (s.bump f n).parts = s.parts := rfl
@[simp] theorem State.bump_cores (f : FieldRef) (n : Nat) : (s.bump f n).cores = s.cores := rfl
@[simp] theorem State.bump_net (f : FieldRef) (n : Nat) : (s.bump f n).net = s.net := rfl
@[simp] theorem State.bump_lanes (f : FieldRef) (n : Nat) : (s.bump f n).lanes = s.lanes := rfl
@[simp] theorem State.bump_watch (f : FieldRef) (n : Nat) : (s.bump f n).watch = s.watch := rfl
@[simp] theorem State.bump_rtDef (f : FieldRef) (n : Nat) : (s.bump f n).rtDef = s.rtDef := rfl
@[simp] theorem State.bump_xlat (f : FieldRef) (n : Nat) : (s.bump f n).xlat = s.xlat := rfl
@[simp] theorem State.bump_credits (f : FieldRef) (n : Nat) : (s.bump f n).credits = s.credits := rfl
@[simp] theorem State.bump_ovr (f : FieldRef) (n : Nat) : (s.bump f n).ovr = s.ovr := rfl
@[simp] theorem State.bump_overAt (f : FieldRef) (n : Nat) : (s.bump f n).overAt = s.overAt := rfl
@[simp] theorem State.bump_turns (f : FieldRef) (n : Nat) : (s.bump f n).turns = s.turns := rfl
@[simp] theorem State.bump_rotors (f : FieldRef) (n : Nat) : (s.bump f n).rotors = s.rotors := rfl
@[simp] theorem State.bump_classTurn (f : FieldRef) (n : Nat) : (s.bump f n).classTurn = s.classTurn := rfl
@[simp] theorem State.bump_bays (f : FieldRef) (n : Nat) : (s.bump f n).bays = s.bays := rfl
@[simp] theorem State.bump_retiring (f : FieldRef) (n : Nat) : (s.bump f n).retiring = s.retiring := rfl
@[simp] theorem State.bump_reports (f : FieldRef) (n : Nat) : (s.bump f n).reports = s.reports := rfl
@[simp] theorem State.bump_homes (f : FieldRef) (n : Nat) : (s.bump f n).homes = s.homes := rfl
@[simp] theorem State.bump_job (f : FieldRef) (n : Nat) : (s.bump f n).job = s.job := rfl
@[simp] theorem State.bump_serving (f : FieldRef) (n : Nat) : (s.bump f n).serving = s.serving := rfl
@[simp] theorem State.bump_wreqs (f : FieldRef) (n : Nat) : (s.bump f n).wreqs = s.wreqs := rfl
@[simp] theorem State.bump_ports (f : FieldRef) (n : Nat) : (s.bump f n).ports = s.ports := rfl
@[simp] theorem State.bump_conns (f : FieldRef) (n : Nat) : (s.bump f n).conns = s.conns := rfl
@[simp] theorem State.bump_rx (f : FieldRef) (n : Nat) : (s.bump f n).rx = s.rx := rfl
@[simp] theorem State.bump_frameNo (f : FieldRef) (n : Nat) : (s.bump f n).frameNo = s.frameNo := rfl
@[simp] theorem State.bump_seen (f : FieldRef) (n : Nat) : (s.bump f n).seen = s.seen := rfl
@[simp] theorem State.bump_sync (f : FieldRef) (n : Nat) : (s.bump f n).sync = s.sync := rfl
@[simp] theorem State.bump_reqs (f : FieldRef) (n : Nat) : (s.bump f n).reqs = s.reqs := rfl
@[simp] theorem State.bump_tenants (f : FieldRef) (n : Nat) : (s.bump f n).tenants = s.tenants := rfl
@[simp] theorem State.bump_tenHeld (f : FieldRef) (n : Nat) : (s.bump f n).tenHeld = s.tenHeld := rfl
@[simp] theorem State.bump_windows (f : FieldRef) (n : Nat) : (s.bump f n).windows = s.windows := rfl
@[simp] theorem State.bump_bridge (f : FieldRef) (n : Nat) : (s.bump f n).bridge = s.bridge := rfl
@[simp] theorem State.bump_pfxs (f : FieldRef) (n : Nat) : (s.bump f n).pfxs = s.pfxs := rfl
@[simp] theorem State.bump_adps (f : FieldRef) (n : Nat) : (s.bump f n).adps = s.adps := rfl
@[simp] theorem State.bump_peers (f : FieldRef) (n : Nat) : (s.bump f n).peers = s.peers := rfl
@[simp] theorem State.bump_shipNo (f : FieldRef) (n : Nat) : (s.bump f n).shipNo = s.shipNo := rfl
@[simp] theorem State.bump_shipOut (f : FieldRef) (n : Nat) : (s.bump f n).shipOut = s.shipOut := rfl
@[simp] theorem State.bump_shipIn (f : FieldRef) (n : Nat) : (s.bump f n).shipIn = s.shipIn := rfl
@[simp] theorem State.bump_shipWait (f : FieldRef) (n : Nat) : (s.bump f n).shipWait = s.shipWait := rfl
@[simp] theorem State.bump_kept (f : FieldRef) (n : Nat) : (s.bump f n).kept = s.kept := rfl
@[simp] theorem State.bump_evc (f : FieldRef) (n : Nat) : (s.bump f n).evc = s.evc := rfl
@[simp] theorem State.bump_hb (f : FieldRef) (n : Nat) : (s.bump f n).hb = s.hb := rfl
@[simp] theorem State.bump_sage (f : FieldRef) (n : Nat) : (s.bump f n).sage = s.sage := rfl
@[simp] theorem State.bump_pwr (f : FieldRef) (n : Nat) : (s.bump f n).pwr = s.pwr := rfl
@[simp] theorem State.bump_flash (f : FieldRef) (n : Nat) : (s.bump f n).flash = s.flash := rfl
@[simp] theorem State.bump_fw (f : FieldRef) (n : Nat) : (s.bump f n).fw = s.fw := rfl
@[simp] theorem State.bump_jtag (f : FieldRef) (n : Nat) : (s.bump f n).jtag = s.jtag := rfl

@[simp] theorem State.incr_pending (f : FieldRef) : (s.incr f).pending = s.pending := rfl
@[simp] theorem State.incr_outbox (f : FieldRef) : (s.incr f).outbox = s.outbox := rfl
@[simp] theorem State.incr_oracle (f : FieldRef) : (s.incr f).oracle = s.oracle := rfl
@[simp] theorem State.incr_tick (f : FieldRef) : (s.incr f).tick = s.tick := rfl
@[simp] theorem State.incr_cycle (f : FieldRef) : (s.incr f).cycle = s.cycle := rfl
@[simp] theorem State.incr_banked (f : FieldRef) : (s.incr f).banked = s.banked := rfl
@[simp] theorem State.incr_latches (f : FieldRef) : (s.incr f).latches = s.latches := rfl
@[simp] theorem State.incr_inv (f : FieldRef) : (s.incr f).inv = s.inv := rfl
@[simp] theorem State.incr_parts (f : FieldRef) : (s.incr f).parts = s.parts := rfl
@[simp] theorem State.incr_cores (f : FieldRef) : (s.incr f).cores = s.cores := rfl
@[simp] theorem State.incr_net (f : FieldRef) : (s.incr f).net = s.net := rfl
@[simp] theorem State.incr_lanes (f : FieldRef) : (s.incr f).lanes = s.lanes := rfl
@[simp] theorem State.incr_watch (f : FieldRef) : (s.incr f).watch = s.watch := rfl
@[simp] theorem State.incr_rtDef (f : FieldRef) : (s.incr f).rtDef = s.rtDef := rfl
@[simp] theorem State.incr_xlat (f : FieldRef) : (s.incr f).xlat = s.xlat := rfl
@[simp] theorem State.incr_credits (f : FieldRef) : (s.incr f).credits = s.credits := rfl
@[simp] theorem State.incr_ovr (f : FieldRef) : (s.incr f).ovr = s.ovr := rfl
@[simp] theorem State.incr_overAt (f : FieldRef) : (s.incr f).overAt = s.overAt := rfl
@[simp] theorem State.incr_turns (f : FieldRef) : (s.incr f).turns = s.turns := rfl
@[simp] theorem State.incr_rotors (f : FieldRef) : (s.incr f).rotors = s.rotors := rfl
@[simp] theorem State.incr_classTurn (f : FieldRef) : (s.incr f).classTurn = s.classTurn := rfl
@[simp] theorem State.incr_bays (f : FieldRef) : (s.incr f).bays = s.bays := rfl
@[simp] theorem State.incr_retiring (f : FieldRef) : (s.incr f).retiring = s.retiring := rfl
@[simp] theorem State.incr_reports (f : FieldRef) : (s.incr f).reports = s.reports := rfl
@[simp] theorem State.incr_homes (f : FieldRef) : (s.incr f).homes = s.homes := rfl
@[simp] theorem State.incr_job (f : FieldRef) : (s.incr f).job = s.job := rfl
@[simp] theorem State.incr_serving (f : FieldRef) : (s.incr f).serving = s.serving := rfl
@[simp] theorem State.incr_wreqs (f : FieldRef) : (s.incr f).wreqs = s.wreqs := rfl
@[simp] theorem State.incr_ports (f : FieldRef) : (s.incr f).ports = s.ports := rfl
@[simp] theorem State.incr_conns (f : FieldRef) : (s.incr f).conns = s.conns := rfl
@[simp] theorem State.incr_rx (f : FieldRef) : (s.incr f).rx = s.rx := rfl
@[simp] theorem State.incr_frameNo (f : FieldRef) : (s.incr f).frameNo = s.frameNo := rfl
@[simp] theorem State.incr_seen (f : FieldRef) : (s.incr f).seen = s.seen := rfl
@[simp] theorem State.incr_sync (f : FieldRef) : (s.incr f).sync = s.sync := rfl
@[simp] theorem State.incr_reqs (f : FieldRef) : (s.incr f).reqs = s.reqs := rfl
@[simp] theorem State.incr_tenants (f : FieldRef) : (s.incr f).tenants = s.tenants := rfl
@[simp] theorem State.incr_tenHeld (f : FieldRef) : (s.incr f).tenHeld = s.tenHeld := rfl
@[simp] theorem State.incr_windows (f : FieldRef) : (s.incr f).windows = s.windows := rfl
@[simp] theorem State.incr_bridge (f : FieldRef) : (s.incr f).bridge = s.bridge := rfl
@[simp] theorem State.incr_pfxs (f : FieldRef) : (s.incr f).pfxs = s.pfxs := rfl
@[simp] theorem State.incr_adps (f : FieldRef) : (s.incr f).adps = s.adps := rfl
@[simp] theorem State.incr_peers (f : FieldRef) : (s.incr f).peers = s.peers := rfl
@[simp] theorem State.incr_shipNo (f : FieldRef) : (s.incr f).shipNo = s.shipNo := rfl
@[simp] theorem State.incr_shipOut (f : FieldRef) : (s.incr f).shipOut = s.shipOut := rfl
@[simp] theorem State.incr_shipIn (f : FieldRef) : (s.incr f).shipIn = s.shipIn := rfl
@[simp] theorem State.incr_shipWait (f : FieldRef) : (s.incr f).shipWait = s.shipWait := rfl
@[simp] theorem State.incr_kept (f : FieldRef) : (s.incr f).kept = s.kept := rfl
@[simp] theorem State.incr_evc (f : FieldRef) : (s.incr f).evc = s.evc := rfl
@[simp] theorem State.incr_hb (f : FieldRef) : (s.incr f).hb = s.hb := rfl
@[simp] theorem State.incr_sage (f : FieldRef) : (s.incr f).sage = s.sage := rfl
@[simp] theorem State.incr_pwr (f : FieldRef) : (s.incr f).pwr = s.pwr := rfl
@[simp] theorem State.incr_flash (f : FieldRef) : (s.incr f).flash = s.flash := rfl
@[simp] theorem State.incr_fw (f : FieldRef) : (s.incr f).fw = s.fw := rfl
@[simp] theorem State.incr_jtag (f : FieldRef) : (s.incr f).jtag = s.jtag := rfl
@[simp] theorem State.incr_now (f : FieldRef) : (s.incr f).now = s.now := rfl

@[simp] theorem State.setBit_pending (a i : Nat) : (s.setBit a i).pending = s.pending := rfl
@[simp] theorem State.setBit_outbox (a i : Nat) : (s.setBit a i).outbox = s.outbox := rfl
@[simp] theorem State.setBit_oracle (a i : Nat) : (s.setBit a i).oracle = s.oracle := rfl
@[simp] theorem State.setBit_tick (a i : Nat) : (s.setBit a i).tick = s.tick := rfl
@[simp] theorem State.setBit_cycle (a i : Nat) : (s.setBit a i).cycle = s.cycle := rfl
@[simp] theorem State.setBit_banked (a i : Nat) : (s.setBit a i).banked = s.banked := rfl
@[simp] theorem State.setBit_latches (a i : Nat) : (s.setBit a i).latches = s.latches := rfl
@[simp] theorem State.setBit_inv (a i : Nat) : (s.setBit a i).inv = s.inv := rfl
@[simp] theorem State.setBit_parts (a i : Nat) : (s.setBit a i).parts = s.parts := rfl
@[simp] theorem State.setBit_cores (a i : Nat) : (s.setBit a i).cores = s.cores := rfl
@[simp] theorem State.setBit_net (a i : Nat) : (s.setBit a i).net = s.net := rfl
@[simp] theorem State.setBit_lanes (a i : Nat) : (s.setBit a i).lanes = s.lanes := rfl
@[simp] theorem State.setBit_watch (a i : Nat) : (s.setBit a i).watch = s.watch := rfl
@[simp] theorem State.setBit_rtDef (a i : Nat) : (s.setBit a i).rtDef = s.rtDef := rfl
@[simp] theorem State.setBit_xlat (a i : Nat) : (s.setBit a i).xlat = s.xlat := rfl
@[simp] theorem State.setBit_credits (a i : Nat) : (s.setBit a i).credits = s.credits := rfl
@[simp] theorem State.setBit_ovr (a i : Nat) : (s.setBit a i).ovr = s.ovr := rfl
@[simp] theorem State.setBit_overAt (a i : Nat) : (s.setBit a i).overAt = s.overAt := rfl
@[simp] theorem State.setBit_turns (a i : Nat) : (s.setBit a i).turns = s.turns := rfl
@[simp] theorem State.setBit_rotors (a i : Nat) : (s.setBit a i).rotors = s.rotors := rfl
@[simp] theorem State.setBit_classTurn (a i : Nat) : (s.setBit a i).classTurn = s.classTurn := rfl
@[simp] theorem State.setBit_bays (a i : Nat) : (s.setBit a i).bays = s.bays := rfl
@[simp] theorem State.setBit_retiring (a i : Nat) : (s.setBit a i).retiring = s.retiring := rfl
@[simp] theorem State.setBit_reports (a i : Nat) : (s.setBit a i).reports = s.reports := rfl
@[simp] theorem State.setBit_homes (a i : Nat) : (s.setBit a i).homes = s.homes := rfl
@[simp] theorem State.setBit_job (a i : Nat) : (s.setBit a i).job = s.job := rfl
@[simp] theorem State.setBit_serving (a i : Nat) : (s.setBit a i).serving = s.serving := rfl
@[simp] theorem State.setBit_wreqs (a i : Nat) : (s.setBit a i).wreqs = s.wreqs := rfl
@[simp] theorem State.setBit_ports (a i : Nat) : (s.setBit a i).ports = s.ports := rfl
@[simp] theorem State.setBit_conns (a i : Nat) : (s.setBit a i).conns = s.conns := rfl
@[simp] theorem State.setBit_rx (a i : Nat) : (s.setBit a i).rx = s.rx := rfl
@[simp] theorem State.setBit_frameNo (a i : Nat) : (s.setBit a i).frameNo = s.frameNo := rfl
@[simp] theorem State.setBit_seen (a i : Nat) : (s.setBit a i).seen = s.seen := rfl
@[simp] theorem State.setBit_sync (a i : Nat) : (s.setBit a i).sync = s.sync := rfl
@[simp] theorem State.setBit_reqs (a i : Nat) : (s.setBit a i).reqs = s.reqs := rfl
@[simp] theorem State.setBit_tenants (a i : Nat) : (s.setBit a i).tenants = s.tenants := rfl
@[simp] theorem State.setBit_tenHeld (a i : Nat) : (s.setBit a i).tenHeld = s.tenHeld := rfl
@[simp] theorem State.setBit_windows (a i : Nat) : (s.setBit a i).windows = s.windows := rfl
@[simp] theorem State.setBit_bridge (a i : Nat) : (s.setBit a i).bridge = s.bridge := rfl
@[simp] theorem State.setBit_pfxs (a i : Nat) : (s.setBit a i).pfxs = s.pfxs := rfl
@[simp] theorem State.setBit_adps (a i : Nat) : (s.setBit a i).adps = s.adps := rfl
@[simp] theorem State.setBit_peers (a i : Nat) : (s.setBit a i).peers = s.peers := rfl
@[simp] theorem State.setBit_shipNo (a i : Nat) : (s.setBit a i).shipNo = s.shipNo := rfl
@[simp] theorem State.setBit_shipOut (a i : Nat) : (s.setBit a i).shipOut = s.shipOut := rfl
@[simp] theorem State.setBit_shipIn (a i : Nat) : (s.setBit a i).shipIn = s.shipIn := rfl
@[simp] theorem State.setBit_shipWait (a i : Nat) : (s.setBit a i).shipWait = s.shipWait := rfl
@[simp] theorem State.setBit_kept (a i : Nat) : (s.setBit a i).kept = s.kept := rfl
@[simp] theorem State.setBit_evc (a i : Nat) : (s.setBit a i).evc = s.evc := rfl
@[simp] theorem State.setBit_hb (a i : Nat) : (s.setBit a i).hb = s.hb := rfl
@[simp] theorem State.setBit_sage (a i : Nat) : (s.setBit a i).sage = s.sage := rfl
@[simp] theorem State.setBit_pwr (a i : Nat) : (s.setBit a i).pwr = s.pwr := rfl
@[simp] theorem State.setBit_flash (a i : Nat) : (s.setBit a i).flash = s.flash := rfl
@[simp] theorem State.setBit_fw (a i : Nat) : (s.setBit a i).fw = s.fw := rfl
@[simp] theorem State.setBit_jtag (a i : Nat) : (s.setBit a i).jtag = s.jtag := rfl

@[simp] theorem State.clrBit_pending (a i : Nat) : (s.clrBit a i).pending = s.pending := rfl
@[simp] theorem State.clrBit_outbox (a i : Nat) : (s.clrBit a i).outbox = s.outbox := rfl
@[simp] theorem State.clrBit_oracle (a i : Nat) : (s.clrBit a i).oracle = s.oracle := rfl
@[simp] theorem State.clrBit_tick (a i : Nat) : (s.clrBit a i).tick = s.tick := rfl
@[simp] theorem State.clrBit_cycle (a i : Nat) : (s.clrBit a i).cycle = s.cycle := rfl
@[simp] theorem State.clrBit_banked (a i : Nat) : (s.clrBit a i).banked = s.banked := rfl
@[simp] theorem State.clrBit_latches (a i : Nat) : (s.clrBit a i).latches = s.latches := rfl
@[simp] theorem State.clrBit_inv (a i : Nat) : (s.clrBit a i).inv = s.inv := rfl
@[simp] theorem State.clrBit_parts (a i : Nat) : (s.clrBit a i).parts = s.parts := rfl
@[simp] theorem State.clrBit_cores (a i : Nat) : (s.clrBit a i).cores = s.cores := rfl
@[simp] theorem State.clrBit_net (a i : Nat) : (s.clrBit a i).net = s.net := rfl
@[simp] theorem State.clrBit_lanes (a i : Nat) : (s.clrBit a i).lanes = s.lanes := rfl
@[simp] theorem State.clrBit_watch (a i : Nat) : (s.clrBit a i).watch = s.watch := rfl
@[simp] theorem State.clrBit_rtDef (a i : Nat) : (s.clrBit a i).rtDef = s.rtDef := rfl
@[simp] theorem State.clrBit_xlat (a i : Nat) : (s.clrBit a i).xlat = s.xlat := rfl
@[simp] theorem State.clrBit_credits (a i : Nat) : (s.clrBit a i).credits = s.credits := rfl
@[simp] theorem State.clrBit_ovr (a i : Nat) : (s.clrBit a i).ovr = s.ovr := rfl
@[simp] theorem State.clrBit_overAt (a i : Nat) : (s.clrBit a i).overAt = s.overAt := rfl
@[simp] theorem State.clrBit_turns (a i : Nat) : (s.clrBit a i).turns = s.turns := rfl
@[simp] theorem State.clrBit_rotors (a i : Nat) : (s.clrBit a i).rotors = s.rotors := rfl
@[simp] theorem State.clrBit_classTurn (a i : Nat) : (s.clrBit a i).classTurn = s.classTurn := rfl
@[simp] theorem State.clrBit_bays (a i : Nat) : (s.clrBit a i).bays = s.bays := rfl
@[simp] theorem State.clrBit_retiring (a i : Nat) : (s.clrBit a i).retiring = s.retiring := rfl
@[simp] theorem State.clrBit_reports (a i : Nat) : (s.clrBit a i).reports = s.reports := rfl
@[simp] theorem State.clrBit_homes (a i : Nat) : (s.clrBit a i).homes = s.homes := rfl
@[simp] theorem State.clrBit_job (a i : Nat) : (s.clrBit a i).job = s.job := rfl
@[simp] theorem State.clrBit_serving (a i : Nat) : (s.clrBit a i).serving = s.serving := rfl
@[simp] theorem State.clrBit_wreqs (a i : Nat) : (s.clrBit a i).wreqs = s.wreqs := rfl
@[simp] theorem State.clrBit_ports (a i : Nat) : (s.clrBit a i).ports = s.ports := rfl
@[simp] theorem State.clrBit_conns (a i : Nat) : (s.clrBit a i).conns = s.conns := rfl
@[simp] theorem State.clrBit_rx (a i : Nat) : (s.clrBit a i).rx = s.rx := rfl
@[simp] theorem State.clrBit_frameNo (a i : Nat) : (s.clrBit a i).frameNo = s.frameNo := rfl
@[simp] theorem State.clrBit_seen (a i : Nat) : (s.clrBit a i).seen = s.seen := rfl
@[simp] theorem State.clrBit_sync (a i : Nat) : (s.clrBit a i).sync = s.sync := rfl
@[simp] theorem State.clrBit_reqs (a i : Nat) : (s.clrBit a i).reqs = s.reqs := rfl
@[simp] theorem State.clrBit_tenants (a i : Nat) : (s.clrBit a i).tenants = s.tenants := rfl
@[simp] theorem State.clrBit_tenHeld (a i : Nat) : (s.clrBit a i).tenHeld = s.tenHeld := rfl
@[simp] theorem State.clrBit_windows (a i : Nat) : (s.clrBit a i).windows = s.windows := rfl
@[simp] theorem State.clrBit_bridge (a i : Nat) : (s.clrBit a i).bridge = s.bridge := rfl
@[simp] theorem State.clrBit_pfxs (a i : Nat) : (s.clrBit a i).pfxs = s.pfxs := rfl
@[simp] theorem State.clrBit_adps (a i : Nat) : (s.clrBit a i).adps = s.adps := rfl
@[simp] theorem State.clrBit_peers (a i : Nat) : (s.clrBit a i).peers = s.peers := rfl
@[simp] theorem State.clrBit_shipNo (a i : Nat) : (s.clrBit a i).shipNo = s.shipNo := rfl
@[simp] theorem State.clrBit_shipOut (a i : Nat) : (s.clrBit a i).shipOut = s.shipOut := rfl
@[simp] theorem State.clrBit_shipIn (a i : Nat) : (s.clrBit a i).shipIn = s.shipIn := rfl
@[simp] theorem State.clrBit_shipWait (a i : Nat) : (s.clrBit a i).shipWait = s.shipWait := rfl
@[simp] theorem State.clrBit_kept (a i : Nat) : (s.clrBit a i).kept = s.kept := rfl
@[simp] theorem State.clrBit_evc (a i : Nat) : (s.clrBit a i).evc = s.evc := rfl
@[simp] theorem State.clrBit_hb (a i : Nat) : (s.clrBit a i).hb = s.hb := rfl
@[simp] theorem State.clrBit_sage (a i : Nat) : (s.clrBit a i).sage = s.sage := rfl
@[simp] theorem State.clrBit_pwr (a i : Nat) : (s.clrBit a i).pwr = s.pwr := rfl
@[simp] theorem State.clrBit_flash (a i : Nat) : (s.clrBit a i).flash = s.flash := rfl
@[simp] theorem State.clrBit_fw (a i : Nat) : (s.clrBit a i).fw = s.fw := rfl
@[simp] theorem State.clrBit_jtag (a i : Nat) : (s.clrBit a i).jtag = s.jtag := rfl
@[simp] theorem State.clrBit_now (a i : Nat) : (s.clrBit a i).now = s.now := rfl

@[simp] theorem State.setPair_pending (lo hi v : Nat) : (s.setPair lo hi v).pending = s.pending := rfl
@[simp] theorem State.setPair_outbox (lo hi v : Nat) : (s.setPair lo hi v).outbox = s.outbox := rfl
@[simp] theorem State.setPair_oracle (lo hi v : Nat) : (s.setPair lo hi v).oracle = s.oracle := rfl
@[simp] theorem State.setPair_tick (lo hi v : Nat) : (s.setPair lo hi v).tick = s.tick := rfl
@[simp] theorem State.setPair_cycle (lo hi v : Nat) : (s.setPair lo hi v).cycle = s.cycle := rfl
@[simp] theorem State.setPair_banked (lo hi v : Nat) : (s.setPair lo hi v).banked = s.banked := rfl
@[simp] theorem State.setPair_latches (lo hi v : Nat) : (s.setPair lo hi v).latches = s.latches := rfl
@[simp] theorem State.setPair_inv (lo hi v : Nat) : (s.setPair lo hi v).inv = s.inv := rfl
@[simp] theorem State.setPair_parts (lo hi v : Nat) : (s.setPair lo hi v).parts = s.parts := rfl
@[simp] theorem State.setPair_cores (lo hi v : Nat) : (s.setPair lo hi v).cores = s.cores := rfl
@[simp] theorem State.setPair_net (lo hi v : Nat) : (s.setPair lo hi v).net = s.net := rfl
@[simp] theorem State.setPair_lanes (lo hi v : Nat) : (s.setPair lo hi v).lanes = s.lanes := rfl
@[simp] theorem State.setPair_watch (lo hi v : Nat) : (s.setPair lo hi v).watch = s.watch := rfl
@[simp] theorem State.setPair_rtDef (lo hi v : Nat) : (s.setPair lo hi v).rtDef = s.rtDef := rfl
@[simp] theorem State.setPair_xlat (lo hi v : Nat) : (s.setPair lo hi v).xlat = s.xlat := rfl
@[simp] theorem State.setPair_credits (lo hi v : Nat) : (s.setPair lo hi v).credits = s.credits := rfl
@[simp] theorem State.setPair_ovr (lo hi v : Nat) : (s.setPair lo hi v).ovr = s.ovr := rfl
@[simp] theorem State.setPair_overAt (lo hi v : Nat) : (s.setPair lo hi v).overAt = s.overAt := rfl
@[simp] theorem State.setPair_turns (lo hi v : Nat) : (s.setPair lo hi v).turns = s.turns := rfl
@[simp] theorem State.setPair_rotors (lo hi v : Nat) : (s.setPair lo hi v).rotors = s.rotors := rfl
@[simp] theorem State.setPair_classTurn (lo hi v : Nat) : (s.setPair lo hi v).classTurn = s.classTurn := rfl
@[simp] theorem State.setPair_bays (lo hi v : Nat) : (s.setPair lo hi v).bays = s.bays := rfl
@[simp] theorem State.setPair_retiring (lo hi v : Nat) : (s.setPair lo hi v).retiring = s.retiring := rfl
@[simp] theorem State.setPair_reports (lo hi v : Nat) : (s.setPair lo hi v).reports = s.reports := rfl
@[simp] theorem State.setPair_homes (lo hi v : Nat) : (s.setPair lo hi v).homes = s.homes := rfl
@[simp] theorem State.setPair_job (lo hi v : Nat) : (s.setPair lo hi v).job = s.job := rfl
@[simp] theorem State.setPair_serving (lo hi v : Nat) : (s.setPair lo hi v).serving = s.serving := rfl
@[simp] theorem State.setPair_wreqs (lo hi v : Nat) : (s.setPair lo hi v).wreqs = s.wreqs := rfl
@[simp] theorem State.setPair_ports (lo hi v : Nat) : (s.setPair lo hi v).ports = s.ports := rfl
@[simp] theorem State.setPair_conns (lo hi v : Nat) : (s.setPair lo hi v).conns = s.conns := rfl
@[simp] theorem State.setPair_rx (lo hi v : Nat) : (s.setPair lo hi v).rx = s.rx := rfl
@[simp] theorem State.setPair_frameNo (lo hi v : Nat) : (s.setPair lo hi v).frameNo = s.frameNo := rfl
@[simp] theorem State.setPair_seen (lo hi v : Nat) : (s.setPair lo hi v).seen = s.seen := rfl
@[simp] theorem State.setPair_sync (lo hi v : Nat) : (s.setPair lo hi v).sync = s.sync := rfl
@[simp] theorem State.setPair_reqs (lo hi v : Nat) : (s.setPair lo hi v).reqs = s.reqs := rfl
@[simp] theorem State.setPair_tenants (lo hi v : Nat) : (s.setPair lo hi v).tenants = s.tenants := rfl
@[simp] theorem State.setPair_tenHeld (lo hi v : Nat) : (s.setPair lo hi v).tenHeld = s.tenHeld := rfl
@[simp] theorem State.setPair_windows (lo hi v : Nat) : (s.setPair lo hi v).windows = s.windows := rfl
@[simp] theorem State.setPair_bridge (lo hi v : Nat) : (s.setPair lo hi v).bridge = s.bridge := rfl
@[simp] theorem State.setPair_pfxs (lo hi v : Nat) : (s.setPair lo hi v).pfxs = s.pfxs := rfl
@[simp] theorem State.setPair_adps (lo hi v : Nat) : (s.setPair lo hi v).adps = s.adps := rfl
@[simp] theorem State.setPair_peers (lo hi v : Nat) : (s.setPair lo hi v).peers = s.peers := rfl
@[simp] theorem State.setPair_shipNo (lo hi v : Nat) : (s.setPair lo hi v).shipNo = s.shipNo := rfl
@[simp] theorem State.setPair_shipOut (lo hi v : Nat) : (s.setPair lo hi v).shipOut = s.shipOut := rfl
@[simp] theorem State.setPair_shipIn (lo hi v : Nat) : (s.setPair lo hi v).shipIn = s.shipIn := rfl
@[simp] theorem State.setPair_shipWait (lo hi v : Nat) : (s.setPair lo hi v).shipWait = s.shipWait := rfl
@[simp] theorem State.setPair_kept (lo hi v : Nat) : (s.setPair lo hi v).kept = s.kept := rfl
@[simp] theorem State.setPair_evc (lo hi v : Nat) : (s.setPair lo hi v).evc = s.evc := rfl
@[simp] theorem State.setPair_hb (lo hi v : Nat) : (s.setPair lo hi v).hb = s.hb := rfl
@[simp] theorem State.setPair_sage (lo hi v : Nat) : (s.setPair lo hi v).sage = s.sage := rfl
@[simp] theorem State.setPair_pwr (lo hi v : Nat) : (s.setPair lo hi v).pwr = s.pwr := rfl
@[simp] theorem State.setPair_flash (lo hi v : Nat) : (s.setPair lo hi v).flash = s.flash := rfl
@[simp] theorem State.setPair_fw (lo hi v : Nat) : (s.setPair lo hi v).fw = s.fw := rfl
@[simp] theorem State.setPair_jtag (lo hi v : Nat) : (s.setPair lo hi v).jtag = s.jtag := rfl
@[simp] theorem State.setPair_now (lo hi v : Nat) : (s.setPair lo hi v).now = s.now := rfl

@[simp] theorem State.setCore_pending (p : Nat) (c : Core) : (s.setCore p c).pending = s.pending := rfl
@[simp] theorem State.setCore_outbox (p : Nat) (c : Core) : (s.setCore p c).outbox = s.outbox := rfl
@[simp] theorem State.setCore_oracle (p : Nat) (c : Core) : (s.setCore p c).oracle = s.oracle := rfl
@[simp] theorem State.setCore_tick (p : Nat) (c : Core) : (s.setCore p c).tick = s.tick := rfl
@[simp] theorem State.setCore_cycle (p : Nat) (c : Core) : (s.setCore p c).cycle = s.cycle := rfl
@[simp] theorem State.setCore_ctl (p : Nat) (c : Core) : (s.setCore p c).ctl = s.ctl := rfl
@[simp] theorem State.setCore_banked (p : Nat) (c : Core) : (s.setCore p c).banked = s.banked := rfl
@[simp] theorem State.setCore_latches (p : Nat) (c : Core) : (s.setCore p c).latches = s.latches := rfl
@[simp] theorem State.setCore_inv (p : Nat) (c : Core) : (s.setCore p c).inv = s.inv := rfl
@[simp] theorem State.setCore_parts (p : Nat) (c : Core) : (s.setCore p c).parts = s.parts := rfl
@[simp] theorem State.setCore_net (p : Nat) (c : Core) : (s.setCore p c).net = s.net := rfl
@[simp] theorem State.setCore_lanes (p : Nat) (c : Core) : (s.setCore p c).lanes = s.lanes := rfl
@[simp] theorem State.setCore_watch (p : Nat) (c : Core) : (s.setCore p c).watch = s.watch := rfl
@[simp] theorem State.setCore_rtDef (p : Nat) (c : Core) : (s.setCore p c).rtDef = s.rtDef := rfl
@[simp] theorem State.setCore_xlat (p : Nat) (c : Core) : (s.setCore p c).xlat = s.xlat := rfl
@[simp] theorem State.setCore_credits (p : Nat) (c : Core) : (s.setCore p c).credits = s.credits := rfl
@[simp] theorem State.setCore_ovr (p : Nat) (c : Core) : (s.setCore p c).ovr = s.ovr := rfl
@[simp] theorem State.setCore_overAt (p : Nat) (c : Core) : (s.setCore p c).overAt = s.overAt := rfl
@[simp] theorem State.setCore_turns (p : Nat) (c : Core) : (s.setCore p c).turns = s.turns := rfl
@[simp] theorem State.setCore_rotors (p : Nat) (c : Core) : (s.setCore p c).rotors = s.rotors := rfl
@[simp] theorem State.setCore_classTurn (p : Nat) (c : Core) : (s.setCore p c).classTurn = s.classTurn := rfl
@[simp] theorem State.setCore_bays (p : Nat) (c : Core) : (s.setCore p c).bays = s.bays := rfl
@[simp] theorem State.setCore_retiring (p : Nat) (c : Core) : (s.setCore p c).retiring = s.retiring := rfl
@[simp] theorem State.setCore_reports (p : Nat) (c : Core) : (s.setCore p c).reports = s.reports := rfl
@[simp] theorem State.setCore_homes (p : Nat) (c : Core) : (s.setCore p c).homes = s.homes := rfl
@[simp] theorem State.setCore_job (p : Nat) (c : Core) : (s.setCore p c).job = s.job := rfl
@[simp] theorem State.setCore_serving (p : Nat) (c : Core) : (s.setCore p c).serving = s.serving := rfl
@[simp] theorem State.setCore_wreqs (p : Nat) (c : Core) : (s.setCore p c).wreqs = s.wreqs := rfl
@[simp] theorem State.setCore_ports (p : Nat) (c : Core) : (s.setCore p c).ports = s.ports := rfl
@[simp] theorem State.setCore_conns (p : Nat) (c : Core) : (s.setCore p c).conns = s.conns := rfl
@[simp] theorem State.setCore_rx (p : Nat) (c : Core) : (s.setCore p c).rx = s.rx := rfl
@[simp] theorem State.setCore_frameNo (p : Nat) (c : Core) : (s.setCore p c).frameNo = s.frameNo := rfl
@[simp] theorem State.setCore_seen (p : Nat) (c : Core) : (s.setCore p c).seen = s.seen := rfl
@[simp] theorem State.setCore_sync (p : Nat) (c : Core) : (s.setCore p c).sync = s.sync := rfl
@[simp] theorem State.setCore_reqs (p : Nat) (c : Core) : (s.setCore p c).reqs = s.reqs := rfl
@[simp] theorem State.setCore_tenants (p : Nat) (c : Core) : (s.setCore p c).tenants = s.tenants := rfl
@[simp] theorem State.setCore_tenHeld (p : Nat) (c : Core) : (s.setCore p c).tenHeld = s.tenHeld := rfl
@[simp] theorem State.setCore_windows (p : Nat) (c : Core) : (s.setCore p c).windows = s.windows := rfl
@[simp] theorem State.setCore_bridge (p : Nat) (c : Core) : (s.setCore p c).bridge = s.bridge := rfl
@[simp] theorem State.setCore_pfxs (p : Nat) (c : Core) : (s.setCore p c).pfxs = s.pfxs := rfl
@[simp] theorem State.setCore_adps (p : Nat) (c : Core) : (s.setCore p c).adps = s.adps := rfl
@[simp] theorem State.setCore_peers (p : Nat) (c : Core) : (s.setCore p c).peers = s.peers := rfl
@[simp] theorem State.setCore_shipNo (p : Nat) (c : Core) : (s.setCore p c).shipNo = s.shipNo := rfl
@[simp] theorem State.setCore_shipOut (p : Nat) (c : Core) : (s.setCore p c).shipOut = s.shipOut := rfl
@[simp] theorem State.setCore_shipIn (p : Nat) (c : Core) : (s.setCore p c).shipIn = s.shipIn := rfl
@[simp] theorem State.setCore_shipWait (p : Nat) (c : Core) : (s.setCore p c).shipWait = s.shipWait := rfl
@[simp] theorem State.setCore_kept (p : Nat) (c : Core) : (s.setCore p c).kept = s.kept := rfl
@[simp] theorem State.setCore_evc (p : Nat) (c : Core) : (s.setCore p c).evc = s.evc := rfl
@[simp] theorem State.setCore_hb (p : Nat) (c : Core) : (s.setCore p c).hb = s.hb := rfl
@[simp] theorem State.setCore_sage (p : Nat) (c : Core) : (s.setCore p c).sage = s.sage := rfl
@[simp] theorem State.setCore_pwr (p : Nat) (c : Core) : (s.setCore p c).pwr = s.pwr := rfl
@[simp] theorem State.setCore_flash (p : Nat) (c : Core) : (s.setCore p c).flash = s.flash := rfl
@[simp] theorem State.setCore_fw (p : Nat) (c : Core) : (s.setCore p c).fw = s.fw := rfl
@[simp] theorem State.setCore_jtag (p : Nat) (c : Core) : (s.setCore p c).jtag = s.jtag := rfl
@[simp] theorem State.setCore_now (p : Nat) (c : Core) : (s.setCore p c).now = s.now := rfl

@[simp] theorem State.onCore_pending (p : Nat) (f : Core → Core) : (s.onCore p f).pending = s.pending := rfl
@[simp] theorem State.onCore_outbox (p : Nat) (f : Core → Core) : (s.onCore p f).outbox = s.outbox := rfl
@[simp] theorem State.onCore_oracle (p : Nat) (f : Core → Core) : (s.onCore p f).oracle = s.oracle := rfl
@[simp] theorem State.onCore_tick (p : Nat) (f : Core → Core) : (s.onCore p f).tick = s.tick := rfl
@[simp] theorem State.onCore_cycle (p : Nat) (f : Core → Core) : (s.onCore p f).cycle = s.cycle := rfl
@[simp] theorem State.onCore_ctl (p : Nat) (f : Core → Core) : (s.onCore p f).ctl = s.ctl := rfl
@[simp] theorem State.onCore_banked (p : Nat) (f : Core → Core) : (s.onCore p f).banked = s.banked := rfl
@[simp] theorem State.onCore_latches (p : Nat) (f : Core → Core) : (s.onCore p f).latches = s.latches := rfl
@[simp] theorem State.onCore_inv (p : Nat) (f : Core → Core) : (s.onCore p f).inv = s.inv := rfl
@[simp] theorem State.onCore_parts (p : Nat) (f : Core → Core) : (s.onCore p f).parts = s.parts := rfl
@[simp] theorem State.onCore_net (p : Nat) (f : Core → Core) : (s.onCore p f).net = s.net := rfl
@[simp] theorem State.onCore_lanes (p : Nat) (f : Core → Core) : (s.onCore p f).lanes = s.lanes := rfl
@[simp] theorem State.onCore_watch (p : Nat) (f : Core → Core) : (s.onCore p f).watch = s.watch := rfl
@[simp] theorem State.onCore_rtDef (p : Nat) (f : Core → Core) : (s.onCore p f).rtDef = s.rtDef := rfl
@[simp] theorem State.onCore_xlat (p : Nat) (f : Core → Core) : (s.onCore p f).xlat = s.xlat := rfl
@[simp] theorem State.onCore_credits (p : Nat) (f : Core → Core) : (s.onCore p f).credits = s.credits := rfl
@[simp] theorem State.onCore_ovr (p : Nat) (f : Core → Core) : (s.onCore p f).ovr = s.ovr := rfl
@[simp] theorem State.onCore_overAt (p : Nat) (f : Core → Core) : (s.onCore p f).overAt = s.overAt := rfl
@[simp] theorem State.onCore_turns (p : Nat) (f : Core → Core) : (s.onCore p f).turns = s.turns := rfl
@[simp] theorem State.onCore_rotors (p : Nat) (f : Core → Core) : (s.onCore p f).rotors = s.rotors := rfl
@[simp] theorem State.onCore_classTurn (p : Nat) (f : Core → Core) : (s.onCore p f).classTurn = s.classTurn := rfl
@[simp] theorem State.onCore_bays (p : Nat) (f : Core → Core) : (s.onCore p f).bays = s.bays := rfl
@[simp] theorem State.onCore_retiring (p : Nat) (f : Core → Core) : (s.onCore p f).retiring = s.retiring := rfl
@[simp] theorem State.onCore_reports (p : Nat) (f : Core → Core) : (s.onCore p f).reports = s.reports := rfl
@[simp] theorem State.onCore_homes (p : Nat) (f : Core → Core) : (s.onCore p f).homes = s.homes := rfl
@[simp] theorem State.onCore_job (p : Nat) (f : Core → Core) : (s.onCore p f).job = s.job := rfl
@[simp] theorem State.onCore_serving (p : Nat) (f : Core → Core) : (s.onCore p f).serving = s.serving := rfl
@[simp] theorem State.onCore_wreqs (p : Nat) (f : Core → Core) : (s.onCore p f).wreqs = s.wreqs := rfl
@[simp] theorem State.onCore_ports (p : Nat) (f : Core → Core) : (s.onCore p f).ports = s.ports := rfl
@[simp] theorem State.onCore_conns (p : Nat) (f : Core → Core) : (s.onCore p f).conns = s.conns := rfl
@[simp] theorem State.onCore_rx (p : Nat) (f : Core → Core) : (s.onCore p f).rx = s.rx := rfl
@[simp] theorem State.onCore_frameNo (p : Nat) (f : Core → Core) : (s.onCore p f).frameNo = s.frameNo := rfl
@[simp] theorem State.onCore_seen (p : Nat) (f : Core → Core) : (s.onCore p f).seen = s.seen := rfl
@[simp] theorem State.onCore_sync (p : Nat) (f : Core → Core) : (s.onCore p f).sync = s.sync := rfl
@[simp] theorem State.onCore_reqs (p : Nat) (f : Core → Core) : (s.onCore p f).reqs = s.reqs := rfl
@[simp] theorem State.onCore_tenants (p : Nat) (f : Core → Core) : (s.onCore p f).tenants = s.tenants := rfl
@[simp] theorem State.onCore_tenHeld (p : Nat) (f : Core → Core) : (s.onCore p f).tenHeld = s.tenHeld := rfl
@[simp] theorem State.onCore_windows (p : Nat) (f : Core → Core) : (s.onCore p f).windows = s.windows := rfl
@[simp] theorem State.onCore_bridge (p : Nat) (f : Core → Core) : (s.onCore p f).bridge = s.bridge := rfl
@[simp] theorem State.onCore_pfxs (p : Nat) (f : Core → Core) : (s.onCore p f).pfxs = s.pfxs := rfl
@[simp] theorem State.onCore_adps (p : Nat) (f : Core → Core) : (s.onCore p f).adps = s.adps := rfl
@[simp] theorem State.onCore_peers (p : Nat) (f : Core → Core) : (s.onCore p f).peers = s.peers := rfl
@[simp] theorem State.onCore_shipNo (p : Nat) (f : Core → Core) : (s.onCore p f).shipNo = s.shipNo := rfl
@[simp] theorem State.onCore_shipOut (p : Nat) (f : Core → Core) : (s.onCore p f).shipOut = s.shipOut := rfl
@[simp] theorem State.onCore_shipIn (p : Nat) (f : Core → Core) : (s.onCore p f).shipIn = s.shipIn := rfl
@[simp] theorem State.onCore_shipWait (p : Nat) (f : Core → Core) : (s.onCore p f).shipWait = s.shipWait := rfl
@[simp] theorem State.onCore_kept (p : Nat) (f : Core → Core) : (s.onCore p f).kept = s.kept := rfl
@[simp] theorem State.onCore_evc (p : Nat) (f : Core → Core) : (s.onCore p f).evc = s.evc := rfl
@[simp] theorem State.onCore_hb (p : Nat) (f : Core → Core) : (s.onCore p f).hb = s.hb := rfl
@[simp] theorem State.onCore_sage (p : Nat) (f : Core → Core) : (s.onCore p f).sage = s.sage := rfl
@[simp] theorem State.onCore_pwr (p : Nat) (f : Core → Core) : (s.onCore p f).pwr = s.pwr := rfl
@[simp] theorem State.onCore_flash (p : Nat) (f : Core → Core) : (s.onCore p f).flash = s.flash := rfl
@[simp] theorem State.onCore_fw (p : Nat) (f : Core → Core) : (s.onCore p f).fw = s.fw := rfl
@[simp] theorem State.onCore_jtag (p : Nat) (f : Core → Core) : (s.onCore p f).jtag = s.jtag := rfl
@[simp] theorem State.onCore_now (p : Nat) (f : Core → Core) : (s.onCore p f).now = s.now := rfl

@[simp] theorem State.setPart_pending (n : Nat) (q : PartSt) : (s.setPart n q).pending = s.pending := rfl
@[simp] theorem State.setPart_outbox (n : Nat) (q : PartSt) : (s.setPart n q).outbox = s.outbox := rfl
@[simp] theorem State.setPart_oracle (n : Nat) (q : PartSt) : (s.setPart n q).oracle = s.oracle := rfl
@[simp] theorem State.setPart_tick (n : Nat) (q : PartSt) : (s.setPart n q).tick = s.tick := rfl
@[simp] theorem State.setPart_cycle (n : Nat) (q : PartSt) : (s.setPart n q).cycle = s.cycle := rfl
@[simp] theorem State.setPart_ctl (n : Nat) (q : PartSt) : (s.setPart n q).ctl = s.ctl := rfl
@[simp] theorem State.setPart_banked (n : Nat) (q : PartSt) : (s.setPart n q).banked = s.banked := rfl
@[simp] theorem State.setPart_latches (n : Nat) (q : PartSt) : (s.setPart n q).latches = s.latches := rfl
@[simp] theorem State.setPart_inv (n : Nat) (q : PartSt) : (s.setPart n q).inv = s.inv := rfl
@[simp] theorem State.setPart_cores (n : Nat) (q : PartSt) : (s.setPart n q).cores = s.cores := rfl
@[simp] theorem State.setPart_net (n : Nat) (q : PartSt) : (s.setPart n q).net = s.net := rfl
@[simp] theorem State.setPart_lanes (n : Nat) (q : PartSt) : (s.setPart n q).lanes = s.lanes := rfl
@[simp] theorem State.setPart_watch (n : Nat) (q : PartSt) : (s.setPart n q).watch = s.watch := rfl
@[simp] theorem State.setPart_rtDef (n : Nat) (q : PartSt) : (s.setPart n q).rtDef = s.rtDef := rfl
@[simp] theorem State.setPart_xlat (n : Nat) (q : PartSt) : (s.setPart n q).xlat = s.xlat := rfl
@[simp] theorem State.setPart_credits (n : Nat) (q : PartSt) : (s.setPart n q).credits = s.credits := rfl
@[simp] theorem State.setPart_ovr (n : Nat) (q : PartSt) : (s.setPart n q).ovr = s.ovr := rfl
@[simp] theorem State.setPart_overAt (n : Nat) (q : PartSt) : (s.setPart n q).overAt = s.overAt := rfl
@[simp] theorem State.setPart_turns (n : Nat) (q : PartSt) : (s.setPart n q).turns = s.turns := rfl
@[simp] theorem State.setPart_rotors (n : Nat) (q : PartSt) : (s.setPart n q).rotors = s.rotors := rfl
@[simp] theorem State.setPart_classTurn (n : Nat) (q : PartSt) : (s.setPart n q).classTurn = s.classTurn := rfl
@[simp] theorem State.setPart_bays (n : Nat) (q : PartSt) : (s.setPart n q).bays = s.bays := rfl
@[simp] theorem State.setPart_retiring (n : Nat) (q : PartSt) : (s.setPart n q).retiring = s.retiring := rfl
@[simp] theorem State.setPart_reports (n : Nat) (q : PartSt) : (s.setPart n q).reports = s.reports := rfl
@[simp] theorem State.setPart_homes (n : Nat) (q : PartSt) : (s.setPart n q).homes = s.homes := rfl
@[simp] theorem State.setPart_job (n : Nat) (q : PartSt) : (s.setPart n q).job = s.job := rfl
@[simp] theorem State.setPart_serving (n : Nat) (q : PartSt) : (s.setPart n q).serving = s.serving := rfl
@[simp] theorem State.setPart_wreqs (n : Nat) (q : PartSt) : (s.setPart n q).wreqs = s.wreqs := rfl
@[simp] theorem State.setPart_ports (n : Nat) (q : PartSt) : (s.setPart n q).ports = s.ports := rfl
@[simp] theorem State.setPart_conns (n : Nat) (q : PartSt) : (s.setPart n q).conns = s.conns := rfl
@[simp] theorem State.setPart_rx (n : Nat) (q : PartSt) : (s.setPart n q).rx = s.rx := rfl
@[simp] theorem State.setPart_frameNo (n : Nat) (q : PartSt) : (s.setPart n q).frameNo = s.frameNo := rfl
@[simp] theorem State.setPart_seen (n : Nat) (q : PartSt) : (s.setPart n q).seen = s.seen := rfl
@[simp] theorem State.setPart_sync (n : Nat) (q : PartSt) : (s.setPart n q).sync = s.sync := rfl
@[simp] theorem State.setPart_reqs (n : Nat) (q : PartSt) : (s.setPart n q).reqs = s.reqs := rfl
@[simp] theorem State.setPart_tenants (n : Nat) (q : PartSt) : (s.setPart n q).tenants = s.tenants := rfl
@[simp] theorem State.setPart_tenHeld (n : Nat) (q : PartSt) : (s.setPart n q).tenHeld = s.tenHeld := rfl
@[simp] theorem State.setPart_windows (n : Nat) (q : PartSt) : (s.setPart n q).windows = s.windows := rfl
@[simp] theorem State.setPart_bridge (n : Nat) (q : PartSt) : (s.setPart n q).bridge = s.bridge := rfl
@[simp] theorem State.setPart_pfxs (n : Nat) (q : PartSt) : (s.setPart n q).pfxs = s.pfxs := rfl
@[simp] theorem State.setPart_adps (n : Nat) (q : PartSt) : (s.setPart n q).adps = s.adps := rfl
@[simp] theorem State.setPart_peers (n : Nat) (q : PartSt) : (s.setPart n q).peers = s.peers := rfl
@[simp] theorem State.setPart_shipNo (n : Nat) (q : PartSt) : (s.setPart n q).shipNo = s.shipNo := rfl
@[simp] theorem State.setPart_shipOut (n : Nat) (q : PartSt) : (s.setPart n q).shipOut = s.shipOut := rfl
@[simp] theorem State.setPart_shipIn (n : Nat) (q : PartSt) : (s.setPart n q).shipIn = s.shipIn := rfl
@[simp] theorem State.setPart_shipWait (n : Nat) (q : PartSt) : (s.setPart n q).shipWait = s.shipWait := rfl
@[simp] theorem State.setPart_kept (n : Nat) (q : PartSt) : (s.setPart n q).kept = s.kept := rfl
@[simp] theorem State.setPart_evc (n : Nat) (q : PartSt) : (s.setPart n q).evc = s.evc := rfl
@[simp] theorem State.setPart_hb (n : Nat) (q : PartSt) : (s.setPart n q).hb = s.hb := rfl
@[simp] theorem State.setPart_sage (n : Nat) (q : PartSt) : (s.setPart n q).sage = s.sage := rfl
@[simp] theorem State.setPart_pwr (n : Nat) (q : PartSt) : (s.setPart n q).pwr = s.pwr := rfl
@[simp] theorem State.setPart_flash (n : Nat) (q : PartSt) : (s.setPart n q).flash = s.flash := rfl
@[simp] theorem State.setPart_fw (n : Nat) (q : PartSt) : (s.setPart n q).fw = s.fw := rfl
@[simp] theorem State.setPart_jtag (n : Nat) (q : PartSt) : (s.setPart n q).jtag = s.jtag := rfl
@[simp] theorem State.setPart_now (n : Nat) (q : PartSt) : (s.setPart n q).now = s.now := rfl

@[simp] theorem State.onPart_pending (n : Nat) (f : PartSt → PartSt) : (s.onPart n f).pending = s.pending := rfl
@[simp] theorem State.onPart_outbox (n : Nat) (f : PartSt → PartSt) : (s.onPart n f).outbox = s.outbox := rfl
@[simp] theorem State.onPart_oracle (n : Nat) (f : PartSt → PartSt) : (s.onPart n f).oracle = s.oracle := rfl
@[simp] theorem State.onPart_tick (n : Nat) (f : PartSt → PartSt) : (s.onPart n f).tick = s.tick := rfl
@[simp] theorem State.onPart_cycle (n : Nat) (f : PartSt → PartSt) : (s.onPart n f).cycle = s.cycle := rfl
@[simp] theorem State.onPart_ctl (n : Nat) (f : PartSt → PartSt) : (s.onPart n f).ctl = s.ctl := rfl
@[simp] theorem State.onPart_banked (n : Nat) (f : PartSt → PartSt) : (s.onPart n f).banked = s.banked := rfl
@[simp] theorem State.onPart_latches (n : Nat) (f : PartSt → PartSt) : (s.onPart n f).latches = s.latches := rfl
@[simp] theorem State.onPart_inv (n : Nat) (f : PartSt → PartSt) : (s.onPart n f).inv = s.inv := rfl
@[simp] theorem State.onPart_cores (n : Nat) (f : PartSt → PartSt) : (s.onPart n f).cores = s.cores := rfl
@[simp] theorem State.onPart_net (n : Nat) (f : PartSt → PartSt) : (s.onPart n f).net = s.net := rfl
@[simp] theorem State.onPart_lanes (n : Nat) (f : PartSt → PartSt) : (s.onPart n f).lanes = s.lanes := rfl
@[simp] theorem State.onPart_watch (n : Nat) (f : PartSt → PartSt) : (s.onPart n f).watch = s.watch := rfl
@[simp] theorem State.onPart_rtDef (n : Nat) (f : PartSt → PartSt) : (s.onPart n f).rtDef = s.rtDef := rfl
@[simp] theorem State.onPart_xlat (n : Nat) (f : PartSt → PartSt) : (s.onPart n f).xlat = s.xlat := rfl
@[simp] theorem State.onPart_credits (n : Nat) (f : PartSt → PartSt) : (s.onPart n f).credits = s.credits := rfl
@[simp] theorem State.onPart_ovr (n : Nat) (f : PartSt → PartSt) : (s.onPart n f).ovr = s.ovr := rfl
@[simp] theorem State.onPart_overAt (n : Nat) (f : PartSt → PartSt) : (s.onPart n f).overAt = s.overAt := rfl
@[simp] theorem State.onPart_turns (n : Nat) (f : PartSt → PartSt) : (s.onPart n f).turns = s.turns := rfl
@[simp] theorem State.onPart_rotors (n : Nat) (f : PartSt → PartSt) : (s.onPart n f).rotors = s.rotors := rfl
@[simp] theorem State.onPart_classTurn (n : Nat) (f : PartSt → PartSt) : (s.onPart n f).classTurn = s.classTurn := rfl
@[simp] theorem State.onPart_bays (n : Nat) (f : PartSt → PartSt) : (s.onPart n f).bays = s.bays := rfl
@[simp] theorem State.onPart_retiring (n : Nat) (f : PartSt → PartSt) : (s.onPart n f).retiring = s.retiring := rfl
@[simp] theorem State.onPart_reports (n : Nat) (f : PartSt → PartSt) : (s.onPart n f).reports = s.reports := rfl
@[simp] theorem State.onPart_homes (n : Nat) (f : PartSt → PartSt) : (s.onPart n f).homes = s.homes := rfl
@[simp] theorem State.onPart_job (n : Nat) (f : PartSt → PartSt) : (s.onPart n f).job = s.job := rfl
@[simp] theorem State.onPart_serving (n : Nat) (f : PartSt → PartSt) : (s.onPart n f).serving = s.serving := rfl
@[simp] theorem State.onPart_wreqs (n : Nat) (f : PartSt → PartSt) : (s.onPart n f).wreqs = s.wreqs := rfl
@[simp] theorem State.onPart_ports (n : Nat) (f : PartSt → PartSt) : (s.onPart n f).ports = s.ports := rfl
@[simp] theorem State.onPart_conns (n : Nat) (f : PartSt → PartSt) : (s.onPart n f).conns = s.conns := rfl
@[simp] theorem State.onPart_rx (n : Nat) (f : PartSt → PartSt) : (s.onPart n f).rx = s.rx := rfl
@[simp] theorem State.onPart_frameNo (n : Nat) (f : PartSt → PartSt) : (s.onPart n f).frameNo = s.frameNo := rfl
@[simp] theorem State.onPart_seen (n : Nat) (f : PartSt → PartSt) : (s.onPart n f).seen = s.seen := rfl
@[simp] theorem State.onPart_sync (n : Nat) (f : PartSt → PartSt) : (s.onPart n f).sync = s.sync := rfl
@[simp] theorem State.onPart_reqs (n : Nat) (f : PartSt → PartSt) : (s.onPart n f).reqs = s.reqs := rfl
@[simp] theorem State.onPart_tenants (n : Nat) (f : PartSt → PartSt) : (s.onPart n f).tenants = s.tenants := rfl
@[simp] theorem State.onPart_tenHeld (n : Nat) (f : PartSt → PartSt) : (s.onPart n f).tenHeld = s.tenHeld := rfl
@[simp] theorem State.onPart_windows (n : Nat) (f : PartSt → PartSt) : (s.onPart n f).windows = s.windows := rfl
@[simp] theorem State.onPart_bridge (n : Nat) (f : PartSt → PartSt) : (s.onPart n f).bridge = s.bridge := rfl
@[simp] theorem State.onPart_pfxs (n : Nat) (f : PartSt → PartSt) : (s.onPart n f).pfxs = s.pfxs := rfl
@[simp] theorem State.onPart_adps (n : Nat) (f : PartSt → PartSt) : (s.onPart n f).adps = s.adps := rfl
@[simp] theorem State.onPart_peers (n : Nat) (f : PartSt → PartSt) : (s.onPart n f).peers = s.peers := rfl
@[simp] theorem State.onPart_shipNo (n : Nat) (f : PartSt → PartSt) : (s.onPart n f).shipNo = s.shipNo := rfl
@[simp] theorem State.onPart_shipOut (n : Nat) (f : PartSt → PartSt) : (s.onPart n f).shipOut = s.shipOut := rfl
@[simp] theorem State.onPart_shipIn (n : Nat) (f : PartSt → PartSt) : (s.onPart n f).shipIn = s.shipIn := rfl
@[simp] theorem State.onPart_shipWait (n : Nat) (f : PartSt → PartSt) : (s.onPart n f).shipWait = s.shipWait := rfl
@[simp] theorem State.onPart_kept (n : Nat) (f : PartSt → PartSt) : (s.onPart n f).kept = s.kept := rfl
@[simp] theorem State.onPart_evc (n : Nat) (f : PartSt → PartSt) : (s.onPart n f).evc = s.evc := rfl
@[simp] theorem State.onPart_hb (n : Nat) (f : PartSt → PartSt) : (s.onPart n f).hb = s.hb := rfl
@[simp] theorem State.onPart_sage (n : Nat) (f : PartSt → PartSt) : (s.onPart n f).sage = s.sage := rfl
@[simp] theorem State.onPart_pwr (n : Nat) (f : PartSt → PartSt) : (s.onPart n f).pwr = s.pwr := rfl
@[simp] theorem State.onPart_flash (n : Nat) (f : PartSt → PartSt) : (s.onPart n f).flash = s.flash := rfl
@[simp] theorem State.onPart_fw (n : Nat) (f : PartSt → PartSt) : (s.onPart n f).fw = s.fw := rfl
@[simp] theorem State.onPart_jtag (n : Nat) (f : PartSt → PartSt) : (s.onPart n f).jtag = s.jtag := rfl
@[simp] theorem State.onPart_now (n : Nat) (f : PartSt → PartSt) : (s.onPart n f).now = s.now := rfl

@[simp] theorem State.setBay_pending (b : Nat) (y : Bay) : (s.setBay b y).pending = s.pending := rfl
@[simp] theorem State.setBay_outbox (b : Nat) (y : Bay) : (s.setBay b y).outbox = s.outbox := rfl
@[simp] theorem State.setBay_oracle (b : Nat) (y : Bay) : (s.setBay b y).oracle = s.oracle := rfl
@[simp] theorem State.setBay_tick (b : Nat) (y : Bay) : (s.setBay b y).tick = s.tick := rfl
@[simp] theorem State.setBay_cycle (b : Nat) (y : Bay) : (s.setBay b y).cycle = s.cycle := rfl
@[simp] theorem State.setBay_ctl (b : Nat) (y : Bay) : (s.setBay b y).ctl = s.ctl := rfl
@[simp] theorem State.setBay_banked (b : Nat) (y : Bay) : (s.setBay b y).banked = s.banked := rfl
@[simp] theorem State.setBay_latches (b : Nat) (y : Bay) : (s.setBay b y).latches = s.latches := rfl
@[simp] theorem State.setBay_inv (b : Nat) (y : Bay) : (s.setBay b y).inv = s.inv := rfl
@[simp] theorem State.setBay_parts (b : Nat) (y : Bay) : (s.setBay b y).parts = s.parts := rfl
@[simp] theorem State.setBay_cores (b : Nat) (y : Bay) : (s.setBay b y).cores = s.cores := rfl
@[simp] theorem State.setBay_net (b : Nat) (y : Bay) : (s.setBay b y).net = s.net := rfl
@[simp] theorem State.setBay_lanes (b : Nat) (y : Bay) : (s.setBay b y).lanes = s.lanes := rfl
@[simp] theorem State.setBay_watch (b : Nat) (y : Bay) : (s.setBay b y).watch = s.watch := rfl
@[simp] theorem State.setBay_rtDef (b : Nat) (y : Bay) : (s.setBay b y).rtDef = s.rtDef := rfl
@[simp] theorem State.setBay_xlat (b : Nat) (y : Bay) : (s.setBay b y).xlat = s.xlat := rfl
@[simp] theorem State.setBay_credits (b : Nat) (y : Bay) : (s.setBay b y).credits = s.credits := rfl
@[simp] theorem State.setBay_ovr (b : Nat) (y : Bay) : (s.setBay b y).ovr = s.ovr := rfl
@[simp] theorem State.setBay_overAt (b : Nat) (y : Bay) : (s.setBay b y).overAt = s.overAt := rfl
@[simp] theorem State.setBay_turns (b : Nat) (y : Bay) : (s.setBay b y).turns = s.turns := rfl
@[simp] theorem State.setBay_rotors (b : Nat) (y : Bay) : (s.setBay b y).rotors = s.rotors := rfl
@[simp] theorem State.setBay_classTurn (b : Nat) (y : Bay) : (s.setBay b y).classTurn = s.classTurn := rfl
@[simp] theorem State.setBay_retiring (b : Nat) (y : Bay) : (s.setBay b y).retiring = s.retiring := rfl
@[simp] theorem State.setBay_reports (b : Nat) (y : Bay) : (s.setBay b y).reports = s.reports := rfl
@[simp] theorem State.setBay_homes (b : Nat) (y : Bay) : (s.setBay b y).homes = s.homes := rfl
@[simp] theorem State.setBay_job (b : Nat) (y : Bay) : (s.setBay b y).job = s.job := rfl
@[simp] theorem State.setBay_serving (b : Nat) (y : Bay) : (s.setBay b y).serving = s.serving := rfl
@[simp] theorem State.setBay_wreqs (b : Nat) (y : Bay) : (s.setBay b y).wreqs = s.wreqs := rfl
@[simp] theorem State.setBay_ports (b : Nat) (y : Bay) : (s.setBay b y).ports = s.ports := rfl
@[simp] theorem State.setBay_conns (b : Nat) (y : Bay) : (s.setBay b y).conns = s.conns := rfl
@[simp] theorem State.setBay_rx (b : Nat) (y : Bay) : (s.setBay b y).rx = s.rx := rfl
@[simp] theorem State.setBay_frameNo (b : Nat) (y : Bay) : (s.setBay b y).frameNo = s.frameNo := rfl
@[simp] theorem State.setBay_seen (b : Nat) (y : Bay) : (s.setBay b y).seen = s.seen := rfl
@[simp] theorem State.setBay_sync (b : Nat) (y : Bay) : (s.setBay b y).sync = s.sync := rfl
@[simp] theorem State.setBay_reqs (b : Nat) (y : Bay) : (s.setBay b y).reqs = s.reqs := rfl
@[simp] theorem State.setBay_tenants (b : Nat) (y : Bay) : (s.setBay b y).tenants = s.tenants := rfl
@[simp] theorem State.setBay_tenHeld (b : Nat) (y : Bay) : (s.setBay b y).tenHeld = s.tenHeld := rfl
@[simp] theorem State.setBay_windows (b : Nat) (y : Bay) : (s.setBay b y).windows = s.windows := rfl
@[simp] theorem State.setBay_bridge (b : Nat) (y : Bay) : (s.setBay b y).bridge = s.bridge := rfl
@[simp] theorem State.setBay_pfxs (b : Nat) (y : Bay) : (s.setBay b y).pfxs = s.pfxs := rfl
@[simp] theorem State.setBay_adps (b : Nat) (y : Bay) : (s.setBay b y).adps = s.adps := rfl
@[simp] theorem State.setBay_peers (b : Nat) (y : Bay) : (s.setBay b y).peers = s.peers := rfl
@[simp] theorem State.setBay_shipNo (b : Nat) (y : Bay) : (s.setBay b y).shipNo = s.shipNo := rfl
@[simp] theorem State.setBay_shipOut (b : Nat) (y : Bay) : (s.setBay b y).shipOut = s.shipOut := rfl
@[simp] theorem State.setBay_shipIn (b : Nat) (y : Bay) : (s.setBay b y).shipIn = s.shipIn := rfl
@[simp] theorem State.setBay_shipWait (b : Nat) (y : Bay) : (s.setBay b y).shipWait = s.shipWait := rfl
@[simp] theorem State.setBay_kept (b : Nat) (y : Bay) : (s.setBay b y).kept = s.kept := rfl
@[simp] theorem State.setBay_evc (b : Nat) (y : Bay) : (s.setBay b y).evc = s.evc := rfl
@[simp] theorem State.setBay_hb (b : Nat) (y : Bay) : (s.setBay b y).hb = s.hb := rfl
@[simp] theorem State.setBay_sage (b : Nat) (y : Bay) : (s.setBay b y).sage = s.sage := rfl
@[simp] theorem State.setBay_pwr (b : Nat) (y : Bay) : (s.setBay b y).pwr = s.pwr := rfl
@[simp] theorem State.setBay_flash (b : Nat) (y : Bay) : (s.setBay b y).flash = s.flash := rfl
@[simp] theorem State.setBay_fw (b : Nat) (y : Bay) : (s.setBay b y).fw = s.fw := rfl
@[simp] theorem State.setBay_jtag (b : Nat) (y : Bay) : (s.setBay b y).jtag = s.jtag := rfl
@[simp] theorem State.setBay_now (b : Nat) (y : Bay) : (s.setBay b y).now = s.now := rfl

@[simp] theorem State.onBay_pending (b : Nat) (f : Bay → Bay) : (s.onBay b f).pending = s.pending := rfl
@[simp] theorem State.onBay_outbox (b : Nat) (f : Bay → Bay) : (s.onBay b f).outbox = s.outbox := rfl
@[simp] theorem State.onBay_oracle (b : Nat) (f : Bay → Bay) : (s.onBay b f).oracle = s.oracle := rfl
@[simp] theorem State.onBay_tick (b : Nat) (f : Bay → Bay) : (s.onBay b f).tick = s.tick := rfl
@[simp] theorem State.onBay_cycle (b : Nat) (f : Bay → Bay) : (s.onBay b f).cycle = s.cycle := rfl
@[simp] theorem State.onBay_ctl (b : Nat) (f : Bay → Bay) : (s.onBay b f).ctl = s.ctl := rfl
@[simp] theorem State.onBay_banked (b : Nat) (f : Bay → Bay) : (s.onBay b f).banked = s.banked := rfl
@[simp] theorem State.onBay_latches (b : Nat) (f : Bay → Bay) : (s.onBay b f).latches = s.latches := rfl
@[simp] theorem State.onBay_inv (b : Nat) (f : Bay → Bay) : (s.onBay b f).inv = s.inv := rfl
@[simp] theorem State.onBay_parts (b : Nat) (f : Bay → Bay) : (s.onBay b f).parts = s.parts := rfl
@[simp] theorem State.onBay_cores (b : Nat) (f : Bay → Bay) : (s.onBay b f).cores = s.cores := rfl
@[simp] theorem State.onBay_net (b : Nat) (f : Bay → Bay) : (s.onBay b f).net = s.net := rfl
@[simp] theorem State.onBay_lanes (b : Nat) (f : Bay → Bay) : (s.onBay b f).lanes = s.lanes := rfl
@[simp] theorem State.onBay_watch (b : Nat) (f : Bay → Bay) : (s.onBay b f).watch = s.watch := rfl
@[simp] theorem State.onBay_rtDef (b : Nat) (f : Bay → Bay) : (s.onBay b f).rtDef = s.rtDef := rfl
@[simp] theorem State.onBay_xlat (b : Nat) (f : Bay → Bay) : (s.onBay b f).xlat = s.xlat := rfl
@[simp] theorem State.onBay_credits (b : Nat) (f : Bay → Bay) : (s.onBay b f).credits = s.credits := rfl
@[simp] theorem State.onBay_ovr (b : Nat) (f : Bay → Bay) : (s.onBay b f).ovr = s.ovr := rfl
@[simp] theorem State.onBay_overAt (b : Nat) (f : Bay → Bay) : (s.onBay b f).overAt = s.overAt := rfl
@[simp] theorem State.onBay_turns (b : Nat) (f : Bay → Bay) : (s.onBay b f).turns = s.turns := rfl
@[simp] theorem State.onBay_rotors (b : Nat) (f : Bay → Bay) : (s.onBay b f).rotors = s.rotors := rfl
@[simp] theorem State.onBay_classTurn (b : Nat) (f : Bay → Bay) : (s.onBay b f).classTurn = s.classTurn := rfl
@[simp] theorem State.onBay_retiring (b : Nat) (f : Bay → Bay) : (s.onBay b f).retiring = s.retiring := rfl
@[simp] theorem State.onBay_reports (b : Nat) (f : Bay → Bay) : (s.onBay b f).reports = s.reports := rfl
@[simp] theorem State.onBay_homes (b : Nat) (f : Bay → Bay) : (s.onBay b f).homes = s.homes := rfl
@[simp] theorem State.onBay_job (b : Nat) (f : Bay → Bay) : (s.onBay b f).job = s.job := rfl
@[simp] theorem State.onBay_serving (b : Nat) (f : Bay → Bay) : (s.onBay b f).serving = s.serving := rfl
@[simp] theorem State.onBay_wreqs (b : Nat) (f : Bay → Bay) : (s.onBay b f).wreqs = s.wreqs := rfl
@[simp] theorem State.onBay_ports (b : Nat) (f : Bay → Bay) : (s.onBay b f).ports = s.ports := rfl
@[simp] theorem State.onBay_conns (b : Nat) (f : Bay → Bay) : (s.onBay b f).conns = s.conns := rfl
@[simp] theorem State.onBay_rx (b : Nat) (f : Bay → Bay) : (s.onBay b f).rx = s.rx := rfl
@[simp] theorem State.onBay_frameNo (b : Nat) (f : Bay → Bay) : (s.onBay b f).frameNo = s.frameNo := rfl
@[simp] theorem State.onBay_seen (b : Nat) (f : Bay → Bay) : (s.onBay b f).seen = s.seen := rfl
@[simp] theorem State.onBay_sync (b : Nat) (f : Bay → Bay) : (s.onBay b f).sync = s.sync := rfl
@[simp] theorem State.onBay_reqs (b : Nat) (f : Bay → Bay) : (s.onBay b f).reqs = s.reqs := rfl
@[simp] theorem State.onBay_tenants (b : Nat) (f : Bay → Bay) : (s.onBay b f).tenants = s.tenants := rfl
@[simp] theorem State.onBay_tenHeld (b : Nat) (f : Bay → Bay) : (s.onBay b f).tenHeld = s.tenHeld := rfl
@[simp] theorem State.onBay_windows (b : Nat) (f : Bay → Bay) : (s.onBay b f).windows = s.windows := rfl
@[simp] theorem State.onBay_bridge (b : Nat) (f : Bay → Bay) : (s.onBay b f).bridge = s.bridge := rfl
@[simp] theorem State.onBay_pfxs (b : Nat) (f : Bay → Bay) : (s.onBay b f).pfxs = s.pfxs := rfl
@[simp] theorem State.onBay_adps (b : Nat) (f : Bay → Bay) : (s.onBay b f).adps = s.adps := rfl
@[simp] theorem State.onBay_peers (b : Nat) (f : Bay → Bay) : (s.onBay b f).peers = s.peers := rfl
@[simp] theorem State.onBay_shipNo (b : Nat) (f : Bay → Bay) : (s.onBay b f).shipNo = s.shipNo := rfl
@[simp] theorem State.onBay_shipOut (b : Nat) (f : Bay → Bay) : (s.onBay b f).shipOut = s.shipOut := rfl
@[simp] theorem State.onBay_shipIn (b : Nat) (f : Bay → Bay) : (s.onBay b f).shipIn = s.shipIn := rfl
@[simp] theorem State.onBay_shipWait (b : Nat) (f : Bay → Bay) : (s.onBay b f).shipWait = s.shipWait := rfl
@[simp] theorem State.onBay_kept (b : Nat) (f : Bay → Bay) : (s.onBay b f).kept = s.kept := rfl
@[simp] theorem State.onBay_evc (b : Nat) (f : Bay → Bay) : (s.onBay b f).evc = s.evc := rfl
@[simp] theorem State.onBay_hb (b : Nat) (f : Bay → Bay) : (s.onBay b f).hb = s.hb := rfl
@[simp] theorem State.onBay_sage (b : Nat) (f : Bay → Bay) : (s.onBay b f).sage = s.sage := rfl
@[simp] theorem State.onBay_pwr (b : Nat) (f : Bay → Bay) : (s.onBay b f).pwr = s.pwr := rfl
@[simp] theorem State.onBay_flash (b : Nat) (f : Bay → Bay) : (s.onBay b f).flash = s.flash := rfl
@[simp] theorem State.onBay_fw (b : Nat) (f : Bay → Bay) : (s.onBay b f).fw = s.fw := rfl
@[simp] theorem State.onBay_jtag (b : Nat) (f : Bay → Bay) : (s.onBay b f).jtag = s.jtag := rfl
@[simp] theorem State.onBay_now (b : Nat) (f : Bay → Bay) : (s.onBay b f).now = s.now := rfl

@[simp] theorem State.emit_pending (e : Emission) : (s.emit e).pending = s.pending := rfl
@[simp] theorem State.emit_oracle (e : Emission) : (s.emit e).oracle = s.oracle := rfl
@[simp] theorem State.emit_tick (e : Emission) : (s.emit e).tick = s.tick := rfl
@[simp] theorem State.emit_cycle (e : Emission) : (s.emit e).cycle = s.cycle := rfl
@[simp] theorem State.emit_ctl (e : Emission) : (s.emit e).ctl = s.ctl := rfl
@[simp] theorem State.emit_banked (e : Emission) : (s.emit e).banked = s.banked := rfl
@[simp] theorem State.emit_latches (e : Emission) : (s.emit e).latches = s.latches := rfl
@[simp] theorem State.emit_inv (e : Emission) : (s.emit e).inv = s.inv := rfl
@[simp] theorem State.emit_parts (e : Emission) : (s.emit e).parts = s.parts := rfl
@[simp] theorem State.emit_cores (e : Emission) : (s.emit e).cores = s.cores := rfl
@[simp] theorem State.emit_net (e : Emission) : (s.emit e).net = s.net := rfl
@[simp] theorem State.emit_lanes (e : Emission) : (s.emit e).lanes = s.lanes := rfl
@[simp] theorem State.emit_watch (e : Emission) : (s.emit e).watch = s.watch := rfl
@[simp] theorem State.emit_rtDef (e : Emission) : (s.emit e).rtDef = s.rtDef := rfl
@[simp] theorem State.emit_xlat (e : Emission) : (s.emit e).xlat = s.xlat := rfl
@[simp] theorem State.emit_credits (e : Emission) : (s.emit e).credits = s.credits := rfl
@[simp] theorem State.emit_ovr (e : Emission) : (s.emit e).ovr = s.ovr := rfl
@[simp] theorem State.emit_overAt (e : Emission) : (s.emit e).overAt = s.overAt := rfl
@[simp] theorem State.emit_turns (e : Emission) : (s.emit e).turns = s.turns := rfl
@[simp] theorem State.emit_rotors (e : Emission) : (s.emit e).rotors = s.rotors := rfl
@[simp] theorem State.emit_classTurn (e : Emission) : (s.emit e).classTurn = s.classTurn := rfl
@[simp] theorem State.emit_bays (e : Emission) : (s.emit e).bays = s.bays := rfl
@[simp] theorem State.emit_retiring (e : Emission) : (s.emit e).retiring = s.retiring := rfl
@[simp] theorem State.emit_reports (e : Emission) : (s.emit e).reports = s.reports := rfl
@[simp] theorem State.emit_homes (e : Emission) : (s.emit e).homes = s.homes := rfl
@[simp] theorem State.emit_job (e : Emission) : (s.emit e).job = s.job := rfl
@[simp] theorem State.emit_serving (e : Emission) : (s.emit e).serving = s.serving := rfl
@[simp] theorem State.emit_wreqs (e : Emission) : (s.emit e).wreqs = s.wreqs := rfl
@[simp] theorem State.emit_ports (e : Emission) : (s.emit e).ports = s.ports := rfl
@[simp] theorem State.emit_conns (e : Emission) : (s.emit e).conns = s.conns := rfl
@[simp] theorem State.emit_rx (e : Emission) : (s.emit e).rx = s.rx := rfl
@[simp] theorem State.emit_frameNo (e : Emission) : (s.emit e).frameNo = s.frameNo := rfl
@[simp] theorem State.emit_seen (e : Emission) : (s.emit e).seen = s.seen := rfl
@[simp] theorem State.emit_sync (e : Emission) : (s.emit e).sync = s.sync := rfl
@[simp] theorem State.emit_reqs (e : Emission) : (s.emit e).reqs = s.reqs := rfl
@[simp] theorem State.emit_tenants (e : Emission) : (s.emit e).tenants = s.tenants := rfl
@[simp] theorem State.emit_tenHeld (e : Emission) : (s.emit e).tenHeld = s.tenHeld := rfl
@[simp] theorem State.emit_windows (e : Emission) : (s.emit e).windows = s.windows := rfl
@[simp] theorem State.emit_bridge (e : Emission) : (s.emit e).bridge = s.bridge := rfl
@[simp] theorem State.emit_pfxs (e : Emission) : (s.emit e).pfxs = s.pfxs := rfl
@[simp] theorem State.emit_adps (e : Emission) : (s.emit e).adps = s.adps := rfl
@[simp] theorem State.emit_peers (e : Emission) : (s.emit e).peers = s.peers := rfl
@[simp] theorem State.emit_shipNo (e : Emission) : (s.emit e).shipNo = s.shipNo := rfl
@[simp] theorem State.emit_shipOut (e : Emission) : (s.emit e).shipOut = s.shipOut := rfl
@[simp] theorem State.emit_shipIn (e : Emission) : (s.emit e).shipIn = s.shipIn := rfl
@[simp] theorem State.emit_shipWait (e : Emission) : (s.emit e).shipWait = s.shipWait := rfl
@[simp] theorem State.emit_kept (e : Emission) : (s.emit e).kept = s.kept := rfl
@[simp] theorem State.emit_evc (e : Emission) : (s.emit e).evc = s.evc := rfl
@[simp] theorem State.emit_hb (e : Emission) : (s.emit e).hb = s.hb := rfl
@[simp] theorem State.emit_sage (e : Emission) : (s.emit e).sage = s.sage := rfl
@[simp] theorem State.emit_pwr (e : Emission) : (s.emit e).pwr = s.pwr := rfl
@[simp] theorem State.emit_flash (e : Emission) : (s.emit e).flash = s.flash := rfl
@[simp] theorem State.emit_fw (e : Emission) : (s.emit e).fw = s.fw := rfl
@[simp] theorem State.emit_jtag (e : Emission) : (s.emit e).jtag = s.jtag := rfl
@[simp] theorem State.emit_now (e : Emission) : (s.emit e).now = s.now := rfl

@[simp] theorem State.report_pending (r : Report) : (s.report r).pending = s.pending := rfl
@[simp] theorem State.report_outbox (r : Report) : (s.report r).outbox = s.outbox := rfl
@[simp] theorem State.report_oracle (r : Report) : (s.report r).oracle = s.oracle := rfl
@[simp] theorem State.report_tick (r : Report) : (s.report r).tick = s.tick := rfl
@[simp] theorem State.report_cycle (r : Report) : (s.report r).cycle = s.cycle := rfl
@[simp] theorem State.report_ctl (r : Report) : (s.report r).ctl = s.ctl := rfl
@[simp] theorem State.report_banked (r : Report) : (s.report r).banked = s.banked := rfl
@[simp] theorem State.report_latches (r : Report) : (s.report r).latches = s.latches := rfl
@[simp] theorem State.report_inv (r : Report) : (s.report r).inv = s.inv := rfl
@[simp] theorem State.report_parts (r : Report) : (s.report r).parts = s.parts := rfl
@[simp] theorem State.report_cores (r : Report) : (s.report r).cores = s.cores := rfl
@[simp] theorem State.report_net (r : Report) : (s.report r).net = s.net := rfl
@[simp] theorem State.report_lanes (r : Report) : (s.report r).lanes = s.lanes := rfl
@[simp] theorem State.report_watch (r : Report) : (s.report r).watch = s.watch := rfl
@[simp] theorem State.report_rtDef (r : Report) : (s.report r).rtDef = s.rtDef := rfl
@[simp] theorem State.report_xlat (r : Report) : (s.report r).xlat = s.xlat := rfl
@[simp] theorem State.report_credits (r : Report) : (s.report r).credits = s.credits := rfl
@[simp] theorem State.report_ovr (r : Report) : (s.report r).ovr = s.ovr := rfl
@[simp] theorem State.report_overAt (r : Report) : (s.report r).overAt = s.overAt := rfl
@[simp] theorem State.report_turns (r : Report) : (s.report r).turns = s.turns := rfl
@[simp] theorem State.report_rotors (r : Report) : (s.report r).rotors = s.rotors := rfl
@[simp] theorem State.report_classTurn (r : Report) : (s.report r).classTurn = s.classTurn := rfl
@[simp] theorem State.report_bays (r : Report) : (s.report r).bays = s.bays := rfl
@[simp] theorem State.report_retiring (r : Report) : (s.report r).retiring = s.retiring := rfl
@[simp] theorem State.report_homes (r : Report) : (s.report r).homes = s.homes := rfl
@[simp] theorem State.report_job (r : Report) : (s.report r).job = s.job := rfl
@[simp] theorem State.report_serving (r : Report) : (s.report r).serving = s.serving := rfl
@[simp] theorem State.report_wreqs (r : Report) : (s.report r).wreqs = s.wreqs := rfl
@[simp] theorem State.report_ports (r : Report) : (s.report r).ports = s.ports := rfl
@[simp] theorem State.report_conns (r : Report) : (s.report r).conns = s.conns := rfl
@[simp] theorem State.report_rx (r : Report) : (s.report r).rx = s.rx := rfl
@[simp] theorem State.report_frameNo (r : Report) : (s.report r).frameNo = s.frameNo := rfl
@[simp] theorem State.report_seen (r : Report) : (s.report r).seen = s.seen := rfl
@[simp] theorem State.report_sync (r : Report) : (s.report r).sync = s.sync := rfl
@[simp] theorem State.report_reqs (r : Report) : (s.report r).reqs = s.reqs := rfl
@[simp] theorem State.report_tenants (r : Report) : (s.report r).tenants = s.tenants := rfl
@[simp] theorem State.report_tenHeld (r : Report) : (s.report r).tenHeld = s.tenHeld := rfl
@[simp] theorem State.report_windows (r : Report) : (s.report r).windows = s.windows := rfl
@[simp] theorem State.report_bridge (r : Report) : (s.report r).bridge = s.bridge := rfl
@[simp] theorem State.report_pfxs (r : Report) : (s.report r).pfxs = s.pfxs := rfl
@[simp] theorem State.report_adps (r : Report) : (s.report r).adps = s.adps := rfl
@[simp] theorem State.report_peers (r : Report) : (s.report r).peers = s.peers := rfl
@[simp] theorem State.report_shipNo (r : Report) : (s.report r).shipNo = s.shipNo := rfl
@[simp] theorem State.report_shipOut (r : Report) : (s.report r).shipOut = s.shipOut := rfl
@[simp] theorem State.report_shipIn (r : Report) : (s.report r).shipIn = s.shipIn := rfl
@[simp] theorem State.report_shipWait (r : Report) : (s.report r).shipWait = s.shipWait := rfl
@[simp] theorem State.report_kept (r : Report) : (s.report r).kept = s.kept := rfl
@[simp] theorem State.report_evc (r : Report) : (s.report r).evc = s.evc := rfl
@[simp] theorem State.report_hb (r : Report) : (s.report r).hb = s.hb := rfl
@[simp] theorem State.report_sage (r : Report) : (s.report r).sage = s.sage := rfl
@[simp] theorem State.report_pwr (r : Report) : (s.report r).pwr = s.pwr := rfl
@[simp] theorem State.report_flash (r : Report) : (s.report r).flash = s.flash := rfl
@[simp] theorem State.report_fw (r : Report) : (s.report r).fw = s.fw := rfl
@[simp] theorem State.report_jtag (r : Report) : (s.report r).jtag = s.jtag := rfl
@[simp] theorem State.report_now (r : Report) : (s.report r).now = s.now := rfl

@[simp] theorem State.at_pending (t : Nat) : (s.at t).pending = s.pending := rfl
@[simp] theorem State.at_outbox (t : Nat) : (s.at t).outbox = s.outbox := rfl
@[simp] theorem State.at_oracle (t : Nat) : (s.at t).oracle = s.oracle := rfl
@[simp] theorem State.at_tick (t : Nat) : (s.at t).tick = s.tick := rfl
@[simp] theorem State.at_ctl (t : Nat) : (s.at t).ctl = s.ctl := rfl
@[simp] theorem State.at_banked (t : Nat) : (s.at t).banked = s.banked := rfl
@[simp] theorem State.at_latches (t : Nat) : (s.at t).latches = s.latches := rfl
@[simp] theorem State.at_inv (t : Nat) : (s.at t).inv = s.inv := rfl
@[simp] theorem State.at_parts (t : Nat) : (s.at t).parts = s.parts := rfl
@[simp] theorem State.at_cores (t : Nat) : (s.at t).cores = s.cores := rfl
@[simp] theorem State.at_net (t : Nat) : (s.at t).net = s.net := rfl
@[simp] theorem State.at_lanes (t : Nat) : (s.at t).lanes = s.lanes := rfl
@[simp] theorem State.at_watch (t : Nat) : (s.at t).watch = s.watch := rfl
@[simp] theorem State.at_rtDef (t : Nat) : (s.at t).rtDef = s.rtDef := rfl
@[simp] theorem State.at_xlat (t : Nat) : (s.at t).xlat = s.xlat := rfl
@[simp] theorem State.at_credits (t : Nat) : (s.at t).credits = s.credits := rfl
@[simp] theorem State.at_ovr (t : Nat) : (s.at t).ovr = s.ovr := rfl
@[simp] theorem State.at_overAt (t : Nat) : (s.at t).overAt = s.overAt := rfl
@[simp] theorem State.at_turns (t : Nat) : (s.at t).turns = s.turns := rfl
@[simp] theorem State.at_rotors (t : Nat) : (s.at t).rotors = s.rotors := rfl
@[simp] theorem State.at_classTurn (t : Nat) : (s.at t).classTurn = s.classTurn := rfl
@[simp] theorem State.at_bays (t : Nat) : (s.at t).bays = s.bays := rfl
@[simp] theorem State.at_retiring (t : Nat) : (s.at t).retiring = s.retiring := rfl
@[simp] theorem State.at_reports (t : Nat) : (s.at t).reports = s.reports := rfl
@[simp] theorem State.at_homes (t : Nat) : (s.at t).homes = s.homes := rfl
@[simp] theorem State.at_job (t : Nat) : (s.at t).job = s.job := rfl
@[simp] theorem State.at_serving (t : Nat) : (s.at t).serving = s.serving := rfl
@[simp] theorem State.at_wreqs (t : Nat) : (s.at t).wreqs = s.wreqs := rfl
@[simp] theorem State.at_ports (t : Nat) : (s.at t).ports = s.ports := rfl
@[simp] theorem State.at_conns (t : Nat) : (s.at t).conns = s.conns := rfl
@[simp] theorem State.at_rx (t : Nat) : (s.at t).rx = s.rx := rfl
@[simp] theorem State.at_frameNo (t : Nat) : (s.at t).frameNo = s.frameNo := rfl
@[simp] theorem State.at_seen (t : Nat) : (s.at t).seen = s.seen := rfl
@[simp] theorem State.at_sync (t : Nat) : (s.at t).sync = s.sync := rfl
@[simp] theorem State.at_reqs (t : Nat) : (s.at t).reqs = s.reqs := rfl
@[simp] theorem State.at_tenants (t : Nat) : (s.at t).tenants = s.tenants := rfl
@[simp] theorem State.at_tenHeld (t : Nat) : (s.at t).tenHeld = s.tenHeld := rfl
@[simp] theorem State.at_windows (t : Nat) : (s.at t).windows = s.windows := rfl
@[simp] theorem State.at_bridge (t : Nat) : (s.at t).bridge = s.bridge := rfl
@[simp] theorem State.at_pfxs (t : Nat) : (s.at t).pfxs = s.pfxs := rfl
@[simp] theorem State.at_adps (t : Nat) : (s.at t).adps = s.adps := rfl
@[simp] theorem State.at_peers (t : Nat) : (s.at t).peers = s.peers := rfl
@[simp] theorem State.at_shipNo (t : Nat) : (s.at t).shipNo = s.shipNo := rfl
@[simp] theorem State.at_shipOut (t : Nat) : (s.at t).shipOut = s.shipOut := rfl
@[simp] theorem State.at_shipIn (t : Nat) : (s.at t).shipIn = s.shipIn := rfl
@[simp] theorem State.at_shipWait (t : Nat) : (s.at t).shipWait = s.shipWait := rfl
@[simp] theorem State.at_kept (t : Nat) : (s.at t).kept = s.kept := rfl
@[simp] theorem State.at_evc (t : Nat) : (s.at t).evc = s.evc := rfl
@[simp] theorem State.at_hb (t : Nat) : (s.at t).hb = s.hb := rfl
@[simp] theorem State.at_sage (t : Nat) : (s.at t).sage = s.sage := rfl
@[simp] theorem State.at_pwr (t : Nat) : (s.at t).pwr = s.pwr := rfl
@[simp] theorem State.at_flash (t : Nat) : (s.at t).flash = s.flash := rfl
@[simp] theorem State.at_fw (t : Nat) : (s.at t).fw = s.fw := rfl
@[simp] theorem State.at_jtag (t : Nat) : (s.at t).jtag = s.jtag := rfl
@[simp] theorem State.at_now (t : Nat) : (s.at t).now = s.now := rfl

@[simp] theorem State.recordFirst_pending (a v : Nat) : (s.recordFirst a v).pending = s.pending := by unfold State.recordFirst; split <;> rfl
@[simp] theorem State.recordFirst_outbox (a v : Nat) : (s.recordFirst a v).outbox = s.outbox := by unfold State.recordFirst; split <;> rfl
@[simp] theorem State.recordFirst_oracle (a v : Nat) : (s.recordFirst a v).oracle = s.oracle := by unfold State.recordFirst; split <;> rfl
@[simp] theorem State.recordFirst_tick (a v : Nat) : (s.recordFirst a v).tick = s.tick := by unfold State.recordFirst; split <;> rfl
@[simp] theorem State.recordFirst_cycle (a v : Nat) : (s.recordFirst a v).cycle = s.cycle := by unfold State.recordFirst; split <;> rfl
@[simp] theorem State.recordFirst_banked (a v : Nat) : (s.recordFirst a v).banked = s.banked := by unfold State.recordFirst; split <;> rfl
@[simp] theorem State.recordFirst_latches (a v : Nat) : (s.recordFirst a v).latches = s.latches := by unfold State.recordFirst; split <;> rfl
@[simp] theorem State.recordFirst_inv (a v : Nat) : (s.recordFirst a v).inv = s.inv := by unfold State.recordFirst; split <;> rfl
@[simp] theorem State.recordFirst_parts (a v : Nat) : (s.recordFirst a v).parts = s.parts := by unfold State.recordFirst; split <;> rfl
@[simp] theorem State.recordFirst_cores (a v : Nat) : (s.recordFirst a v).cores = s.cores := by unfold State.recordFirst; split <;> rfl
@[simp] theorem State.recordFirst_net (a v : Nat) : (s.recordFirst a v).net = s.net := by unfold State.recordFirst; split <;> rfl
@[simp] theorem State.recordFirst_lanes (a v : Nat) : (s.recordFirst a v).lanes = s.lanes := by unfold State.recordFirst; split <;> rfl
@[simp] theorem State.recordFirst_watch (a v : Nat) : (s.recordFirst a v).watch = s.watch := by unfold State.recordFirst; split <;> rfl
@[simp] theorem State.recordFirst_rtDef (a v : Nat) : (s.recordFirst a v).rtDef = s.rtDef := by unfold State.recordFirst; split <;> rfl
@[simp] theorem State.recordFirst_xlat (a v : Nat) : (s.recordFirst a v).xlat = s.xlat := by unfold State.recordFirst; split <;> rfl
@[simp] theorem State.recordFirst_credits (a v : Nat) : (s.recordFirst a v).credits = s.credits := by unfold State.recordFirst; split <;> rfl
@[simp] theorem State.recordFirst_ovr (a v : Nat) : (s.recordFirst a v).ovr = s.ovr := by unfold State.recordFirst; split <;> rfl
@[simp] theorem State.recordFirst_overAt (a v : Nat) : (s.recordFirst a v).overAt = s.overAt := by unfold State.recordFirst; split <;> rfl
@[simp] theorem State.recordFirst_turns (a v : Nat) : (s.recordFirst a v).turns = s.turns := by unfold State.recordFirst; split <;> rfl
@[simp] theorem State.recordFirst_rotors (a v : Nat) : (s.recordFirst a v).rotors = s.rotors := by unfold State.recordFirst; split <;> rfl
@[simp] theorem State.recordFirst_classTurn (a v : Nat) : (s.recordFirst a v).classTurn = s.classTurn := by unfold State.recordFirst; split <;> rfl
@[simp] theorem State.recordFirst_bays (a v : Nat) : (s.recordFirst a v).bays = s.bays := by unfold State.recordFirst; split <;> rfl
@[simp] theorem State.recordFirst_retiring (a v : Nat) : (s.recordFirst a v).retiring = s.retiring := by unfold State.recordFirst; split <;> rfl
@[simp] theorem State.recordFirst_reports (a v : Nat) : (s.recordFirst a v).reports = s.reports := by unfold State.recordFirst; split <;> rfl
@[simp] theorem State.recordFirst_homes (a v : Nat) : (s.recordFirst a v).homes = s.homes := by unfold State.recordFirst; split <;> rfl
@[simp] theorem State.recordFirst_job (a v : Nat) : (s.recordFirst a v).job = s.job := by unfold State.recordFirst; split <;> rfl
@[simp] theorem State.recordFirst_serving (a v : Nat) : (s.recordFirst a v).serving = s.serving := by unfold State.recordFirst; split <;> rfl
@[simp] theorem State.recordFirst_wreqs (a v : Nat) : (s.recordFirst a v).wreqs = s.wreqs := by unfold State.recordFirst; split <;> rfl
@[simp] theorem State.recordFirst_ports (a v : Nat) : (s.recordFirst a v).ports = s.ports := by unfold State.recordFirst; split <;> rfl
@[simp] theorem State.recordFirst_conns (a v : Nat) : (s.recordFirst a v).conns = s.conns := by unfold State.recordFirst; split <;> rfl
@[simp] theorem State.recordFirst_rx (a v : Nat) : (s.recordFirst a v).rx = s.rx := by unfold State.recordFirst; split <;> rfl
@[simp] theorem State.recordFirst_frameNo (a v : Nat) : (s.recordFirst a v).frameNo = s.frameNo := by unfold State.recordFirst; split <;> rfl
@[simp] theorem State.recordFirst_seen (a v : Nat) : (s.recordFirst a v).seen = s.seen := by unfold State.recordFirst; split <;> rfl
@[simp] theorem State.recordFirst_sync (a v : Nat) : (s.recordFirst a v).sync = s.sync := by unfold State.recordFirst; split <;> rfl
@[simp] theorem State.recordFirst_reqs (a v : Nat) : (s.recordFirst a v).reqs = s.reqs := by unfold State.recordFirst; split <;> rfl
@[simp] theorem State.recordFirst_tenants (a v : Nat) : (s.recordFirst a v).tenants = s.tenants := by unfold State.recordFirst; split <;> rfl
@[simp] theorem State.recordFirst_tenHeld (a v : Nat) : (s.recordFirst a v).tenHeld = s.tenHeld := by unfold State.recordFirst; split <;> rfl
@[simp] theorem State.recordFirst_windows (a v : Nat) : (s.recordFirst a v).windows = s.windows := by unfold State.recordFirst; split <;> rfl
@[simp] theorem State.recordFirst_bridge (a v : Nat) : (s.recordFirst a v).bridge = s.bridge := by unfold State.recordFirst; split <;> rfl
@[simp] theorem State.recordFirst_pfxs (a v : Nat) : (s.recordFirst a v).pfxs = s.pfxs := by unfold State.recordFirst; split <;> rfl
@[simp] theorem State.recordFirst_adps (a v : Nat) : (s.recordFirst a v).adps = s.adps := by unfold State.recordFirst; split <;> rfl
@[simp] theorem State.recordFirst_peers (a v : Nat) : (s.recordFirst a v).peers = s.peers := by unfold State.recordFirst; split <;> rfl
@[simp] theorem State.recordFirst_shipNo (a v : Nat) : (s.recordFirst a v).shipNo = s.shipNo := by unfold State.recordFirst; split <;> rfl
@[simp] theorem State.recordFirst_shipOut (a v : Nat) : (s.recordFirst a v).shipOut = s.shipOut := by unfold State.recordFirst; split <;> rfl
@[simp] theorem State.recordFirst_shipIn (a v : Nat) : (s.recordFirst a v).shipIn = s.shipIn := by unfold State.recordFirst; split <;> rfl
@[simp] theorem State.recordFirst_shipWait (a v : Nat) : (s.recordFirst a v).shipWait = s.shipWait := by unfold State.recordFirst; split <;> rfl
@[simp] theorem State.recordFirst_kept (a v : Nat) : (s.recordFirst a v).kept = s.kept := by unfold State.recordFirst; split <;> rfl
@[simp] theorem State.recordFirst_evc (a v : Nat) : (s.recordFirst a v).evc = s.evc := by unfold State.recordFirst; split <;> rfl
@[simp] theorem State.recordFirst_hb (a v : Nat) : (s.recordFirst a v).hb = s.hb := by unfold State.recordFirst; split <;> rfl
@[simp] theorem State.recordFirst_sage (a v : Nat) : (s.recordFirst a v).sage = s.sage := by unfold State.recordFirst; split <;> rfl
@[simp] theorem State.recordFirst_pwr (a v : Nat) : (s.recordFirst a v).pwr = s.pwr := by unfold State.recordFirst; split <;> rfl
@[simp] theorem State.recordFirst_flash (a v : Nat) : (s.recordFirst a v).flash = s.flash := by unfold State.recordFirst; split <;> rfl
@[simp] theorem State.recordFirst_fw (a v : Nat) : (s.recordFirst a v).fw = s.fw := by unfold State.recordFirst; split <;> rfl
@[simp] theorem State.recordFirst_jtag (a v : Nat) : (s.recordFirst a v).jtag = s.jtag := by unfold State.recordFirst; split <;> rfl

/-! ## Control-space words and fields -/

/-- A word read after a write: the word written at its address, what was there elsewhere. -/
@[simp] theorem State.rd_wr (a : Nat) (v : Word) (b : Nat) : (s.wr a v).rd b = if b = a then v else s.rd b := by
  simp [State.rd, State.wr]

@[simp] theorem State.setCore_rd (p : Nat) (c : Core) (w : Nat) : (s.setCore p c).rd w = s.rd w := rfl
@[simp] theorem State.setCore_get (p : Nat) (c : Core) (g : FieldRef) : (s.setCore p c).get g = s.get g := rfl
@[simp] theorem State.setCore_on (p : Nat) (c : Core) (g : FieldRef) : (s.setCore p c).on g = s.on g := rfl
@[simp] theorem State.onCore_rd (p : Nat) (f : Core → Core) (w : Nat) : (s.onCore p f).rd w = s.rd w := rfl
@[simp] theorem State.onCore_get (p : Nat) (f : Core → Core) (g : FieldRef) : (s.onCore p f).get g = s.get g := rfl
@[simp] theorem State.onCore_on (p : Nat) (f : Core → Core) (g : FieldRef) : (s.onCore p f).on g = s.on g := rfl
@[simp] theorem State.setPart_rd (n : Nat) (q : PartSt) (w : Nat) : (s.setPart n q).rd w = s.rd w := rfl
@[simp] theorem State.setPart_get (n : Nat) (q : PartSt) (g : FieldRef) : (s.setPart n q).get g = s.get g := rfl
@[simp] theorem State.setPart_on (n : Nat) (q : PartSt) (g : FieldRef) : (s.setPart n q).on g = s.on g := rfl
@[simp] theorem State.onPart_rd (n : Nat) (f : PartSt → PartSt) (w : Nat) : (s.onPart n f).rd w = s.rd w := rfl
@[simp] theorem State.onPart_get (n : Nat) (f : PartSt → PartSt) (g : FieldRef) : (s.onPart n f).get g = s.get g := rfl
@[simp] theorem State.onPart_on (n : Nat) (f : PartSt → PartSt) (g : FieldRef) : (s.onPart n f).on g = s.on g := rfl
@[simp] theorem State.setBay_rd (b : Nat) (y : Bay) (w : Nat) : (s.setBay b y).rd w = s.rd w := rfl
@[simp] theorem State.setBay_get (b : Nat) (y : Bay) (g : FieldRef) : (s.setBay b y).get g = s.get g := rfl
@[simp] theorem State.setBay_on (b : Nat) (y : Bay) (g : FieldRef) : (s.setBay b y).on g = s.on g := rfl
@[simp] theorem State.onBay_rd (b : Nat) (f : Bay → Bay) (w : Nat) : (s.onBay b f).rd w = s.rd w := rfl
@[simp] theorem State.onBay_get (b : Nat) (f : Bay → Bay) (g : FieldRef) : (s.onBay b f).get g = s.get g := rfl
@[simp] theorem State.onBay_on (b : Nat) (f : Bay → Bay) (g : FieldRef) : (s.onBay b f).on g = s.on g := rfl
@[simp] theorem State.emit_rd (e : Emission) (w : Nat) : (s.emit e).rd w = s.rd w := rfl
@[simp] theorem State.emit_get (e : Emission) (g : FieldRef) : (s.emit e).get g = s.get g := rfl
@[simp] theorem State.emit_on (e : Emission) (g : FieldRef) : (s.emit e).on g = s.on g := rfl
@[simp] theorem State.report_rd (r : Report) (w : Nat) : (s.report r).rd w = s.rd w := rfl
@[simp] theorem State.report_get (r : Report) (g : FieldRef) : (s.report r).get g = s.get g := rfl
@[simp] theorem State.report_on (r : Report) (g : FieldRef) : (s.report r).on g = s.on g := rfl
@[simp] theorem State.at_rd (t : Nat) (w : Nat) : (s.at t).rd w = s.rd w := rfl
@[simp] theorem State.at_get (t : Nat) (g : FieldRef) : (s.at t).get g = s.get g := rfl
@[simp] theorem State.at_on (t : Nat) (g : FieldRef) : (s.at t).on g = s.on g := rfl

theorem State.set_rd (f : FieldRef) (v b : Nat) :
    (s.set f v).rd b = if b = f.addr then setBits (s.rd f.addr) f.lo f.len v else s.rd b := by
  simp [State.set]

/-- A write of a field leaves the words at other addresses as they were. -/
theorem State.set_rd_ne (f : FieldRef) (v b : Nat) (h : b ≠ f.addr) : (s.set f v).rd b = s.rd b := by
  rw [State.set_rd, if_neg h]

/-- A field read after it was written: what was written, cut to its width. -/
theorem State.get_set (f : FieldRef) (v : Nat) (h : f.lo + f.len ≤ 32) : (s.set f v).get f = v % 2 ^ f.len := by
  simp only [State.get, State.set_rd, if_true]; exact bits_setBits _ _ _ _ h

/-- A field of another register keeps its value. -/
theorem State.get_set_addr (f g : FieldRef) (v : Nat) (h : g.addr ≠ f.addr) : (s.set f v).get g = s.get g := by
  simp only [State.get, State.set_rd, if_neg h]

/-- A field of the same register that shares no bit with the one written keeps its value. -/
theorem State.get_set_bits (f g : FieldRef) (v : Nat) (hf : f.lo + f.len ≤ 32)
    (h : g.lo + g.len ≤ f.lo ∨ f.lo + f.len ≤ g.lo) : (s.set f v).get g = s.get g := by
  by_cases ha : g.addr = f.addr
  · simp only [State.get, State.set_rd, ha, if_true]; exact bits_setBits_ne _ _ _ _ _ _ hf h
  · exact State.get_set_addr s f g v ha

/-- A field is unchanged by a write of a word elsewhere. -/
theorem State.get_wr_addr (a : Nat) (v : Word) (g : FieldRef) (h : g.addr ≠ a) : (s.wr a v).get g = s.get g := by
  simp [State.get, h]

@[simp] theorem State.get_wr (v : Word) (g : FieldRef) : (s.wr g.addr v).get g = bits v g.lo g.len := by
  simp [State.get]

/-! ## Records -/

@[simp] theorem State.core_setCore (p : Nat) (c : Core) (q : Nat) : (s.setCore p c).core q = if q = p then c else s.core q := by
  simp [State.core, State.setCore]

@[simp] theorem State.core_onCore (p : Nat) (f : Core → Core) (q : Nat) :
    (s.onCore p f).core q = if q = p then f (s.core p) else s.core q := by
  simp [State.onCore]

@[simp] theorem State.part_setPart (n : Nat) (q : PartSt) (m : Nat) : (s.setPart n q).part m = if m = n then q else s.part m := by
  simp [State.part, State.setPart]

@[simp] theorem State.part_onPart (n : Nat) (f : PartSt → PartSt) (m : Nat) :
    (s.onPart n f).part m = if m = n then f (s.part n) else s.part m := by
  simp [State.onPart]

@[simp] theorem State.bay_setBay (b : Nat) (y : Bay) (c : Nat) : (s.setBay b y).bay c = if c = b then y else s.bay c := by
  simp [State.bay, State.setBay]

@[simp] theorem State.bay_onBay (b : Nat) (f : Bay → Bay) (c : Nat) :
    (s.onBay b f).bay c = if c = b then f (s.bay b) else s.bay c := by
  simp [State.onBay]

/-! ## The canonical form -/

theorem State.wr_canon (h : canon resetWord s.ctl = true) (a : Nat) (v : Word) : canon resetWord (s.wr a v).ctl = true :=
  canon_wrAt _ h a v

theorem State.set_canon (h : canon resetWord s.ctl = true) (f : FieldRef) (v : Nat) :
    canon resetWord (s.set f v).ctl = true :=
  s.wr_canon h _ _

end Sys2Proof.Machine
end

