-- ==== Sys2Proof/Laws/Issue.lean ====
section
/-!
SUPPORT. What the issue of an instruction does, said once: the cycle it issues in, what it does to the engine and to the
core when it claims no bank, and that effects in flight are listed.
-/

namespace Sys2Proof.Machine

open Sys2Proof

/-- A register write that takes effect. -/
theorem State.writeAt_of_opens {s : State} {a : Nat} (h : s.opens a = true) (f : State → State) : s.writeAt a f = f s := by
  simp only [State.opens, Bool.and_eq_true, Bool.not_eq_true'] at h
  unfold State.writeAt
  rw [h.1.1, h.1.2, h.2]
  rfl

/-! ## Engines of a core -/

@[simp] theorem Core.eng_setEng (c : Core) (e : Engine) (x : Eng) : (c.setEng e x).eng e = x := by cases e <;> rfl

@[simp] theorem Core.eng_onEng (c : Core) (e : Engine) (f : Eng → Eng) : (c.onEng e f).eng e = f (c.eng e) := by
  simp [Core.onEng]

@[simp] theorem Core.eng_later (c : Core) (d : Nat) (f : Eff) (e : Engine) : (c.later d f).eng e = c.eng e := by
  cases e <;> rfl

@[simp] theorem Core.eng_prune (c : Core) (d : Nat) (e : Engine) : (c.prune d).eng e = c.eng e := by cases e <;> rfl

@[simp] theorem Core.eng_cpSet (c : Core) (f : FieldRef) (v : Nat) (e : Engine) : (c.cpSet f v).eng e = c.eng e := by
  cases e <;> rfl

/-- A wait adds nothing to a plan but the counter it names. -/
theorem withWait_shape (c : Core) (e : Engine) (w : DWord) (p : Plan) :
    (withWait c e w p).groups = p.groups ∧ (withWait c e w p).jump = p.jump ∧ (withWait c e w p).occ = p.occ ∧
      (withWait c e w p).effect = p.effect ∧ (withWait c e w p).use = p.use ∧ (withWait c e w p).lat = p.lat ∧
      (withWait c e w p).period = p.period := by
  unfold withWait; split <;> simp

/-! ## Effects in flight -/

theorem mem_insertPend (l : List Pend) (p q : Pend) : q ∈ insertPend l p ↔ q = p ∨ q ∈ l := by
  induction l with
  | nil => simp [insertPend]
  | cons a r ih =>
    simp only [insertPend]; split
    · simp
    · simp only [List.mem_cons, ih]; tauto

@[simp] theorem Core.awaits_later (c : Core) (due : Nat) (e : Eff) (d : Nat) (f : Eff) :
    (c.later due e).awaits d f ↔ (d = due ∧ f = e) ∨ c.awaits d f := by
  simp [Core.awaits, Core.later, mem_insertPend]

theorem Core.awaits_laters (c : Core) (l : List (Nat × Eff)) (d : Nat) (f : Eff) :
    (c.laters l).awaits d f ↔ (d, f) ∈ l ∨ c.awaits d f := by
  induction l generalizing c with
  | nil => simp [Core.laters]
  | cons a r ih =>
    have := ih (c.later a.1 a.2)
    simp only [Core.laters, List.foldl_cons, List.mem_cons, Prod.ext_iff] at this ⊢
    rw [this, Core.awaits_later]; tauto

/-! ## What accesses under way leave as it is -/

/-- The reading `f` of a state does not depend on what the accesses of core `p` can change: the core itself, control-space
registers and the record of the present cycle, the reports to Sage, the network, the emit gate (R10, R149 to R153, R468). -/
structure Untouched {α : Type} (f : State → α) (p : Nat) : Prop where
  core : ∀ s c, f (s.setCore p c) = f s
  wr : ∀ s a v, f (s.wr a v) = f s
  strike : ∀ s a g, f (s.strike a g) = f s
  report : ∀ s r, f (s.report r) = f s
  net : ∀ (s : State) l, f { s with net := l } = f s
  gate : ∀ s n w, f (s.emitToken n p w) = f s

section
variable {α : Type} {f : State → α} {p : Nat} (hf : Untouched f p)
include hf

theorem Untouched.onCore (s : State) (g : Core → Core) : f (s.onCore p g) = f s := hf.core _ _

theorem Untouched.cpCount (s : State) (r : FieldRef) (n t : Nat) : f (s.cpCount p r n t) = f s := by
  unfold State.cpCount; dsimp only; split
  · rw [hf.strike, hf.core]
  · exact hf.core _ _

theorem Untouched.cpRecord (s : State) (a stamp v t : Nat) : f (s.cpRecord p a stamp v t) = f s := by
  unfold State.cpRecord; dsimp only; split
  · rfl
  · split
    · rw [hf.strike, hf.core]
    · exact hf.core _ _

theorem Untouched.note (s : State) (t : Nat) (n : Note) : f (s.note p t n) = f s := by
  cases n with
  | sat n =>
    simp only [State.note]; split
    · rw [State.bump, hf.strike]; exact hf.wr _ _ _
    · exact hf.wr _ _ _
  | overflow k row w =>
    simp only [State.note, State.landEvent]
    rw [hf.report, hf.cpRecord, hf.cpCount]

theorem Untouched.effects (s : State) (t : Nat) : f (s.effects p t) = f s := by
  unfold State.effects
  exact (each_eq f (fun (n : Nat × Note) (u : State) => hf.note u n.1 n.2) _ _).trans (hf.core _ _)

theorem Untouched.shiftLate (s : State) (q : Packet → Bool) (n : Nat) : f (s.shiftLate q n) = f s := hf.net _ _

theorem Untouched.delay (s : State) (r : Run) (t n : Nat) : f (s.delay p r t n) = f s := by
  unfold State.delay; dsimp only; split
  · rw [hf.onCore, hf.shiftLate, hf.onCore]
  · exact hf.onCore _ _

theorem Untouched.eccRow (s : State) (row t : Nat) (b : Bool) : f (s.eccRow p row t b).1 = f s := by
  unfold State.eccRow; dsimp only; split
  · rfl
  · split
    · dsimp only; rw [hf.onCore, hf.cpCount]
    · dsimp only; rw [hf.report, hf.cpRecord, hf.cpCount]

theorem Untouched.eccGroup (s : State) (t : Nat) (l : List Nat) : f (s.eccGroup p t l).1 = f s := by
  unfold State.eccGroup
  exact foldl_same (fun x : State × Bool => f x.1)
    (f := fun x row => ((x.1.eccRow p row t false).1, x.2 || (x.1.eccRow p row t false).2)) (fun x row => hf.eccRow x.1 row t false)
    l (s, false)

theorem Untouched.passRows (s : State) (r : Run) (u : Nat) (l : List (Nat × Row)) : f (s.passRows p r u l) = f s := by
  unfold State.passRows; split
  · exact hf.onCore _ _
  · exact hf.net _ _
  · rfl

theorem Untouched.handOver (s : State) (r : Run) : f (s.handOver p r) = f s := by
  unfold State.handOver; split
  · exact hf.gate _ _ _
  · rfl

theorem Untouched.grant (s : State) (r : Run) (u : Nat) : f (s.grant p r u) = f s := by
  unfold State.grant
  split
  · exact hf.onCore _ _
  · dsimp only
    split
    · rw [hf.handOver, hf.onCore, State.setRun, hf.onCore, hf.passRows]
      split <;> split <;> simp only [hf.delay, hf.eccGroup, hf.onCore]
    · rw [State.setRun, hf.onCore, hf.passRows]
      split <;> split <;> simp only [hf.delay, hf.eccGroup, hf.onCore]

theorem Untouched.runAt (s : State) (u : Nat) (e : Engine) : f (s.runAt p u e) = f s := by
  unfold State.runAt; split
  · rfl
  · split
    · exact hf.grant _ _ _
    · rw [State.setRun, hf.onCore, hf.delay]

theorem Untouched.serveRow (s : State) (u : Nat) (x : RemoteRead) : f (s.serveRow p u x) = f s := by
  have pick : ∀ (c : Bool) (a b : State), f a = f s → f b = f s → f (if c = true then a else b) = f s := by
    intro c a b ha hb; split
    exacts [ha, hb]
  unfold State.serveRow
  refine pick _ _ _ ((hf.onCore _ _).trans ((hf.net _ _).trans (pick _ _ _ ?_ ?_))) ?_
  · rw [hf.shiftLate, hf.eccRow, hf.onCore]
  · rw [hf.eccRow, hf.onCore]
  · rw [hf.onCore, hf.shiftLate]

theorem Untouched.serveReads (s : State) (u : Nat) (b : Bool) : f (s.serveReads p u b) = f s :=
  foldl_same f (fun _ _ => hf.serveRow _ _ _) _ s

theorem Untouched.runCycle (s : State) (u below : Nat) : f (s.runCycle p u below) = f s := by
  have h : ∀ (l : List Engine) (s : State),
      f (l.foldl (fun s e => if enginePrio e < below then s.runAt p u e else s) s) = f s :=
    foldl_same f fun s e => by split; exacts [hf.runAt _ _ _, rfl]
  unfold State.runCycle; split
  · rfl
  · dsimp only
    split
    · rw [hf.serveReads, h, hf.serveReads]
    · rw [h, hf.serveReads]

theorem Untouched.runTo (t fuel : Nat) (s : State) : f (State.runTo p t fuel s) = f s := by
  induction fuel generalizing s with
  | zero => rfl
  | succ n ih =>
    unfold State.runTo; split
    · rfl
    · split
      · rw [ih, hf.runCycle, hf.effects]
      · rfl

/-- A core brought to cycle `t` leaves a reading that does not depend on its accesses as it is. -/
theorem Untouched.settle (s : State) (t : Nat) : f (s.settle p t) = f s := by
  unfold State.settle; rw [hf.effects, hf.runTo]

theorem Untouched.ahead (s : State) (t below : Nat) : f (s.ahead p t below) = f s := by
  unfold State.ahead; rw [hf.runCycle, hf.settle]

end

theorem untouched_cycle (p : Nat) : Untouched State.cycle p where
  core _ _ := rfl
  wr _ _ _ := rfl
  strike _ _ _ := rfl
  report _ _ := rfl
  net _ _ := rfl
  gate s n w := by
    unfold State.emitToken; dsimp only
    repeat' split
    all_goals rfl

/-- The cores but `p`, the Bays, the flash, the tick counter and the queue, which no access under way can change. -/
theorem untouched_rest (p : Nat) :
    Untouched (fun s => (fun q : Nat => if q = p then Core.reset else s.core q, s.bays, s.flash, s.tick, s.pending)) p where
  core s c := by
    refine Prod.ext (funext fun q => ?_) rfl
    dsimp only
    split
    · rfl
    · rw [State.core_setCore, if_neg ‹_›]
  wr _ _ _ := rfl
  strike _ _ _ := rfl
  report _ _ := rfl
  net _ _ := rfl
  gate s n w := by
    unfold State.emitToken; dsimp only
    repeat' split
    all_goals rfl

@[simp] theorem State.landed_cycle (s : State) (p : Nat) (e : Engine) : (s.landed p e).cycle = s.cycle := by
  exact (untouched_cycle p).ahead s _ _

/-! ## Issue -/

/-- An instruction that may issue in the present cycle issues in it. -/
theorem State.issue_of_issuesNow {s : State} {x : At} {e : Engine} {plan : State → Nat → Plan}
    (h : s.issuesNow x e plan = true) :
    s.issue x e plan =
      (s.landed x.core e).issueAt x.core e s.cycle (plan (s.landed x.core e) s.cycle) x.mismatch := by
  simp only [State.issuesNow, Bool.and_eq_true, decide_eq_true_eq, Option.isNone_iff_eq_none] at h
  obtain ⟨⟨⟨⟨⟨hp, hr⟩, hu⟩, hc⟩, ht⟩, hf⟩ := h
  have hs : s.upset x.core x.upsets = s := by simp [State.upset, hu]
  have h2 : s.tickEnd - s.cycle = (s.tickEnd - s.cycle - 1) + 1 := by unfold State.tickEnd; omega
  unfold State.issue
  rw [if_neg (by simp [hr]; omega), hs]
  unfold State.landed at ht hf hc ⊢
  dsimp only
  rw [h2, State.issueCycle]
  simp only [hc, ht, hf, Option.isSome_none, Bool.false_eq_true, false_or, and_self, if_true]

/-! ## One claim cycle -/

theorem placeWant_apart (x : Want) (g : List Want) (h : ∀ y ∈ g, y.bank ≠ x.bank) : placeWant x [g] = [g ++ [x]] := by
  have : g.any (fun y => y.bank == x.bank) = false := by simpa using h
  simp [placeWant, this]

/-- Rows no two of which share a bank are claimed in one cycle (R153). -/
theorem spread_apart (l : List Want) (h : (l.map (·.bank)).Nodup) (hl : l ≠ []) : spread l = [l] := by
  have key : ∀ (r g : List Want), ((g ++ r).map (·.bank)).Nodup → r.foldl (fun l x => placeWant x l) [g] = [g ++ r] := by
    intro r
    induction r with
    | nil => intro g _; simp
    | cons a r ih =>
      intro g hg
      rw [List.foldl_cons, placeWant_apart a g]
      · rw [ih]
        · simp
        · simpa using hg
      · intro y hy e
        simp only [List.map_append, List.map_cons, List.nodup_append] at hg
        exact hg.2.2 _ (List.mem_map.2 ⟨y, hy, rfl⟩) _ List.mem_cons_self e
  match l, hl with
  | a :: r, _ => simpa [spread, placeWant] using key r [a] (by simpa using h)

theorem Core.wants_banks (c : Core) (n : Nat) (rows : List Nat) :
    (c.wants n rows).map (·.bank) = rows.map c.bank := by
  unfold Core.wants
  rw [List.map_map]
  have : ((fun x : Want => x.bank) ∘ fun x : Nat × Nat => (⟨x.2, n + x.1, c.bank x.2⟩ : Want)) = c.bank ∘ Prod.snd := rfl
  rw [this, ← List.map_map, List.map_snd_zip (by simp)]

/-- A core that holds no upset row reads every row as it stands, at no cost (R149, R150). -/
theorem State.eccGroup_clean {s : State} {p : Nat} (h : (s.core p).marks = []) (t : Nat) (l : List Nat) :
    s.eccGroup p t l = (s, 0) := by
  have hr : ∀ row, s.eccRow p row t false = (s, false) := by
    intro row; unfold State.eccRow; simp [h, lookup?]
  have : ∀ l : List Nat, l.foldl (fun (x : State × Bool) row =>
      let y := x.1.eccRow p row t false; (y.1, x.2 || y.2)) (s, false) = (s, false) := by
    intro l
    induction l with
    | nil => rfl
    | cons a r ih => rw [List.foldl_cons]; simpa [hr] using ih
  unfold State.eccGroup
  dsimp only
  rw [this]; rfl

/-- An instruction that claims no bank: the wait's subtraction, the engine's new program counter, then the effect. -/
theorem State.issueAt_no_groups {v : State} {p : Nat} {e : Engine} {t : Nat} {pl : Plan} {mismatch : Bool}
    (hg : pl.groups = []) (ht : v.cycle = t) :
    v.issueAt p e t pl mismatch = pl.effect t (v.setCore p
      ((match pl.cnt with
        | some k => if pl.take then ((v.core p).prune t).cpSet (SPC_CNT_value k)
            (((v.core p).prune t).cpGet (SPC_CNT_value k) - pl.amount) else (v.core p).prune t
        | none => (v.core p).prune t).onEng e (fun x =>
          x.after t pl.occ (match pl.jump with | some j => j | none => nextPc x.loops x.pc) mismatch))) := by
  have h0 : v.at t = v := by
    subst ht; unfold State.at; rw [if_neg (Nat.lt_irrefl _)]
  unfold State.issueAt
  simp only [h0, hg, Core.claimCycles, List.length_nil, Nat.sub_zero, Nat.add_zero, if_true]
  rfl

end Sys2Proof.Machine
end

