-- ==== Sys2Proof/Laws/Memory.lean ====
section
/-!
SUPPORT. The laws of the memories: what a byte reads as after a row is written, and that every operation over a sparse memory
keeps its canonical form, from the writes of one row up to the updates of the state.
-/

namespace Sys2Proof.Machine

/-! ## Scratchpads -/

theorem wf_writes (l : List Nat) (f : Nat → Nat) (g : Nat → Byte) (m : List Host.Cell) (h : Memory.wf m = true) :
    Memory.wf (l.foldl (fun m i => wrAt (fun _ => 0) m (f i) (g i)) m) = true :=
  foldl_keeps (fun m => Memory.wf m = true) (fun _ _ hm => canon_wrAt _ hm _ _) l m h

/-- A row written keeps the canonical form. -/
theorem padSetRow_wf {m : List Host.Cell} (h : Memory.wf m = true) (row : Nat) (d : Row) :
    Memory.wf (padSetRow m row d) = true := wf_writes _ _ _ m h

theorem padByte_writes (n base : Nat) (g : Nat → Byte) (m : List Host.Cell) (a : Nat) :
    padByte ((List.range n).foldl (fun m i => wrAt (fun _ => 0) m (base + i) (g i)) m) a =
      if base ≤ a ∧ a < base + n then g (a - base) else padByte m a := by
  induction n with
  | zero => simp
  | succ n ih =>
    rw [List.range_succ, List.foldl_append]
    simp only [List.foldl_cons, List.foldl_nil, padByte] at ih ⊢
    rw [rdAt_wrAt, ih]
    by_cases h : a = base + n
    · subst h; simp
    · rw [if_neg h]
      by_cases h2 : base ≤ a ∧ a < base + n
      · rw [if_pos h2, if_pos ⟨h2.1, by omega⟩]
      · rw [if_neg h2, if_neg (by omega)]

/-- A byte after a row is written: of the row it is what was written, elsewhere what it was. -/
theorem padByte_padSetRow (m : List Host.Cell) (row : Nat) (d : Row) (a : Nat) :
    padByte (padSetRow m row d) a =
      if 64 * row ≤ a ∧ a < 64 * row + 64 then BitVec.ofNat 8 (byteAt d.toNat (a - 64 * row)) else padByte m a :=
  padByte_writes 64 (64 * row) (fun i => BitVec.ofNat 8 (byteAt d.toNat i)) m a

/-- A row of a scratchpad other than the one written reads as it did. -/
theorem padRow_padSetRow_ne (m : List Host.Cell) {r row : Nat} (d : Row) (h : r ≠ row) :
    padRow (padSetRow m row d) r = padRow m r := by
  unfold padRow
  congr 2
  refine List.map_congr_left fun i hi => ?_
  rw [List.mem_range] at hi
  rw [padByte_padSetRow, if_neg (by omega)]

theorem Core.setPadRow_canonical {c : Core} (h : c.canonical = true) (row : Nat) (d : Row) :
    (c.setPadRow row d).canonical = true := by
  simp only [Core.canonical, Bool.and_eq_true] at h ⊢
  exact ⟨padSetRow_wf h.1 row d, h.2⟩

theorem Core.cpWr_canonical {c : Core} (h : c.canonical = true) (a : Nat) (v : Word) : (c.cpWr a v).canonical = true := by
  simp only [Core.canonical, Bool.and_eq_true] at h ⊢
  exact ⟨h.1, canon_wrAt _ h.2 a v⟩

theorem Core.cpSet_canonical {c : Core} (h : c.canonical = true) (f : FieldRef) (v : Nat) : (c.cpSet f v).canonical = true :=
  c.cpWr_canonical h _ _

theorem Core.initCounters_canonical {c : Core} (h : c.canonical = true) : c.initCounters.canonical = true := by
  unfold Core.initCounters
  refine foldl_keeps (fun c : Core => c.canonical = true) (fun c n hc => ?_) _ c h
  split
  · exact c.cpSet_canonical hc _ _
  · exact hc

/-- A row written with its check bytes keeps the canonical form (R148). -/
theorem Core.writeRow_canonical {c : Core} (h : c.canonical = true) (row : Nat) (d : Row) : (c.writeRow row d).canonical = true :=
  Core.setPadRow_canonical h row d

theorem Core.writeWinCtl_canonical {c : Core} (h : c.canonical = true) (w : Nat) (v : Word) :
    (c.writeWinCtl w v).canonical = true := by
  unfold Core.writeWinCtl
  split
  · exact c.cpSet_canonical h _ _
  · exact c.cpWr_canonical h _ _

/-- A core reset keeps the canonical form: writes already issued land as rows. -/
theorem Core.clear_canonical {c : Core} (h : c.canonical = true) : c.clear.canonical = true := by
  have h1 := foldl_keeps (fun c : Core => c.canonical = true) (f := fun c q => match q.eff with
    | .pad _ r d => c.writeRow r d
    | .winCtl w v => c.writeWinCtl w v
    | _ => c) (fun c q hc => by
      split
      · exact c.writeRow_canonical hc _ _
      · exact c.writeWinCtl_canonical hc _ _
      · exact hc) c.pend c h
  have h2 := foldl_keeps (fun c : Core => c.canonical = true) (f := fun c r => match r.use with
    | .write l => l.foldl (fun c x => c.writeRow x.1 x.2) c
    | _ => c) (fun c r hc => by
      split
      · exact foldl_keeps (fun c : Core => c.canonical = true) (fun c x hx => c.writeRow_canonical hx _ _) _ c hc
      · exact hc) c.runs _ h1
  exact Core.initCounters_canonical h2

/-! ## Bays -/

theorem Bay.setRow_canonical {y : Bay} (h : y.canonical = true) (page row : Nat) (d : Row) :
    (y.setRow page row d).canonical = true := wf_writes _ _ _ y.mem h

/-- A byte of a Bay after a row is written: of the row it is what was written, elsewhere what it was. -/
theorem Bay.padByte_setRow (y : Bay) (page row : Nat) (d : Row) (a : Nat) :
    padByte (y.setRow page row d).mem a =
      if 2097152 * page + 64 * row ≤ a ∧ a < 2097152 * page + 64 * row + 64 then
        BitVec.ofNat 8 (byteAt d.toNat (a - (2097152 * page + 64 * row))) else padByte y.mem a :=
  padByte_writes 64 (2097152 * page + 64 * row) (fun i => BitVec.ofNat 8 (byteAt d.toNat i)) y.mem a

/-! ## The state -/

theorem all_put {β : Type} {f : β → Bool} {m : List (Nat × β)} (h : m.all (fun e => f e.2) = true) (k : Nat) {v : β}
    (hv : f v = true) : (put m k v).all (fun e => f e.2) = true := by
  rw [List.all_eq_true] at h ⊢
  intro e he
  rcases mem_put he with he | rfl
  · exact h e he
  · exact hv

theorem all_lookupD {β : Type} {f : β → Bool} {m : List (Nat × β)} (h : m.all (fun e => f e.2) = true) {d : β}
    (hd : f d = true) (k : Nat) : f (lookupD d m k) = true := by
  induction m with
  | nil => exact hd
  | cons e r ih =>
    obtain ⟨i, v⟩ := e
    simp only [List.all_cons, Bool.and_eq_true] at h
    simp only [lookupD]
    split
    · exact h.1
    · exact ih h.2

variable {s : State}

theorem State.canonical_iff : s.canonical = true ↔
    canon resetWord s.ctl = true ∧ canon bankReset s.banked = true ∧ s.cores.all (fun c => c.2.canonical) = true ∧
      s.bays.all (fun y => y.2.canonical) = true := by
  simp only [State.canonical, Bool.and_eq_true]; tauto

theorem State.core_canonical (h : s.canonical = true) (p : Nat) : (s.core p).canonical = true :=
  all_lookupD (f := Core.canonical) (State.canonical_iff.1 h).2.2.1 rfl p

theorem State.bay_canonical (h : s.canonical = true) (b : Nat) : (s.bay b).canonical = true :=
  all_lookupD (f := Bay.canonical) (State.canonical_iff.1 h).2.2.2 rfl b

/-- A register written keeps the canonical form of the state. -/
theorem State.wr_canonical (h : s.canonical = true) (a : Nat) (v : Word) : (s.wr a v).canonical = true := by
  rw [State.canonical_iff] at h ⊢
  exact ⟨canon_wrAt _ h.1 a v, h.2⟩

theorem State.set_canonical (h : s.canonical = true) (f : FieldRef) (v : Nat) : (s.set f v).canonical = true :=
  State.wr_canonical h _ _

theorem State.wrAcc_canonical (h : s.canonical = true) (acc a : Nat) (v : Word) : (s.wrAcc acc a v).canonical = true := by
  unfold State.wrAcc
  generalize bankKey acc a = k
  rw [State.canonical_iff] at h ⊢
  dsimp only
  exact ⟨h.1, canon_wrAt bankReset h.2.1 k v, h.2.2⟩

theorem State.setCore_canonical (h : s.canonical = true) (p : Nat) {c : Core} (hc : c.canonical = true) :
    (s.setCore p c).canonical = true := by
  rw [State.canonical_iff] at h ⊢
  exact ⟨h.1, h.2.1, all_put (f := Core.canonical) h.2.2.1 p hc, h.2.2.2⟩

/-- A change of one core that keeps the core's memories canonical keeps the state's. -/
theorem State.onCore_canonical (h : s.canonical = true) (p : Nat) {f : Core → Core}
    (hf : ∀ c : Core, c.canonical = true → (f c).canonical = true) : (s.onCore p f).canonical = true :=
  State.setCore_canonical h p (hf _ (State.core_canonical h p))

theorem State.setBay_canonical (h : s.canonical = true) (b : Nat) {y : Bay} (hy : y.canonical = true) :
    (s.setBay b y).canonical = true := by
  rw [State.canonical_iff] at h ⊢
  exact ⟨h.1, h.2.1, h.2.2.1, all_put (f := Bay.canonical) h.2.2.2 b hy⟩

/-- A change of one Bay that keeps its memory canonical keeps the state's. -/
theorem State.onBay_canonical (h : s.canonical = true) (b : Nat) {f : Bay → Bay}
    (hf : ∀ y : Bay, y.canonical = true → (f y).canonical = true) : (s.onBay b f).canonical = true :=
  State.setBay_canonical h b (hf _ (State.bay_canonical h b))

/-! ### Rows of Bay pages -/

/-- What changes neither a register nor a memory keeps the canonical form. -/
theorem State.canonical_of_eq {t : State} (h : s.canonical = true)
    (e : (t.ctl, t.banked, t.cores, t.bays) = (s.ctl, s.banked, s.cores, s.bays)) : t.canonical = true := by
  rw [State.canonical_iff] at h ⊢
  injection e with e1 e
  injection e with e2 e
  injection e with e3 e4
  rw [e1, e2, e3, e4]; exact h

theorem State.bump_canonical (h : s.canonical = true) (f : FieldRef) (n : Nat) : (s.bump f n).canonical = true :=
  State.canonical_of_eq (State.set_canonical h f _) rfl

/-- A row written in a Bay, and its mirror in the page that a move copies to, keep the canonical form (R218). -/
theorem State.bayStore_canonical (h : s.canonical = true) (b page row : Nat) (d : Row) :
    (s.bayStore b page row d).canonical = true := by
  have h1 := Bay.setRow_canonical (State.bay_canonical h b) page row d
  unfold State.bayStore
  refine State.bump_canonical (State.setBay_canonical h b ?_) _ _
  split
  · split
    · exact Bay.setRow_canonical h1 _ _ _
    · exact h1
  · exact h1

end Sys2Proof.Machine
end

