-- ==== Sys2Proof/Tests/Slice0.lean ====
section
/-!
SUPPORT. Small tests: commands that are not well formed, a witness for each clause of the statements, and results that the
spec's text gives.
-/

open Sys2Proof Sys2Proof.Machine

namespace Sys2Proof.Tests

/-! ## Helpers -/

/-- What a statement `p` says of concrete values: `f` applies it to them with every hypothesis of the clause proved there. A theorem
`Says f` shows the hypotheses met and the conclusion true of them. -/
def Says {p q : Prop} (_ : p → q) : Prop := q

/-- As `Says`, of the hypotheses alone: that `f` can be written shows values that meet them all together. -/
def Meets {p : Prop} {i : Instr} {s : State} {P : State → Prop} (_ : p → Runs i s P) : Prop := True

/-- The same for a conclusion of another form. -/
def MeetsAll {p q : Prop} (_ : p → q) : Prop := True

/-- The state after reset with some register fields set. -/
def regs (l : List (FieldRef × Nat)) : State := l.foldl (fun s e => s.set e.1 e.2) State.reset

/-- An instruction word with an opcode and operand bits. -/
def opw (op rest : Nat) : DWord := BitVec.ofNat 64 (op * 2 ^ 56 + rest)

/-- Core 9,215, the last one. -/
def xl : At := ⟨9215, [], false⟩

/-- A state in which the last core runs a beat. -/
def inBeat (c : Core) : State := { State.reset with cores := [(9215, { c with inBeat := true })] }

def b0 : State := inBeat Core.reset

/-- What a command answers, where it answers a next state. -/
def after (i : Instr) (s : State) : State := match exec i s with | .next t => t | _ => s

/-- A hypothesis that the kernel evaluates. -/
theorem holds {p : Prop} [Decidable p] (h : decide p = true := by decide +kernel) : p := of_decide_eq_true h

/-- What a command answers, where the kernel can evaluate what is said of it. -/
theorem ran {i : Instr} {s : State} {P : State → Prop} [DecidablePred P]
    (h : (match exec i s with | .next t => decide (P t) | _ => false) = true := by decide +kernel) : Runs i s P := by
  cases e : exec i s <;> simp_all [Runs]

/-! ## Witnesses: engines -/

def cCnt : Core := (Core.reset.cpWr (SPC_CNT_EN_HI) 0x80000000).cpSet (SPC_CNT_value 63) 0xFFFFFF

/-- A core whose engines hold an address of each kind in A15: a row of the pad, a core, a Bay page of Bay 17. -/
def cAddr (v : Nat) : Core :=
  let e : Eng := { Eng.reset with areg := [(15, BitVec.ofNat 48 v)] }
  { Core.reset with le := e, me := e, ve := e, se := e, sb := [(0, ⟨some 7⟩), (1, ⟨some 8⟩), (2, ⟨none⟩)] }

def b1 : State := inBeat (cAddr 0x17FFF)

/-- Logical id 0 is core 9,200 of the same cluster. -/
def bRem : State :=
  { inBeat (cAddr 0x400000000000) with xlat := [(9088, [(0, 9200)])] }

/-- Die 71 has a default entry to Bay 17. -/
def bBay : State :=
  { inBeat (cAddr 0x910000000000) with rtDef := [(142, ⟨none, [(89, 0x89)]⟩)] }

/-- The express way from die 71 to the steward behind die 68. -/
def bStew : State :=
  { b0 with
    inv := some ⟨0, 0, 0, 0, [], [], [], [], [], []⟩, rtDef := [(136, ⟨none, [(98, 0x8B)]⟩), (142, ⟨none, [(98, 0x88)]⟩)] }

def bSwb : State :=
  { inBeat { (cAddr 0x910000000000) with sb := [(2047, ⟨some 7⟩)] } with rtDef := [(142, ⟨none, [(89, 0x89)]⟩)] }
theorem witness_FlowOperationsMoveTheProgram :
    Says (fun h : Obligations.FlowOperationsMoveTheProgram => (h .send xl (opw 0 0x1FFFF) b0).1 holds holds) ∧
    Says (fun h : Obligations.FlowOperationsMoveTheProgram => (h .load xl (opw 6 0xFFFF) b0).2.1 holds holds) ∧
    Says (fun h : Obligations.FlowOperationsMoveTheProgram => (h .matrix xl (opw 4 0x1FFFF) b0).2.2.1 holds holds) ∧
    Says (fun h : Obligations.FlowOperationsMoveTheProgram => (h .vector xl (opw 5 0x10000) b0).2.2.2.1 holds holds) ∧
    Says (fun h : Obligations.FlowOperationsMoveTheProgram => (h .send xl (opw 1 0) b0).2.2.2.2 holds holds) :=
  ⟨ran, ran, ran, ran, ran⟩

theorem witness_WaitsAndSignalsMoveTheirCounters :
    Says (fun h : Obligations.WaitsAndSignalsMoveTheirCounters => (h .send xl (opw 2 (63 * 2 ^ 50 + 0xFFFFFF)) (inBeat cCnt)).1 holds holds) ∧
    Says (fun h : Obligations.WaitsAndSignalsMoveTheirCounters => (h .load xl (opw 3 0xFFFFFF) b0).2.1 holds holds) ∧
    Says (fun h : Obligations.WaitsAndSignalsMoveTheirCounters => (h .load xl (opw 7 (3 * 2 ^ 46 + 63)) b0).2.2.1 holds holds) ∧
    Says (fun h : Obligations.WaitsAndSignalsMoveTheirCounters => (h .load xl (opw 8 (3 * 2 ^ 46 + 63)) (inBeat { Core.reset with sig := [(12, 63)] })).2.2.2 holds holds) :=
  ⟨ran, ⟨_, rfl, by unfold Core.awaits; decide +kernel⟩, ⟨_, rfl, by unfold Core.awaits; decide +kernel⟩, ran⟩

theorem witness_AddressOperationsWriteTheirRegister :
    Says (fun h : Obligations.AddressOperationsWriteTheirRegister => (h .matrix xl (opw 9 (15 * 2 ^ 44 + 2 ^ 32 + 0xFFFF)) b0).1 holds holds) ∧
    Says (fun h : Obligations.AddressOperationsWriteTheirRegister => (h .vector xl (opw 10 (15 * 2 ^ 44 + 2 * 2 ^ 42 + 0xFFFFFFFF)) b1).2.1 holds holds) ∧
    Says (fun h : Obligations.AddressOperationsWriteTheirRegister => (h .load xl (opw 11 (15 * 2 ^ 44 + 15 * 2 ^ 40 + 7 * 2 ^ 37)) b1).2.2.1 holds holds holds) ∧
    Meets (fun h : Obligations.AddressOperationsWriteTheirRegister => (h .load xl (opw 12 (1 * 2 ^ 27)) b1).2.2.2 holds holds) :=
  ⟨⟨_, rfl, by unfold Core.awaits; decide +kernel⟩, ⟨_, rfl, by unfold Core.awaits; decide +kernel⟩, ⟨_, rfl, by unfold Core.awaits; decide +kernel⟩, trivial⟩

theorem witness_LoadEngineReadsFillTheStageBuffers :
    Says (fun h : Obligations.LoadEngineReadsFillTheStageBuffers => (h xl (opw 0x10 (3 * 2 ^ 42 + 511 * 2 ^ 33 + 63 * 2 ^ 27)) b0).1 holds holds) ∧
    Says (fun h : Obligations.LoadEngineReadsFillTheStageBuffers => (h xl (opw 0x11 (3 * 2 ^ 42 + 511 * 2 ^ 33 + 63 * 2 ^ 27 + 2 ^ 17)) b0).2.1 holds holds) ∧
    Meets (fun h : Obligations.LoadEngineReadsFillTheStageBuffers => (h xl (opw 0x12 (15 * 2 ^ 44 + 3 * 2 ^ 42 + 511 * 2 ^ 33 + 63 * 2 ^ 27 + 2 * 2 ^ 17)) bRem).2.2.1 holds holds
      0 9200 [] holds holds holds) ∧
    Meets (fun h : Obligations.LoadEngineReadsFillTheStageBuffers => (h xl (opw 0x13 (15 * 2 ^ 44 + 3 * 2 ^ 42 + 511 * 2 ^ 33 + 63 * 2 ^ 27 + 1 * 2 ^ 17)) bBay).2.2.2 holds holds
      0 [71] holds holds) :=
  ⟨⟨_, rfl, by unfold Core.awaits; decide +kernel⟩, ⟨_, rfl, by unfold Core.awaits; decide +kernel⟩, trivial, trivial⟩

theorem witness_MatrixOperationsWriteTheirTarget :
    Meets (fun h : Obligations.MatrixOperationsWriteTheirTarget => ((h xl (opw 0x40 (511 * 2 ^ 32 + 31 * 2 ^ 17)) b0).1 holds holds).1 holds holds holds holds) ∧
    Meets (fun h : Obligations.MatrixOperationsWriteTheirTarget => ((h xl (opw 0x40 (1 * 2 ^ 41 + 511 * 2 ^ 32 + 1 * 2 ^ 17)) b1).1 holds holds).2.1 holds) ∧
    Meets (fun h : Obligations.MatrixOperationsWriteTheirTarget => ((h xl (opw 0x40 (2 * 2 ^ 41 + 511 * 2 ^ 32)) (inBeat { Core.reset with xq := [5] })).1 holds holds).2.2 holds) ∧
    Meets (fun h : Obligations.MatrixOperationsWriteTheirTarget => (h xl (opw 0x41 (7 * 2 ^ 45 + 3 * 2 ^ 33)) b0).2.1 holds holds (fun _ => by decide +kernel)) ∧
    Says (fun h : Obligations.MatrixOperationsWriteTheirTarget => ((h xl (opw 0x42 (7 * 2 ^ 45)) b0).2.2.1 holds holds).1 holds) ∧
    Says (fun h : Obligations.MatrixOperationsWriteTheirTarget => ((h xl (opw 0x42 (7 * 2 ^ 45 + 2 ^ 44)) b0).2.2.1 holds holds).2 holds) ∧
    Meets (fun h : Obligations.MatrixOperationsWriteTheirTarget => (h xl (opw 0x43 (7 * 2 ^ 45 + 255)) b0).2.2.2.1 holds holds) ∧
    Says (fun h : Obligations.MatrixOperationsWriteTheirTarget => (h xl (opw 0x44 0) b0).2.2.2.2.1 holds holds) ∧
    Says (fun h : Obligations.MatrixOperationsWriteTheirTarget => (h xl (opw 0x45 511) b0).2.2.2.2.2 holds holds) :=
  ⟨trivial, trivial, trivial, trivial, ⟨_, rfl, by unfold Core.awaits; decide +kernel⟩, ⟨_, rfl, by unfold Core.awaits; decide +kernel⟩, trivial, ⟨_, rfl, by unfold Core.awaits; decide +kernel⟩, ⟨_, rfl, by unfold Core.awaits; decide +kernel⟩⟩

theorem witness_VectorLaneOperationsWriteTheirLanes :
    Says (fun h : Obligations.VectorLaneOperationsWriteTheirLanes => (h xl (opw 0x84 0) b0).1 holds holds) ∧
    Says (fun h : Obligations.VectorLaneOperationsWriteTheirLanes => (h xl (opw 0x85 0) b0).2.1 holds holds) ∧
    Says (fun h : Obligations.VectorLaneOperationsWriteTheirLanes => (h xl (opw 0x86 0) b0).2.2.1 holds holds) ∧
    Says (fun h : Obligations.VectorLaneOperationsWriteTheirLanes => (h xl (opw 0x87 0) b0).2.2.2.1 holds holds) ∧
    Says (fun h : Obligations.VectorLaneOperationsWriteTheirLanes => (h xl (opw 0x88 0) b0).2.2.2.2.1 holds holds) ∧
    Says (fun h : Obligations.VectorLaneOperationsWriteTheirLanes => (h xl (opw 0x89 0) b0).2.2.2.2.2.1 holds holds) ∧
    Says (fun h : Obligations.VectorLaneOperationsWriteTheirLanes => (h xl (opw 0x8A 0) b0).2.2.2.2.2.2.1 holds holds) ∧
    Says (fun h : Obligations.VectorLaneOperationsWriteTheirLanes => (h xl (opw 0x8E 0) b0).2.2.2.2.2.2.2.1 holds holds) ∧
    Says (fun h : Obligations.VectorLaneOperationsWriteTheirLanes => (h xl (opw 0x8F 0) b0).2.2.2.2.2.2.2.2.1 holds holds) ∧
    Says (fun h : Obligations.VectorLaneOperationsWriteTheirLanes => (h xl (opw 0x94 0xFFFFFFFF) b0).2.2.2.2.2.2.2.2.2 holds holds) :=
  ⟨⟨_, rfl, by unfold Core.awaits; decide +kernel⟩, ⟨_, rfl, by unfold Core.awaits; decide +kernel⟩, ⟨_, rfl, by unfold Core.awaits; decide +kernel⟩, ⟨_, rfl, by unfold Core.awaits; decide +kernel⟩, ⟨_, rfl, by unfold Core.awaits; decide +kernel⟩, ⟨_, rfl, by unfold Core.awaits; decide +kernel⟩, ⟨_, rfl, by unfold Core.awaits; decide +kernel⟩, ⟨_, rfl, by unfold Core.awaits; decide +kernel⟩, ⟨_, rfl, by unfold Core.awaits; decide +kernel⟩, ⟨_, rfl, by unfold Core.awaits; decide +kernel⟩⟩

theorem witness_NearFunctionsWriteAllowedValues :
    Meets (fun h : Obligations.NearFunctionsWriteAllowedValues => (h xl (opw 0x8B 0) b0).1 holds holds) ∧
    Meets (fun h : Obligations.NearFunctionsWriteAllowedValues => (h xl (opw 0x8C 0) b0).2.1 holds holds) ∧
    Meets (fun h : Obligations.NearFunctionsWriteAllowedValues => (h xl (opw 0x8D 0) b0).2.2 holds holds) :=
  ⟨trivial, trivial, trivial⟩

theorem witness_VectorMovesCarryTheirRows :
    Says (fun h : Obligations.VectorMovesCarryTheirRows => (h xl (opw 0x80 0) b0).1 holds holds) ∧
    Says (fun h : Obligations.VectorMovesCarryTheirRows => (h xl (opw 0x81 0) b1).2.1 holds holds) ∧
    Meets (fun h : Obligations.VectorMovesCarryTheirRows => (h xl (opw 0x82 0) b0).2.2.1 holds holds) ∧
    Says (fun h : Obligations.VectorMovesCarryTheirRows => (h xl (opw 0x83 0) (inBeat { Core.reset with rq := [⟨127, List.replicate 64 3⟩] })).2.2.2 holds holds ⟨127, List.replicate 64 3⟩ [] holds) :=
  ⟨⟨_, rfl, by unfold Core.awaits; decide +kernel⟩, ⟨_, rfl, by unfold Core.awaits; decide +kernel⟩, trivial, ⟨_, rfl, by unfold Core.awaits; decide +kernel⟩⟩

theorem witness_QuantisationMovesRowScalesAndCarry :
    Says (fun h : Obligations.QuantisationMovesRowScalesAndCarry => (h xl (opw 0x90 (2 ^ 20 + 2 ^ 19)) b0).1 holds holds) ∧
    Says (fun h : Obligations.QuantisationMovesRowScalesAndCarry => (h xl (opw 0x91 0) b0).2.1 holds holds) ∧
    Says (fun h : Obligations.QuantisationMovesRowScalesAndCarry => (h xl (opw 0x92 0) b0).2.2.1 holds holds) ∧
    Meets (fun h : Obligations.QuantisationMovesRowScalesAndCarry => (h xl (opw 0x93 15) bStew).2.2.2 holds holds [71, 68] holds) :=
  ⟨⟨_, rfl, by unfold Core.awaits; decide +kernel⟩, ⟨_, rfl, by unfold Core.awaits; decide +kernel⟩, ⟨_, rfl, by unfold Core.awaits; decide +kernel⟩, trivial⟩

theorem witness_SendEngineSendsItsRows :
    Meets (fun h : Obligations.SendEngineSendsItsRows => (h xl (opw 0xC0 (63 * 2 ^ 50 + 15 * 2 ^ 44 + 2 * 2 ^ 32 + 2 ^ 34 + 2 ^ 31)) bRem).1 holds holds holds holds 9200 [] holds holds) ∧
    Meets (fun h : Obligations.SendEngineSendsItsRows => (h xl (opw 0xC0 (15 * 2 ^ 44 + 63 * 2 ^ 34)) bRem).2.1 holds holds holds holds 9200 [] holds holds) ∧
    Meets (fun h : Obligations.SendEngineSendsItsRows => (h xl (opw 0xC1 (15 * 2 ^ 44 + 2 ^ 32 + 2 ^ 31 + 2047)) bSwb).2.2.1 holds holds holds 0 [71] holds holds) ∧
    Says (fun h : Obligations.SendEngineSendsItsRows => (h xl (opw 0xC2 (7 * 2 ^ 37))
        { b0 with parts := [(0, { PartSt.reset with beats := [⟨0, 0, 0, false, false, [], []⟩] })] }).2.2.2 holds holds
      ⟨0, 0, 0, false, false, [], []⟩ [] holds holds) :=
  ⟨trivial, trivial, trivial, ran⟩

theorem witness_TrapsAndWrongWordsStopAnOperation :
    Meets (fun h : Obligations.TrapsAndWrongWordsStopAnOperation => h.1 xl (opw 0x10 (15 * 2 ^ 44)) (inBeat (cAddr 0xC00000000000)) 5 holds holds holds holds holds holds holds holds) ∧
    Says (fun h : Obligations.TrapsAndWrongWordsStopAnOperation => (h.2 .send xl (opw 0x7F 0) b0).1 holds) ∧
    Says (fun h : Obligations.TrapsAndWrongWordsStopAnOperation => (h.2 .load xl (opw 0x10 (2 ^ 26)) b0).2.2.1 holds) :=
  ⟨trivial, rfl, rfl⟩

theorem witness_VectorArithmeticFrame :
    MeetsAll (fun h : Obligations.VectorArithmeticFrame => (h xl (opw 0x84 0) b0 (after (.vadd xl (opw 0x84 0)) b0) (.vadd xl (opw 0x84 0)) (List.mem_cons_self ..) (by rfl)).2.2.1 holds (by rfl)) ∧
    MeetsAll (fun h : Obligations.VectorArithmeticFrame => (h xl (opw 0x84 0) b0 (after (.vadd xl (opw 0x84 0)) b0) (.vadd xl (opw 0x84 0)) (List.mem_cons_self ..) (by rfl)).2.1 holds holds) :=
  ⟨trivial, trivial⟩

/-! ## Witnesses: time and beats -/

/-- A running module in phase 6 with some register fields set, at a tick and a cycle. -/
def at6 (tick cycle : Nat) (l : List (FieldRef × Nat)) : State :=
  { regs ([(IDENT_BOOT_phase, 6), (BEAT_TICK_CTL_run, 1)] ++ l) with tick := tick, cycle := cycle }

/-- A plan of partition 63 at the lower ends of its ranges. -/
def plan63 : List (FieldRef × Nat) := [(BEAT_PLAN_LEN_ticks 63, 8), (BEAT_PLAN_LEN_guard_units 63, 3), (BEAT_PLAN_LEN_slip_limit 63, 2)]

/-- Partition 63 works in a beat that began at cycle 256. -/
def pWork : PartSt := { PartSt.reset with interval := .working, began := 256 }

def withPart (s : State) (n : Nat) (q : PartSt) : State := { s with parts := [(n, q)] }

def sWork (l : List (FieldRef × Nat)) (cycle : Nat) (q : PartSt) : State := withPart (at6 8 cycle (plan63 ++ l)) 63 q

/-- Core 9215 is a member, placed as logical id 0. -/
def mem1 : FieldRef × Nat := (DIE_CORE_CTL_member 9215, 1)

def placed : List (Nat × Nat) := [(0, 9215)]
theorem witness_TickCounterAdvancesAndLoads :
    Says (fun h : Obligations.TickCounterAdvancesAndLoads => (h.1 (at6 (2 ^ 64 - 1) 511 [])).1 holds) ∧
    Says (fun h : Obligations.TickCounterAdvancesAndLoads => (h.1 ((at6 7 256 [(BEAT_TICK_CTL_load, 1)]).setPair BEAT_TICK_SET_LO BEAT_TICK_SET_HI (2 ^ 64 - 1))).2.1 holds holds) ∧
    Says (fun h : Obligations.TickCounterAdvancesAndLoads => ((h.1 State.reset).2.2 holds).1) ∧
    Meets (fun h : Obligations.TickCounterAdvancesAndLoads => h.2 (at6 0 0 [(BEAT_PLAN_CTL_held 63, 1)]) holds) ∧
    Meets (fun h : Obligations.TickCounterAdvancesAndLoads => h.2 (at6 0 0 []) holds) :=
  ⟨ran, ran, rfl, trivial, trivial⟩

theorem witness_PlanControlWritesSetTheirBits :
    Meets (fun h : Obligations.PlanControlWritesSetTheirBits => (h 63 ((at6 8 256 (plan63 ++ [(BEAT_PLAN_CTL_lock 63, 1)])).setPair (BEAT_PLAN_ORIGIN_LO 63) (BEAT_PLAN_ORIGIN_HI 63) 9) holds holds).1 holds holds holds holds) ∧
    Meets (fun h : Obligations.PlanControlWritesSetTheirBits => (h 63 ((at6 8 256 (plan63 ++ [(BEAT_PLAN_CTL_lock 63, 1)])).setPair (BEAT_PLAN_ORIGIN_LO 63) (BEAT_PLAN_ORIGIN_HI 63) 8) holds holds).1 holds holds holds holds) ∧
    Meets (fun h : Obligations.PlanControlWritesSetTheirBits => (h 63 (at6 8 256 [(BEAT_PLAN_CTL_active 63, 1)]) holds holds).2.1) ∧
    Meets (fun h : Obligations.PlanControlWritesSetTheirBits => (h 63 (at6 8 256 []) holds holds).2.1) ∧
    Meets (fun h : Obligations.PlanControlWritesSetTheirBits => (h 63 (at6 8 256 []) holds holds).2.2.1) ∧
    Meets (fun h : Obligations.PlanControlWritesSetTheirBits => (h 63 (at6 8 256 [(BEAT_PLAN_CTL_hold 63, 1)]) holds holds).2.2.2) :=
  ⟨trivial, trivial, trivial, trivial, trivial, trivial⟩

theorem witness_BeatsEndSlipOrOverrun :
    Says (fun h : Obligations.BeatsEndSlipOrOverrun => (h.1 63 (sWork [] 2200 pWork) holds holds holds holds holds).1 holds) ∧
    Says (fun h : Obligations.BeatsEndSlipOrOverrun => (h.1 63 (sWork [mem1, (BEAT_STAT_slip_used 63, 1)] (2200 + 256) { pWork with logical := placed }) holds holds holds holds holds).2.1 holds holds) ∧
    Meets (fun h : Obligations.BeatsEndSlipOrOverrun => (h.1 63 (sWork [mem1, (BEAT_STAT_slip_used 63, 2)] (2200 + 512) { pWork with logical := placed }) holds holds holds holds holds).2.2 holds holds) ∧
    Meets (fun h : Obligations.BeatsEndSlipOrOverrun => h.2 63 9215 .send 0 2200 9215 .send { sWork [mem1] 2200 { pWork with logical := placed } with
        cores := [(9215, { Core.reset with inBeat := true, se := { Eng.reset with trapped := true } })] } holds holds holds holds holds holds
        (fun _ a b => absurd b (Nat.not_lt.mpr a)) holds) :=
  ⟨ran, ran, trivial, trivial⟩

theorem witness_IntervalsAndWindowsBeginAtTheirBoundaries :
    Meets (fun h : Obligations.IntervalsAndWindowsBeginAtTheirBoundaries => (h.1 63 (sWork [(BEAT_PLAN_CTL_active 63, 1)] 2304 { pWork with ended := true, logical := placed }) holds holds).1 holds holds holds) ∧
    Meets (fun h : Obligations.IntervalsAndWindowsBeginAtTheirBoundaries => (h.1 63 (sWork [(BEAT_PLAN_CTL_active 63, 1)] 2304 { pWork with interval := .rest }) holds holds).1 holds holds holds) ∧
    Meets (fun h : Obligations.IntervalsAndWindowsBeginAtTheirBoundaries => (h.1 63 (sWork [(BEAT_PLAN_CTL_active 63, 1), (BEAT_PLAN_CTL_held 63, 1)] 2304 { pWork with interval := .hold, holdClr := some 2303 }) holds holds).2.1 holds holds) ∧
    Meets (fun h : Obligations.IntervalsAndWindowsBeginAtTheirBoundaries => (h.1 63 ((at6 8 2048 (plan63 ++ [(BEAT_PLAN_CTL_lock 63, 1), (BEAT_PLAN_CTL_start 63, 1)])).setPair
        (BEAT_PLAN_ORIGIN_LO 63) (BEAT_PLAN_ORIGIN_HI 63) 8) holds holds).2.2.1 holds holds) ∧
    Meets (fun h : Obligations.IntervalsAndWindowsBeginAtTheirBoundaries => (h.1 63 (sWork [(BEAT_PLAN_CTL_active 63, 1)] 2304 { pWork with interval := .none, restart := some ⟨0, true, [], none, []⟩ }) holds holds).2.2.2 holds holds holds) ∧
    Meets (fun h : Obligations.IntervalsAndWindowsBeginAtTheirBoundaries => h.2 63 (withPart (at6 9375 2304 [(BEAT_PLAN_CTL_active 63, 1)]) 63 { PartSt.reset with winEnd := 9375 }) holds holds holds holds holds) :=
  ⟨trivial, trivial, trivial, trivial, trivial, trivial⟩

theorem witness_MarksLatchReportsAndGovern :
    Meets (fun h : Obligations.MarksLatchReportsAndGovern => h.1 ⟨1, 2, [], [], []⟩ (at6 9375 (9375 * 256) []) holds holds holds holds holds) ∧
    Meets (fun h : Obligations.MarksLatchReportsAndGovern => h.2 ⟨1000, 2, [], [], []⟩ (at6 9375 (9375 * 256) [(PWR_GOV_enable, 1), (PWR_GOV_r_cap, 31), (PWR_CAP_watts, 600)]) holds holds holds holds holds holds) ∧
    Meets (fun h : Obligations.MarksLatchReportsAndGovern => h.2 ⟨1000, 2, [], [], []⟩ (at6 9375 (9375 * 256) [(PWR_GOV_enable, 1), (PWR_GOV_r_cap, 1), (PWR_CAP_watts, 1002), (PWR_GOV_hyst, 1)]) holds holds holds holds holds holds) :=
  ⟨trivial, trivial, trivial⟩

/-! ## Witnesses: scratchpads, the network, Bays, the map, the mover -/

/-- As `at6`, with a factory inventory, die 71 powered, and partition 63 enabled with the last cluster. -/
def own6 (tick cycle : Nat) (l : List (FieldRef × Nat)) : State :=
  ({ at6 tick cycle ([(DIE_PWR_CTL_compute 71, 1), (PART_RES_CTL_enable 63, 1)] ++ l) with inv := some Inv.factory }).setBit
    (PART_RES_CL 63 17) 31

def land0 (row : Nat) : Landing := ⟨row, 5, .core, 63, 0, 0⟩

def withCore (s : State) (c : Core) : State := { s with cores := [(9215, c)] }

/-- A packet of partition 63 from core 9,214 to core 9,215, or to Bay 17. -/
def pkt (k : Kind) : Packet :=
  { cls := 0, kind := k, part := 63, source := 9214, node := 71, core := 9215, page := 45775, row := 131071, counter := 63,
    tag := 31, rows := 2, total := 2, writer := .core, data := 7, due := 2048, fails := 0 }

def netOf (s : State) (k : Packet) : State := { s with net := [k] }

/-- Core 9,215 holds tag 31 of its load engine, with rows left. -/
def cTag (left : Nat) : Core := { Core.reset with tags := [(31, ⟨.load, 0, 1023, 2, left⟩)] }

/-- Bay 17 with its last page owned by partition 63. -/
def bay17 (own : Nat) : Bay := { Bay.reset with owner := [(45775, BitVec.ofNat 16 own)] }

def withBay (s : State) (b : Bay) : State := { s with bays := [(17, b)] }

def s17 (k : Packet) (own : Nat) (tick : Nat) : State :=
  { withBay (netOf (own6 tick 2048 []) { k with node := 89, core := 0 }) (bay17 own) with
    credits := [(64 * 71 + 63, 1)], rtDef := [(142, ⟨none, [(71, 0x80), (89, 0x89)]⟩)] }

/-- The Bay once its controller has chosen packet 0. -/
def taken (k : Kind) (s : State) : State := match s.bayTake 0 k with | some x => x.1 | none => s

/-- The operation of the packet has already been refused. -/
def sDead : State :=
  { s17 (pkt .bayWrite) 0x803F 8 with
    bays := [(17, { bay17 0x803F with dead := [(({ pkt .bayWrite with node := 89, core := 0 } : Packet).opKey, 1)] })] }

/-- The last slot valid, holding a page of Bay 17. -/
def slotted (s : State) (page : Nat) : State :=
  s.setSlot 0xFFFFE (setField (setField (setField 0 5 1 1) 44 20 (45776 * 17 + page)) 24 20 0xFFFFF)

def arg (s : State) (a0 a1 : Word) : State := (s.wrAcc 33032 BAY_MAP_ARG0 a0).wrAcc 33032 BAY_MAP_ARG1 a1

def moving (st cur : Nat) : State :=
  { slotted (own6 18 4608 [(BAY_MOVE_STAT_state 17, st), (BAY_MOVE_STAT_cursor 17, cur), (BAY_MOVE_CTL_rate 17, 1)]) 5 with
    bays := [(17, { bay17 0x883F with move := some ⟨0xFFFFE, 5, 45775⟩ })] }
theorem witness_GrantedRowLandsAndIsCounted :
    Meets (fun h : Obligations.GrantedRowLandsAndIsCounted => h 9215 0 (land0 131071) (withCore (own6 8 2048 []) { Core.reset with landing := [land0 131071] }) holds holds _ (.inl ⟨by decide +kernel, rfl⟩) holds holds) ∧
    Meets (fun h : Obligations.GrantedRowLandsAndIsCounted => h 9215 0 { land0 5 with since := 2048 } (withCore (own6 8 2048 []) { Core.reset with landing := [{ land0 5 with since := 2048 }], ranges := [⟨0, 7, 0, 0, false⟩] }) holds holds _ (.inr ⟨by decide +kernel, by decide +kernel, rfl⟩) holds holds) :=
  ⟨trivial, trivial⟩

theorem witness_RequestsAreAnsweredAndFreeTheirTags :
    Meets (fun h : Obligations.RequestsAreAnsweredAndFreeTheirTags => (h.1 0 (pkt .readReq) (netOf (own6 8 2048 []) (pkt .readReq)) holds holds holds holds).1 holds holds [] holds) ∧
    Meets (fun h : Obligations.RequestsAreAnsweredAndFreeTheirTags => (h.1 0 { pkt .readReply with rows := 0 } (withCore (netOf (own6 8 2048 []) { pkt .readReply with rows := 0 }) (cTag 1)) holds holds holds holds).2 holds
      ⟨.load, 0, 1023, 2, 1⟩ holds) ∧
    Meets (fun h : Obligations.RequestsAreAnsweredAndFreeTheirTags => (h.2 0 (pkt .bayAck) (withCore (netOf (own6 8 2048 []) (pkt .bayAck)) (cTag 1)) holds holds holds).1 holds) ∧
    Meets (fun h : Obligations.RequestsAreAnsweredAndFreeTheirTags => (h.2 0 (pkt .control) (withCore (netOf (own6 8 2048 []) (pkt .control)) (cTag 1)) holds holds holds).2 holds ⟨.load, 0, 1023, 2, 1⟩ holds) :=
  ⟨trivial, trivial, trivial, trivial⟩

theorem witness_BaysRefreshAndPatrolsMoveOn :
    Meets (fun h : Obligations.BaysRefreshAndPatrolsMoveOn => (h.1 (withCore (own6 8 2048 []) (Core.reset.cpSet SPC_PATROL_enable 1))).1 9215 31 none holds holds holds holds) ∧
    Meets (fun h : Obligations.BaysRefreshAndPatrolsMoveOn => (h.1 (withBay (own6 8 2048 [(BAY_CTL_patrol 17, 1)]) { Bay.reset with patrol := 45776 * 32768 - 1 })).2 17 none holds holds holds holds holds holds holds holds) ∧
    Meets (fun h : Obligations.BaysRefreshAndPatrolsMoveOn => (h.2 17 (own6 35 2048 []) holds).1 holds holds) ∧
    Says (fun h : Obligations.BaysRefreshAndPatrolsMoveOn => (h.2 17 (own6 36 2048 []) holds).2 holds) :=
  ⟨trivial, trivial, trivial, rfl⟩

theorem witness_ControlPageWritesFollowTheirGates :
    MeetsAll (fun h : Obligations.ControlPageWritesFollowTheirGates => (h 9215 0xFFFFFFFF (own6 8 2048 []) holds holds).1 7 holds) ∧
    MeetsAll (fun h : Obligations.ControlPageWritesFollowTheirGates => (h 9215 0 (withCore (own6 8 2048 []) (Core.reset.cpWr (SPC_WIN_CTL 7) 0x80000001)) holds holds).1 7 holds) ∧
    Meets (fun h : Obligations.ControlPageWritesFollowTheirGates => (h 9215 0xFFFFFFFF (withCore (own6 8 2048 []) (Core.reset.cpWr SPC_CNT_EN_HI 0x80000000)) holds holds).2.1 63 holds
      (Or.inr (fun n e => by
        have k : (withCore (own6 8 2048 []) (Core.reset.cpWr SPC_CNT_EN_HI 0x80000000)).ownerOfCore 9215 = some 63 := by decide +kernel
        rw [k] at e; obtain rfl := Option.some.inj e; decide +kernel))) ∧
    Meets (fun h : Obligations.ControlPageWritesFollowTheirGates => (h 9215 0 (own6 8 2048 [(BEAT_PLAN_CTL_active 63, 1)]) holds holds).2.2 63 63 holds holds holds holds) :=
  ⟨trivial, trivial, trivial, trivial⟩

theorem witness_BayServesOrRefusesARow :
    Meets (fun h : Obligations.BayServesOrRefusesARow => (h 0 17 { pkt .readReq with cls := 1, node := 89, core := 0 } (taken .readReq (s17 { pkt .readReq with cls := 1 } 0x803F 8))
        (s17 { pkt .readReq with cls := 1 } 0x803F 8)).1 [71] holds holds holds holds) ∧
    Meets (fun h : Obligations.BayServesOrRefusesARow => ((h 0 17 { pkt .bayWrite with node := 89, core := 0 } (taken .bayWrite (s17 (pkt .bayWrite) 0x803F 8))
        (s17 (pkt .bayWrite) 0x803F 8)).2 holds).1 holds holds holds) ∧
    Meets (fun h : Obligations.BayServesOrRefusesARow => ((h 0 17 { pkt .bayWrite with node := 89, core := 0 } (taken .bayWrite (s17 (pkt .bayWrite) 0xC03F 8))
        (s17 (pkt .bayWrite) 0xC03F 8)).2 holds).2.1 2 holds holds) ∧
    Meets (fun h : Obligations.BayServesOrRefusesARow => ((h 0 17 { pkt .bayWrite with node := 89, core := 0 } (taken .bayWrite sDead) sDead).2 holds).2.2 holds) :=
  ⟨trivial, trivial, trivial, trivial⟩

theorem witness_SlotsChangeAndRetiredPagesReturn :
    Meets (fun h : Obligations.SlotsChangeAndRetiredPagesReturn => (h.1 33032 (arg (slotted (own6 8 2048 []) 45775) 0 0xFFFFE) holds holds holds).1 holds) ∧
    Meets (fun h : Obligations.SlotsChangeAndRetiredPagesReturn => (h.1 33032 (arg (slotted (own6 8 2048 []) 45775) 0xFFFFF 0xFFFFE) holds holds holds).2.1 holds) ∧
    Meets (fun h : Obligations.SlotsChangeAndRetiredPagesReturn => (h.1 33032 (arg (slotted (own6 8 2048 []) 45775) 2048 0xFFFFE) holds holds holds).2.2 holds) ∧
    Says (fun h : Obligations.SlotsChangeAndRetiredPagesReturn => (h.2 0 ⟨17, 45775, 63, 1, 0, false⟩ { own6 8 2048 [] with retiring := [⟨17, 45775, 63, 1, 0, false⟩] } holds).1 holds) ∧
    Meets (fun h : Obligations.SlotsChangeAndRetiredPagesReturn => (h.2 0 ⟨17, 45775, 63, 0, 0, false⟩ { own6 8 2048 [(PART_RES_USED_pages 63, 1)] with
        retiring := [⟨17, 45775, 63, 0, 0, false⟩], bays := [(17, bay17 0x903F)] } holds).2 holds) :=
  ⟨trivial, trivial, trivial, rfl, trivial⟩

theorem witness_MoverCopiesSwitchesAndAborts :
    Meets (fun h : Obligations.MoverCopiesSwitchesAndAborts => (h 17 (({ slotted (own6 8 2048 []) 45775 with bays := [(17, bay17 0x803F)] }).set (BAY_MOVE_SLOT_slot 17) 0xFFFFE) holds).1
      holds holds holds holds holds holds holds) ∧
    Meets (fun h : Obligations.MoverCopiesSwitchesAndAborts => (h 17 (moving 1 32767) holds).2.1 ⟨0xFFFFE, 5, 45775⟩ holds holds holds holds holds holds) ∧
    Meets (fun h : Obligations.MoverCopiesSwitchesAndAborts => (h 17 (moving 2 32768) holds).2.2.1 ⟨0xFFFFE, 5, 45775⟩ holds holds holds holds holds) ∧
    Meets (fun h : Obligations.MoverCopiesSwitchesAndAborts => (h 17 (moving 1 9) holds).2.2.2 ⟨0xFFFFE, 5, 45775⟩ holds holds holds) :=
  ⟨trivial, trivial, trivial, trivial⟩

theorem witness_CrossingsRetryAndEdgePortsHold :
    Meets (fun h : Obligations.CrossingsRetryAndEdgePortsHold => (h.1 0 71 true { pkt .write with fails := 2, failKey := 144 } (netOf (own6 8 2048 []) { pkt .write with fails := 2, failKey := 144 }) holds holds).1 holds) ∧
    Meets (fun h : Obligations.CrossingsRetryAndEdgePortsHold => (h.1 0 71 true { pkt .write with fails := 3, failKey := 144 } (netOf (own6 8 2048 []) { pkt .write with fails := 3, failKey := 144 }) holds holds).2 holds) ∧
    Meets (fun h : Obligations.CrossingsRetryAndEdgePortsHold => (h.2 true 71 63 { own6 8 2048 [] with credits := [(64 * 143 + 63, 0)] } holds holds).1 holds) ∧
    Meets (fun h : Obligations.CrossingsRetryAndEdgePortsHold => (h.2 true 71 63 { own6 8 2048 [] with credits := [(64 * 143 + 63, 1)], ovr := [64 * 143 + 63] } holds holds).2 holds holds) :=
  ⟨trivial, trivial, trivial, trivial⟩

theorem witness_RouteTablesSwapTheirBanks :
    Meets (fun h : Obligations.RouteTablesSwapTheirBanks => ((h 71 (own6 8 2048 []) holds).1 4 holds).1 holds) ∧
    Meets (fun h : Obligations.RouteTablesSwapTheirBanks => (h 71 { own6 9375 2304 [(DIE_RT_CTL_def_swap 71, 1), (DIE_RT_SWAP_AT_tick 71, 9375)] with rtDef := [(143, ⟨none, [(3, 0x81)]⟩)] } holds).2.1 holds holds) ∧
    Meets (fun h : Obligations.RouteTablesSwapTheirBanks => (h 71 ((own6 8 2048 []).setBit (DIE_RT_C0SWAP_HI 71) 31) holds).2.2 63 holds holds holds) :=
  ⟨trivial, trivial, trivial⟩

/-! ## Witnesses: the loader and weights -/

def wman0 : Wman := { model := 3, epoch := 9, shared := false, shadowed := true, rows := 0, entries := [⟨0, 0, 1, 1, 0⟩] }

def lay0 : Layout :=
  { version := 1, stages := 1, cores := 1, total := 1, frame := [], src := 0, len := 0, secs := [], recs := [], images := []
    pages := [], serve := ⟨0, 16, 1, 0, 0, 0, 0, 1, 0⟩, wman := some wman0, home := some 1, flows := [], spares := []
    folds := [], flowSet := 0 }

def pLay : PartSt := { PartSt.reset with layout := some lay0, logical := placed }

def home1 (epoch : Nat) : Home :=
  { model := 3, epoch := epoch, rows := 0, head := 0xFFFFE, owner := 63, shared := false, damaged := false, complete := true }

def sLay (l : List (FieldRef × Nat)) (q : PartSt) : State :=
  { withPart (own6 8 2048 (mem1 :: l)) 63 q with homes := [(1, home1 9)] }

def job0 (op : Nat) (ready : Bool) : WgtJob :=
  { op := op, home := 1, source := 2, homeOnly := false, group := 0, left := [], peer := 0, tries := 0, got := [], par := []
    since := 8, ready := ready }

/-- The header of a package of no blocks and no shards. -/
def emptyPackage : Row := BitVec.ofNat 512 (0x4B505457 + 2 ^ 32 + 0xB08C4E37 * 2 ^ 480)

/-- A head of a WEIGHT or SHIP message from its eight words, with its CRC32C, and what follows it. -/
def msgOf (w0 w4 w8 wC w10 w14 : Nat) (rest : List Byte) : List Byte :=
  let h := bytesOf 4 w0 ++ bytesOf 4 w4 ++ bytesOf 4 w8 ++ bytesOf 4 wC ++ bytesOf 4 w10 ++ bytesOf 4 w14 ++ bytesOf 4 0
  h ++ bytesOf 4 (crc32c (h ++ bytesOf 4 0 ++ rest)) ++ rest

/-- A frame of a kind that port 31 received from module 32,766 for partition 63. -/
def rxOf (kind : Nat) (m : List Byte) : Rx :=
  ⟨31, { prio := 1, version := 2, kind := kind, flags := 0, part := 63, source := 32766, dest := 0, seq := 0, ack := 0
         bed := 0, word := 0, payload := m, logical := 0, base := 0 }⟩

def wMsg (ty : Nat) : List Byte := msgOf ty 63 3 9 17 (127 * 128) []

def conn0 (v : Nat) : Conn := { version := v, bed := 0, nextTx := 0, nextRx := 0, since := 0, unacked := [], held := [] }
theorem witness_LoaderRunsItsJobsToTheirEnd :
    Meets (fun h : Obligations.LoaderRunsItsJobsToTheirEnd => ((h.1 63 (sLay [] PartSt.reset) holds holds holds holds).1 holds).1) ∧
    Meets (fun h : Obligations.LoaderRunsItsJobsToTheirEnd => ((h.1 63 (sLay [] PartSt.reset) holds holds holds holds).1 holds).2) ∧
    Meets (fun h : Obligations.LoaderRunsItsJobsToTheirEnd => ((h.1 63 ((sLay plan63 pLay).setPair LOAD_ORIGIN_LO LOAD_ORIGIN_HI 10) holds holds holds holds).2.1 holds holds lay0 holds).1 holds holds) ∧
    Meets (fun h : Obligations.LoaderRunsItsJobsToTheirEnd => ((h.1 63 (sLay [] pLay) holds holds holds holds).2.1 holds holds lay0 holds).2 holds holds) ∧
    Meets (fun h : Obligations.LoaderRunsItsJobsToTheirEnd => ((h.1 63 { sLay [] pLay with job := some (blankJob 1 5) } holds holds holds holds).2.2.1 (blankJob 1 5) holds).1 (.loadUnload 63) (by simp)) ∧
    Meets (fun h : Obligations.LoaderRunsItsJobsToTheirEnd => ((h.1 63 { sLay [] pLay with job := some (blankJob 2 5) } holds holds holds holds).2.2.1 (blankJob 2 5) holds).2 holds) ∧
    Meets (fun h : Obligations.LoaderRunsItsJobsToTheirEnd => ((h.1 63 (sLay [] pLay) holds holds holds holds).2.2.2 15 0xFFFFFFFF holds).1 holds) ∧
    Meets (fun h : Obligations.LoaderRunsItsJobsToTheirEnd => ((h.1 63 { sLay [] pLay with job := some (blankJob 2 5) } holds holds holds holds).2.2.2 15 0xFFFFFFFF holds).2 (blankJob 2 5) holds holds) ∧
    Meets (fun h : Obligations.LoaderRunsItsJobsToTheirEnd => h.2 (blankJob 1 5) { sLay [] pLay with job := some (blankJob 1 5) } holds holds holds holds holds) ∧
    Meets (fun h : Obligations.LoaderRunsItsJobsToTheirEnd => h.2 { blankJob 2 63 with layout := some { lay0 with home := none, wman := none } }
      { sLay [] PartSt.reset with job := some { blankJob 2 63 with layout := some { lay0 with home := none, wman := none } } } holds holds holds holds holds) :=
  ⟨trivial, trivial, trivial, trivial, trivial, trivial, trivial, trivial, trivial, trivial⟩

theorem witness_WeightCommandsStartAndEndTheirJobs :
    Meets (fun h : Obligations.WeightCommandsStartAndEndTheirJobs => ((h.1 63 { sLay [(PART_WGT_CTL_home_only 63, 1)] pLay with homes := [(1, home1 (Config.freeNat 0 % 2 ^ 32))] } holds holds holds holds).1 holds holds).1
      wman0 1 holds holds holds holds holds holds (by simp [State.resident, home1, wman0, sLay, withPart, own6, at6, regs, State.reset, State.set])) ∧
    Meets (fun h : Obligations.WeightCommandsStartAndEndTheirJobs => ((h.1 63 (sLay [(PART_WGT_STAT_state 63, 3)] { pLay with staged := some 1 }) holds holds holds holds).1 holds holds).2.1 holds holds) ∧
    Meets (fun h : Obligations.WeightCommandsStartAndEndTheirJobs => ((h.1 63 (sLay [(PART_WGT_STAT_home_ready 63, 1)] { pLay with staged := some 1 }) holds holds holds holds).1 holds holds).2.2.1 holds holds) ∧
    Meets (fun h : Obligations.WeightCommandsStartAndEndTheirJobs => ((h.1 63 (sLay [] pLay) holds holds holds holds).1 holds holds).2.2.2.1 1 holds holds holds) ∧
    Meets (fun h : Obligations.WeightCommandsStartAndEndTheirJobs => ((h.1 63 (sLay [] { pLay with staged := some 1 }) holds holds holds holds).1 holds holds).2.2.2.2) ∧
    Meets (fun h : Obligations.WeightCommandsStartAndEndTheirJobs => (h.1 63 (sLay [] { pLay with wgt := some (job0 1 false) }) holds holds holds holds).2.1 (job0 1 false) holds holds) ∧
    Meets (fun h : Obligations.WeightCommandsStartAndEndTheirJobs => h.2 63 { sLay [] { pLay with wgt := some (job0 1 true) } with cores := [(9215, { Core.reset with standby := some 9 })] } holds holds |>.1 (job0 1 true) holds holds holds |>.1 holds holds) ∧
    Meets (fun h : Obligations.WeightCommandsStartAndEndTheirJobs => h.2 63 (sLay [] { pLay with wgt := some { job0 1 true with homeOnly := true } }) holds holds |>.1 { job0 1 true with homeOnly := true } holds holds holds |>.2 holds) ∧
    Meets (fun h : Obligations.WeightCommandsStartAndEndTheirJobs => h.2 63 (sLay [] { pLay with wgt := some (job0 4 true) }) holds holds |>.2.1 (job0 4 true) holds holds holds) ∧
    Meets (fun h : Obligations.WeightCommandsStartAndEndTheirJobs => h.2 63 (sLay [(PART_WGT_STAT_state 63, 6)] { pLay with staged := some 1 }) holds holds |>.2.2.1 1 lay0 holds holds holds) ∧
    Says (fun h : Obligations.WeightCommandsStartAndEndTheirJobs => h.2 63 (sLay [(PART_WGT_WAIT_ticks 63, 1)] { pLay with wgt := some (job0 1 false) }) holds holds |>.2.2.2 (job0 1 false) holds holds holds holds |>.1 holds) ∧
    Meets (fun h : Obligations.WeightCommandsStartAndEndTheirJobs => h.2 63 (sLay [(PART_WGT_WAIT_ticks 63, 0)] { pLay with wgt := some (job0 1 false) }) holds holds |>.2.2.2 (job0 1 false) holds holds holds holds |>.2 holds holds holds) :=
  ⟨trivial, trivial, trivial, trivial, trivial, trivial, trivial, trivial, trivial, trivial, rfl, trivial⟩

theorem witness_WeightMessagesMoveTheTransfer :
    Meets (fun h : Obligations.WeightMessagesMoveTheTransfer => (h 0 { sLay [(PART_SHIP_CTL_enable 63, 1)] pLay with rx := [rxOf 13 (wMsg 1)] }).1 (rxOf 13 (wMsg 1)) (wMsg 1) 1 holds holds holds) ∧
    Meets (fun h : Obligations.WeightMessagesMoveTheTransfer => (h 3 { sLay [(PART_SHIP_CTL_enable 63, 1)] pLay with serving := List.replicate 4 ⟨32766, 63, 3, 9, 0, 1⟩, wreqs := [⟨32765, 63, 3, 9, 0, 1⟩] }).2.1
      ⟨32766, 63, 3, 9, 0, 1⟩ holds |>.2 ⟨32765, 63, 3, 9, 0, 1⟩ [] 1 holds holds) ∧
    Meets (fun h : Obligations.WeightMessagesMoveTheTransfer => (h 3 { sLay [] pLay with serving := List.replicate 4 ⟨32766, 63, 3, 9, 0, 1⟩ }).2.1 ⟨32766, 63, 3, 9, 0, 1⟩ holds |>.1 holds) ∧
    Meets (fun h : Obligations.WeightMessagesMoveTheTransfer => (h 0 { sLay [] { pLay with wgt := some (job0 1 false) } with rx := [rxOf 13 (wMsg 2)] }).2.2.1 (rxOf 13 (wMsg 2)) (wMsg 2) 63
      (job0 1 false) holds holds holds) ∧
    Meets (fun h : Obligations.WeightMessagesMoveTheTransfer => (h 0 { sLay [] { pLay with wgt := some (job0 1 false) } with rx := [rxOf 13 (wMsg 3)] }).2.2.2.1 (rxOf 13 (wMsg 3)) (wMsg 3) 63
      (job0 1 false) holds holds holds holds holds holds) ∧
    Meets (fun h : Obligations.WeightMessagesMoveTheTransfer => (h 0 { sLay [(PART_WGT_CTL_retries 63, 2), (PART_WGT_PEER_valid 63 3, 1), (PART_WGT_PEER_module 63 3, 32766)]
        { pLay with wgt := some (job0 1 false) } with rx := [rxOf 13 (wMsg 4)], conns := [(32768 * 31 + 32766, conn0 2)] }).2.2.2.2.1
      (rxOf 13 (wMsg 4)) (wMsg 4) 63 (job0 1 false) 3 holds holds holds holds holds holds holds) ∧
    Meets (fun h : Obligations.WeightMessagesMoveTheTransfer => (h 0 { sLay [] pLay with rx := [rxOf 13 (wMsg 5)], serving := [⟨32766, 63, 3, 9, 0, 1⟩] }).2.2.2.2.2 (rxOf 13 (wMsg 5)) (wMsg 5) holds holds holds) :=
  ⟨trivial, trivial, trivial, trivial, trivial, trivial, trivial⟩

/-! ## Witnesses: ALLOC and RESUME -/

/-- The slot where the search of ALLOC begins from reset (a free value), listed as free. -/
def slotI : Nat := Config.freeNat 0 % noSlot % noSlot

def sAlloc : State :=
  let s := arg { own6 8 2048 [(BAY_MAP_SLOTS_free, 1), (PART_RES_QUOTA_pages 63, 1)] with
    bays := [(17, { Bay.reset with returned := [45775] })] } 0x3F11 0xFFFFF
  { s with ctl := s.ctl ++ [(PART_RES_USED 63, 0), (PART_RST 63, 0), (PAGE_MAP slotI 0, 0), (PAGE_MAP slotI 1, 0)] }

theorem sAlloc_below : sAlloc.ctl = (sAlloc.ctl.take (sAlloc.ctl.length - 2)) ++ [(PAGE_MAP slotI 0, 0), (PAGE_MAP slotI 1, 0)] := by rfl

theorem rdAt_skip (d : Nat → Word) (l r : List (Nat × Word)) (k : Nat) (h : l.all (fun e => e.1 < 0x3000000) = true)
    (hk : 0x3000000 ≤ k) : rdAt d (l ++ r) k = rdAt d r k := by
  induction l with
  | nil => rfl
  | cons a t ih =>
    simp only [List.all_cons, Bool.and_eq_true, decide_eq_true_eq] at h
    rw [List.cons_append, rdAt, if_neg (by omega), ih h.2]

theorem sAlloc_slot : sAlloc.slot slotI = 0 := by
  have e : ∀ j, 0x3000000 ≤ PAGE_MAP slotI j := fun j => by simp only [PAGE_MAP]; omega
  have n : PAGE_MAP slotI 0 ≠ PAGE_MAP slotI 1 := by simp only [PAGE_MAP]; omega
  have a : (sAlloc.ctl.take (sAlloc.ctl.length - 2)).all (fun e => e.1 < 0x3000000) = true := by decide +kernel
  simp only [State.slot, State.pair, State.rd]
  rw [sAlloc_below, rdAt_skip _ _ _ _ a (e 0), rdAt_skip _ _ _ _ a (e 1)]
  simp [rdAt, n]

theorem sAlloc_free : sAlloc.freeSlot.1 = some slotI := by
  have h : slotI % noSlot = slotI := Nat.mod_mod _ _
  show (firstFrom (fun i => !slotValid (sAlloc.slot (i % noSlot))) (Config.freeNat 0 % noSlot) (0xFFFFE + 1)).map (· % noSlot) = _
  rw [firstFrom, if_pos (by show (!slotValid (sAlloc.slot slotI)) = true; rw [sAlloc_slot]; decide)]
  rfl

/-- A job of partition 63 that failed at a group, its source a package without blocks in page 5 of Bay 17. -/
def jobFailed : WgtJob := { job0 1 false with source := 0 }

def sRes : State :=
  { slotted (sLay [(PART_WGT_STAT_state 63, 7), (PART_WGT_SRC_slot 63, 0xFFFFE)] { pLay with wgt := some jobFailed }) 5 with
    bays := [(17, Bay.reset.setRow 5 0 emptyPackage)] }

theorem witness_AllocTakesTheMostRecentPage : Meets (fun h : Obligations.AllocTakesTheMostRecentPage =>
    h 33032 45775 slotI [] sAlloc holds holds holds holds holds holds holds holds holds holds
      sAlloc_free (Nat.mod_lt _ (by decide))) := trivial

theorem witness_resume : Meets (fun h : Obligations.WeightCommandsStartAndEndTheirJobs =>
    (h.1 63 sRes holds holds holds holds).2.2 jobFailed ⟨0, 0, 0, 0, 0, 0, false⟩ sRes sRes 0 0
      holds holds holds holds (by rfl) (by rfl)) := trivial
/-! ## Witnesses: requests, prefixes, adapters, shipments -/

/-- Entry 255 of the slice of partition 63, whose size is 1. -/
def slice63 : List (FieldRef × Nat) := [(PART_RES_SLICE_size 63, 1), (PART_SHIP_CTL_enable 63, 1)]

def sReq (l : List (FieldRef × Nat)) : State := sLay (slice63 ++ l) pLay

/-- An entry that asks for generation from tenant 0, which partition 63 names. -/
def sNew (l : List (FieldRef × Nat)) : State :=
  { (sReq ([(rqRole 255, 2), (rqGenMax 255, 1), (⟨REQ_TABLE 255 2, 0, 32⟩, 9)] ++ l)).wr (TENANT_CFG0 0 0) 0xBF100000 with
    windows := [(256 * 63, { Window.reset with isOpen := true })] }

/-- Slots 100 on, chained, pinned, each a page of Bay 17 of partition 63 that only reads. -/
def chain (s : State) (n : Nat) : State :=
  let t := (List.range n).foldl (fun t i => t.setSlot (100 + i)
    (setField (setField 34 44 20 (45776 * 17 + i)) 24 20 (if i + 1 = n then 0xFFFFF else 101 + i))) s
  t.onBay 17 (fun y => (List.range n).foldl (fun y i => y.setOwn i 0xC03F) y)

def layDir : Layout := { lay0 with pages := [100] }

def sDir (l : List (FieldRef × Nat)) : State := chain (sLay (slice63 ++ l) { pLay with layout := some layDir, adpRec := 0 }) 16

def args (s : State) (r : Nat → Nat) (l : List Word) : State :=
  (List.range l.length).foldl (fun t i => t.wrAcc 33032 (r i) (l.getD i 0)) s

def adp0 : Adp := { owner := 63, model := 3, removing := false, force := false, cur := 255, slot0 := none, slot1 := some ⟨255, 100, 16, 1, 0, false⟩ }

def pfx0 (d : Bool) : Pfx :=
  { owner := 63, destroying := d, shared := false, model := 3, epoch := 9, positions := 64, head := 100, pages := 16, key := 0
    queued := 0, refs := 0 }

def shipIn0 (pages : Nat) : ShipIn :=
  { ship := 9, module := 32766, sreq := 63, pages := pages, parity := 0, group := 0, got := [], first := some 7, nacks := 0, done := false
    start := [] }

def shipOut0 (opened : Bool) : ShipOut := { ship := 9, module := 32766, peer := 63, group := 17, opened := opened, since := 0 }

/-- A message of a shipment of request 255. -/
def sMsg (ty w10 : Nat) : List Byte := msgOf ty 63 255 9 w10 0 (bytesOf 32 (1 * 2 ^ 64 + 3 * 2 ^ 192 + 9 * 2 ^ 224))

def rxd (s : State) (ty w10 : Nat) : State := { s with rx := [rxOf 12 (sMsg ty w10)] }

/-- A part of the watcher of the last stage, in a beat that no partition keeps. -/
def part9 : Part130 := ⟨63, 127, 0, 0, 0, 0, 3, 0, 0, 0⟩
theorem witness_RequestCommandsAnswerAndAct :
    Meets (fun h : Obligations.RequestCommandsAnswerAndAct => (h 33032 255 63 (sNew []) holds holds holds holds holds).1 holds holds holds) ∧
    Meets (fun h : Obligations.RequestCommandsAnswerAndAct => (h 33032 255 63 (sReq []) holds holds holds holds holds).2.1 holds holds 1 holds) ∧
    Meets (fun h : Obligations.RequestCommandsAnswerAndAct => ((h 33032 255 63 (sReq [(rqState 255, 7)]) holds holds holds holds holds).2.2.1 holds).1) ∧
    Meets (fun h : Obligations.RequestCommandsAnswerAndAct => ((h 33032 255 63 (args (sReq [(rqState 255, 1)]) (fun i => if i = 0 then REQ_CMD_ARG_LO else REQ_CMD_ARG_HI) [5, 6]) holds holds holds holds holds).2.2.1 holds).2) ∧
    Meets (fun h : Obligations.RequestCommandsAnswerAndAct => (h 33032 255 63 (sReq [(rqState 255, 4)]) holds holds holds holds holds).2.2.2.1 holds) ∧
    Meets (fun h : Obligations.RequestCommandsAnswerAndAct => (h 33032 255 63 (sReq [(rqState 255, 5), (rqPausedFrom 255, 4)]) holds holds holds holds holds).2.2.2.2.1 holds) ∧
    Meets (fun h : Obligations.RequestCommandsAnswerAndAct => (h 33032 255 63 (sReq [(rqState 255, 11)]) holds holds holds holds holds).2.2.2.2.2.1 holds holds) ∧
    Meets (fun h : Obligations.RequestCommandsAnswerAndAct => (h 33032 255 63 (sReq []) holds holds holds holds holds).2.2.2.2.2.2 holds) :=
  ⟨trivial, trivial, trivial, trivial, trivial, trivial, trivial, trivial⟩

theorem witness_PrefixAndAdapterCommandsAnswer :
    Meets (fun h : Obligations.PrefixAndAdapterCommandsAnswer => ((h 33032 63 (args (sDir []) (PART_PFX_ARG 63) [100, 64, 5, 6]) holds holds holds).1 holds).1 layDir [100, 101, 102, 103, 104, 105, 106, 107, 108, 109, 110, 111, 112, 113, 114, 115] 0 holds holds holds holds holds holds) ∧
    Meets (fun h : Obligations.PrefixAndAdapterCommandsAnswer => ((h 33032 63 { args (sDir []) (PART_PFX_ARG 63) [1023, 64, 5, 6] with pfxs := [(1023, pfx0 false)] } holds holds holds).1 holds).2 (pfx0 false) holds holds holds) ∧
    Meets (fun h : Obligations.PrefixAndAdapterCommandsAnswer => (h 33032 63 { sDir [] with pfxs := [(1023, pfx0 true)] } holds holds holds).2.1 1023 (pfx0 true) holds holds holds holds holds holds holds holds) ∧
    Meets (fun h : Obligations.PrefixAndAdapterCommandsAnswer => ((h 33032 63 (args (sDir []) (PART_ADP_ARG 63) [100, 0x30040, 16, 0]) holds holds holds).2.2 holds).1 0 holds holds holds holds holds holds) ∧
    Meets (fun h : Obligations.PrefixAndAdapterCommandsAnswer => ((h 33032 63 { args (sDir []) (PART_ADP_ARG 63) [100, 0x30040, 16, 4095] with adps := [(4095, adp0)] } holds holds holds).2.2 holds).2.1 adp0 holds holds holds holds holds holds holds holds holds) ∧
    Meets (fun h : Obligations.PrefixAndAdapterCommandsAnswer => ((h 33032 63 { args (sDir []) (PART_ADP_ARG 63) [0, 0, 0, 4095] with adps := [(4095, adp0)] } holds holds holds).2.2 holds).2.2 adp0 holds holds holds holds) :=
  ⟨trivial, trivial, trivial, trivial, trivial, trivial⟩

theorem witness_ShipmentsFollowTheirMessages :
    Meets (fun h : Obligations.ShipmentsFollowTheirMessages => (h.1 33032 63 0xFFFFFFFF (args (sReq []) (fun _ => PART_SHIP_SEL 63) [255]) holds holds holds).1 holds holds holds) ∧
    Says (fun h : Obligations.ShipmentsFollowTheirMessages => (h.1 33032 63 0 (args (sReq [(rqState 255, 7)]) (fun _ => PART_SHIP_SEL 63) [255]) holds holds holds).2 holds) ∧
    Meets (fun h : Obligations.ShipmentsFollowTheirMessages => (h.2.1 0 { rxd (sDir [(rqState 255, 7)]) 1 0 with peers := [(255, BitVec.ofNat 32 (32766 * 2 ^ 17 + 63))] }).1 32766 (sMsg 1 0) 63 holds holds holds holds holds |>.1 0 holds) ∧
    Meets (fun h : Obligations.ShipmentsFollowTheirMessages => (h.2.1 0 { rxd (sReq [(rqState 255, 7)]) 1 0 with peers := [(255, BitVec.ofNat 32 (32766 * 2 ^ 17 + 63))] }).1 32766 (sMsg 1 0) 63 holds holds holds holds holds |>.2 holds holds) ∧
    Meets (fun h : Obligations.ShipmentsFollowTheirMessages => (h.2.1 0 { rxd (sReq [(rqState 255, 7)]) 2 (17 * 65536) with shipIn := [(255, shipIn0 1)] }).2.1 32766 (sMsg 2 (17 * 65536)) 63 255 (shipIn0 1) holds holds holds holds holds holds holds) ∧
    Meets (fun h : Obligations.ShipmentsFollowTheirMessages => (h.2.1 0 { rxd (sReq [(rqState 255, 7)]) 3 0 with shipIn := [(255, shipIn0 0)] }).2.2.1 32766 (sMsg 3 0) 63 255 (shipIn0 0) holds holds holds holds holds) ∧
    Meets (fun h : Obligations.ShipmentsFollowTheirMessages => (h.2.1 0 { rxd (sReq [(rqState 255, 7)]) 4 0 with shipOut := [(255, shipOut0 true)] }).2.2.2.1 32766 (sMsg 4 0) 63 255 (shipOut0 true) holds holds |>.1 holds holds holds) ∧
    Meets (fun h : Obligations.ShipmentsFollowTheirMessages => (h.2.1 0 { rxd (sReq [(rqState 255, 7)]) 4 0x1000000 with shipOut := [(255, shipOut0 true)] }).2.2.2.1 32766 (sMsg 4 0x1000000) 63 255 (shipOut0 true) holds holds |>.2 holds) ∧
    Meets (fun h : Obligations.ShipmentsFollowTheirMessages => (h.2.1 0 { rxd (sReq [(rqState 255, 7)]) 5 17 with shipOut := [(255, shipOut0 false)] }).2.2.2.2.1 32766 (sMsg 5 17) 63 255 (shipOut0 false) holds holds holds holds holds) ∧
    Meets (fun h : Obligations.ShipmentsFollowTheirMessages => (h.2.1 0 { rxd (sReq [(rqState 255, 7)]) 6 0 with shipOut := [(255, shipOut0 false)] }).2.2.2.2.2 32766 (sMsg 6 0) holds |>.1 63 255 (shipOut0 false) holds holds) ∧
    Meets (fun h : Obligations.ShipmentsFollowTheirMessages => (h.2.1 0 { rxd (sReq [(rqState 255, 7)]) 6 0 with shipIn := [(255, shipIn0 1)] }).2.2.2.2.2 32766 (sMsg 6 0) holds |>.2 63 255 (shipIn0 1) holds holds holds) ∧
    Meets (fun h : Obligations.ShipmentsFollowTheirMessages => h.2.2.1 63 ⟨63, 255, 32766, sMsg 1 0⟩ 0 { sDir [] with shipWait := [⟨63, 255, 32766, sMsg 1 0⟩] } holds holds holds) ∧
    Says (fun h : Obligations.ShipmentsFollowTheirMessages => (h.2.2.2.1 255 63 (shipIn0 0) 7 { sReq [(PART_SHIP_WAIT_ticks 63, 2)] with shipIn := [(255, shipIn0 0)] } holds holds holds holds holds).1 holds) ∧
    Meets (fun h : Obligations.ShipmentsFollowTheirMessages => (h.2.2.2.1 255 63 (shipIn0 0) 7 { sReq [(PART_SHIP_WAIT_ticks 63, 1)] with shipIn := [(255, shipIn0 0)] } holds holds holds holds holds).2 holds holds) ∧
    Says (fun h : Obligations.ShipmentsFollowTheirMessages => (h.2.2.2.2 255 63 (shipOut0 true) { sReq [(PART_SHIP_CTL_limit 63, 1)] with shipOut := [(255, shipOut0 true)] } holds holds holds).1 holds) ∧
    Meets (fun h : Obligations.ShipmentsFollowTheirMessages => (h.2.2.2.2 255 63 (shipOut0 true) { sReq [(PART_SHIP_CTL_limit 63, 0), (rqState 255, 6)] with shipOut := [(255, shipOut0 true)] } holds holds holds).2 holds) :=
  ⟨trivial, rfl, trivial, trivial, trivial, trivial, trivial, trivial, trivial, trivial, trivial, trivial, rfl, trivial, rfl, trivial⟩

theorem witness_RecipesMeansAndPartsAreTaken :
    Meets (fun h : Obligations.RecipesMeansAndPartsAreTaken => h.1 63 127 7 (sReq []) holds holds holds holds) ∧
    Meets (fun h : Obligations.RecipesMeansAndPartsAreTaken => h.2.1 63 127 0x80000000 (sReq []) holds holds holds holds) ∧
    Meets (fun h : Obligations.RecipesMeansAndPartsAreTaken => h.2.2 0 part9 { sReq [] with watch := [part9] } holds holds holds holds) :=
  ⟨trivial, trivial, trivial⟩

/-! ## Witnesses: partitions, events, ports, channels, the host -/

/-- A state of a partition reset. -/
def sRst (l : List (FieldRef × Nat)) (tick : Nat) : State :=
  withPart (own6 tick 2048 ([(PART_RST_busy 63, 1), mem1] ++ l)) 63 { pLay with rstDue := 2048 }

def sVf (l : List (FieldRef × Nat)) (done : List Nat) : State :=
  let s := sLay ([(LINK_HB_CTL_bridge, 1), (LINK_HB_CTL_linkup, 1), (LINK_HB_CTL_num_vfs, 256)] ++ l) pLay
  { s with pwr := { Pwr.reset with aux := true }, hb := { s.hb with flrDone := done, vfMem := true, fns := [(0, { PciFn.reset with memEn := true })] } }

def flr256 : State := (sVf [(PART_VF_MAP_valid 255, 1)] []).setBit (PART_VF_FLR 7) 31

def sEvc (e : Evc) (l : List (FieldRef × Nat)) : State := { sLay l pLay with evc := e }

def sPort (ph : PortPhase) (l : List (FieldRef × Nat)) : State := { sLay l pLay with ports := [(31, { Port.reset with phase := ph })] }

def arr (kind prio seq : Nat) (ok : Bool) : Arrival :=
  ⟨(State.reset.get LINK_TLT_ETYPE_etype), ok, 0, 0, { (rxOf kind []).frame with prio := prio, seq := seq, source := 32766 }⟩

/-- A module of address 1. -/
def own1 : FieldRef × Nat := (LINK_TLT_ADDR_address, 1)

def unacked (sends : Nat) : Unacked := ⟨{ (rxOf 3 []).frame with seq := 5 }, sends, none⟩

def withConn (s : State) (c : Conn) : State := { s with conns := [(32768 * 31 + 32766, c)] }

def got (s : State) (kind word flags : Nat) (m : List Byte) : State :=
  let r := rxOf kind m
  { s with rx := [{ r with frame := { r.frame with word := word, flags := flags } }] }

def gotRx (kind word flags : Nat) (m : List Byte) : Rx := let r := rxOf kind m; { r with frame := { r.frame with word := word, flags := flags } }

def helloBytes : List Byte := bytesOf 2 0xFFFF ++ bytesOf 2 32766 ++ bytesOf 2 0

def fwd0 (page write : Bool) : Fwd := { tag := 7, acc := 8, addr := 0x20, module := 32766, page := page, write := write, off := 0x20, bytes := 4 }

def withFwd (s : State) (w : Fwd) : State := { s with hb := { s.hb with fwds := [w] } }

def fn0 : PciFn := { PciFn.reset with memEn := true, master := true, msixEn := true, msix := [(15, ⟨1, 2, false, none⟩)] }

def withFn (s : State) (x : PciFn) : State := { s with hb := { s.hb with fns := [(0, x)] } }
theorem witness_PartitionRecordWritesAreGatedByCause :
    Meets (fun h : Obligations.PartitionRecordWritesAreGatedByCause => (h 264 63 0x80000000 (own6 8 2048 []) holds holds holds).1 holds (.partEnableWrite 264 63 0x80000000) (by simp)) ∧
    Meets (fun h : Obligations.PartitionRecordWritesAreGatedByCause => ((h 33032 63 0x80000000 (at6 8 2048 slice63) holds holds holds).2.1 holds holds holds).1 holds) ∧
    Meets (fun h : Obligations.PartitionRecordWritesAreGatedByCause => ((h 33032 63 0x80000000 (at6 8 2048 []) holds holds holds).2.1 holds holds holds).2 holds) ∧
    Meets (fun h : Obligations.PartitionRecordWritesAreGatedByCause => (h 33032 63 0 (own6 8 2048 []) holds holds holds).2.2.1 holds holds holds) ∧
    Meets (fun h : Obligations.PartitionRecordWritesAreGatedByCause => (h 33032 63 0 (sLay [] pLay) holds holds holds).2.2.1 holds holds holds) ∧
    Meets (fun h : Obligations.PartitionRecordWritesAreGatedByCause => ((h 33032 63 0xFF808080 ((own6 8 2048 []).wr (PART_RES_SHARE 62) 0x808080) holds holds holds).2.2.2 holds).1 holds) ∧
    Meets (fun h : Obligations.PartitionRecordWritesAreGatedByCause => ((h 33032 63 0x81 ((own6 8 2048 []).wr (PART_RES_SHARE 62) 0x80) holds holds holds).2.2.2 holds).2 0 holds holds) :=
  ⟨trivial, trivial, trivial, trivial, trivial, trivial, trivial⟩

theorem witness_PartitionResetsRunTheirSteps :
    Meets (fun h : Obligations.PartitionResetsRunTheirSteps => ((h 63 (sLay [] pLay) holds).1 holds holds).1) ∧
    Meets (fun h : Obligations.PartitionResetsRunTheirSteps => (((h 63 (sLay [] pLay) holds).1 holds holds).2 33032 holds).1 holds) ∧
    Says (fun h : Obligations.PartitionResetsRunTheirSteps => (((h 63 (sLay [] pLay) holds).1 holds holds).2 9 holds).2 holds) ∧
    Meets (fun h : Obligations.PartitionResetsRunTheirSteps => ((h 63 (sRst [(PART_RST_TICK_tick 63, 8)] 8) holds).2.1 holds holds).1 holds holds) ∧
    Meets (fun h : Obligations.PartitionResetsRunTheirSteps => ((h 63 (sRst [(PART_RST_TICK_tick 63, 8), (PART_RST_step 63, 2)] 12) holds).2.1 holds holds).2.1 holds holds holds |>.1 holds) ∧
    Meets (fun h : Obligations.PartitionResetsRunTheirSteps => ((h 63 (sRst [(PART_RST_TICK_tick 63, 8), (PART_RST_step 63, 2), (PART_RST_hard 63, 1)] 12) holds).2.1 holds holds).2.1 holds holds holds |>.2 holds) ∧
    Meets (fun h : Obligations.PartitionResetsRunTheirSteps => ((h 63 (sRst [(PART_RST_step 63, 3)] 12) holds).2.1 holds holds).2.2 holds holds holds holds holds) ∧
    Meets (fun h : Obligations.PartitionResetsRunTheirSteps => (h 63 (sLay [] pLay) holds).2.2 holds holds) :=
  ⟨trivial, trivial, rfl, trivial, trivial, trivial, trivial, trivial⟩

theorem witness_FunctionResetsRunToTheirEnd :
    Meets (fun h : Obligations.FunctionResetsRunToTheirEnd => (h 256 (sVf [] []) holds holds).1 33032 0xFFFFFFFF holds holds holds holds) ∧
    MeetsAll (fun h : Obligations.FunctionResetsRunToTheirEnd => (h 256 flr256 holds holds).2.1 33032 0 holds holds) ∧
    Meets (fun h : Obligations.FunctionResetsRunToTheirEnd => (h 256 (sVf [(PART_VF_MAP_valid 255, 1), (PART_VF_MAP_partition 255, 63)] []) holds holds).2.2.1 holds holds) ∧
    Meets (fun h : Obligations.FunctionResetsRunToTheirEnd => (h 256 (sVf [] [255]) holds holds).2.2.2.1 holds) ∧
    Meets (fun h : Obligations.FunctionResetsRunToTheirEnd => (h 256 flr256 holds holds).2.2.2.2 holds holds) :=
  ⟨trivial, trivial, trivial, trivial, trivial⟩

theorem witness_EventsAreClaimedAndPinsFiltered :
    Meets (fun h : Obligations.EventsAreClaimedAndPinsFiltered => (h.1 (sEvc Evc.reset [])).1 1023 holds holds) ∧
    Meets (fun h : Obligations.EventsAreClaimedAndPinsFiltered => ((h.1 ((sEvc Evc.reset [(EVC_SRC_CFG_enable 1023, 1), (EVC_SRC_CFG_priority 1023, 15)]).setBit (PART_EVT 63) 7)).2.1 7 holds holds).1) ∧
    Meets (fun h : Obligations.EventsAreClaimedAndPinsFiltered => ((h.1 (sEvc Evc.reset [])).2.1 7 holds holds).2.1 1023 holds) ∧
    Meets (fun h : Obligations.EventsAreClaimedAndPinsFiltered => ((h.1 (sEvc { Evc.reset with eois := [(7, 5)], stks := [(7, [⟨1023, 1, false⟩, ⟨2, 1, false⟩])] } [])).2.1 7 holds holds).2.2.1 5
      ⟨1023, 1, false⟩ [⟨2, 1, false⟩] holds holds) ∧
    Meets (fun h : Obligations.EventsAreClaimedAndPinsFiltered => ((h.1 (sEvc { Evc.reset with eois := [(7, 5)] } [])).2.1 7 holds holds).2.2.2 5 holds holds) ∧
    Meets (fun h : Obligations.EventsAreClaimedAndPinsFiltered => (h.1 (sEvc { Evc.reset with reentry := [(1023, 2)] } [(EVC_SRC_CFG_stuck 1023, 1)])).2.2 1023 holds holds holds) ∧
    Meets (fun h : Obligations.EventsAreClaimedAndPinsFiltered => h.2.1 7 false (sEvc Evc.reset []) holds holds) ∧
    Meets (fun h : Obligations.EventsAreClaimedAndPinsFiltered => h.2.2.1 7 (sEvc { Evc.reset with pinRuns := 128 } []) holds holds) ∧
    Meets (fun h : Obligations.EventsAreClaimedAndPinsFiltered => h.2.2.2 255 (sEvc Evc.reset []) holds) :=
  ⟨trivial, trivial, trivial, trivial, trivial, trivial, trivial, trivial, trivial⟩

theorem witness_PortsTrainAndReceive :
    Meets (fun h : Obligations.PortsTrainAndReceive => (h 31 (sPort .training [(LINK_P_CTL_enable 31, 1), (LINK_P_CTL_modes 31, 7)]) holds).1 7 2 holds holds holds holds holds holds) ∧
    Meets (fun h : Obligations.PortsTrainAndReceive => (h 31 (sPort .training [(LINK_P_CTL_enable 31, 1), (LINK_P_CTL_modes 31, 7)]) holds).1 7 0 holds holds holds holds holds holds) ∧
    Meets (fun h : Obligations.PortsTrainAndReceive => (h 31 (sPort .waiting []) holds).2.1 holds) ∧
    Meets (fun h : Obligations.PortsTrainAndReceive => (h 31 (sPort (.trained 3) []) holds).2.2.1 3 holds holds) ∧
    Meets (fun h : Obligations.PortsTrainAndReceive => ((h 31 (sPort .up []) holds).2.2.2 holds).1) ∧
    Meets (fun h : Obligations.PortsTrainAndReceive => ((h 31 (sPort .up []) holds).2.2.2 holds).2.1 7 true holds) ∧
    Meets (fun h : Obligations.PortsTrainAndReceive => ((h 31 (sPort .up []) holds).2.2.2 holds).2.2 (arr 1 6 0 false) |>.1 holds) ∧
    Meets (fun h : Obligations.PortsTrainAndReceive => ((h 31 (sPort .up []) holds).2.2.2 holds).2.2 (arr 1 6 0 true) |>.2 holds holds holds |>.1 holds) ∧
    Meets (fun h : Obligations.PortsTrainAndReceive => ((h 31 (withConn (sPort .up [own1]) (conn0 2)) holds).2.2.2 holds).2.2 (arr 12 4 0 true) |>.2 holds holds holds |>.2 (conn0 2) holds holds holds |>.1 holds) ∧
    Meets (fun h : Obligations.PortsTrainAndReceive => ((h 31 (withConn (sPort .up [own1]) (conn0 2)) holds).2.2.2 holds).2.2 (arr 12 4 1 true) |>.2 holds holds holds |>.2 (conn0 2) holds holds holds |>.2 holds) :=
  ⟨trivial, trivial, trivial, trivial, trivial, trivial, trivial, trivial, trivial, trivial⟩

theorem witness_ConnectionsAreMadeKeptAndLost :
    Meets (fun h : Obligations.ConnectionsAreMadeKeptAndLost => h.1 31 { sPort .up [own1] with tick := 93750 } holds holds holds holds holds holds holds) ∧
    Meets (fun h : Obligations.ConnectionsAreMadeKeptAndLost => h.2.1 0 3 (rxOf 1 helloBytes) { sPort .up [own1, (LINK_TLT_VER_enabled, 7)] with rx := [rxOf 1 helloBytes] } holds holds holds holds) ∧
    Meets (fun h : Obligations.ConnectionsAreMadeKeptAndLost => (h.2.2.1 31 32766 (conn0 2) (withConn (sPort .up []) (conn0 2)) holds holds holds).1) ∧
    Meets (fun h : Obligations.ConnectionsAreMadeKeptAndLost => (h.2.2.1 31 32766 { conn0 2 with unacked := [unacked 7] } (withConn (sPort .up []) { conn0 2 with unacked := [unacked 7] }) holds holds holds).2.1 holds holds holds) ∧
    Meets (fun h : Obligations.ConnectionsAreMadeKeptAndLost => (h.2.2.1 31 32766 { conn0 2 with unacked := [unacked 8] } (withConn (sPort .up []) { conn0 2 with unacked := [unacked 8] }) holds holds holds).2.2 holds) ∧
    Meets (fun h : Obligations.ConnectionsAreMadeKeptAndLost => h.2.2.2 0 (rxOf 2 []) { conn0 2 with nextTx := 0, unacked := [unacked 1] }
      { withConn (sPort .up []) { conn0 2 with nextTx := 0, unacked := [unacked 1] } with rx := [rxOf 2 []] } holds holds holds holds holds) :=
  ⟨trivial, trivial, trivial, trivial, trivial, trivial⟩

theorem witness_ChannelsAndTimeAreServed :
    Meets (fun h : Obligations.ChannelsAndTimeAreServed => (h { netOf (own6 8 2048 [(LINK_CH_CTL_port 255, 31)]) { pkt .write with node := 97, page := 255 } with
        credits := [(64 * (72 + 71) + 63, 64)] }).1 255 0 { pkt .write with node := 97, page := 255 } holds holds holds holds) ∧
    Meets (fun h : Obligations.ChannelsAndTimeAreServed => (h { got (sLay [] pLay) 3 0 0 (bytesOf 64 7) with rtDef := [(142, ⟨none, [(71, 0x80)]⟩)] }).2.1 0 (gotRx 3 0 0 (bytesOf 64 7)) holds |>.1 lay0 9215 [71]
      holds holds holds holds holds holds) ∧
    Meets (fun h : Obligations.ChannelsAndTimeAreServed => (h { got (sLay [] pLay) 3 5 2 [] with seen := [(32766, 5, 0)] }).2.1 0 (gotRx 3 5 2 []) holds |>.2 holds holds) ∧
    Meets (fun h : Obligations.ChannelsAndTimeAreServed => (h (got (sLay [(LINK_TS_CTL_role, 2)] pLay) 7 0 0 [])).2.2.1 0 (gotRx 7 0 0 []) holds holds |>.1 holds) ∧
    Meets (fun h : Obligations.ChannelsAndTimeAreServed => (h (got (sLay [(LINK_TS_CTL_role, 2)] pLay) 7 0 0 [])).2.2.1 0 (gotRx 7 0 0 []) holds holds |>.2 100 1 2 3 4) ∧
    Meets (fun h : Obligations.ChannelsAndTimeAreServed => (h { withConn (sLay [(LINK_TS_CTL_role, 2), (LINK_TS_CTL_bedsync, 1), (LINK_TS_CTL_port, 31)] pLay) (conn0 3) with
        sync := { SyncSt.reset with master := some 32766 } }).2.2.2.1 holds holds) ∧
    Meets (fun h : Obligations.ChannelsAndTimeAreServed => (h (sLay [] pLay)).2.2.2.2 7 holds) :=
  ⟨trivial, trivial, trivial, trivial, trivial, trivial, trivial⟩

/-! ## Witnesses: the host, bridge frames, registers, JTAG -/

def sHost (l : List (FieldRef × Nat)) : State := sVf ([own1, (LINK_BED_SLOT_valid 63, 1), (LINK_BED_SLOT_module 63, 1)] ++ l) []

/-- Aperture entry 32,767 names a slot of the page map in this module; VF 256 is mapped to partition 63 here. -/
def sAp : State :=
  let s := slotted (sHost [(PART_VF_MAP_valid 255, 1), (PART_VF_MAP_partition 255, 63), (PART_VF_MAP_module 255, 1)]) 45775
  { s with bays := [(17, bay17 0x803F)]
           hb := { s.hb with aper := [(32767, BitVec.ofNat 64 (2 ^ 63 + 63 * 2 ^ 54 + 63 * 2 ^ 48 + 0xFFFFE))] } }

/-- Function 0 holds a whole record of class 5 in row 255. -/
def fnRec : PciFn :=
  { fn0 with cqSet := true, taken := 255, counted := [255], bytes := (List.range 64).map (fun j => (64 * 255 + j, (5 : Byte))) }

/-- A record of class 4 for a slot of the bed. -/
def recBytes (slot : Nat) : List Byte := (List.range 64).map (fun j => if j = 0 then 4 else if j = 2 then BitVec.ofNat 8 slot else 0)

def fnCls (slot : Nat) : PciFn :=
  { fnRec with bytes := (List.range 64).map (fun j => (64 * 255 + j, (recBytes slot).getD j 0)) }

/-- A PAGE request for the first row of a page of Bay 17 of partition 63, with data. -/
def page0 : List Byte := pageMsg (BitVec.ofNat 64 (63 * 2 ^ 48 + 0xFFFFE)) 0 64 (bytesOf 64 7)
theorem witness_HostAccessesReachTheirTarget :
    Meets (fun h : Obligations.HostAccessesReachTheirTarget => ((h (sHost []) holds).1 0x3FFFFFC holds holds holds).1) ∧
    Meets (fun h : Obligations.HostAccessesReachTheirTarget => (((h (sHost []) holds).1 0x3FFFFFC holds holds holds).2.1 [1, 2, 3, 4] holds).2) ∧
    Meets (fun h : Obligations.HostAccessesReachTheirTarget => ((h (sHost []) holds).1 0x3FFFFFC holds holds holds).2.2 63 holds holds) ∧
    Meets (fun h : Obligations.HostAccessesReachTheirTarget => (h { sHost [] with hb := { (sHost []).hb with fns := [] } } holds).2.1 holds 0x3FFFFFC holds) ∧
    Meets (fun h : Obligations.HostAccessesReachTheirTarget => (h (sHost []) holds).2.2.1 0x3FFF [1] holds holds (fun o _ _ => by rfl)) ∧
    Meets (fun h : Obligations.HostAccessesReachTheirTarget => (h sAp holds).2.2.2.1 32767 (2 ^ 21 - 64) 64 (List.replicate 64 0) holds holds holds holds holds holds holds holds holds) ∧
    Meets (fun h : Obligations.HostAccessesReachTheirTarget => ((h sAp holds).2.2.2.2.1 256 0xFFFC holds holds holds holds holds holds holds holds holds).1) ∧
    Meets (fun h : Obligations.HostAccessesReachTheirTarget => ((h sAp holds).2.2.2.2.1 256 0x14 holds holds holds holds holds holds holds holds holds).2 holds [1, 2, 3, 4] holds) ∧
    Meets (fun h : Obligations.HostAccessesReachTheirTarget => ((h (args (sHost []) (fun _ => LINK_HB_AP_SEL) [32767]) holds).2.2.2.2.2 33032 0xFFFFFFFF holds holds).1 holds) ∧
    MeetsAll (fun h : Obligations.HostAccessesReachTheirTarget => ((h (sHost []) holds).2.2.2.2.2 33032 0 holds holds).2 holds) :=
  ⟨trivial, trivial, trivial, trivial, trivial, trivial, trivial, trivial, trivial, trivial⟩

theorem witness_EndpointAnswersAndTakesRecordsInOrder :
    Meets (fun h : Obligations.EndpointAnswersAndTakesRecordsInOrder => (h.1 (regs [(LINK_HB_CTL_bridge, 1), (IDENT_BOOT_phase, 1)])).1 256 .other holds holds holds) ∧
    Meets (fun h : Obligations.EndpointAnswersAndTakesRecordsInOrder => (h.1 (sHost [])).2.1 256 true false holds holds holds) ∧
    Meets (fun h : Obligations.EndpointAnswersAndTakesRecordsInOrder => ((h.1 (sHost [])).2.2.1 holds).1) ∧
    Meets (fun h : Obligations.EndpointAnswersAndTakesRecordsInOrder => ((h.1 (sHost [])).2.2.1 holds).2) ∧
    Meets (fun h : Obligations.EndpointAnswersAndTakesRecordsInOrder => (h.1 (withFwd (sHost []) (fwd0 false false))).2.2.2 7 (fwd0 false false) holds) ∧
    Meets (fun h : Obligations.EndpointAnswersAndTakesRecordsInOrder => (h.2.1 0 (withFn (sHost []) fnRec) holds holds holds holds holds holds).1 holds) ∧
    Meets (fun h : Obligations.EndpointAnswersAndTakesRecordsInOrder => (h.2.1 0 (withFn (sHost []) (fnCls 63)) holds holds holds holds holds holds).2.1 holds (.inl rfl) |>.1 1 (recBytes 63) holds holds) ∧
    Meets (fun h : Obligations.EndpointAnswersAndTakesRecordsInOrder => (h.2.1 0 (withFn (sHost []) (fnCls 5)) holds holds holds holds holds holds).2.1 holds (.inl rfl) |>.2 (recBytes 5) holds) ∧
    Meets (fun h : Obligations.EndpointAnswersAndTakesRecordsInOrder => (h.2.1 256 { sHost [] with hb := { (sHost []).hb with fns := [(256, fnCls 63)] } } holds holds holds holds holds holds).2.2 holds holds holds) ∧
    Meets (fun h : Obligations.EndpointAnswersAndTakesRecordsInOrder => h.2.2.1 63 0 ⟨255, 1, 2, 3⟩ [] { withPart (sHost []) 63 { pLay with outq := [⟨255, 1, 2, 3⟩] } with
        windows := [(256 * 63 + 255, { Window.reset with isOpen := true, prod := 255 })] } holds holds holds) ∧
    Says (fun h : Obligations.EndpointAnswersAndTakesRecordsInOrder => h.2.2.2 63 0 (sHost []) holds holds) :=
  ⟨trivial, trivial, trivial, trivial, trivial, trivial, trivial, trivial, trivial, trivial, rfl⟩

theorem witness_BridgeFramesTakeEffect :
    Meets (fun h : Obligations.BridgeFramesTakeEffect => (h 0 (gotRx 4 0x80000020 0 []) (got (sHost []) 4 0x80000020 0 [])).1 holds holds holds) ∧
    Meets (fun h : Obligations.BridgeFramesTakeEffect => (h 0 (gotRx 4 0x20 0 []) (got (sHost []) 4 0x20 0 [])).2.1 holds holds |>.1 holds) ∧
    Meets (fun h : Obligations.BridgeFramesTakeEffect => (h 0 (gotRx 4 0xA000000 0 []) (got (sHost []) 4 0xA000000 0 [])).2.1 holds holds |>.2 holds) ∧
    Meets (fun h : Obligations.BridgeFramesTakeEffect => (h 0 (gotRx 5 0x20 0 []) (withFwd (got (sHost []) 5 0x20 0 []) (fwd0 false false))).2.2.1 holds (fwd0 false false) holds) ∧
    Meets (fun h : Obligations.BridgeFramesTakeEffect => (h 0 (gotRx 6 (15 * 65536 + 511) 0 []) (withFn (got (sHost []) 6 (15 * 65536 + 511) 0 []) fn0)).2.2.2.1 holds holds holds |>.1 holds holds holds holds) ∧
    Meets (fun h : Obligations.BridgeFramesTakeEffect => (h 0 (gotRx 6 (15 * 65536 + 511) 0 []) (withFn (got (sHost []) 6 (15 * 65536 + 511) 0 []) { fn0 with msix := [] })).2.2.2.1 holds holds holds |>.2 holds) ∧
    Meets (fun h : Obligations.BridgeFramesTakeEffect => (h 0 (gotRx 8 0 0 []) (got (sHost []) 8 0 0 [])).2.2.2.2.1 holds |>.1 holds) ∧
    Meets (fun h : Obligations.BridgeFramesTakeEffect => (h 0 (gotRx 8 1 0 []) (got (sHost []) 8 1 0 [])).2.2.2.2.1 holds |>.2 holds) ∧
    Meets (fun h : Obligations.BridgeFramesTakeEffect => (h 0 (gotRx 9 64 0 (bytesOf 16 1)) (got (sHost []) 9 64 0 (bytesOf 16 1))).2.2.2.2.2.1 holds holds holds) ∧
    MeetsAll (fun h : Obligations.BridgeFramesTakeEffect => (h 0 (gotRx 10 0 0 page0) { got sAp 10 0 0 page0 with tick := 17 }).2.2.2.2.2.2.1 holds |>.1 holds holds holds) ∧
    Meets (fun h : Obligations.BridgeFramesTakeEffect => (h 0 (gotRx 10 0 0 page0) (got sAp 10 0 0 page0)).2.2.2.2.2.2.1 holds |>.2.1 holds holds holds holds) ∧
    Meets (fun h : Obligations.BridgeFramesTakeEffect => (h 0 (gotRx 10 65536 0 page0) (got sAp 10 65536 0 page0)).2.2.2.2.2.2.1 holds |>.2.2.1 holds holds holds holds holds) ∧
    Meets (fun h : Obligations.BridgeFramesTakeEffect => (h 0 (gotRx 10 (2 ^ 17 + 7) 0 [9]) (withFwd (got (sHost []) 10 (2 ^ 17 + 7) 0 [9]) (fwd0 true false))).2.2.2.2.2.2.1 holds |>.2.2.2 (fwd0 true false) holds holds holds holds) ∧
    Says (fun h : Obligations.BridgeFramesTakeEffect => (h 0 (gotRx 11 0 0 []) { got (sHost []) 11 0 0 [] with fw := { Fw.reset with paused := true } }).2.2.2.2.2.2.2 holds |>.1 holds) ∧
    Meets (fun h : Obligations.BridgeFramesTakeEffect => (h 0 (gotRx 11 0 0 []) (got (sHost []) 11 0 0 [])).2.2.2.2.2.2.2 holds |>.2 holds) :=
  ⟨trivial, trivial, trivial, trivial, trivial, trivial, trivial, trivial, trivial, trivial, trivial, trivial, trivial, rfl, trivial⟩

theorem witness_RegisterAccessesFollowTheirCodes :
    Meets (fun h : Obligations.RegisterAccessesFollowTheirCodes => (h 33032 0xFFFFFFFF (sHost [])).1 0x3FFFFFC 14 holds) ∧
    Meets (fun h : Obligations.RegisterAccessesFollowTheirCodes => (h 33032 0xFFFFFFFF (sHost [])).2.1 0x3FFFFFC holds holds) ∧
    Meets (fun h : Obligations.RegisterAccessesFollowTheirCodes => (h 33032 0xFFFFFFFF (sHost [])).2.2.1 holds) ∧
    Meets (fun h : Obligations.RegisterAccessesFollowTheirCodes => (h 7 0xFFFFFFFF (sHost [])).2.2.2.1 9215 7 holds holds holds holds) ∧
    Meets (fun h : Obligations.RegisterAccessesFollowTheirCodes => (h 7 0 (sHost [])).2.2.2.2.1 9215 0xFFC holds holds holds holds) ∧
    Meets (fun h : Obligations.RegisterAccessesFollowTheirCodes => ((h 33032 0 (sHost [])).2.2.2.2.2 holds holds).1) ∧
    Meets (fun h : Obligations.RegisterAccessesFollowTheirCodes => ((h 33032 0 { sHost [] with latches := [(bankKey 33032 BEAT_TICK_HI, 5)] }).2.2.2.2.2 holds holds).2 5 holds) :=
  ⟨trivial, trivial, trivial, trivial, trivial, trivial, trivial⟩

theorem witness_TapControllerFollowsItsPins :
    Meets (fun h : Obligations.TapControllerFollowsItsPins => (h true false [] (sHost []) holds).1 false) ∧
    Meets (fun h : Obligations.TapControllerFollowsItsPins => (h true true [] { sHost [] with jtag := { Jtag.reset with tap := .shiftDr, shift := [true] } } holds).2.1) ∧
    Meets (fun h : Obligations.TapControllerFollowsItsPins => (h true true [] { sHost [] with jtag := { Jtag.reset with tap := .capDr, ir := 0 } } holds).2.1) ∧
    Meets (fun h : Obligations.TapControllerFollowsItsPins => (h true true [] { sHost [] with jtag := { Jtag.reset with tap := .shiftDr, shift := [true] } } holds).2.2) :=
  ⟨trivial, trivial, trivial, trivial⟩

/-! ## Witnesses: Sage, dies, power, start-up, firmware -/

def rep0 : Report := { cls := 15, stamp := 5, part := none, core := none, unit := 0, logical := none, detail := 0, page := 0, patrol := false }

def probe0 (v : Option Bool) (spare : Option Nat) : Probe :=
  { core := 9215, cls := 1, logical := some 0, ends := 2048, verdict := v, cand := 0, spare := spare, reload := 2048, swapped := v.isSome
    reloaded := false }

def sRestart (r : Restart) : State := sLay [] { pLay with layout := some { lay0 with home := none, wman := none }, restart := some r }

def withDie (s : State) (x : DieSt) : State := { s with pwr := { s.pwr with dies := [(71, x)] } }

def fold0 : Fold := { die := 71, set := 0, moves := [], overrides := [] }

def bootState (phase : Nat) : State :=
  let s := regs [(IDENT_BOOT_phase, phase)]
  { s with pwr := { Pwr.reset with aux := true, main := true, en := true, armed := true }, inv := some Inv.factory }

def withFw (s : State) (f : Fw) : State := { s with fw := f }

def transfer0 (stage : Nat) : Transfer := { stage := stage, bank := Bank.factory, length := 1, header := [], body := [1] }

def sFw (l : List (FieldRef × Nat)) (f : Fw) : State := withFw (sLay l pLay) f
theorem witness_SageAnswersWhatIsReported :
    Meets (fun h : Obligations.SageAnswersWhatIsReported => (h { sLay [(SAGE_LOG_head, 63)] pLay with reports := [rep0] }).1 rep0 [] holds holds holds holds) ∧
    Meets (fun h : Obligations.SageAnswersWhatIsReported => (h { sLay [(SAGE_LOG_head, 63), (SAGE_LOG_tail, 0)] pLay with reports := [rep0] }).1 rep0 [] holds holds holds holds) ∧
    Meets (fun h : Obligations.SageAnswersWhatIsReported => (h (sLay [] pLay)).2.1 false) ∧
    Meets (fun h : Obligations.SageAnswersWhatIsReported => (h (sRestart ⟨1024, false, [], none, []⟩)).2.2.1 63 ⟨1024, false, [], none, []⟩ holds holds holds holds holds holds) ∧
    Meets (fun h : Obligations.SageAnswersWhatIsReported => ((h (sRestart ⟨0, true, [probe0 none (some 9214)], none, []⟩)).2.2.2.1 63 9215 ⟨0, true, [probe0 none (some 9214)], none, []⟩ (probe0 none (some 9214))
      holds holds holds holds holds).1 holds) ∧
    Meets (fun h : Obligations.SageAnswersWhatIsReported => ((h (sRestart ⟨0, true, [probe0 none none], none, []⟩)).2.2.2.1 63 9215 ⟨0, true, [probe0 none none], none, []⟩ (probe0 none none)
      holds holds holds holds holds).2 holds holds) ∧
    Meets (fun h : Obligations.SageAnswersWhatIsReported => (h (sRestart ⟨0, true, [probe0 (some false) (some 9214)], none, []⟩)).2.2.2.2.1 63 9215 ⟨0, true, [probe0 (some false) (some 9214)], none, []⟩
      { lay0 with home := none, wman := none } (probe0 (some false) (some 9214)) 9214 0 holds holds holds holds holds holds holds holds (fun w k a => absurd a (by simp))) ∧
    Meets (fun h : Obligations.SageAnswersWhatIsReported => (h { sLay [(IDENT_INV_STAT_pending, 1)] pLay with flash := { Flash.factory with inv1 := some ⟨Inv.factory, 8640, 0, 576, true⟩ } }).2.2.2.2.2.1 Inv.factory holds holds holds) ∧
    Meets (fun h : Obligations.SageAnswersWhatIsReported => ((h (sLay [] pLay)).2.2.2.2.2.2 7 holds).1) ∧
    Meets (fun h : Obligations.SageAnswersWhatIsReported => ((h (sEvc { Evc.reset with stopped := [7] } [])).2.2.2.2.2.2 7 holds).2) :=
  ⟨trivial, trivial, trivial, trivial, trivial, trivial, trivial, trivial, trivial, trivial⟩

theorem witness_DiesAreSwitchedOffAndReturn :
    Meets (fun h : Obligations.DiesAreSwitchedOffAndReturn => (h 71 (sLay [] pLay) holds).1 true holds) ∧
    Meets (fun h : Obligations.DiesAreSwitchedOffAndReturn => (h 71 (withDie (sLay [(DIE_PWR_CTL_compute 71, 0)] pLay) { DieSt.reset with cause := 6 }) holds).2.1 [] holds holds holds holds) ∧
    Meets (fun h : Obligations.DiesAreSwitchedOffAndReturn => (h 71 { withDie (sLay [(DIE_PWR_CTL_compute 71, 0)] pLay) { DieSt.reset with cause := 6, offAt := 0 } with cycle := 24000000 } holds).2.2.1
      Inv.factory holds holds holds holds holds) ∧
    Meets (fun h : Obligations.DiesAreSwitchedOffAndReturn => (h 71 (withDie (sLay [] pLay) { DieSt.reset with cause := 4, flagged := some 8 }) holds).2.2.2.1 8 holds holds holds (Or.inl (by decide +kernel))) ∧
    Meets (fun h : Obligations.DiesAreSwitchedOffAndReturn => (h 71 (withDie (sLay [(DIE_PWR_CTL_compute 71, 0)] pLay) { DieSt.reset with cause := 4, cool := 100 }) holds).2.2.2.2.1 [] holds holds holds holds holds holds) ∧
    Says (fun h : Obligations.DiesAreSwitchedOffAndReturn => (h 71 (withDie (sLay [] pLay) { DieSt.reset with cause := 4, cool := 99 }) holds).2.2.2.2.2.1 [] holds) ∧
    Meets (fun h : Obligations.DiesAreSwitchedOffAndReturn => (h 71 (sLay [] pLay) holds).2.2.2.2.2.2.1 holds) ∧
    Meets (fun h : Obligations.DiesAreSwitchedOffAndReturn => (h 71 (sLay [(BEAT_PLAN_CTL_held 63, 1)] { pLay with drain := some 71, layout := some { lay0 with folds := [fold0] } }) holds).2.2.2.2.2.2.2
      63 { lay0 with folds := [fold0] } fold0 holds holds holds holds holds holds (fun m hm => absurd hm (by simp [fold0]))) :=
  ⟨trivial, trivial, trivial, trivial, trivial, rfl, trivial, trivial⟩

theorem witness_PowerIsStagedBrakedAndStopped :
    Meets (fun h : Obligations.PowerIsStagedBrakedAndStopped => ((h State.reset).1 true).1 holds) ∧
    Meets (fun h : Obligations.PowerIsStagedBrakedAndStopped => ((h (sLay [] pLay)).1 true).2) ∧
    Meets (fun h : Obligations.PowerIsStagedBrakedAndStopped => (h (sLay [] pLay)).2.1) ∧
    Meets (fun h : Obligations.PowerIsStagedBrakedAndStopped => (h { sLay [] pLay with pwr := { Pwr.reset with inhibit := true } }).2.2.1 holds) ∧
    Meets (fun h : Obligations.PowerIsStagedBrakedAndStopped => (h { sLay [] pLay with pwr := { Pwr.reset with aux := true, en := true } }).2.2.2.1 false holds) ∧
    Meets (fun h : Obligations.PowerIsStagedBrakedAndStopped => (h (sLay [(PWR_STAT_stopping, 1)] pLay)).2.2.2.2.1 0 holds holds holds) ∧
    Meets (fun h : Obligations.PowerIsStagedBrakedAndStopped => (h (sLay [] pLay)).2.2.2.2.1 2 holds holds holds) ∧
    Meets (fun h : Obligations.PowerIsStagedBrakedAndStopped => (h (bootState 7)).2.2.2.2.2.1 holds) ∧
    Meets (fun h : Obligations.PowerIsStagedBrakedAndStopped => ((h (sLay [] pLay)).2.2.2.2.2.2.1 213 holds).1 holds holds holds holds) ∧
    Meets (fun h : Obligations.PowerIsStagedBrakedAndStopped => ((h (sLay [] pLay)).2.2.2.2.2.2.1 242 holds).2 holds holds holds) ∧
    Meets (fun h : Obligations.PowerIsStagedBrakedAndStopped => ((h (sLay [] pLay)).2.2.2.2.2.2.2 holds).1 71 holds holds) ∧
    Meets (fun h : Obligations.PowerIsStagedBrakedAndStopped => ((h (sLay [] pLay)).2.2.2.2.2.2.2 holds).2.1 17 holds) ∧
    Meets (fun h : Obligations.PowerIsStagedBrakedAndStopped => ((h (sLay [] pLay)).2.2.2.2.2.2.2 holds).2.2.1 0 71 115 holds holds holds) ∧
    Meets (fun h : Obligations.PowerIsStagedBrakedAndStopped => ((h (sLay [] pLay)).2.2.2.2.2.2.2 holds).2.2.1 2 7 115 holds holds holds) ∧
    Meets (fun h : Obligations.PowerIsStagedBrakedAndStopped => ((h (sLay [(BEAT_PLAN_CTL_active 63, 1)] pLay)).2.2.2.2.2.2.2 holds).2.2.2 holds holds) :=
  ⟨trivial, trivial, trivial, trivial, trivial, trivial, trivial, trivial, trivial, trivial, trivial, trivial, trivial, trivial, trivial⟩

theorem witness_StartUpPassesItsPhases :
    Meets (fun h : Obligations.StartUpPassesItsPhases => (h (bootState 6)).1 true true holds) ∧
    Meets (fun h : Obligations.StartUpPassesItsPhases => (h (bootState 6)).2.1 true holds) ∧
    Meets (fun h : Obligations.StartUpPassesItsPhases => ((h (bootState 0)).2.2.1 65536 holds holds).1) ∧
    Meets (fun h : Obligations.StartUpPassesItsPhases => ((h (bootState 0)).2.2.1 65536 holds holds).2 Inv.factory holds holds) ∧
    Meets (fun h : Obligations.StartUpPassesItsPhases => (h (bootState 3)).2.2.2.1 ⟨[9215], [], [], [], [], [], false⟩ holds) ∧
    Meets (fun h : Obligations.StartUpPassesItsPhases => (h (bootState 3)).2.2.2.1 ⟨[9215], [], [], [], [], [], true⟩ holds) ∧
    Meets (fun h : Obligations.StartUpPassesItsPhases => (h (bootState 4)).2.2.2.2 65536 holds) :=
  ⟨trivial, trivial, trivial, trivial, trivial, trivial, trivial⟩

theorem witness_ServicePortTransfersABouquet :
    Meets (fun h : Obligations.ServicePortTransfersABouquet => ((h (sFw [] { Fw.reset with link := true })).1 holds).1 holds) ∧
    Meets (fun h : Obligations.ServicePortTransfersABouquet => ((h (sFw [] { Fw.reset with link := true, conn := true })).1 holds).2 holds) ∧
    Meets (fun h : Obligations.ServicePortTransfersABouquet => (h (sFw [] Fw.reset)).2.1) ∧
    Meets (fun h : Obligations.ServicePortTransfersABouquet => ((h (sFw [] { Fw.reset with conn := true })).2.2 holds).1) ∧
    Meets (fun h : Obligations.ServicePortTransfersABouquet => ((h (sFw [] { Fw.reset with conn := true })).2.2 holds).2.2.2.1 [] holds holds holds) ∧
    Meets (fun h : Obligations.ServicePortTransfersABouquet => ((h (sFw [] { Fw.reset with conn := true, transfer := some (transfer0 1) })).2.2 holds).2.2.2.2.1 (transfer0 1) (List.replicate 2820 0) holds holds holds) ∧
    Meets (fun h : Obligations.ServicePortTransfersABouquet => ((h (sFw [] { Fw.reset with conn := true, transfer := some (transfer0 2) })).2.2 holds).2.2.2.2.2.1 (transfer0 2) [9] holds holds holds holds holds |>.1) ∧
    Meets (fun h : Obligations.ServicePortTransfersABouquet => ((h (sFw [] { Fw.reset with conn := true, transfer := some (transfer0 2) })).2.2 holds).2.2.2.2.2.1 (transfer0 2) [9] holds holds holds holds holds |>.2) ∧
    Meets (fun h : Obligations.ServicePortTransfersABouquet => ((h (sFw [] { Fw.reset with conn := true, transfer := some (transfer0 3) })).2.2 holds).2.2.2.2.2.2 (transfer0 3) holds holds holds) :=
  ⟨trivial, trivial, trivial, trivial, trivial, trivial, trivial, trivial, trivial⟩

theorem witness_ActivationIsProvisionalUntilConfirmed :
    Meets (fun h : Obligations.ActivationIsProvisionalUntilConfirmed => (h true { sFw [(FWU_STAT_state, 4)] { Fw.reset with conn := true } with flash := { Flash.factory with staged := true, bankB := some Bank.factory } } holds).1 holds holds holds holds holds) ∧
    Meets (fun h : Obligations.ActivationIsProvisionalUntilConfirmed => (h false (sFw [] { Fw.reset with act := some ⟨1, false, false⟩, paused := true }) holds).2.1 ⟨1, false, false⟩ 0 holds holds holds holds holds |>.1) ∧
    Meets (fun h : Obligations.ActivationIsProvisionalUntilConfirmed => (h false (sFw [] { Fw.reset with act := some ⟨1, false, false⟩, paused := true }) holds).2.1 ⟨1, false, false⟩ 0 holds holds holds holds holds |>.2) ∧
    Meets (fun h : Obligations.ActivationIsProvisionalUntilConfirmed => ((h false { sFw [(FWU_STAT_state, 6)] { Fw.reset with running := 1 } with
        flash := { Flash.factory with provisional := some 1, bankB := some { Bank.factory with rollback := 65 } } } holds).2.2.1 holds holds).1) ∧
    Meets (fun h : Obligations.ActivationIsProvisionalUntilConfirmed => ((h false { sFw [(FWU_STAT_state, 6)] { Fw.reset with running := 1 } with
        flash := { Flash.factory with provisional := some 1, bankB := some { Bank.factory with rollback := 65 } } } holds).2.2.1 holds holds).2 .fwProvisionalTimeout (by simp)) ∧
    Meets (fun h : Obligations.ActivationIsProvisionalUntilConfirmed => (h false { sFw [] { Fw.reset with act := some ⟨0, true, true⟩ } with pwr := { Pwr.reset with inhibit := true } } holds).2.2.2 ⟨0, true, true⟩ holds holds holds holds holds) :=
  ⟨trivial, trivial, trivial, trivial, trivial, trivial⟩

theorem witness_SettingsAndQuotesAreKept :
    Meets (fun h : Obligations.SettingsAndQuotesAreKept => ((h (args (sLay [] pLay) (fun _ => FWU_SET_SEL) [0x22])).1 33032 0).1 holds |>.1) ∧
    Meets (fun h : Obligations.SettingsAndQuotesAreKept => ((h (args (sLay [] pLay) (fun _ => FWU_SET_SEL) [0x22])).1 33032 0).1 holds |>.2 []) ∧
    Meets (fun h : Obligations.SettingsAndQuotesAreKept => ((h (args (sLay [] pLay) (fun _ => FWU_SET_SEL) [0x23])).1 33032 0).2 holds [] (.settingsGet (some 33032) 0) (by simp)) ∧
    Meets (fun h : Obligations.SettingsAndQuotesAreKept => (h (sFw [(TRUST_RESV_end, 1)] { Fw.reset with conn := true })).2.1 true [] holds holds holds holds) ∧
    Meets (fun h : Obligations.SettingsAndQuotesAreKept => (h (sFw [] { Fw.reset with signing := some ([1], true) })).2.2.1 ([1], true) holds holds holds) ∧
    Meets (fun h : Obligations.SettingsAndQuotesAreKept => (h (sFw [] { Fw.reset with newKey := true })).2.2.2 holds holds holds holds) :=
  ⟨trivial, trivial, trivial, trivial, trivial, trivial⟩

theorem witness_StepRunsTheFrontCommand :
    Says (fun h : Obligations.StepRunsTheFrontCommand => h.2 State.reset holds) :=
  rfl

theorem witness_EveryStepKeepsCanonicalForm :
    MeetsAll (fun h : Obligations.EveryStepKeepsCanonicalForm => h State.reset State.reset holds rfl) :=
  trivial

theorem witness_RollbackFloorNeverFalls :
    MeetsAll (fun h : Obligations.RollbackFloorNeverFalls => h { State.reset with pending := [.sagBegin] } (after .sagBegin State.reset) (by rfl)) :=
  trivial

/-! ## Commands that are not well formed -/

/-- Every command of a list is refused by the well-formedness check. -/
def illFormed (l : List Instr) : Bool := l.all (fun i => !i.wf)

theorem test_wf_01 : illFormed [
    .beatStart 64, .firstBeatBegin 64, .beatStop 64, .holdSet 64, .holdClear 64, .holdEnd 64, .beatDecision 64,
    .planOverrun 64 0 ⟨.load, 0⟩, .planOverrun 0 9216 ⟨.load, 0⟩, .beatBoundary 64, .statsWindowBoundary 64,
    .nop .load ⟨9216, [], false⟩ (opw 0x00 0), .nop .load ⟨0, [], false⟩ (opw 0x7F 0),
    .eob .load ⟨9216, [], false⟩ (opw 0x01 0), .eob .load ⟨0, [], false⟩ (opw 0x7F 0),
    .wait .load ⟨9216, [], false⟩ (opw 0x02 0), .wait .load ⟨0, [], false⟩ (opw 0x7F 0),
    .setw .load ⟨9216, [], false⟩ (opw 0x03 0), .setw .load ⟨0, [], false⟩ (opw 0x7F 0),
    .loop .load ⟨9216, [], false⟩ (opw 0x04 0), .loop .load ⟨0, [], false⟩ (opw 0x7F 0),
    .loopr .load ⟨9216, [], false⟩ (opw 0x05 0), .loopr .load ⟨0, [], false⟩ (opw 0x7F 0),
    .br .load ⟨9216, [], false⟩ (opw 0x06 0)] = true := by decide

theorem test_wf_02 : illFormed [
    .br .load ⟨0, [], false⟩ (opw 0x7F 0), .sig .load ⟨9216, [], false⟩ (opw 0x07 0), .sig .load ⟨0, [], false⟩ (opw 0x7F 0),
    .swt .load ⟨9216, [], false⟩ (opw 0x08 0), .swt .load ⟨0, [], false⟩ (opw 0x7F 0),
    .seta .load ⟨9216, [], false⟩ (opw 0x09 0), .seta .load ⟨0, [], false⟩ (opw 0x7F 0),
    .adda .load ⟨9216, [], false⟩ (opw 0x0A 0), .adda .load ⟨0, [], false⟩ (opw 0x7F 0),
    .lda .load ⟨9216, [], false⟩ (opw 0x0B 0), .lda .load ⟨0, [], false⟩ (opw 0x7F 0),
    .sbrel .load ⟨9216, [], false⟩ (opw 0x0C 0), .sbrel .load ⟨0, [], false⟩ (opw 0x7F 0),
    .ldl ⟨9216, [], false⟩ (opw 0x10 0), .ldl ⟨0, [], false⟩ (opw 0x7F 0), .lds ⟨9216, [], false⟩ (opw 0x11 0),
    .lds ⟨0, [], false⟩ (opw 0x7F 0), .ldr ⟨9216, [], false⟩ (opw 0x12 0), .ldr ⟨0, [], false⟩ (opw 0x7F 0),
    .ldb ⟨9216, [], false⟩ (opw 0x13 0), .ldb ⟨0, [], false⟩ (opw 0x7F 0), .mxl ⟨9216, [], false⟩ (opw 0x40 0),
    .mxl ⟨0, [], false⟩ (opw 0x7F 0), .mma ⟨9216, [], false⟩ (opw 0x41 0)] = true := by decide

theorem test_wf_03 : illFormed [
    .mma ⟨0, [], false⟩ (opw 0x7F 0), .mdr ⟨9216, [], false⟩ (opw 0x42 0), .mdr ⟨0, [], false⟩ (opw 0x7F 0),
    .mclr ⟨9216, [], false⟩ (opw 0x43 0), .mclr ⟨0, [], false⟩ (opw 0x7F 0), .mscw ⟨9216, [], false⟩ (opw 0x44 0),
    .mscw ⟨0, [], false⟩ (opw 0x7F 0), .setxp ⟨9216, [], false⟩ (opw 0x45 0), .setxp ⟨0, [], false⟩ (opw 0x7F 0),
    .vld ⟨9216, [], false⟩ (opw 0x80 0), .vld ⟨0, [], false⟩ (opw 0x7F 0), .vlds ⟨9216, [], false⟩ (opw 0x81 0),
    .vlds ⟨0, [], false⟩ (opw 0x7F 0), .vst ⟨9216, [], false⟩ (opw 0x82 0), .vst ⟨0, [], false⟩ (opw 0x7F 0),
    .vrq ⟨9216, [], false⟩ (opw 0x83 0), .vrq ⟨0, [], false⟩ (opw 0x7F 0), .vadd ⟨9216, [], false⟩ (opw 0x84 0),
    .vadd ⟨0, [], false⟩ (opw 0x7F 0), .vsub ⟨9216, [], false⟩ (opw 0x85 0), .vsub ⟨0, [], false⟩ (opw 0x7F 0),
    .vmul ⟨9216, [], false⟩ (opw 0x86 0), .vmul ⟨0, [], false⟩ (opw 0x7F 0),
    .vfma ⟨9216, [], false⟩ (opw 0x87 0)] = true := by decide

theorem test_wf_04 : illFormed [
    .vfma ⟨0, [], false⟩ (opw 0x7F 0), .vmax ⟨9216, [], false⟩ (opw 0x88 0), .vmax ⟨0, [], false⟩ (opw 0x7F 0),
    .vmin ⟨9216, [], false⟩ (opw 0x89 0), .vmin ⟨0, [], false⟩ (opw 0x7F 0), .vcvt ⟨9216, [], false⟩ (opw 0x8A 0),
    .vcvt ⟨0, [], false⟩ (opw 0x7F 0), .vexp ⟨9216, [], false⟩ (opw 0x8B 0), .vexp ⟨0, [], false⟩ (opw 0x7F 0),
    .vrcp ⟨9216, [], false⟩ (opw 0x8C 0), .vrcp ⟨0, [], false⟩ (opw 0x7F 0), .vrsq ⟨9216, [], false⟩ (opw 0x8D 0),
    .vrsq ⟨0, [], false⟩ (opw 0x7F 0), .vred ⟨9216, [], false⟩ (opw 0x8E 0), .vred ⟨0, [], false⟩ (opw 0x7F 0),
    .vrot ⟨9216, [], false⟩ (opw 0x8F 0), .vrot ⟨0, [], false⟩ (opw 0x7F 0), .vqnt ⟨9216, [], false⟩ (opw 0x90 0),
    .vqnt ⟨0, [], false⟩ (opw 0x7F 0), .vscs ⟨9216, [], false⟩ (opw 0x91 0), .vscs ⟨0, [], false⟩ (opw 0x7F 0),
    .vcry ⟨9216, [], false⟩ (opw 0x92 0), .vcry ⟨0, [], false⟩ (opw 0x7F 0),
    .vnw ⟨9216, [], false⟩ (opw 0x93 0)] = true := by decide

theorem test_wf_05 : illFormed [
    .vnw ⟨0, [], false⟩ (opw 0x7F 0), .vmovi ⟨9216, [], false⟩ (opw 0x94 0), .vmovi ⟨0, [], false⟩ (opw 0x7F 0),
    .swr ⟨9216, [], false⟩ (opw 0xC0 0), .swr ⟨0, [], false⟩ (opw 0x7F 0), .swb ⟨9216, [], false⟩ (opw 0xC1 0),
    .swb ⟨0, [], false⟩ (opw 0x7F 0), .semt ⟨9216, [], false⟩ (opw 0xC2 0), .semt ⟨0, [], false⟩ (opw 0x7F 0), .rowLand 9216,
    .scratchpadPatrolRead 9216 0 none, .scratchpadPatrolRead 0 32 none, .spcWinCtlWrite 9216 0 0, .spcWinCtlWrite 0 8 0,
    .spcCntWrite 9216 0 0, .spcCntWrite 0 64 0, .recipeRequest 64 0 0, .recipeRequest 0 128 0, .recipeRequest 0 0 8,
    .stgMeanWrite 64 0 0, .stgMeanWrite 0 128 0, .hopCrcRetry 0 72 false, .routeSwapRequest 72 0 0,
    .routeSwapRequest 0 3 0] = true := by decide

theorem test_wf_06 : illFormed [
    .defaultTableSwap 72, .c0TableSwap 72 0, .c0TableSwap 0 64, .edgeOverBudget false 72 0, .edgeOverBudget false 0 64,
    .edgeBudgetRecover false 72 0, .edgeBudgetRecover false 0 64, .bayRefreshTick 18, .bayPatrolRead 18 none,
    .mapAlloc 33033, .mapFree 33033, .mapSetnext 33033, .mapSetfill 33033, .moveGo 18, .moveCopyRow 18, .moveSwitch 18,
    .moveAbort 18, .loadCheck 64, .loadLoad 64, .loadActivate 64, .loadUnload 64, .loadChanWrite 16 0, .reqSubmit 33033 0,
    .reqSubmit 0 131072] = true := by decide

theorem test_wf_07 : illFormed [
    .reqCancel 33033 0, .reqCancel 0 131072, .reqPause 33033 0, .reqPause 0 131072, .reqResume 33033 0, .reqResume 0 131072,
    .reqRelease 33033 0, .reqRelease 0 131072, .reqDeadline 33033 0, .reqDeadline 0 131072, .tenantSwapRequest 64,
    .pfxCreate 33033 0, .pfxCreate 0 64, .pfxDestroy 33033 0, .pfxDestroy 0 64, .prefixFree 1024, .shipPeerWrite 33033 0 0,
    .shipPeerWrite 0 64 0, .shipOpenDequeue 64, .shipGroupWaitExpire 131072, .shipLimitExpire 131072, .wgtStage 64,
    .wgtSwap 64, .wgtReload 64] = true := by decide

theorem test_wf_08 : illFormed [
    .wgtRepair 64, .wgtDiscard 64, .wgtAbort 64, .wgtResume 64, .wgtFillComplete 64, .wgtReloadComplete 64,
    .wgtGroupWaitExpire 64, .adpAdd 33033 0, .adpAdd 0 64, .adpReplace 33033 0, .adpReplace 0 64, .adpRemove 33033 0,
    .adpRemove 0 64, .partEnableWrite 33033 0 0, .partEnableWrite 0 64 0, .partShareWrite 33033 0 0, .partShareWrite 0 64 0,
    .partRstSoft 64, .partRstHard 33033 0, .partRstHard 0 64, .partResetBegin 64, .partResetDrainEnd 64,
    .partResetRelease 64, .partEvtSet 64] = true := by decide

theorem test_wf_09 : illFormed [
    .vfMapWrite 33033 0 0, .vfMapWrite 0 256 0, .vfFlr 0, .vfFlr 257, .vfFlrComplete 0, .vfFlrComplete 257, .vfFlrTimeout 0,
    .vfFlrTimeout 257, .evcLevelChange 1024, .evcClaim 8, .evcEoi 8 0, .evcEoi 0 1024, .evcEoiPop 8, .evcStuckClear 1024,
    .extEvtPinChange 8 false, .pinFilterExpire 8, .pinPolarityWrite 256, .portTrain 32 0 0, .portTrain 0 8 0,
    .portTrain 0 0 8, .portTrainRetryExpire 32, .pcsLockLoss 32, .frameReceive 32 (arr 1 6 0 true),
    .pfcReceive 32 0 false] = true := by decide

theorem test_wf_10 : illFormed [
    .pfcReceive 0 8 false, .helloSendTimer 32, .connHelloTimeout 32 0, .connHelloTimeout 0 32768, .linkRtoExpire 32 0,
    .linkRtoExpire 0 32768, .rowsFrameClose 256, .hostVfAccess 0 0 (.read 0 4), .hostVfAccess 257 0 (.read 0 4),
    .hostVfAccess 1 2 (.read 0 4), .linkHbApHiWrite 33033 0, .cmdRecordTake 257, .outputQueueDrain 64 0, .restartDrainEnd 64,
    .coreProbeComplete 64 0 false, .coreProbeComplete 0 9216 false, .spareReloadComplete 64 0 false,
    .spareReloadComplete 0 9216 false, .restartReplayBegin 64, .ccLockstepMismatch 8, .ccRestart 8, .dieClockFault 72 false,
    .dieClockRecover 72 [], .dieClockTimeout 72] = true := by decide

theorem test_wf_11 : illFormed [
    .dieSwitchoff 72, .foldRun 64, .dieRestore 72 [], .diePwrRestoreWrite 72, .orderedStop 4, .railFault 243,
    .thermalCrossing 0 72 0, .thermalCrossing 1 18 0, .thermalCrossing 2 8 0, .thermalCrossing 4 0 0,
    .registerWrite 33033 none 0 0 0, .registerWrite 0 none 67108864 0 0, .registerWrite 0 none 0 0 16, .registerWrite 8 (some 0) 0 0 15, .latchingRead 33033 ⟨none, 0⟩,
    .latchingRead 0 ⟨none, 67108864⟩, .latchingRead 8 ⟨some 0, 0⟩, .latchingRead 0 ⟨some 9216, 0⟩, .pcieConfigAccess 257 .other, .portLinkUp 32, .ioDieFault 8,
    .wgtHomeReady 64] = true := by decide

/-! ## Results the spec works out -/

/-- A normal FP32 value `k / 16`. -/
def sixteenths (k : Int) : FV := FV.ofInt k (-4)

def allUp : FlagSnap := ⟨2 ^ 72 - 1, 2 ^ 18 - 1, 2 ^ 8 - 1⟩

/-- The first A4e example of 04_low_bit_arithmetic (R121, R122): codes, one clamp, no carry left. -/
theorem test_a4e_codes : (quantChain false 125 ([5, 5, 5, 18, 40, -6].map sixteenths) (.num false 0 0)).1 = [1, 2, 1, 4, 7, -1] := by
  decide +kernel

theorem test_a4e_clamps : (quantChain false 125 ([5, 5, 5, 18, 40, -6].map sixteenths) (.num false 0 0)).2.2 = 1 := by decide +kernel

/-- The K4e example after R125: 3.25 takes exponent 126, 1.5 takes 125. -/
theorem test_k4e_exponents : blockExp 7 (sixteenths 52) = 126 ∧ blockExp 7 (sixteenths 24) = 125 := by decide +kernel

/-- R112: a Q3 image of block 32 has 26 rows. -/
theorem test_q3_rows : imageRows 1 1 = 26 := by decide

/-- R362: a Q3 block of largest weight 0.75 takes exponent 125; -0.75 becomes -3 and 0.625 becomes 2. -/
theorem test_q3_scale : intakeExp 1 [sixteenths 4, sixteenths (-12), sixteenths 10] = 125 := by decide +kernel

theorem test_q3_codes : intakeCode 1 125 (sixteenths (-12)) = (5, false) ∧ intakeCode 1 125 (sixteenths 10) = (2, false) := by
  decide +kernel

/-- R345: bytes 0x12 and 0x34 give P = 0x26 and Q = 0x7A. -/
theorem test_parity : (parityRow false (fun k => [0x12#512, 0x34#512].getD k 0), parityRow true (fun k => [0x12#512, 0x34#512].getD k 0)) =
    (0x26#512, 0x7A#512) := by decide +kernel

/-- R345: both shards lost, the second is 0x34 again. -/
theorem test_parity_rebuild : rebuildRow (fun k => if k = 16 then 0x26 else if k = 17 then 0x7A else 0) [0, 1] 1 = 0x34 := by decide +kernel

/-- The walk to Bay 4 after R191: N at die 51 and at die 43, XW at die 35, output 9 at die 32. -/
theorem test_default_route : [51, 43, 35, 32].map (fun d => defEntry allUp d 76) = [0x81, 0x81, 0x88, 0x89] := by decide +kernel

/-- R185: dies 67 and 68 hold the steward attachment; of two ways closer the lower code is taken. -/
theorem test_steward_route : defEntry allUp 68 98 = 0x8B ∧ defEntry allUp 67 98 = 0x8B ∧ defEntry allUp 60 98 = 0x83 := by decide +kernel

/-- The table after R191: credits with a budget of 2,500. -/
theorem test_credit_refill : [20000, 14000, 3500, 0].map (refilled 2500) = [20000, 16500, 6000, 2500] := by decide

/-- The table of R506: cap 8,000 W, hysteresis 300 W. -/
theorem test_cap_rule : capRule 8706 8000 300 0 = 4 ∧ capRule 7614 8000 300 4 = 3 ∧ capRule 7844 8000 300 3 = 3 := by decide

/-- Stage 40 at T + 60: a mean of 52 after norms 53 and 55 is 52.062255859375, that is 213247 / 4096. -/
theorem test_mean : FV.encode fp32 (meanAfter 6 (FV.ofInt 52 0) [FV.ofInt 53 0, FV.ofInt 55 0]) = FV.encode fp32 (FV.ofInt 213247 (-12)) := by decide +kernel

/-- The norm of the sum 57,600 is 240 (R132). -/
theorem test_norm : FV.encode fp32 (fsqrt (FV.ofInt 57600 0)) = 0x43700000 := by decide +kernel

/-- 04_low_bit_arithmetic: the entry of stage 40 and recipe 2 lies at partition offset 0xB420. -/
theorem test_recipe_address : PART_RCP_CFG 0 40 2 = PART_NW_CTL 0 + 0x3420 := by decide

end Sys2Proof.Tests
end

/-!
What a write to the control space leaves unchanged, and IDENT_CAP (01_wafer_hierarchy R36).
-/

namespace Sys2Proof.Machine

/-! ## Writes that leave a register as it is -/

/-- A read-only field ignores writes (R9). -/
theorem FieldDesc.write_of_ro {f : FieldDesc} (h : f.acc = .ro) (locked : Bool) (v now w : Nat) :
    f.write locked v now w = w := by
  simp only [FieldDesc.write, h]

theorem writeFields_of_ro {fs : List FieldDesc} (h : ∀ f ∈ fs, f.acc = .ro) (locked : Bool) (v now w : Nat) :
    writeFields fs locked v now w = w := by
  unfold writeFields
  induction fs with
  | nil => rfl
  | cons f r ih =>
    rw [List.foldl_cons, FieldDesc.write_of_ro (h f List.mem_cons_self)]
    exact ih fun g hg => h g (List.mem_cons_of_mem f hg)

/-- The accessors' own copies of registers are no part of the control space. -/
theorem State.rd_banked (s : State) (m : List (Nat × Word)) (b : Nat) : ({ s with banked := m } : State).rd b = s.rd b :=
  rfl

/-- A write of an accessor's own copy of a register changes no word of the control space. -/
theorem State.wrAcc_rd (s : State) (acc a : Nat) (v : Word) (b : Nat) : (s.wrAcc acc a v).rd b = s.rd b :=
  s.rd_banked (wrAt bankReset s.banked (bankKey acc a) v) b

/-- A plain write to a register whose fields are all read-only changes no word of the control space, whether the accessor has
its own copy or not. -/
theorem State.store_rd_of_ro (s : State) {d : RegDesc} (h : ∀ f ∈ d.fields, f.acc = .ro) (acc a : Nat) (locked : Bool)
    (v : Word) (b : Nat) : (s.store acc a d locked v).rd b = s.rd b := by
  simp only [State.store, writeFields_of_ro h, BitVec.ofNat_toNat, BitVec.setWidth_eq]
  split
  · exact s.wrAcc_rd _ _ _ b
  · rw [State.rd_wr]
    split
    next hb => rw [hb]
    next => rfl

/-- A count in one register leaves the words at other addresses as they were. -/
theorem State.bump_rd_ne (s : State) (f : FieldRef) (n : Nat) {b : Nat} (h : b ≠ f.addr) : (s.bump f n).rd b = s.rd b :=
  s.set_rd_ne f _ b h

/-- A write that is refused touches the error counts at most: a word that its effect leaves as it is, it leaves as it is. -/
theorem State.writeAt_rd_ne (s : State) (a : Nat) (f : State → State) {b : Nat} (hb : b ≠ IDENT_ACC_ERR)
    (hf : (f s).rd b = s.rd b) : (s.writeAt a f).rd b = s.rd b := by
  unfold State.writeAt
  split
  · exact s.bump_rd_ne _ 1 hb
  · split
    · rfl
    · exact hf

/-- Outside the cores' registers no core has to be brought up to the cycle first. -/
theorem State.settleAt_of_no_core (s : State) {a : Nat} (h : coreOfAddr a = none) : s.settleAt a = s := by
  simp only [State.settleAt, h]

/-! ## IDENT_CAP -/

/-- The row of IDENT_CAP in the register map (R36). -/
def identCapDesc : RegDesc :=
  ⟨.IDENT_CAP, IDENT_CAP, [], [⟨31, 24, .ro, 3⟩, ⟨23, 16, .ro, 2⟩, ⟨2, 0, .ro, 7⟩], false⟩

theorem findReg_IDENT_CAP : findReg IDENT_CAP = some (identCapDesc, []) := by decide

theorem identCapDesc_ro : ∀ f ∈ identCapDesc.fields, f.acc = .ro := by decide

/-- The reset word of IDENT_CAP: 3, 2 and 0b111 in its fields, all other bits 0. -/
theorem reset_rd_IDENT_CAP : State.reset.rd IDENT_CAP = 0x03020007 := by
  change resetWord IDENT_CAP = _
  simp only [resetWord, findReg_IDENT_CAP]
  decide

/-- IDENT_CAP has no rule of its own: a write goes to its fields by their access codes. -/
theorem State.writeReg_IDENT_CAP (s : State) (acc : Nat) (v : Word) :
    s.writeReg acc IDENT_CAP identCapDesc [] v = s.store acc IDENT_CAP identCapDesc false v := rfl

theorem State.spaceWrite_IDENT_CAP (s : State) (acc : Nat) (v : Word) :
    (s.spaceWrite acc IDENT_CAP v 15).rd IDENT_CAP = s.rd IDENT_CAP := by
  have hword : ¬(15 % 16 ≠ 15 ∨ IDENT_CAP % 4 ≠ 0) := by decide
  have hplain : hasW1s identCapDesc = false := by decide
  have hcore : coreOfAddr IDENT_CAP = none := by decide
  unfold State.spaceWrite
  simp only [if_neg hword, findReg_IDENT_CAP, hplain, Bool.false_eq_true, if_false, State.settleAt_of_no_core _ hcore,
    State.writeReg_IDENT_CAP]
  exact s.writeAt_rd_ne _ _ (by decide) (s.store_rd_of_ro identCapDesc_ro _ _ _ _ _)

theorem exec_registerWrite_space (acc a : Nat) (v : Word) (enables : Nat) (s : State) :
    exec (.registerWrite acc none a v enables) s = .next (s.spaceWrite acc a v enables) := rfl

/-- Settles O57: the reset word holds the four values, and a register whose fields are all read-only keeps its word. -/
theorem capabilitiesAtReset : Obligations.CapabilitiesAtReset := by
  unfold Obligations.CapabilitiesAtReset
  simp only [State.get, IDENT_CAP_diloth_max, IDENT_CAP_diloth_min, IDENT_CAP_tlt_versions, reset_rd_IDENT_CAP]
  refine ⟨by decide, by decide, by decide, by decide, fun acc v s => ?_⟩
  exact ⟨_, exec_registerWrite_space acc IDENT_CAP v 15 s, s.spaceWrite_IDENT_CAP acc v⟩

end Sys2Proof.Machine

/-!
What setting one bit of a register changes and leaves unchanged, and the supply event (17_power_thermal R498).
-/

namespace Sys2Proof.Machine

/-! ## Single bits of a word -/

/-- Bit by bit, a write of one bit of a word. -/
theorem getLsbD_setBits_one {n : Nat} (w : BitVec n) (lo v i : Nat) (hi : i < n) :
    (setBits w lo 1 v).getLsbD i = if i = lo then v.testBit 0 else w.getLsbD i := by
  rw [setBits, BitVec.getLsbD_ofNat, testBit_setField, decide_eq_true hi, Bool.true_and]
  rcases Nat.lt_trichotomy i lo with hlt | rfl | hgt
  · rw [if_pos hlt, if_neg (by omega), BitVec.getLsbD]
  · rw [if_neg (by omega), if_pos (by omega), if_pos rfl, Nat.sub_self]
  · rw [if_neg (by omega), if_neg (by omega), if_neg (by omega), BitVec.getLsbD]

/-! ## Bits that hardware sets -/

/-- The record of the cycle that `setBit` keeps (R10) is no part of the control space. -/
theorem State.setBit_rd (s : State) (a i b : Nat) :
    (s.setBit a i).rd b = if b = a then setBits (s.rd a) i 1 1 else s.rd b :=
  s.rd_wr a (setBits (s.rd a) i 1 1) b

/-- Setting a bit changes its register and the record of the cycle, nothing else. -/
theorem State.setBit_onlyRegs (s : State) (a i : Nat) : s.onlyRegs (s.setBit a i) [a] := by
  refine ⟨rfl, fun b hb => ?_⟩
  rw [State.setBit_rd, if_neg (List.ne_of_not_mem_cons hb)]

theorem State.setBit_bitOn (s : State) (a i j : Nat) (hj : j < 32) :
    (s.setBit a i).bitOn a j = if j = i then true else s.bitOn a j := by
  simp only [State.bitOn, State.setBit_rd, if_true, getLsbD_setBits_one _ _ _ _ hj, Nat.testBit_one_zero]

/-! ## The supply out of range -/

/-- The step sets bit 3 of PWR_EVT, the supply event (R511). -/
theorem exec_supplyOutOfRange (s : State) : exec .supplyOutOfRange s = .next (s.setBit PWR_EVT 3) := rfl

/-- Settles O49: the step is one set bit, so the frame of `setBit` is the claim. -/
theorem supplyOutOfRangeOnlySetsItsEvent : Obligations.SupplyOutOfRangeOnlySetsItsEvent := by
  unfold Obligations.SupplyOutOfRangeOnlySetsItsEvent
  intro s
  refine ⟨s.setBit PWR_EVT 3, exec_supplyOutOfRange s, ?_, s.setBit_onlyRegs PWR_EVT 3, fun i hi hne => ?_⟩
  · rw [s.setBit_bitOn PWR_EVT 3 3 (by decide), if_pos rfl]
  · rw [s.setBit_bitOn PWR_EVT 3 i hi, if_neg hne]

end Sys2Proof.Machine

/-!
The whole machine: a step is its front command, and what the state after reset holds (02_beat R43, 15_links_host R458, 18_startup_reset R519).
-/

namespace Sys2Proof.Machine

/-! ## A step -/

theorem step_of_pending_cons (c : Instr) (rest : List Instr) (s : State) :
    step { s with pending := c :: rest } = exec c { s with pending := rest } := rfl

theorem step_of_pending_nil {s : State} (h : s.pending = []) : step s = .next s := by
  unfold step; rw [h]

/-- Settles O55: both are the equations of `step`. -/
theorem stepRunsTheFrontCommand : Obligations.StepRunsTheFrontCommand := by
  unfold Obligations.StepRunsTheFrontCommand
  exact ⟨step_of_pending_cons, fun _ => step_of_pending_nil⟩

/-! ## Reset -/

/-- After reset a register reads its reset word, for no word is listed. -/
theorem reset_get (f : FieldRef) : State.reset.get f = bits (resetWord f.addr) f.lo f.len := rfl

theorem resetWord_statsLen : ∀ n, n < 64 → bits (resetWord (BEAT_STATS_LEN_marks n).addr) 0 (BEAT_STATS_LEN_marks n).len = 100 := by
  decide

/-- Settles O56: every field is read from its reset word, and the lists are empty by definition. -/
theorem resetLeavesTheResetValues : Obligations.ResetLeavesTheResetValues := by
  unfold Obligations.ResetLeavesTheResetValues
  refine ⟨rfl, ?_, ?_, ?_, ?_, fun n hn => ?_, rfl, rfl, rfl, rfl, rfl⟩
  · rw [reset_get]; decide
  · rw [reset_get]; decide
  · rw [reset_get]; decide
  · rw [reset_get]; decide
  · rw [reset_get]; exact resetWord_statsLen n hn

/-- Settles O58: every memory of the state after reset lists nothing. -/
theorem resetIsCanonical : Obligations.ResetIsCanonical := by
  unfold Obligations.ResetIsCanonical
  exact State.canonical_iff.2 ⟨canon_nil _, canon_nil _, rfl, rfl⟩

end Sys2Proof.Machine

/-!
What every step keeps, as one relation between the state a step starts from and the states it passes through: the sparse memories stay
canonical, and the rollback floor in flash does not fall (19_firmware_trust R528). Most operations also leave alone what is not of the
compute domains, so that the relation carries a reading `κ` of that rest. One lemma per operation of the model; a lemma `Upholds.f` says
that the operation `f` keeps the relation, and its proof follows the body of `f`.
-/

namespace Sys2Proof.Machine

/-! ## Memories of a core and of a Bay -/

/-- The sparse memories of the core are canonical where those of the state `r` were. -/
def Core.Keeps (r : State) (c : Core) : Prop := r.canonical = true → c.canonical = true

/-- The memory of the Bay is canonical where those of the state `r` were. -/
def Bay.Keeps (r : State) (y : Bay) : Prop := r.canonical = true → y.canonical = true

/-- What most of the model's work leaves alone: the clock, the queue, the JTAG port, flash, power, the inventory and the firmware state
but its waiting jobs. -/
structure Rest where
  tick : Nat
  cycle : Nat
  pending : List Instr
  jtag : Jtag
  flash : Flash
  pwr : Pwr
  inv : Option Inv
  fw : Fw

def State.rest (s : State) : Rest :=
  ⟨s.tick, s.cycle, s.pending, s.jtag, s.flash, s.pwr, s.inv, { s.fw with jobs := [] }⟩

/-- The reading of that part that tells nothing. -/
def Rest.nothing (_ : Rest) : Rest := State.reset.rest

/-- The reading of that part that tells the clock, the queue, the JTAG port and flash. -/
def Rest.clock (x : Rest) : Rest := { Rest.nothing x with tick := x.tick, cycle := x.cycle, pending := x.pending, jtag := x.jtag, flash := x.flash }

/-- The reading tells nothing of the inventory. -/
def Rest.BlindInv (κ : Rest → Rest) : Prop := ∀ x i, κ { x with inv := i } = κ x

/-- The reading tells nothing of the power state. -/
def Rest.BlindPwr (κ : Rest → Rest) : Prop := ∀ x p, κ { x with pwr := p } = κ x

theorem Rest.nothing_blindInv : Rest.BlindInv Rest.nothing := fun _ _ => rfl
theorem Rest.nothing_blindPwr : Rest.BlindPwr Rest.nothing := fun _ _ => rfl
theorem Rest.clock_blindInv : Rest.BlindInv Rest.clock := fun _ _ => rfl
theorem Rest.clock_blindPwr : Rest.BlindPwr Rest.clock := fun _ _ => rfl

/-- From `r` to `t` the canonical form is kept, the rollback floor has not fallen, and the reading `κ` of the rest is the same. -/
structure State.Upholds (r : State) (κ : Rest → Rest) (t : State) : Prop where
  canonical : r.canonical = true → t.canonical = true
  floor : r.flash.floor ≤ t.flash.floor
  rest : κ t.rest = κ r.rest

/-- The effect of an instruction keeps the relation (R74). -/
def Plan.Sound (r : State) (q : Plan) : Prop := ∀ n u, r.Upholds Rest.nothing u → r.Upholds Rest.nothing (q.effect n u)

/-- The same of what a command answers. -/
def Answers (r : State) : Host.Outcome State Fault Refusal → Prop
  | .next t => r.Upholds Rest.nothing t
  | _ => True

variable {r t : State} {κ : Rest → Rest} {c : Core} {y : Bay} {p a b n v : Nat} {f : FieldRef} {w : Word}

theorem Core.Keeps.reset : Core.reset.Keeps r := fun _ => rfl

theorem Core.Keeps.same {d : Core} (h : c.Keeps r) (e : (d.pad, d.cp) = (c.pad, c.cp)) : d.Keeps r := by
  simp only [Prod.mk.injEq] at e
  intro k
  have hc := h k
  unfold Core.canonical at hc ⊢
  rw [e.1, e.2]
  exact hc

theorem Core.Keeps.ite {k : Prop} {_ : Decidable k} {c d : Core} (hc : c.Keeps r) (hd : d.Keeps r) :
    Core.Keeps r (if k then c else d) := by split <;> assumption

theorem Core.Keeps.foldl {α : Type} {g : Core → α → Core} {l : List α} (h : c.Keeps r)
    (hg : ∀ c x, Core.Keeps r c → (g c x).Keeps r) : (l.foldl g c).Keeps r :=
  foldl_keeps (Core.Keeps r) hg l c h

/-- A program and its ranges loaded leave the memories as they are. -/
theorem Core.Keeps.program {m : List (Nat × DWord)} {l : List WRange} (h : c.Keeps r) : Core.Keeps r { c with imem := m, ranges := l } := h

theorem Core.Keeps.cpWr (h : c.Keeps r) : (c.cpWr a w).Keeps r := fun k => Core.cpWr_canonical (h k) _ _
theorem Core.Keeps.cpSet (h : c.Keeps r) : (c.cpSet f v).Keeps r := h.cpWr
theorem Core.Keeps.cpBump (h : c.Keeps r) : (c.cpBump f v).Keeps r := h.cpSet
theorem Core.Keeps.setPadRow {d : Row} (h : c.Keeps r) : (c.setPadRow n d).Keeps r := fun k => Core.setPadRow_canonical (h k) _ _
theorem Core.Keeps.writeRow {d : Row} (h : c.Keeps r) : (c.writeRow n d).Keeps r := fun k => Core.writeRow_canonical (h k) _ _
theorem Core.Keeps.writeWinCtl (h : c.Keeps r) : (c.writeWinCtl n w).Keeps r := fun k => Core.writeWinCtl_canonical (h k) _ _
theorem Core.Keeps.initCounters (h : c.Keeps r) : c.initCounters.Keeps r := fun k => Core.initCounters_canonical (h k)
theorem Core.Keeps.clear (h : c.Keeps r) : c.clear.Keeps r := fun k => Core.clear_canonical (h k)
theorem Core.Keeps.prune (h : c.Keeps r) : (c.prune n).Keeps r := h
theorem Core.Keeps.later {e : Eff} (h : c.Keeps r) : (c.later n e).Keeps r := h
theorem Core.Keeps.patrolClaim (h : c.Keeps r) : (c.patrolClaim n a).Keeps r := h
theorem Core.Keeps.markPending {l : List Nat} (h : c.Keeps r) : (c.markPending l).Keeps r := h
theorem Core.Keeps.clearAcc (h : c.Keeps r) : (c.clearAcc n).Keeps r := h

theorem Core.Keeps.laters {l : List (Nat × Eff)} (h : c.Keeps r) : (c.laters l).Keeps r :=
  h.foldl fun _ _ hc => hc.later

theorem Core.Keeps.release {l : List Nat} (h : c.Keeps r) : (c.release n l).Keeps r := h.laters

theorem Core.Keeps.writeX {l : List Row} (h : c.Keeps r) : (c.writeX n a l).Keeps r :=
  h.foldl fun _ _ hc => hc.later

theorem Core.Keeps.setEng {e : Engine} {x : Eng} (h : c.Keeps r) : (c.setEng e x).Keeps r := by
  cases e <;> exact h

theorem Core.Keeps.onEng {e : Engine} {g : Eng → Eng} (h : c.Keeps r) : (c.onEng e g).Keeps r := h.setEng

theorem Core.Keeps.hold {e : Engine} (h : c.Keeps r) : (c.hold e n a).Keeps r := h.onEng

theorem Core.Keeps.countHeld {e : Engine} (h : c.Keeps r) : (c.countHeld e n).Keeps r := .ite h.onEng h

theorem Core.Keeps.displace {l : List Nat} (h : c.Keeps r) : (c.displace n p l).Keeps r :=
  h.foldl fun _ _ hc => .ite hc.hold hc

theorem Core.Keeps.claim {l : List Nat} (h : c.Keeps r) : (c.claim n p l).Keeps r := (h.displace : Core.Keeps r (c.displace n p l))

theorem Core.Keeps.afterSend {d : DWord} (h : c.Keeps r) : (c.afterSend d n a).Keeps r := .ite (.release h) h

theorem Core.Keeps.mmaGo {d : DWord} (h : c.Keeps r) : (c.mmaGo d n).Keeps r := by
  unfold Core.mmaGo
  dsimp only
  repeat' split
  all_goals exact h

theorem Core.Keeps.filled {k : Bool} (h : c.Keeps r) : (c.filled n k).Keeps r := by
  unfold Core.filled
  split
  · exact h
  · exact .ite h (.ite (.later h) h)

theorem Core.Keeps.upset {u : Upset} (h : c.Keeps r) : (c.upset u).Keeps r := by
  intro k
  have hc := h k
  simp only [Core.canonical, Bool.and_eq_true] at hc
  simp only [Core.canonical, Core.upset, Bool.and_eq_true]
  refine ⟨?_, hc.2⟩
  split
  · exact padSetRow_wf hc.1 _ _
  · exact hc.1

theorem Core.Keeps.finish {x : Run} (h : c.Keeps r) : (c.finish x n).Keeps r := by
  unfold Core.finish
  split
  case h_3 => exact h.writeX
  case h_7 => exact h.laters
  all_goals exact h

/-- An effect that takes place writes at most one row or one register of the control page. -/
theorem Core.Keeps.apply {e : Eff} (h : c.Keeps r) : (c.apply e).1.Keeps r := by
  cases e with
  | areg e k lo len v =>
    simp only [Core.apply]
    exact .ite h h.onEng
  | wamt => exact (h.onEng : Core.Keeps r (c.onEng _ _))
  | pad => exact h.writeRow
  | sb i d =>
    simp only [Core.apply]
    exact .ite h h
  | cnt k row x =>
    simp only [Core.apply]
    split
    · exact h
    · split
      · exact h
      · exact h.cpSet
  | winCtl => exact h.writeWinCtl
  | _ => exact h

theorem Core.Keeps.applyAll {l : List Pend} (h : c.Keeps r) : (c.applyAll l).1.Keeps r := by
  induction l generalizing c with
  | nil => exact h
  | cons q l ih => exact ih h.apply

theorem settleList_keeps {l : List Pend} (h : c.Keeps r) : (settleList l n c).1.Keeps r := by
  induction l generalizing c with
  | nil => exact h
  | cons q l ih =>
    unfold settleList
    split
    · exact ih h.apply
    · exact h

theorem Core.Keeps.settle (h : c.Keeps r) : (c.settle n).1.Keeps r := settleList_keeps h

theorem Bay.Keeps.reset : Bay.reset.Keeps r := fun _ => rfl
theorem Bay.Keeps.setRow {d : Row} (h : y.Keeps r) : (y.setRow n a d).Keeps r := fun k => Bay.setRow_canonical (h k) _ _ _
theorem Bay.Keeps.setOwn {x : Half} (h : y.Keeps r) : (y.setOwn n x).Keeps r := h
theorem Bay.Keeps.setOwnBit {k : Bool} (h : y.Keeps r) : (y.setOwnBit n a k).Keeps r := h

theorem Bay.Keeps.same {z : Bay} (h : y.Keeps r) (e : z.mem = y.mem) : z.Keeps r := by
  intro k
  have hy := h k
  unfold Bay.canonical at hy ⊢
  rw [e]
  exact hy

theorem Bay.Keeps.ite {k : Prop} {_ : Decidable k} {y z : Bay} (hy : y.Keeps r) (hz : z.Keeps r) :
    Bay.Keeps r (if k then y else z) := by split <;> assumption

theorem Bay.Keeps.foldl {α : Type} {g : Bay → α → Bay} {l : List α} (h : y.Keeps r)
    (hg : ∀ y x, Bay.Keeps r y → (g y x).Keeps r) : (l.foldl g y).Keeps r :=
  foldl_keeps (Bay.Keeps r) hg l y h

theorem Bay.Keeps.takeNamed (h : y.Keeps r) : (y.takeNamed n).Keeps r := by
  unfold Bay.takeNamed
  repeat' split
  all_goals exact h

/-! ## The state: registers, cores, Bays -/

namespace State.Upholds

theorem refl : r.Upholds κ r := ⟨id, Nat.le_refl _, rfl⟩

theorem trans {s : State} (h : r.Upholds κ s) (h' : s.Upholds κ t) : r.Upholds κ t :=
  ⟨h'.canonical ∘ h.canonical, h.floor.trans h'.floor, h'.rest.trans h.rest⟩

/-- What changes no register, no memory and nothing in flash. -/
theorem same {u : State} (h : r.Upholds κ t)
    (e : (u.ctl, u.banked, u.cores, u.bays, u.rest) = (t.ctl, t.banked, t.cores, t.bays, t.rest)) : r.Upholds κ u := by
  simp only [Prod.mk.injEq] at e
  obtain ⟨e1, e2, e3, e4, e5⟩ := e
  have ef : u.flash = t.flash := congrArg Rest.flash e5
  exact ⟨fun k => State.canonical_of_eq (h.canonical k) (by rw [e1, e2, e3, e4]), by rw [ef]; exact h.floor, by rw [e5]; exact h.rest⟩

/-- The same, of a state written out as a record. -/
theorem frame {u : State} (h : r.Upholds κ t)
    (e : (u.ctl, u.banked, u.cores, u.bays, u.rest) = (t.ctl, t.banked, t.cores, t.bays, t.rest) := by dsimp only [State.rest]) :
    r.Upholds κ u :=
  h.same e

/-- What changes no register, no memory and nothing in flash, whatever else of the rest it changes. -/
theorem anew {u : State} (h : r.Upholds κ t)
    (e : (u.ctl, u.banked, u.cores, u.bays, u.flash) = (t.ctl, t.banked, t.cores, t.bays, t.flash) := by dsimp only) :
    r.Upholds Rest.nothing u := by
  simp only [Prod.mk.injEq] at e
  obtain ⟨e1, e2, e3, e4, e5⟩ := e
  exact ⟨fun k => State.canonical_of_eq (h.canonical k) (by rw [e1, e2, e3, e4]), by rw [e5]; exact h.floor, rfl⟩

/-- What changes only the power state. -/
theorem power {x : Pwr} (h : r.Upholds κ t) : r.Upholds Rest.nothing { t with pwr := x } := h.anew

/-- What changes only the power state, of which the reading tells nothing. -/
theorem powerBlind {x : Pwr} (hp : Rest.BlindPwr κ) (h : r.Upholds κ t) : r.Upholds κ { t with pwr := x } :=
  ⟨fun k => State.canonical_of_eq (h.canonical k) rfl, h.floor, (hp _ _).trans h.rest⟩

/-- What changes only the inventory, of which the reading tells nothing. -/
theorem inventory {x : Option Inv} (hi : Rest.BlindInv κ) (h : r.Upholds κ t) : r.Upholds κ { t with inv := x } :=
  ⟨fun k => State.canonical_of_eq (h.canonical k) rfl, h.floor, (hi _ _).trans h.rest⟩

/-- What changes only the state of the host bridge. -/
theorem host {x : Hb} (h : r.Upholds κ t) : r.Upholds κ { t with hb := x } := h.frame

theorem ite {k : Prop} {_ : Decidable k} {s t : State} (hs : r.Upholds κ s) (ht : r.Upholds κ t) :
    r.Upholds κ (if k then s else t) := by split <;> assumption

theorem foldl {α : Type} {g : State → α → State} {l : List α} (h : r.Upholds κ t)
    (hg : ∀ u x, r.Upholds κ u → r.Upholds κ (g u x)) : r.Upholds κ (l.foldl g t) :=
  foldl_keeps (r.Upholds κ) hg l t h

theorem each {α : Type} {g : α → State → State} {l : List α} (h : r.Upholds κ t)
    (hg : ∀ x u, r.Upholds κ u → r.Upholds κ (g x u)) : r.Upholds κ (Machine.each g l t) :=
  each_keeps (r.Upholds κ) hg l t h

theorem core (h : r.Upholds κ t) : (t.core p).Keeps r := fun k => State.core_canonical (h.canonical k) p
theorem bay (h : r.Upholds κ t) : (t.bay b).Keeps r := fun k => State.bay_canonical (h.canonical k) b

theorem wr (h : r.Upholds κ t) : r.Upholds κ (t.wr a w) :=
  ⟨fun k => State.wr_canonical (h.canonical k) a w, h.floor, h.rest⟩

theorem wrAcc (h : r.Upholds κ t) : r.Upholds κ (t.wrAcc n a w) := by
  have e : ∀ x, ({ t with banked := x } : State).rest = t.rest ∧ ({ t with banked := x } : State).flash = t.flash := fun _ => ⟨rfl, rfl⟩
  have hr : (t.wrAcc n a w).rest = t.rest := by rw [State.wrAcc, (e _).1]
  have hf : (t.wrAcc n a w).flash = t.flash := by rw [State.wrAcc, (e _).2]
  refine ⟨fun k => State.wrAcc_canonical (h.canonical k) n a w, ?_, ?_⟩
  · rw [hf]
    exact h.floor
  · rw [hr]
    exact h.rest

theorem setCore (h : r.Upholds κ t) (hc : c.Keeps r) : r.Upholds κ (t.setCore p c) :=
  ⟨fun k => State.setCore_canonical (h.canonical k) p (hc k), h.floor, h.rest⟩

theorem onCore {g : Core → Core} (h : r.Upholds κ t) (hg : ∀ c, c.Keeps r → (g c).Keeps r) : r.Upholds κ (t.onCore p g) :=
  h.setCore (hg _ h.core)

theorem setBay (h : r.Upholds κ t) (hy : y.Keeps r) : r.Upholds κ (t.setBay b y) :=
  ⟨fun k => State.setBay_canonical (h.canonical k) b (hy k), h.floor, h.rest⟩

theorem onBay {g : Bay → Bay} (h : r.Upholds κ t) (hg : ∀ y, y.Keeps r → (g y).Keeps r) : r.Upholds κ (t.onBay b g) :=
  h.setBay (hg _ h.bay)

/-- With no core listed every core is as after reset. -/
theorem noCores (h : r.Upholds κ t) : r.Upholds κ { t with cores := [] } := by
  refine ⟨fun k => ?_, h.floor, h.rest⟩
  obtain ⟨h1, h2, -, h4⟩ := State.canonical_iff.1 (h.canonical k)
  exact State.canonical_iff.2 ⟨h1, h2, rfl, h4⟩

/-- Dropping registers leaves those that stay in canonical form. -/
theorem filterCtl {g : Nat × Word → Bool} (h : r.Upholds κ t) : r.Upholds κ { t with ctl := t.ctl.filter g } := by
  refine ⟨fun k => ?_, h.floor, h.rest⟩
  obtain ⟨h1, h2, h3, h4⟩ := State.canonical_iff.1 (h.canonical k)
  exact State.canonical_iff.2 ⟨canon_filter _ h1 g, h2, h3, h4⟩

/-- Flash is written, its rollback floor left or raised. -/
theorem writeFlash {x : Flash} (h : r.Upholds κ t) (hx : t.flash.floor ≤ x.floor) : r.Upholds Rest.nothing { t with flash := x } :=
  ⟨h.canonical, h.floor.trans hx, rfl⟩

theorem strike {g : Word → Word} (h : r.Upholds κ t) : r.Upholds κ (t.strike a g) := h.same rfl

theorem bump (h : r.Upholds κ t) : r.Upholds κ (t.bump f n) := h.wr.strike

theorem writeAt {g : State → State} (h : r.Upholds κ t) (hg : ∀ u, r.Upholds κ u → r.Upholds κ (g u)) : r.Upholds κ (t.writeAt a g) := by
  unfold State.writeAt
  exact .ite h.bump (.ite h (hg t h))

end State.Upholds

end Sys2Proof.Machine

/-!
Every operation of the model on the state upholds: one lemma for each, in the order of the model, its proof the shape of the
operation's body.
-/

namespace Sys2Proof.Machine

open Sys2Proof

namespace State.Upholds

variable {r t : State} {κ : Rest → Rest}

/-! ### Ops -/

theorem set {f : FieldRef} {v : Nat} (h : r.Upholds κ t) : r.Upholds κ (t.set f v) := h.wr

theorem setOn {f : FieldRef} {b : Bool} (h : r.Upholds κ t) : r.Upholds κ (t.setOn f b) := h.set

theorem ask {a : Nat} {w : Word} (h : r.Upholds κ t) : r.Upholds κ (t.ask a w) := .same h rfl

theorem askFor {f : FieldRef} (h : r.Upholds κ t) : r.Upholds κ (t.askFor f) := h.ask

theorem counts {key n : Nat} (h : r.Upholds κ t) : r.Upholds κ (t.counts key n) := h.strike

theorem raise {f : FieldRef} (h : r.Upholds κ t) : r.Upholds κ (t.raise f) := h.setOn.strike

theorem clear {f : FieldRef} (h : r.Upholds κ t) : r.Upholds κ (t.clear f) := .ite h h.setOn

theorem done {f : FieldRef} (h : r.Upholds κ t) : r.Upholds κ (t.done f) := .ite h h.setOn

theorem incr {f : FieldRef} (h : r.Upholds κ t) : r.Upholds κ (t.incr f) := h.set

theorem setBit {a i : Nat} (h : r.Upholds κ t) : r.Upholds κ (t.setBit a i) := h.wr.strike

theorem clrBit {a i : Nat} (h : r.Upholds κ t) : r.Upholds κ (t.clrBit a i) := h.wr

theorem setPair {lo hi v : Nat} (h : r.Upholds κ t) : r.Upholds κ (t.setPair lo hi v) := h.wr.wr

theorem setPart {n : Nat} {q : PartSt} (h : r.Upholds κ t) : r.Upholds κ (t.setPart n q) := .same h rfl

theorem onPart {n : Nat} {f : PartSt → PartSt} (h : r.Upholds κ t) : r.Upholds κ (t.onPart n f) := h.setPart

theorem emit {e : Emission} (h : r.Upholds κ t) : r.Upholds κ (t.emit e) := .same h rfl

theorem draw (h : r.Upholds κ t) : r.Upholds κ (t.draw).2 := .same h rfl

theorem report {r' : Report} (h : r.Upholds κ t) : r.Upholds κ (t.report r') := .same h rfl

theorem clockAt {t' : Nat} (h : r.Upholds κ t) : r.Upholds Rest.nothing (t.at t') := h.anew rfl

theorem recordFirst {a v : Nat} (h : r.Upholds κ t) : r.Upholds κ (t.recordFirst a v) := .ite h h.wr.strike

theorem showInv (h : r.Upholds κ t) : r.Upholds κ (t.showInv) := by
  unfold State.showInv
  split
  · exact h.set.set.set.set.set
  · exact h

theorem markFailed {p : Nat} (hi : Rest.BlindInv κ) (h : r.Upholds κ t) : r.Upholds κ (t.markFailed p) := by
  unfold State.markFailed
  split
  · exact .ite (.setBit (.showInv (.setOn (h.inventory hi)))) h
  · exact h

theorem partEvt {n i : Nat} (h : r.Upholds κ t) : r.Upholds κ (t.partEvt n i) := .ite h h.setBit

theorem devLatch {i : Nat} (h : r.Upholds κ t) : r.Upholds κ (t.devLatch i) := h.setBit

/-! ### Network -/

theorem resetDrop {n : Nat} {tag : Option (Nat × Nat)} (h : r.Upholds κ t) : r.Upholds κ (t.resetDrop n tag) := by
  unfold State.resetDrop
  dsimp only
  split
  · exact .onCore h.bump (fun _ hc => hc)
  · exact h.bump

theorem netDrop {d cause : Nat} {p : Packet} (h : r.Upholds κ t) : r.Upholds κ (t.netDrop d cause p) := by
  unfold State.netDrop
  exact .report (by split; exacts [.resetDrop (.ite h.bump h.bump.recordFirst.wr), .ite h.bump h.bump.recordFirst.wr])

theorem laneSeq {d x : Nat} (h : r.Upholds κ t) : r.Upholds κ (t.laneSeq d x).2 := .same h rfl

theorem lanesOf {l : List Nat} (h : r.Upholds κ t) : r.Upholds κ (t.lanesOf l).2 := by
  induction l generalizing t with
  | nil => exact h
  | cons d l ih =>
    cases l with
    | nil => exact h
    | cons x l => exact ih h.laneSeq

theorem inject {p : Packet} {t' : Nat} (h : r.Upholds κ t) : r.Upholds κ (t.inject p t') := by
  unfold State.inject
  split
  · exact .same h.lanesOf rfl
  · exact h.netDrop

theorem reroute {d : Nat} {f : Packet → Bool} (h : r.Upholds κ t) : r.Upholds κ (t.reroute d f) :=
  .foldl (h.same rfl) fun _ _ hu => by
    split
    exacts [hu.same rfl, hu.netDrop]

theorem dropNet {k : Nat} (h : r.Upholds κ t) : r.Upholds κ (t.dropNet k) := .same h rfl

theorem countPort {port : Nat} (h : r.Upholds κ t) : r.Upholds κ (t.countPort port) := by
  unfold State.countPort
  extract_lets s1
  have h1 : r.Upholds κ s1 := by
    unfold s1
    split
    exacts [h.bump, h]
  exact h1.frame

theorem setCredit {port part : Nat} {c : Int} (h : r.Upholds κ t) : r.Upholds κ (t.setCredit port part c) :=
    .countPort (.ite (.setBit (.same h rfl)) (.same h rfl))

theorem refillCredits (h : r.Upholds κ t) : r.Upholds κ (t.refillCredits) := .each h (fun _ _ hu => hu.setCredit)

theorem charge {link : Bool} {d part n : Nat} (h : r.Upholds κ t) : r.Upholds κ (t.charge link d part n) := h.setCredit

theorem portRows {link : Bool} {d n : Nat} (h : r.Upholds κ t) : r.Upholds κ (t.portRows link d n) := h.bump

theorem passPort {link : Bool} {d part n : Nat} (h : r.Upholds κ t) : r.Upholds κ (t.passPort link d part n) :=
    h.charge.portRows

theorem swapDefault {d : Nat} (h : r.Upholds κ t) : r.Upholds κ (t.swapDefault d) := .reroute (.done (.set (.same h rfl)))

theorem setXlat {d bank part : Nat} {t' : List (Nat × Nat)} (h : r.Upholds κ t) : r.Upholds κ (t.setXlat d bank part t') :=
    .same h rfl

theorem swapC0 {d part : Nat} (h : r.Upholds κ t) : r.Upholds κ (t.swapC0 d part) :=
    .reroute (.done (.wr (.setXlat (.each h (fun _ _ hu => hu.wr)))))

theorem installRoutes (h : r.Upholds κ t) : r.Upholds κ (t.installRoutes) := by
  unfold State.installRoutes
  split
  · exact h
  · exact .ite (.same h rfl) (.each h (fun _ _ hu => .setOn (.set (.same hu rfl))))

theorem writeDefWord {d k : Nat} {v : Word} (h : r.Upholds κ t) : r.Upholds κ (t.writeDefWord d k v) :=
    .ite (.same (.same h rfl) rfl) (.ite h (.same h rfl))

theorem writeC0Word {d k : Nat} {v : Word} (h : r.Upholds κ t) : r.Upholds κ (t.writeC0Word d k v) := .ite h h.wr

theorem hopRetry {k d : Nat} {cluster : Bool} (h : r.Upholds κ t) : r.Upholds κ (t.hopRetry k d cluster) := by
  unfold State.hopRetry
  split
  · exact h
  · exact .ite h.netDrop.dropNet (.bump (.same h rfl))

theorem routeSwapRequest {d which : Nat} {v : Word} (h : r.Upholds κ t) : r.Upholds κ (t.routeSwapRequest d which v) := by
  unfold State.routeSwapRequest
  split
  · exact .ite h.ask.setOn h
  · exact h.ask.wr
  · exact h.ask.wr

theorem edgeOver {link : Bool} {d part : Nat} (h : r.Upholds κ t) : r.Upholds κ (t.edgeOver link d part) :=
    .setBit (.same h rfl)

theorem countOver (h : r.Upholds κ t) : r.Upholds κ (t.countOver) := .each h (fun _ _ hu => hu.countPort)

theorem edgeRecover {link : Bool} {d part : Nat} (h : r.Upholds κ t) : r.Upholds κ (t.edgeRecover link d part) := .same h rfl

theorem stillOver {link : Bool} {d : Nat} (h : r.Upholds κ t) : r.Upholds κ (t.stillOver link d) :=
    .each h (fun _ _ hu => .ite hu.setBit hu)

/-! ### CoreCommon -/

theorem cpCount {p : Nat} {f : FieldRef} {n t' : Nat} (h : r.Upholds κ t) : r.Upholds κ (t.cpCount p f n t') :=
    .ite (.strike (.setCore h h.core.cpBump)) (.setCore h h.core.cpBump)

theorem cpRecord {p a stamp v t' : Nat} (h : r.Upholds κ t) : r.Upholds κ (t.cpRecord p a stamp v t') :=
    .ite h (.ite (.strike (.setCore h h.core.cpWr.cpWr)) (.setCore h h.core.cpWr.cpWr))

theorem landEvent {p cause counter row : Nat} {w : Writer} {t' : Nat} (h : r.Upholds κ t) :
    r.Upholds κ (t.landEvent p cause counter row w t') :=
    h.cpRecord.report

theorem note {p t' : Nat} {x : Note} (h : r.Upholds κ t) : r.Upholds κ (t.note p t' x) := by
  unfold State.note
  split
  · exact .ite h.bump h.set
  · exact h.cpCount.landEvent

theorem effects {p t' : Nat} (h : r.Upholds κ t) : r.Upholds κ (t.effects p t') :=
    .each (.setCore h h.core.settle) (fun _ _ hu => hu.note)

theorem upset {p : Nat} {us : List Upset} (h : r.Upholds κ t) : r.Upholds κ (t.upset p us) :=
  .ite h (h.onCore fun _ hc => hc.foldl fun _ _ hd => hd.upset)

theorem eccRow {p row n : Nat} {patrol : Bool} (h : r.Upholds κ t) : r.Upholds κ (t.eccRow p row n patrol).1 := by
  unfold State.eccRow
  dsimp only
  split
  · exact h
  · split
    · dsimp only
      refine h.cpCount.onCore fun _ hc => ?_
      split
      exacts [hc, hc]
    · exact h.cpCount.cpRecord.report

theorem eccGroup {p n : Nat} {rows : List Nat} (h : r.Upholds κ t) : r.Upholds κ (t.eccGroup p n rows).1 := by
  unfold State.eccGroup
  dsimp only
  refine foldl_keeps (fun x : State × Bool => r.Upholds κ x.1) (fun _ _ hx => ?_) rows (t, false) h
  exact eccRow hx

theorem emitToken {n p : Nat} {word : DWord} (h : r.Upholds κ t) : r.Upholds κ (t.emitToken n p word) := by
  unfold State.emitToken
  dsimp only
  split
  · exact h
  · exact .ite h.setPart h.setBit

theorem handOver {p : Nat} {r' : Run} (h : r.Upholds κ t) : r.Upholds κ (t.handOver p r') := by
  unfold State.handOver
  split
  · exact h.emitToken
  · exact h

theorem shiftLate {f : Packet → Bool} {n : Nat} (h : r.Upholds κ t) : r.Upholds κ (t.shiftLate f n) := .same h rfl

theorem delay {p : Nat} {r' : Run} {t' n : Nat} (h : r.Upholds κ t) : r.Upholds κ (t.delay p r' t' n) := by
  unfold State.delay
  dsimp only
  split
  · exact .onCore (.shiftLate (.onCore h (fun _ hc => hc.hold))) (fun _ hc => hc)
  · exact .onCore h (fun _ hc => hc.hold)

theorem fillRows {p n : Nat} {rows : List (Nat × Row)} (h : r.Upholds κ t) : r.Upholds κ (t.fillRows p n rows) := .same h rfl

theorem passRows {p : Nat} {r' : Run} {u : Nat} {rows : List (Nat × Row)} (h : r.Upholds κ t) : r.Upholds κ (t.passRows p r' u rows) := by
  unfold State.passRows
  split
  · exact .onCore h (fun _ hc => hc.laters)
  · exact h.fillRows
  · exact h

theorem setRun {p : Nat} {e : Engine} {r' : Option Run} (h : r.Upholds κ t) : r.Upholds κ (t.setRun p e r') :=
    .onCore h (fun _ hc => hc)

theorem grant {p u : Nat} {x : Run} (h : r.Upholds κ t) : r.Upholds κ (t.grant p x u) := by
  unfold State.grant
  split
  · exact h.setRun
  · extract_lets pad rows s1 ecc s2 s3 y
    have h1 : r.Upholds κ s1 := h.onCore fun _ hc => hc.claim
    have he : r.Upholds κ ecc.1 := by
      unfold ecc
      split
      exacts [h1, h1.eccGroup]
    have h3 : r.Upholds κ s3 := (State.Upholds.ite he he.delay : r.Upholds κ s2).passRows
    split
    · exact (h3.setRun.onCore fun _ hc => hc.finish).handOver
    · exact h3.setRun

theorem runAt {p u : Nat} {e : Engine} (h : r.Upholds κ t) : r.Upholds κ (t.runAt p u e) := by
  unfold State.runAt
  split
  · exact h
  · exact .ite h.grant h.delay.setRun

theorem serveRow {p u : Nat} {x : RemoteRead} (h : r.Upholds κ t) : r.Upholds κ (t.serveRow p u x) := by
  unfold State.serveRow
  extract_lets q c row early others data ecc s1 s2
  refine .ite ?_ (h.shiftLate.onCore fun _ hc => hc)
  have he : r.Upholds κ ecc.1 := by
    refine State.Upholds.eccRow (h.onCore fun _ hc => ?_)
    exact (Core.Keeps.ite hc.displace hc : Core.Keeps r (if early then _ else _))
  have h1 : r.Upholds κ s1 := .ite he.shiftLate he
  have h2 : r.Upholds κ s2 := h1.frame
  exact h2.onCore fun _ hc => hc

theorem serveReads {p u : Nat} {k : Bool} (h : r.Upholds κ t) : r.Upholds κ (t.serveReads p u k) :=
  h.foldl fun _ _ hu => hu.serveRow

theorem runCycle {p u below : Nat} (h : r.Upholds κ t) : r.Upholds κ (t.runCycle p u below) :=
    .ite h (.ite (.serveReads (.foldl h.serveReads (fun _ _ hu => .ite hu.runAt hu))) (.foldl h.serveReads
      (fun _ _ hu => .ite hu.runAt hu)))

theorem runTo {p n fuel : Nat} (h : r.Upholds κ t) : r.Upholds κ (State.runTo p n fuel t) := by
  induction fuel generalizing t with
  | zero => exact h
  | succ fuel ih =>
    unfold State.runTo
    split
    · exact h
    · exact .ite (ih h.effects.runCycle) h

theorem settle {p t' : Nat} (h : r.Upholds κ t) : r.Upholds κ (t.settle p t') := h.runTo.effects

theorem ahead {p t' below : Nat} (h : r.Upholds κ t) : r.Upholds κ (t.ahead p t' below) := h.settle.runCycle

theorem fresh {k fuel : Nat} (h : r.Upholds κ t) : r.Upholds κ (State.fresh k fuel t) := by
  induction fuel generalizing t with
  | zero => exact h
  | succ fuel ih =>
    unfold State.fresh
    split
    · exact .ite (ih h.settle) h
    · exact h

theorem freshDue {k : Nat} (h : r.Upholds κ t) : r.Upholds κ (t.freshDue k) := by
  unfold State.freshDue
  split
  · exact .ite h.fresh h
  · exact h

theorem freshAll {f : Packet → Bool} {n : Nat} (h : r.Upholds κ t) : r.Upholds κ (t.freshAll f n) :=
  h.foldl fun _ _ hu => by
    split
    exacts [.ite hu.fresh hu, hu]

/-- The state in which an instruction issues or traps (R74). -/
theorem issueCycle {p fuel n : Nat} {e : Engine} {plan : State → Nat → Plan} (h : r.Upholds κ t) :
    ∀ x, t.issueCycle p e plan fuel n = some x → r.Upholds κ x.1 := by
  induction fuel generalizing n with
  | zero => exact fun _ hx => nomatch hx
  | succ fuel ih =>
    intro x hx
    unfold State.issueCycle at hx
    dsimp only at hx
    split at hx
    · cases hx; exact h.ahead
    · exact ih x hx

theorem trap {p : Nat} {e : Engine} {pc cause : Nat} (h : r.Upholds κ t) : r.Upholds κ (t.trap p e pc cause) :=
    .report (.ite (.ite (.wr (.onCore h (fun _ hc => hc.onEng))) (.onCore h (fun _ hc => hc.onEng))) (.wr (.recordFirst (.onCore h
      (fun _ hc => hc.onEng)))))

theorem issueAt {p n : Nat} {e : Engine} {q : Plan} {k : Bool} (hq : q.Sound r) (h : r.Upholds Rest.nothing t) :
    r.Upholds Rest.nothing (t.issueAt p e n q k) := by
  unfold State.issueAt
  refine .ite ?_ (.grant ?_)
  all_goals
    refine hq n _ (h.clockAt.setCore (.onEng ?_))
    split
    · exact .ite h.clockAt.core.prune.cpSet h.clockAt.core.prune
    · exact h.clockAt.core.prune

/-- An engine's instruction: what holds of the accesses under way, of a trap and of the plan's own effect holds of its issue. -/
theorem issue {x : At} {e : Engine} {plan : State → Nat → Plan} (h : r.Upholds Rest.nothing t) (hq : ∀ u n, (plan u n).Sound r) :
    r.Upholds Rest.nothing (t.issue x e plan) := by
  unfold State.issue
  refine .ite h ?_
  dsimp only
  split
  · exact h.upset
  · next u n hx =>
    have hu : r.Upholds Rest.nothing u := h.upset.issueCycle _ hx
    split
    · exact (hu.clockAt.onCore fun _ hc => hc.onEng).trap
    · exact hu.issueAt (hq u n)

theorem setFreeze {p : Nat} {b : Bool} (h : r.Upholds κ t) : r.Upholds κ (t.setFreeze p b) :=
    .ite h (.ite (.onCore h.setOn (fun _ hc => hc)) (.onCore h.setOn.settle (fun _ hc => hc)))

/-! ### CoreOps -/

theorem reportResidue {p : Nat} {e : Engine} (h : r.Upholds κ t) : r.Upholds κ (t.reportResidue p e) :=
    .ite (.report (.onCore h (fun _ hc => hc.onEng))) h

/-! ### Scratchpad -/

theorem raiseCnt {p k row t' : Nat} {w : Writer} (h : r.Upholds κ t) : r.Upholds κ (t.raiseCnt p k row t' w) :=
    .ite (.onCore h (fun _ hc => hc)) h.cpCount.landEvent

theorem land {p n : Nat} {l : Landing} (h : r.Upholds κ t) : r.Upholds κ (t.land p n l) := by
  have hput : r.Upholds κ (t.onCore p fun c =>
      if l.writer = .intake then (c.later (n + 1) (.pad none l.row l.data)).filled n true
      else c.later (n + 1) (.pad none l.row l.data)) :=
    h.onCore fun _ hc => .ite hc.later.filled hc.later
  unfold State.land
  dsimp only
  split
  · exact .ite h hput
  · exact .ite h.cpCount.landEvent hput.raiseCnt
  · split
    · exact .landEvent (.cpCount (.ite (h.onCore fun _ hc => hc.filled) h))
    · exact .ite hput.raiseCnt hput

theorem admitRows {p n since fuel : Nat} (h : r.Upholds κ t) : r.Upholds κ (t.admitRows p n since fuel) := by
  induction fuel generalizing t with
  | zero => exact h
  | succ fuel ih =>
    unfold State.admitRows
    refine .ite h ?_
    split
    · exact h
    · split
      · exact h
      · split
        · exact ih h.netDrop.dropNet
        · exact ih (h.dropNet.onCore fun _ hc => hc)

/-- The state in which a landing row is granted its bank (R155). -/
theorem landCycle {p fuel n : Nat} (h : r.Upholds κ t) : ∀ x, t.landCycle p fuel n = some x → r.Upholds κ x.1 := by
  induction fuel generalizing n with
  | zero => exact fun _ hx => nomatch hx
  | succ fuel ih =>
    intro x hx
    unfold State.landCycle at hx
    dsimp only at hx
    split at hx
    · cases hx; exact h.admitRows.settle
    · split at hx
      · cases hx; exact h.admitRows.settle.runCycle
      · exact ih x hx

theorem rowLand {p : Nat} (h : r.Upholds Rest.nothing t) : r.Upholds Rest.nothing (t.rowLand p) := by
  unfold State.rowLand
  extract_lets s0
  have h0 : r.Upholds Rest.nothing s0 := h.freshAll
  split
  · exact h0.admitRows
  · next v n i hx =>
    have hu : r.Upholds Rest.nothing (v.at n) := (h0.landCycle _ hx).clockAt
    extract_lets u c
    have hc : Core.Keeps r c := hu.core
    split
    · exact hu
    · extract_lets prio c1 c2
      have hc2 : Core.Keeps r c2 := (hc.displace : Core.Keeps r c1)
      exact (hu.setCore hc2).land.admitRows

theorem reply {pk : Packet} {source : Nat} {enter : Option Nat} {rows : List (Option Row)} {t' : Nat} (h : r.Upholds κ t) :
    r.Upholds κ (t.reply pk source enter rows t') :=
    .foldl h (fun _ _ hu => hu.inject)

theorem serveFirst {p fuel n : Nat} {q : Packet} (h : r.Upholds Rest.nothing t) : r.Upholds Rest.nothing (t.serveFirst p q fuel n) := by
  induction fuel generalizing n with
  | zero => exact h
  | succ fuel ih => exact .ite ih h.ahead.clockAt

theorem remoteServe {k : Nat} {us : List Upset} (h : r.Upholds Rest.nothing t) : r.Upholds Rest.nothing (t.remoteServe k us) := by
  unfold State.remoteServe
  split
  · exact h
  · refine .ite ?_ ?_
    · exact h
    · dsimp only
      split
      · exact h.clockAt.netDrop.dropNet
      · exact .serveFirst (.reply (.onCore h.clockAt.upset.settle.dropNet (fun _ hc => hc)))

theorem replyLand {k : Nat} (h : r.Upholds Rest.nothing t) : r.Upholds Rest.nothing (t.replyLand k) := by
  unfold State.replyLand
  split
  · exact h
  · refine .ite ?_ ?_
    · exact h
    · dsimp only
      split
      · exact h.clockAt.dropNet.netDrop
      · exact .onCore h.clockAt.dropNet (fun _ hc => (by split; exacts [hc, .ite hc hc]))

theorem bayAck {k : Nat} (h : r.Upholds Rest.nothing t) : r.Upholds Rest.nothing (t.bayAck k) := by
  unfold State.bayAck
  split
  · exact h
  · refine .ite ?_ ?_
    · exact h
    · dsimp only
      split
      · exact h.clockAt.dropNet.netDrop
      · exact .onCore h.clockAt.dropNet (fun _ hc => hc)

theorem refusalNotice {k : Nat} (h : r.Upholds Rest.nothing t) : r.Upholds Rest.nothing (t.refusalNotice k) := by
  unfold State.refusalNotice
  split
  · exact h
  · refine .ite ?_ ?_
    · exact h
    · dsimp only
      split
      · exact h.clockAt.dropNet.settle.netDrop
      · split
        · exact h.clockAt.dropNet.settle
        · exact .trap (.onCore h.clockAt.dropNet.settle (fun _ hc => .same hc.countHeld rfl))

theorem padPatrol {p bank : Nat} {u : Option Upset} (h : r.Upholds κ t) : r.Upholds κ (t.padPatrol p bank u) := by
  unfold State.padPatrol
  refine .ite ?_ ?_
  · split
    · exact .onCore h.ahead (fun _ hc => hc)
    · exact .ite (.cpCount (.onCore h.ahead.upset.eccRow (fun _ hc => hc))) (.onCore h.ahead.upset.eccRow (fun _ hc => hc))
  · exact h

theorem writeCnt {p k : Nat} {v : Word} (h : r.Upholds κ t) : r.Upholds κ (t.writeCnt p k v) :=
    .ite (.onCore h.settle (fun _ hc => hc.cpSet)) h.settle

theorem writeWinCtl {p w : Nat} {v : Word} (h : r.Upholds κ t) : r.Upholds κ (t.writeWinCtl p w v) :=
    .onCore h.settle (fun _ hc => hc)

theorem coreReset {p : Nat} (h : r.Upholds κ t) : r.Upholds κ (t.coreReset p) :=
    .setOn (.onCore (.same h.settle rfl) (fun _ hc => hc.clear))

theorem pageReset {p : Nat} (h : r.Upholds κ t) : r.Upholds κ (t.pageReset p) := by
  refine h.onCore fun c hc k => ?_
  have hp := hc k
  simp only [Core.canonical, Bool.and_eq_true] at hp
  simp only [Core.canonical, Bool.and_eq_true]
  exact ⟨hp.1, rfl⟩

/-! ### Shares -/

theorem granted {arb : Nat} {share : Nat → Nat} {waiting : List Nat} {n : Nat} (h : r.Upholds κ t) :
    r.Upholds κ (t.granted arb share waiting n) := by
  unfold State.granted
  refine .ite ?_ ?_
  · exact .same h rfl
  · exact .each h (fun _ _ hu => .ite (.same hu rfl) (by split; exacts [hu, .same hu rfl]))

theorem classGrant {key cls : Nat} {both : Bool} (h : r.Upholds κ t) : r.Upholds κ (t.classGrant key cls both) := .same h rfl

/-! ### Bays -/

theorem bayRefuse {b cause : Nat} {pk : Packet} {write : Bool} (h : r.Upholds κ t) : r.Upholds κ (t.bayRefuse b cause pk write) :=
    .ite h.bump.recordFirst.report.inject h.bump.recordFirst.report

theorem setSlot {i v : Nat} (h : r.Upholds κ t) : r.Upholds κ (t.setSlot i v) := h.setPair

theorem damage {b page : Nat} (h : r.Upholds κ t) : r.Upholds κ (t.damage b page) :=
    .each h (fun _ _ hu => .ite (.each (.same hu rfl) (fun _ _ hu1 => .ite hu1.setOn hu1)) hu)

theorem bayEcc {b page row : Nat} {patrol : Bool} {byPart : Option Nat} (h : r.Upholds κ t) :
    r.Upholds κ (t.bayEcc b page row patrol byPart) := by
  unfold State.bayEcc
  dsimp only
  split
  · exact h
  · exact .ite (.bump (.setBay h (.same h.bay rfl))) (.report (.damage (.ite h.bump h.bump.recordFirst.wr.wr)))

theorem bayUpset {b page : Nat} {us : List Upset} (h : r.Upholds κ t) : r.Upholds κ (t.bayUpset b page us) := by
  refine .ite h (h.onBay fun _ hy => hy.foldl fun y u hz => ?_)
  exact (Bay.Keeps.ite hz.setRow hz : Bay.Keeps r (if u.fatal then y.setRow page u.row (upsetRow (bayRow y page u.row) u) else y))

theorem bayNext {b n : Nat} (h : r.Upholds κ t) : ∀ x, t.bayNext b n = some x → r.Upholds κ x.2 := by
  intro x hx
  unfold State.bayNext at hx
  dsimp only at hx
  split at hx
  · exact nomatch hx
  · obtain ⟨_, -, rfl⟩ := Option.map_eq_some_iff.1 hx
    exact h.granted.classGrant

/-- The state in which a Bay takes a packet (R203). -/
theorem bayTake {k : Nat} {kind : Kind} (h : r.Upholds Rest.nothing t) : ∀ x, t.bayTake k kind = some x → r.Upholds Rest.nothing x.1 := by
  intro x hx
  unfold State.bayTake at hx
  split at hx
  · exact nomatch hx
  · dsimp only at hx
    split at hx
    · split at hx
      · next j u hn =>
        split at hx
        · cases hx; exact (h.clockAt.bayNext _ hn).dropNet
        · exact nomatch hx
      · exact nomatch hx
    · exact nomatch hx

theorem bayCharge {b n : Nat} {pk : Packet} (h : r.Upholds κ t) : r.Upholds κ (t.bayCharge b n pk) := .ite h h.charge

theorem bayRows {b page : Nat} {rows : List Nat} {byPart : Option Nat} (h : r.Upholds κ t) : r.Upholds κ (t.bayRows b page rows byPart) :=
    .portRows (.bump (.each h (fun _ _ hu => hu.bayEcc)))

theorem bayRead {k : Nat} {us : List Upset} (h : r.Upholds Rest.nothing t) : r.Upholds Rest.nothing (t.bayRead k us) := by
  unfold State.bayRead
  split
  · exact h
  · next u b pk hx =>
    have hu : r.Upholds Rest.nothing u := h.bayTake _ hx
    dsimp only
    split
    · exact hu.bayCharge.bayRefuse
    · exact hu.bayCharge.bayUpset.bayRows.reply

theorem bayStore {b page row : Nat} {d : Row} (h : r.Upholds κ t) : r.Upholds κ (t.bayStore b page row d) := by
  unfold State.bayStore
  exact .bump (.setBay h (by split; exacts [.ite h.bay.setRow.setRow h.bay.setRow, h.bay.setRow]))

theorem bayWrite {k : Nat} (h : r.Upholds Rest.nothing t) : r.Upholds Rest.nothing (t.bayWrite k) := by
  unfold State.bayWrite
  split
  · exact h.freshDue
  · next u b pk hx =>
    have hu : r.Upholds Rest.nothing ((u.bayCharge b 1 pk).portRows false (bayDie b) 1) := (h.freshDue.bayTake _ hx).bayCharge.portRows
    dsimp only
    split
    · exact hu.onBay fun _ hy => hy
    · split
      · exact .bayRefuse (hu.onBay fun _ hy => hy)
      · exact .ite (hu.bayStore.onBay fun _ hy => hy) (.inject (hu.bayStore.onBay fun _ hy => hy))

theorem unitCharge {u : UnitUse} {b : Nat} {pk : Packet} (h : r.Upholds κ t) : r.Upholds κ (t.unitCharge u b pk) :=
    .ite h h.bayCharge

theorem unitRead {u : UnitUse} {b page row : Nat} (h : r.Upholds κ t) : r.Upholds κ (t.unitRead u b page row) := by
  unfold State.unitRead
  dsimp only
  split
  · exact h.unitCharge.bayRefuse
  · exact h.unitCharge.bayRows

theorem unitWrite {u : UnitUse} {b page row : Nat} {d : Row} (h : r.Upholds κ t) : r.Upholds κ (t.unitWrite u b page row d) := by
  unfold State.unitWrite
  dsimp only
  split
  · exact h.unitCharge.portRows.bayRefuse
  · exact h.unitCharge.portRows.bayStore

theorem atRow {l : List Nat} {n : Nat} {f : State → Nat → Nat → Nat → State} (h : r.Upholds κ t)
    (hf : ∀ a b c u, r.Upholds κ u → r.Upholds κ (f u a b c)) : r.Upholds κ (t.atRow l n f) := by
  unfold State.atRow
  split
  · exact hf _ _ _ _ h
  · exact h

theorem listRead {u : UnitUse} {slots : List Nat} {a n : Nat} (h : r.Upholds κ t) : r.Upholds κ (t.listRead u slots a n) :=
  h.each fun _ _ hu => hu.atRow fun _ _ _ _ hv => hv.unitRead

theorem listReadBytes {u : UnitUse} {slots : List Nat} {x n : Nat} (h : r.Upholds κ t) : r.Upholds κ (t.listReadBytes u slots x n) :=
    h.listRead

theorem listPutRow {u : UnitUse} {slots : List Nat} {a : Nat} {d : Row} (h : r.Upholds κ t) : r.Upholds κ (t.listPutRow u slots a d) :=
  h.atRow fun _ _ _ _ hv => hv.unitWrite

theorem listPut {u : UnitUse} {slots : List Nat} {x : Nat} {bs : List Byte} (h : r.Upholds κ t) : r.Upholds κ (t.listPut u slots x bs) :=
    .each h (fun _ _ hu => hu.listPutRow)

theorem bayRefresh {b : Nat} (h : r.Upholds κ t) : r.Upholds κ (t.bayRefresh b) := .ite (.onBay h (fun _ hy => hy)) h

theorem bayPatrol {b : Nat} {u : Option Upset} (h : r.Upholds κ t) : r.Upholds κ (t.bayPatrol b u) :=
    .ite (.onBay h.bayUpset.bayEcc (fun _ hy => hy)) h

theorem freeSlot (h : r.Upholds κ t) : r.Upholds κ (t.freeSlot).2 := h.draw

/-- A page taken from a Bay leaves its memory as it is (R213). -/
theorem takePage {y : Bay} (hy : y.Keeps r) : ∀ x, y.takePage = some x → x.2.Keeps r := by
  intro x hx
  unfold Bay.takePage at hx
  split at hx
  · cases hx; exact hy
  · dsimp only at hx
    split at hx
    · cases hx; exact hy
    · exact nomatch hx

theorem alloc {a : AllocArg} (h : r.Upholds κ t) : r.Upholds κ (t.alloc a).1 := by
  unfold State.alloc
  split
  · exact h
  · split
    · exact h
    · split
      · exact h
      · split
        · exact h
        · next page y hy =>
          split
          · exact h
          · dsimp only
            split
            · exact h
            · have hz : Bay.Keeps r y := takePage h.bay _ hy
              exact .set (.set (.ite (h.freeSlot.setBay hz.setOwn).setSlot (h.freeSlot.setBay hz.setOwn).setSlot.setSlot))

theorem endMove {b result : Nat} (h : r.Upholds κ t) : r.Upholds κ (t.endMove b result) := by
  unfold State.endMove
  split
  · exact h
  · exact .ite (.done (.set (.set (.setSlot (.onBay h (fun _ hy => hy)))))) h

theorem unexcuse {b page : Nat} (h : r.Upholds κ t) : r.Upholds κ (t.unexcuse b page) := .same h rfl

theorem freeSlotOp {i : Nat} (h : r.Upholds κ t) : r.Upholds κ (t.freeSlotOp i).1 := by
  unfold State.freeSlotOp
  split
  · exact h
  · extract_lets g b page s0 v v1 part s1 s2
    have h0 : r.Upholds κ s0 := by
      unfold s0
      split
      · split
        exacts [h.endMove, h]
      · exact h
    have h1 : r.Upholds κ s1 := (h0.setSlot.onBay fun _ hy => hy.setOwnBit).unexcuse
    exact (h1.frame : r.Upholds κ s2).set

theorem setNext {i next : Nat} (h : r.Upholds κ t) : r.Upholds κ (t.setNext i next).1 := by
  unfold State.setNext
  split
  · exact h.setSlot
  · exact h

theorem setFill {i fill : Nat} (h : r.Upholds κ t) : r.Upholds κ (t.setFill i fill).1 := by
  unfold State.setFill
  split
  · exact h.setSlot
  · exact h

theorem freeList {head : Nat} (h : r.Upholds κ t) : r.Upholds κ (t.freeList head) := .each h (fun _ _ hu => hu.freeSlotOp)

theorem mapCmd {op : Nat} {a0 a1 : Word} (h : r.Upholds κ t) : r.Upholds κ (t.mapCmd op a0 a1).1 := by
  unfold State.mapCmd
  dsimp only
  split
  · exact h.alloc
  · exact h.freeSlotOp
  · exact h.setNext
  · exact h.setFill
  · exact h

theorem mapRun {acc op : Nat} (h : r.Upholds κ t) : r.Upholds κ (t.mapRun acc op) := h.mapCmd.wrAcc

theorem releasePoint {n : Nat} (h : r.Upholds κ t) : r.Upholds κ (t.releasePoint n) := .same h rfl

theorem pageRelease {k : Nat} (h : r.Upholds κ t) : r.Upholds κ (t.pageRelease k) := by
  unfold State.pageRelease
  split
  · exact h
  · exact .ite h (.ite (.done (.set (.onBay (.onBay (.same h rfl) (fun _ hy => hy)) (fun _ hy => hy)))) (.set (.onBay (.same h rfl)
      (fun _ hy => hy))))

theorem moveGo {b : Nat} (h : r.Upholds κ t) : r.Upholds κ (t.moveGo b) := by
  unfold State.moveGo
  exact .ite (.setOn (.set (.set (.setSlot (.onBay h (fun _ hy => .same hy.takeNamed rfl)))))) (.ite h.set.setOn h.set)

theorem moveCopy {b : Nat} (h : r.Upholds κ t) : r.Upholds κ (t.moveCopy b) := by
  unfold State.moveCopy
  split
  · exact h
  · exact .ite (.ite (.set (.set (.bump (.onBay h.bayEcc (fun _ hy => .same hy.setRow rfl))))) (.set (.bump (.onBay h.bayEcc
      (fun _ hy => .same hy.setRow rfl))))) h

theorem switchPage {b : Nat} (h : r.Upholds κ t) : r.Upholds κ (t.switchPage b) := by
  unfold State.switchPage
  split
  · exact h
  · extract_lets v s1 s2
    have h1 : r.Upholds κ s1 := h.setSlot.onBay fun _ hy => hy
    exact (h1.frame : r.Upholds κ s2).set.set.bump

theorem moveSwitch {b : Nat} (h : r.Upholds κ t) : r.Upholds κ (t.moveSwitch b) := .ite h.switchPage h

/-! ### Intake -/

theorem rebuildGroup {slots : List Nat} {p : Package} {g : Nat} {lost : List Nat} (h : r.Upholds κ t) :
    r.Upholds κ (t.rebuildGroup slots p g lost) :=
    .each h (fun _ _ hu => .each hu (fun _ _ hu1 => hu1.listPutRow))

theorem intake {slots home : List Nat} {p : Package} (h : r.Upholds κ t) :
    ∀ x, t.intake slots home p = .ok x → r.Upholds κ x.1 := by
  refine foldl_keeps (fun a : Except Nat (State × Nat) => ∀ x, a = .ok x → r.Upholds κ x.1) (fun a k ha => ?_) _ _ ?_
  · intro x hx
    dsimp only at hx
    split at hx
    · exact nomatch hx
    · split at hx
      · exact nomatch hx
      · cases hx; exact (ha _ rfl).each fun _ _ hu => hu.listPut
  · rintro _ ⟨⟩; exact h

/-! ### SendEngine -/

theorem sendRows {t' : Nat} {rows : List Packet} (h : r.Upholds κ t) : r.Upholds κ (t.sendRows t' rows) :=
    .foldl h (fun _ _ hu => hu.inject)

/-! ### LoadEngine -/

theorem sendRead {p e0 tag n sb : Nat} {pk : Packet} {t' : Nat} (h : r.Upholds κ t) : r.Upholds κ (t.sendRead p e0 tag n sb pk t') := by
  unfold State.sendRead
  exact .inject (.onCore h (fun _ hc => hc))

/-! ### MatrixEngine -/

theorem clearAll {p a ref : Nat} (h : r.Upholds κ t) : r.Upholds κ (t.clearAll p a ref) :=
    .each (.setCore h (.same h.core rfl)) (fun _ _ hu => hu.note)

/-! ### VectorEngine -/

theorem sendPart {q : Part130} {p : Nat} (h : r.Upholds κ t) : r.Upholds κ (t.sendPart q p) := by
  unfold State.sendPart
  split
  · exact .same h rfl
  · exact h.netDrop

/-! ### Beat -/

theorem startCore {n p : Nat} (h : r.Upholds κ t) : r.Upholds κ (t.startCore n p) := by
  unfold State.startCore
  exact .onCore h.settle (fun _ hc => hc)

theorem beatCnt {n i k : Nat} (h : r.Upholds κ t) : r.Upholds κ (t.beatCnt n i k) := h.bump

theorem beatFigures {n : Nat} (h : r.Upholds κ t) : r.Upholds κ (t.beatFigures n) :=
    .ite (.set (.beatCnt (.ite h.beatCnt.beatCnt h))) (.ite h.beatCnt.beatCnt h)

theorem abandon {n : Nat} (h : r.Upholds κ t) : r.Upholds κ (t.abandon n) :=
    .set (.setOn (.setOn (.setPart (.each h (fun _ _ hu => .onCore hu (fun _ hc1 => hc1))))))

theorem tickPart {n : Nat} (h : r.Upholds κ t) : r.Upholds κ (t.tickPart n) :=
    .ite (.releasePoint (.ite (.beatCnt (.ite h.abandon h)) (.ite h.abandon h))) (.ite (.beatCnt (.ite h.abandon h)) (.ite h.abandon h))

theorem beginTick {number : Nat} (h : r.Upholds Rest.nothing t) : r.Upholds Rest.nothing (t.beginTick number) :=
    .each (.refillCredits (.anew (.each h (fun _ _ hu => hu.runTo.effects)) rfl)) (fun _ _ hu => hu.tickPart)

theorem tickLoad (h : r.Upholds κ t) : r.Upholds κ (t.tickLoad) := .ite h.raise h.setOn

theorem beginWorking {n step : Nat} {second : Bool} (h : r.Upholds κ t) : r.Upholds κ (t.beginWorking n step second) :=
    .each h.setPair.setPair.setOn.setOn.set.setPart (fun _ _ hu => hu.startCore)

theorem beginRest {n : Nat} (h : r.Upholds κ t) : r.Upholds κ (t.beginRest n) := by
  unfold State.beginRest
  exact h.setPair.setOn.setOn.set.onPart

theorem beginHold {n : Nat} (h : r.Upholds κ t) : r.Upholds κ (t.beginHold n) := h.setPair.setOn.setOn.setOn.set.onPart.beatCnt

theorem endIntervals {n : Nat} (h : r.Upholds κ t) : r.Upholds κ (t.endIntervals n) := by
  unfold State.endIntervals
  exact h.setOn.setOn.setOn.setOn.setOn.set.onPart

theorem closeInterval {n : Nat} (h : r.Upholds κ t) : r.Upholds κ (t.closeInterval n) := by
  unfold State.closeInterval
  dsimp only
  split
  · exact .onPart (.each h.beatFigures.beatCnt (fun _ _ hu => .onCore hu (fun _ hc1 => hc1)))
  · exact h.beatCnt
  · exact h

theorem overrunAt {n cause p : Nat} {e : Engine} (h : r.Upholds κ t) : r.Upholds κ (t.overrunAt n cause p e) :=
    .report (.onPart (.beatCnt (.beatFigures (.ite h h.recordFirst.setPair.partEvt))))

theorem settleAll {n t' : Nat} (h : r.Upholds κ t) : r.Upholds κ (t.settleAll n t') := .each h (fun _ _ hu => hu.settle)

theorem planOverrun {n p : Nat} {e : Engine} {since : Nat} (h : r.Upholds Rest.nothing t) : r.Upholds Rest.nothing (t.planOverrun n p e since) := by
  unfold State.planOverrun
  refine .ite ?_ ?_
  · exact h
  · split
    · exact h
    · dsimp only
      split
      · exact h
      · exact h.settleAll.clockAt.reportResidue.overrunAt

theorem beatDecision {n : Nat} (h : r.Upholds Rest.nothing t) : r.Upholds Rest.nothing (t.beatDecision n) := by
  unfold State.beatDecision
  refine .ite ?_ ?_
  · refine .ite ?_ ?_
    · exact h.clockAt.onPart
    · refine .ite ?_ ?_
      · exact h.clockAt.set
      · split
        · exact h.clockAt.settle.overrunAt
        · exact h.clockAt
  · exact h

theorem beatStart {n : Nat} (h : r.Upholds κ t) : r.Upholds κ (t.beatStart n) := .ite h (.ite h.raise h.setOn)

theorem beatStop {n : Nat} (h : r.Upholds κ t) : r.Upholds κ (t.beatStop n) := .ite h.setOn.onPart h.setOn

theorem holdSet {n : Nat} (h : r.Upholds κ t) : r.Upholds κ (t.holdSet n) := h.setOn

theorem holdClear {n : Nat} (h : r.Upholds κ t) : r.Upholds κ (t.holdClear n) := h.setOn.onPart

theorem closeWindow {n : Nat} (h : r.Upholds κ t) : r.Upholds κ (t.closeWindow n) := by
  unfold State.closeWindow
  exact .onPart (.incr (.each h (fun _ _ hu => hu.set.set)))

theorem startPartition {n : Nat} (h : r.Upholds κ t) : r.Upholds κ (t.startPartition n) := by
  unfold State.startPartition
  exact .onPart (.each h.setOn.setOn.setPair.set (fun _ _ hu => hu.set))

/-! ### Links -/

theorem setPort {p : Nat} {x : Port} (h : r.Upholds κ t) : r.Upholds κ (t.setPort p x) := .same h rfl

theorem onPort {p : Nat} {f : Port → Port} (h : r.Upholds κ t) : r.Upholds κ (t.onPort p f) := h.setPort

theorem portDown {p : Nat} {phase : PortPhase} (h : r.Upholds κ t) : r.Upholds κ (t.portDown p phase) := h.onPort.setOn.set

theorem writePortCtl {p : Nat} {v : Word} (h : r.Upholds κ t) : r.Upholds κ (t.writePortCtl p v) :=
    .ite h.setOn.set (.ite h.setOn.set.portDown (.ite h.setOn.set.portDown.setOn h.setOn.set))

theorem portTrain {p offered works : Nat} (h : r.Upholds κ t) : r.Upholds κ (t.portTrain p offered works) := by
  unfold State.portTrain
  refine .ite ?_ ?_
  · dsimp only
    split
    · exact h.setOn.onPort
    · exact h.setOn.onPort
  · exact h

theorem portRetry {p : Nat} (h : r.Upholds κ t) : r.Upholds κ (t.portRetry p) := .ite h.onPort h

theorem lockLoss {p : Nat} (h : r.Upholds κ t) : r.Upholds κ (t.lockLoss p) := .ite h.portDown.setBit h

theorem setConn {p m : Nat} {c : Conn} (h : r.Upholds κ t) : r.Upholds κ (t.setConn p m c) := .same h rfl

theorem depart {p : Nat} {q : Queued} (h : r.Upholds κ t) : r.Upholds κ (t.depart p q) := by
  unfold State.depart
  refine .ite ?_ ?_
  · exact h.emit
  · split
    · exact h
    · exact .ite h.setConn h.setConn.emit

theorem nextFrame {p : Nat} (h : r.Upholds κ t) : ∀ x, t.nextFrame p = some x → r.Upholds κ x.2 := by
  intro x hx
  unfold State.nextFrame at hx
  dsimp only at hx
  split at hx
  · cases hx; exact h
  · split at hx
    · exact nomatch hx
    · obtain ⟨_, -, rfl⟩ := Option.map_eq_some_iff.1 hx
      exact .ite h.granted h.granted.classGrant

theorem drain {p fuel : Nat} (h : r.Upholds κ t) : r.Upholds κ (State.drain p fuel t) := by
  induction fuel generalizing t with
  | zero => exact h
  | succ fuel ih =>
    unfold State.drain
    split
    · exact h
    · next hx =>
      have hu := h.nextFrame _ hx
      split
      · exact hu
      · exact ih hu.onPort.depart

theorem drainEgress {p : Nat} (h : r.Upholds κ t) : r.Upholds κ (t.drainEgress p) := h.drain

theorem send {p : Nat} {q : Queued} (h : r.Upholds κ t) : r.Upholds κ (t.send p q) := h.onPort.drainEgress

theorem wire {p : Nat} {f : Frame} (h : r.Upholds κ t) : r.Upholds κ (t.wire p f) := h.send

theorem sendSeq {p m : Nat} {f : Frame} (h : r.Upholds κ t) : r.Upholds κ (t.sendSeq p m f) := by
  unfold State.sendSeq
  split
  · exact h
  · exact h.send

theorem sendAck {p m : Nat} {nak : Bool} (h : r.Upholds κ t) : r.Upholds κ (t.sendAck p m nak) := by
  unfold State.sendAck
  split
  · exact h
  · exact h.setConn.wire

theorem ackTick (h : r.Upholds κ t) : r.Upholds κ (t.ackTick) := .each h (fun _ _ hu => .ite hu.sendAck hu)

theorem sendTo {m kind part word : Nat} {payload : List Byte} (h : r.Upholds κ t) : r.Upholds κ (t.sendTo m kind part word payload).1 := by
  unfold State.sendTo
  split
  · exact h
  · exact h.sendSeq

theorem sendHello {p : Nat} (h : r.Upholds κ t) : r.Upholds κ (t.sendHello p) := h.wire

theorem portLinkUp {p : Nat} (h : r.Upholds κ t) : r.Upholds κ (t.portLinkUp p) := by
  unfold State.portLinkUp
  split
  · exact h.onPort.setOn.set.sendHello.drainEgress
  · exact h

theorem helloTimer {p : Nat} (h : r.Upholds κ t) : r.Upholds κ (t.helloTimer p) := .ite h.sendHello h

/-- A register of an accessor's own copies written. -/
theorem wrBanked {n : Nat} {w : Word} (h : r.Upholds κ t) : r.Upholds κ { t with banked := wrAt bankReset t.banked n w } := by
  refine ⟨fun k => ?_, h.floor, h.rest⟩
  obtain ⟨h1, h2, h3⟩ := State.canonical_iff.1 (h.canonical k)
  exact State.canonical_iff.2 ⟨h1, canon_wrAt bankReset h2 n w, h3⟩

theorem owDrop {n k : Nat} (h : r.Upholds κ t) : r.Upholds κ (t.owDrop n k) := (wrBanked h).counts

theorem connFail {p m : Nat} (h : r.Upholds κ t) : r.Upholds κ (t.connFail p m) := by
  unfold State.connFail
  split
  · exact h
  · exact .each (.setBit (.bump (.setPort (.same h rfl)))) (fun _ _ hu => .ite hu hu.owDrop)

theorem resendFrom {p m : Nat} {fs keep : List Unacked} (h : r.Upholds κ t) : r.Upholds κ (t.resendFrom p m fs keep) := by
  unfold State.resendFrom
  split
  · exact h
  · exact .ite h.connFail (.each h.setConn.bump (fun _ _ hu => hu.wire))

theorem sendHeld {p m fuel : Nat} (h : r.Upholds κ t) : r.Upholds κ (t.sendHeld p m fuel) := by
  induction fuel generalizing t with
  | zero => exact h
  | succ fuel ih =>
    unfold State.sendHeld
    split
    · exact h
    · split
      · exact .ite h (ih h.setConn.send)
      · exact h

theorem ackTo {p m a : Nat} {nak : Bool} (h : r.Upholds κ t) : r.Upholds κ (t.ackTo p m a nak) := by
  unfold State.ackTo
  split
  · exact h
  · exact .ite (.sendHeld (.ite h.setConn.resendFrom h.setConn)) h

theorem rtoExpire {p m : Nat} (h : r.Upholds κ t) : r.Upholds κ (t.rtoExpire p m) := by
  unfold State.rtoExpire
  split
  · exact h
  · exact .ite h h.resendFrom

theorem flowControl {p prio : Nat} (h : r.Upholds κ t) : r.Upholds κ (t.flowControl p prio) :=
    .ite h.setPort.bump.emit (.ite h.setPort.bump.emit h)

theorem accept {p : Nat} {f : Frame} (h : r.Upholds κ t) : r.Upholds κ (t.accept p f) := .flowControl (.same h rfl)

theorem receiveSeq {p : Nat} {f : Frame} (h : r.Upholds κ t) : r.Upholds κ (t.receiveSeq p f) := by
  unfold State.receiveSeq
  split
  · exact h
  · exact .ite h.sendAck (.ite (.sendAck (.ite h.setConn h.setConn.accept)) (.ite h.setConn h.setConn.accept))

theorem frameReceive {p : Nat} {a : Arrival} (h : r.Upholds κ t) : r.Upholds κ (t.frameReceive p a) := by
  unfold State.frameReceive
  refine .ite h ?_
  extract_lets s0 s1 f s2
  have h1 : r.Upholds κ s1 := .ite h.bump.bump h.bump.bump.setBit
  have h2 : r.Upholds κ s2 := .ite h1 h1.ackTo
  exact .ite h1.bump (.ite h1.bump (.ite h1 (.ite h2.receiveSeq (.ite h2.accept h2))))

theorem pfcReceive {p prio : Nat} {pause : Bool} (h : r.Upholds κ t) : r.Upholds κ (t.pfcReceive p prio pause) :=
    .ite h h.setPort.bump.drainEgress

theorem rxDone {k : Nat} (h : r.Upholds κ t) : r.Upholds κ (t.rxDone k) := by
  unfold State.rxDone
  split
  · exact .flowControl (.same h rfl)
  · exact h

theorem helloReceive {k : Nat} (h : r.Upholds κ t) : r.Upholds κ (t.helloReceive k) := by
  unfold State.helloReceive
  split
  · exact h
  · refine .ite ?_ ?_
    · exact h.rxDone.setBit
    · split
      · exact h.rxDone.setBit
      · split
        · exact h.rxDone.setConn
        · exact h.rxDone.setConn

theorem ackReceive {k : Nat} (h : r.Upholds κ t) : r.Upholds κ (t.ackReceive k) := by
  unfold State.ackReceive
  split
  · exact h
  · exact h.rxDone.ackTo

theorem passRun {l : List (Nat × Packet)} (h : r.Upholds κ t) : r.Upholds κ (t.passRun l).1 := by
  induction l generalizing t with
  | nil => exact h
  | cons x l ih =>
    unfold State.passRun
    split
    · exact ih h.passPort
    · exact h

theorem rowsClose {ch : Nat} (h : r.Upholds Rest.nothing t) : r.Upholds Rest.nothing (t.rowsClose ch) := by
  unfold State.rowsClose
  extract_lets s
  have hs : r.Upholds Rest.nothing s := h.freshAll
  split
  · exact hs
  · refine .ite hs ?_
    extract_lets rows run idx full n s1 s2
    have h2 : r.Upholds Rest.nothing s2 := hs.clockAt.passRun.frame
    exact .ite h2.sendSeq.sendSeq h2.sendSeq

theorem linkRow {io part p row : Nat} {d : Row} (h : r.Upholds κ t) : r.Upholds κ (t.linkRow io part p row d) :=
    h.inject

theorem rowsReceive {k : Nat} (h : r.Upholds κ t) : r.Upholds κ (t.rowsReceive k) := by
  unfold State.rowsReceive
  split
  · exact h
  · refine .ite ?_ ?_
    · exact h.rxDone.bump
    · exact .each (.ite (.same h.rxDone rfl) h.rxDone) (fun _ _ hu => (by split; exacts [.ite hu.bump hu.linkRow, hu.bump]))

theorem toPs {x : Int} (h : r.Upholds κ t) : r.Upholds κ (t.toPs x).2 := by
  unfold State.toPs
  split
  · exact h
  · exact h.draw

theorem align {p : Nat} {off : Int} (h : r.Upholds κ t) : r.Upholds κ (t.align p off) := by
  unfold State.align
  extract_lets ok y good bad s1 s2
  have h1 : r.Upholds κ s1 := h.frame
  have h2 : r.Upholds κ s2 := h1.setOn
  exact .ite (.ite (.setOn (h2.frame)) h2) (.ite h1.setOn.setBit h1)

theorem tryNumber (h : r.Upholds κ t) : r.Upholds κ (t.tryNumber) := .ite h.setPair.tickLoad h

theorem timeSend {p m code : Nat} (h : r.Upholds κ t) : r.Upholds κ (t.timeSend p m code) := by
  unfold State.timeSend
  dsimp only
  split
  · exact h.draw.wire
  · exact h.draw.setConn.wire

theorem timeReceive {k : Nat} {m : TimeMsg} (h : r.Upholds κ t) : r.Upholds κ (t.timeReceive k m) := by
  unfold State.timeReceive
  split
  · exact h
  · extract_lets s1 role
    have h1 : r.Upholds κ s1 := h.rxDone
    split
    · exact .ite (.timeSend (.set (h1.frame))) h1
    · exact .ite h1.timeSend h1
    · refine .ite h1 ?_
      extract_lets delay off a b diff s2 _ s3 s4
      have h2 : r.Upholds κ s2 := h1.toPs.toPs.set.set
      have h3 : r.Upholds κ s3 := h2.frame
      exact (State.Upholds.ite h3.setOn h3 : r.Upholds κ s4).align.tryNumber

theorem bedsync (h : r.Upholds κ t) : r.Upholds κ (t.bedsync) := .ite (.setOn (.same h rfl)) h

theorem timeMark (h : r.Upholds Rest.nothing t) : r.Upholds Rest.nothing (t.timeMark) := by
  unfold State.timeMark
  split
  · refine .ite ?_ ?_
    · exact .emit (.anew (h.each (fun _ _ hu => (by split; exacts [hu.timeSend, hu]))) rfl)
    · exact .each h (fun _ _ hu => (by split; exacts [hu.timeSend, hu]))
  · exact .tryNumber (.ite (.setOn (.ite (.setBit (.setOn (.same h rfl))) (.same h rfl))) (.ite (.setBit (.setOn (.same h rfl)))
      (.same h rfl)))
  · exact h

/-! ### Output -/

theorem setWindow {n w : Nat} {x : Window} (h : r.Upholds κ t) : r.Upholds κ (t.setWindow n w x) := .same h rfl

theorem hostRecord {n addr : Nat} {bytes : List Byte} (h : r.Upholds κ t) : r.Upholds κ (t.hostRecord n addr bytes) := by
  unfold State.hostRecord
  split
  · exact h.owDrop
  · exact .ite h.emit (.ite h.sendTo h.owDrop)

theorem writeOut {n : Nat} {r' : OutRec} (h : r.Upholds κ t) : r.Upholds κ (t.writeOut n r') := h.setWindow.hostRecord

theorem deliver {n : Nat} {r' : OutRec} (h : r.Upholds κ t) : r.Upholds κ (t.deliver n r') :=
    .ite h.owDrop (.ite h.writeOut (.ite h.owDrop h.onPart))

theorem drainOut {n cons : Nat} (h : r.Upholds κ t) : r.Upholds κ (t.drainOut n cons) := by
  unfold State.drainOut
  split
  · exact h
  · exact .ite (.ite h.setWindow h) (.writeOut (.onPart (.ite h.setWindow h)))

theorem closeOut {n w : Nat} (h : r.Upholds κ t) : r.Upholds κ (t.closeOut n w) :=
    .ite h.onPart.setWindow h.onPart.setWindow.owDrop

theorem writeOwCtl {n w : Nat} {v : Word} (h : r.Upholds κ t) : r.Upholds κ (t.writeOwCtl n w v) :=
    .ite (.ite h h.closeOut) (.ite h.setWindow h.setWindow)

theorem resetWindows {n : Nat} (h : r.Upholds κ t) : r.Upholds κ (t.resetWindows n) :=
  .same (wrBanked (h.each fun _ _ hu => .ite hu.closeOut hu)) rfl

/-! ### ReqTable -/

theorem setReqPair {e w v : Nat} (h : r.Upholds κ t) : r.Upholds κ (t.setReqPair e w v) := h.setPair

theorem setDrafts {e v : Nat} (h : r.Upholds κ t) : r.Upholds κ (t.setDrafts e v) := .each h (fun _ _ hu => hu.wr)

theorem onReq {e : Nat} {f : ReqSt → ReqSt} (h : r.Upholds κ t) : r.Upholds κ (t.onReq e f) := .same h rfl

theorem setBalance {t' : Nat} {v : Int} (h : r.Upholds κ t) : r.Upholds κ (t.setBalance t' v) := h.setPair

theorem debit {e amount : Nat} (h : r.Upholds κ t) : r.Upholds κ (t.debit e amount) :=
    .set (.set (.onReq (.setBalance (.same h rfl))))

theorem refill {n : Nat} (h : r.Upholds κ t) : r.Upholds κ (t.refill n) := by
  unfold State.refill
  extract_lets cap b s1
  have h1 : r.Upholds κ s1 := .ite h h.setBalance
  exact (h1.set (f := tenDebitLast n)).set (f := tenDebit n) |>.frame

theorem swapTenant {t' : Nat} (h : r.Upholds κ t) : r.Upholds κ (t.swapTenant t') := .each h.set (fun _ _ hu => hu.wr)

theorem swapTenants {n : Nat} (h : r.Upholds κ t) : r.Upholds κ (t.swapTenants n) := by
  unfold State.swapTenants
  exact .ite h.done.raise (.bump (.each h.done (fun _ _ hu => hu.swapTenant)))

theorem tenantWindow {n : Nat} (h : r.Upholds κ t) : r.Upholds κ (t.tenantWindow n) := by
  unfold State.tenantWindow
  extract_lets s1 s2
  have h1 : r.Upholds κ s1 := h.each fun _ _ hu => hu.refill
  have h2 : r.Upholds κ s2 := h1.frame
  exact .ite h2.swapTenants h2

theorem onPfx {h' : Nat} {f : Pfx → Pfx} (h : r.Upholds κ t) : r.Upholds κ (t.onPfx h' f) := by
  unfold State.onPfx
  split
  · exact .same h rfl
  · exact h

theorem adpRefs {h' epoch : Nat} {f : Nat → Nat} (h : r.Upholds κ t) : r.Upholds κ (t.adpRefs h' epoch f) := by
  unfold State.adpRefs
  split
  · exact .same h rfl
  · exact h

theorem listStore {slots : List Nat} {r' d : Nat} (h : r.Upholds κ t) : r.Upholds κ (t.listStore slots r' d) := h.listPutRow

theorem writeIndex {n e : Nat} {valid : Bool} (h : r.Upholds κ t) : r.Upholds κ (t.writeIndex n e valid) :=
    .each h (fun _ _ hu => hu.listStore)

/-- Of a search for free pages or slots, that the state it leaves upholds where it finds enough. -/
structure FindsIn (r : State) (κ : Rest → Rest) {α : Type} (x : Option (α × State)) : Prop where
  found : ∀ y, x = some y → r.Upholds κ y.2

theorem allocOwn {n e left j head last : Nat} (h : r.Upholds κ t) : FindsIn r κ (t.allocOwn n e left j head last) := by
  induction left generalizing t j head last with
  | zero => exact ⟨by rintro _ ⟨⟩; exact h⟩
  | succ left ih =>
    refine ⟨fun x hx => ?_⟩
    unfold State.allocOwn at hx
    split at hx
    · exact nomatch hx
    · dsimp only at hx
      split at hx
      · exact (ih h.alloc).found x hx
      · exact nomatch hx

theorem freeOwn {n e : Nat} (h : r.Upholds κ t) : r.Upholds κ (t.freeOwn n e) :=
    .ite (.onReq (.writeIndex (.each h (fun _ _ hu => hu.freeSlotOp)))) h

theorem settleReq {n e : Nat} (h : r.Upholds κ t) : r.Upholds κ (t.settleReq n e) := .ite h.freeOwn h

theorem ship {m : Nat} {msg : List Byte} (h : r.Upholds κ t) : r.Upholds κ (t.ship m msg).1 := h.sendTo

theorem answer {e : Nat} {p : ShipPeer} {group status : Nat} (h : r.Upholds κ t) : r.Upholds κ (t.answer e p group status) :=
    h.ship

theorem sendAbort {e : Nat} {p : ShipPeer} (h : r.Upholds κ t) : r.Upholds κ (t.sendAbort e p) := h.ship

theorem dropShips {e : Nat} (h : r.Upholds κ t) : r.Upholds κ (t.dropShips e) := .same h rfl

theorem abortShip {e : Nat} {named : Bool} (h : r.Upholds κ t) : r.Upholds κ (t.abortShip e named) :=
    .each h.dropShips (fun _ _ hu => hu.sendAbort)

theorem lapse {n e : Nat} (h : r.Upholds κ t) : r.Upholds κ (t.lapse n e) := h.onPart

theorem unadmit {e : Nat} (h : r.Upholds κ t) : r.Upholds κ (t.unadmit e) :=
    .ite (.onReq (.ite (.adpRefs (.ite h.set.set.onPfx h.set.set)) (.ite h.set.set.onPfx h.set.set))) (.ite h.onPfx h)

theorem leave {n e code reason : Nat} (h : r.Upholds κ t) : r.Upholds κ (t.leave n e code reason) :=
    .ite h.unadmit.abortShip.lapse.set.set.onReq.partEvt.settleReq h

theorem reindex {slot : Nat} (h : r.Upholds κ t) : r.Upholds κ (t.reindex slot) := by
  unfold State.reindex
  exact .each h (fun _ _ hu => .ite (by split; exacts [(by split; exacts [hu.listStore, hu]), hu]) hu)

theorem moveIndexed {b : Nat} {f : State → State} (h : r.Upholds κ t) (hf : ∀ u, r.Upholds κ u → r.Upholds κ (f u)) :
    r.Upholds κ (t.moveIndexed b f) := .ite (hf t h).reindex (hf t h)

theorem switchMoves {n : Nat} (h : r.Upholds κ t) : r.Upholds κ (t.switchMoves n) :=
    .each h (fun _ _ hu => .ite (.moveIndexed hu (fun _ hu1 => hu1.switchPage)) hu)

/-! ### Requests -/

theorem submit {e : Nat} (h : r.Upholds κ t) : r.Upholds κ (t.submit e) := by
  unfold State.submit
  extract_lets cap s1 s2 s3
  have h2 : r.Upholds κ s2 := (h.set.set.set.set.wr : r.Upholds κ s1).setReqPair.each fun _ _ hu => hu.wr
  have h3 : r.Upholds κ s3 := h2.onReq
  exact .ite h3.onPfx h3

theorem reqCmd {op e arg : Nat} (h : r.Upholds κ t) : r.Upholds κ (t.reqCmd op e arg).1 := by
  unfold State.reqCmd
  split
  · exact h
  · split
    · exact h
    · dsimp only
      split
      · exact h
      · split
        · split
          · exact h
          · split
            · exact h
            · split
              · exact h
              · exact h.submit
        · split
          · exact h.leave
          · exact h
        · split
          · exact h.set.set.lapse
          · exact h
        · split
          · exact h.set
          · exact h
        · split
          · exact h
          · split
            · exact h.set
            · exact h
        · split
          · exact h.setReqPair
          · exact h

theorem reqRun {acc op e : Nat} (h : r.Upholds κ t) : r.Upholds κ (t.reqRun acc op e) := h.reqCmd.wrAcc

theorem tenantSwapRequest {n : Nat} (h : r.Upholds κ t) : r.Upholds κ (t.tenantSwapRequest n) := h.setOn

theorem reqCount {n i k : Nat} (h : r.Upholds κ t) : r.Upholds κ (t.reqCount n i k) := h.bump

theorem admitOne {n e t0 : Nat} (h : r.Upholds κ t) : ∀ u, t.admitOne n e t0 = some u → r.Upholds κ u := by
  intro u hu
  unfold State.admitOne at hu
  extract_lets need k j mark at hu
  split at hu
  · exact nomatch hu
  · next hx =>
    extract_lets s1 s2 s3 s4 at hu
    cases hu
    have h1 : r.Upholds κ s1 := (h.allocOwn.found _ hx).set.set.set.set
    have h2 : r.Upholds κ s2 := .ite h1.onPfx h1
    have h3 : r.Upholds κ s3 := by
      refine .ite ?_ h2
      split
      exacts [h2.set.adpRefs, h2]
    exact (h3.onReq : r.Upholds κ s4).set.writeIndex.reqCount

theorem admitEach {n t0 : Nat} {l : List Nat} (h : r.Upholds κ t) : r.Upholds κ (t.admitEach n t0 l) := by
  induction l generalizing t with
  | nil => exact h
  | cons e l ih =>
    unfold State.admitEach
    split
    · exact ih h.leave.reqCount
    · split
      · next hx => exact ih (h.admitOne _ hx)
      · exact h
    · exact ih h
    · exact h

theorem admission {n t0 : Nat} (h : r.Upholds κ t) : r.Upholds κ (t.admission n t0) := .ite h.admitEach h

theorem enter {n cur e m : Nat} {x : NextStep} {p : PlanSt} (h : r.Upholds κ t) : r.Upholds κ (t.enter n cur e m x p).1 := by
  unfold State.enter
  extract_lets recs f a s1 s' s2
  have h1 : r.Upholds κ s1 := (State.Upholds.ite h.listReadBytes h : r.Upholds κ a).set.onReq
  have h' : r.Upholds κ s' := h1.set.debit
  exact (State.Upholds.ite (.ite h'.set h') h1 : r.Upholds κ s2).reqCount

theorem holdBudget {n e : Nat} (h : r.Upholds κ t) : r.Upholds κ (t.holdBudget n e) := by
  unfold State.holdBudget
  extract_lets k s1
  have h1 : r.Upholds κ s1 := h.reqCount.lapse
  have h2 : r.Upholds κ { s1 with tenHeld := k :: s1.tenHeld } := h1.frame
  exact .ite h1 h2.partEvt

theorem enterReserved {n cur : Nat} {p : PlanSt} (h : r.Upholds κ t) : r.Upholds κ (t.enterReserved n cur p).1 := by
  unfold State.enterReserved
  extract_lets due s0
  have h0 : r.Upholds κ s0 := h.onPart
  refine foldl_keeps (fun a : State × PlanSt => r.Upholds κ a.1) (fun a x ha => ?_) due (s0, p) h0
  split
  · exact ha.holdBudget
  · split
    · split
      exacts [ha.enter, ha]
    · exact ha

theorem reserve {n cur e k m from_ slots bound : Nat} {chunk : Bool} {p : PlanSt} (h : r.Upholds κ t) :
    r.Upholds κ (t.reserve n cur e k m chunk from_ slots bound p).1 := by
  unfold State.reserve
  extract_lets v q span part parts fits
  split
  · dsimp only
    exact h.onPart
  · exact h

theorem reserveDecode {n cur e : Nat} {p : PlanSt} (h : r.Upholds κ t) : r.Upholds κ (t.reserveDecode n cur e p).1 := by
  unfold State.reserveDecode
  split
  · exact h
  · extract_lets m target
    split
    exacts [h, h.reserve]

theorem planDecode {n cur e : Nat} {p : PlanSt} (h : r.Upholds κ t) : r.Upholds κ (t.planDecode n cur e p).1 := by
  unfold State.planDecode
  dsimp only
  split
  · exact h
  · split
    · exact h.reserveDecode
    · split
      · exact h
      · split
        · exact h
        · split
          · exact h.reserveDecode
          · split
            · exact h.enter
            · exact h

theorem planChunk {n cur e : Nat} {p : PlanSt} (h : r.Upholds κ t) : r.Upholds κ (t.planChunk n cur e p).1 := by
  unfold State.planChunk
  extract_lets v mine ahead
  split
  · exact h
  · extract_lets m
    split
    · split
      · split
        exacts [h.enter, h]
      · exact h
    · split
      exacts [h, h.reserve]

theorem formPlan {n cur : Nat} (h : r.Upholds κ t) : r.Upholds κ (t.formPlan n cur).1 := by
  refine foldl_keeps (fun a : State × PlanSt => r.Upholds κ a.1) (fun a x ha => ?_) _ _
    (foldl_keeps (fun a : State × PlanSt => r.Upholds κ a.1) (fun a x ha => ?_) _ _ (enterReserved (h.each fun _ _ hu => hu.holdBudget)))
  · dsimp only
    repeat' split
    · exact ha
    · exact ha.holdBudget
    · exact ha
    · exact ha.planChunk
    · exact ha.planDecode
  · dsimp only
    repeat' split
    · exact ha
    · exact ha.holdBudget
    · exact ha.planDecode

theorem writePlan {n cur : Nat} {p : PlanSt} (h : r.Upholds κ t) : r.Upholds κ (t.writePlan n cur p) := .ite h h.onPart

theorem planTick {n : Nat} (h : r.Upholds κ t) : r.Upholds κ (t.planTick n) := .each h.onPart (fun _ _ hu => hu.listStore)

theorem plan {n cur : Nat} (h : r.Upholds κ t) : r.Upholds κ (t.plan n cur) := by
  unfold State.plan
  extract_lets s0 a occ
  have ha : r.Upholds κ a.1 := by
    unfold a
    split
    exacts [(h.onPart : r.Upholds κ s0).formPlan, (h.onPart : r.Upholds κ s0)]
  exact ha.writePlan.onPart

theorem land1 {n e : Nat} {f : Flight} (h : r.Upholds κ t) : r.Upholds κ (t.land1 n e f) := h.onReq.set.settleReq

theorem acceptStep {n e : Nat} {f : Flight} {recs : List DWord} (h : r.Upholds κ t) : r.Upholds κ (t.acceptStep n e f recs) := by
  unfold State.acceptStep
  extract_lets g toks run a drafts late code from_ fixed ends ship s1 s2 s3 s4 out s5 s6
  have h1 : r.Upholds κ s1 := h.set.set.set.setDrafts
  have h2 : r.Upholds κ s2 := by
    unfold s2
    split
    · exact .set (.setReqPair (.ite h1.setReqPair h1))
    · exact h1
  have h3 : r.Upholds κ s3 := .ite h2 h2.debit
  have h4 : r.Upholds κ s4 := .ite h3.reqCount h3
  have h5 : r.Upholds κ s5 := h4.each fun _ _ hu => hu.deliver.reqCount
  have h6 : r.Upholds κ s6 := h5.land1
  exact .ite (.ite h6.set h6.set) (.ite h6.leave (.ite (.ite h6.set h6.set) h6))

theorem releaseStep {n e : Nat} {f : Flight} {recs : List DWord} {ovr : Bool} (h : r.Upholds κ t) :
    r.Upholds κ (t.releaseStep n e f recs ovr) :=
    .ite (.ite h.land1 h) (.ite h.acceptStep (.ite h (.ite h.reqCount.leave.land1 h.land1)))

theorem releaseBeat {n : Nat} {b : BeatRec} (h : r.Upholds κ t) : r.Upholds κ (t.releaseBeat n b) :=
    .each (.each (.ite h h.bump) (fun _ _ hu => hu.releaseStep)) (fun _ _ hu => hu.releaseStep)

theorem settleLost {n cur : Nat} (h : r.Upholds κ t) : r.Upholds κ (t.settleLost n cur) := by
  unfold State.settleLost
  exact .each h (fun _ _ hu => (by split; exacts [.ite hu.onReq.set.settleReq hu, hu]))

theorem expire {n : Nat} (h : r.Upholds κ t) : r.Upholds κ (t.expire n) := .each h (fun _ _ hu => .ite hu.leave.reqCount hu)

theorem tenantCheck {n : Nat} (h : r.Upholds κ t) : r.Upholds κ (t.tenantCheck n) := .each h (fun _ _ hu => .ite hu hu.leave)

theorem reqWindow {n : Nat} (h : r.Upholds κ t) : r.Upholds κ (t.reqWindow n) := .each h (fun _ _ hu => hu.set.set)

theorem reqRestart {n : Nat} (h : r.Upholds κ t) : r.Upholds κ (t.reqRestart n) := .each h (fun _ _ hu => hu.set)

/-! ### Weights -/

theorem onHome {k : Nat} {f : Home → Home} (h : r.Upholds κ t) : r.Upholds κ (t.onHome k f) := .same h rfl

theorem allocList {a : AllocArg} {f : Nat → Nat} {left k head last : Nat} (h : r.Upholds κ t) :
    FindsIn r κ (t.allocList a f left k head last) := by
  induction left generalizing t k head last with
  | zero => exact ⟨by rintro _ ⟨⟩; exact h⟩
  | succ left ih =>
    refine ⟨fun x hx => ?_⟩
    unfold State.allocList at hx
    dsimp only at hx
    split at hx
    · exact (ih h.alloc).found x hx
    · exact nomatch hx

theorem newHome {n a b c : Nat} {k : Bool} (h : r.Upholds κ t) : FindsIn r κ (t.newHome n a b c k) := by
  refine ⟨fun x hx => ?_⟩
  unfold State.newHome at hx
  dsimp only at hx
  split at hx
  · exact nomatch hx
  · next hy => cases hx; exact (h.allocList.found _ hy).same rfl

theorem giveList {slots : List Nat} {from_ to_ : Nat} (h : r.Upholds κ t) : r.Upholds κ (t.giveList slots from_ to_) :=
    .set (.set (.each h (fun _ _ hu => .onBay hu (fun _ hy1 => hy1))))

theorem settleHome {k : Nat} (h : r.Upholds κ t) : r.Upholds κ (t.settleHome k) := by
  unfold State.settleHome
  dsimp only
  split
  · exact .ite h (.same h.freeList rfl)
  · exact .ite h h.giveList.onHome

theorem fillLive {p k : Nat} (h : r.Upholds κ t) : r.Upholds κ (t.fillLive p k) := by
  unfold State.fillLive
  extract_lets slots s1
  have h1 : r.Upholds κ s1 := h.each fun _ _ hu => hu.listRead
  exact h1.onCore fun _ hc => hc.foldl fun _ _ hd => hd.foldl fun _ _ he => he.setPadRow

theorem fillStandby {n p k : Nat} (h : r.Upholds κ t) : r.Upholds κ (t.fillStandby n p k) := by
  unfold State.fillStandby
  exact .onCore (.same (.each h (fun _ _ hu => hu.listRead)) rfl) (fun _ hc => .ite hc hc)

theorem stopFill {n : Nat} (h : r.Upholds κ t) : r.Upholds κ (t.stopFill n) :=
    .each (.same h rfl) (fun _ _ hu => .onCore hu (fun _ hc1 => hc1))

theorem jobAgain {go : FieldRef} {f : Word → Nat × Nat} (h : r.Upholds κ t) : r.Upholds κ (t.jobAgain go f) := by
  unfold State.jobAgain
  split
  · exact .same h rfl
  · exact h

theorem endWgt {n result state : Nat} (h : r.Upholds κ t) : r.Upholds κ (t.endWgt n result state) :=
    h.set.set.done.jobAgain.onPart.partEvt

theorem discard {n : Nat} (h : r.Upholds κ t) : r.Upholds κ (t.discard n) := by
  unfold State.discard
  dsimp only
  split
  · exact .settleHome (.setOn (.onPart (.each h.stopFill (fun _ _ hu => .onCore hu (fun _ hc1 => hc1)))))
  · exact .setOn (.onPart (.each h.stopFill (fun _ _ hu => .onCore hu (fun _ hc1 => hc1))))

theorem failWgt {n result : Nat} (h : r.Upholds κ t) : r.Upholds κ (t.failWgt n result) := by
  unfold State.failWgt
  split
  · exact h
  · exact .ite (.same h.onPart.set rfl) (.ite h.stopFill.onPart.settleHome.endWgt h.endWgt)

theorem fetched {n : Nat} (h : r.Upholds κ t) : r.Upholds κ (t.fetched n) := by
  unfold State.fetched
  split
  · exact h
  · exact .ite h.onHome.onPart.set (.ite (.each h.onHome.onPart.set (fun _ _ hu => hu.fillStandby)) h.onHome.onPart)

theorem hostGroups {slots : List Nat} {p : Package} (h : r.Upholds κ t) :
    ∀ x, t.hostGroups slots p = .ok x → r.Upholds κ x.1 := by
  refine foldl_keeps (fun a : Except Nat (State × Nat) => ∀ x, a = .ok x → r.Upholds κ x.1) (fun a k ha => ?_) _ _ ?_
  · intro x hx
    dsimp only at hx
    split at hx
    · exact nomatch hx
    · split at hx
      · exact nomatch hx
      · cases hx; exact .ite (ha _ rfl) (ha _ rfl).rebuildGroup
  · rintro _ ⟨⟩; exact h

theorem hostFetch {n : Nat} (h : r.Upholds κ t) : r.Upholds κ (t.hostFetch n) := by
  unfold State.hostFetch
  split
  · exact h
  · dsimp only
    split
    · exact h.failWgt
    · split
      · exact h.set.set.onPart.partEvt
      · split
        · exact h.set.failWgt
        · exact .fetched (.set (.bump (.bump (.bump (.each (.each h (fun _ _ hu => .each hu (fun _ _ hu1 => hu1.listReadBytes)))
            (fun _ _ hu => hu.listPutRow))))))

theorem askPeer {n fuel : Nat} (h : r.Upholds κ t) : r.Upholds κ (t.askPeer n fuel) := by
  induction fuel generalizing t with
  | zero => exact h.failWgt
  | succ fuel ih =>
    unfold State.askPeer
    split
    · exact h
    · split
      · exact h.set.failWgt
      · exact .ite h.sendTo.onPart (.ite h.sendTo.onPart.set.failWgt (ih h.sendTo.onPart.onPart.bump))

theorem reRequest {n : Nat} (h : r.Upholds κ t) : r.Upholds κ (t.reRequest n) := by
  unfold State.reRequest
  split
  · exact h
  · exact .ite h.set.failWgt h.onPart.bump.askPeer

theorem groupRead {slots : List Nat} {pages g : Nat} {lost : List Nat} (h : r.Upholds κ t) : r.Upholds κ (t.groupRead slots pages g lost) :=
    .each h (fun _ _ hu => .ite hu hu.listRead)

theorem evalGroup {n : Nat} (h : r.Upholds κ t) : r.Upholds κ (t.evalGroup n) := by
  unfold State.evalGroup
  split
  · exact h
  · refine .ite ?_ ?_
    · exact h.reRequest
    · dsimp only
      split
      · exact .fetched (.bump (.each (.ite h h.groupRead) (fun _ _ hu => .each hu (fun _ _ hu1 => hu1.listPutRow))))
      · exact .askPeer (.onPart (.bump (.each (.ite h h.groupRead) (fun _ _ hu => .each hu (fun _ _ hu1 => hu1.listPutRow)))))

theorem wdata {k : Nat} (h : r.Upholds κ t) : r.Upholds κ (t.wdata k) := by
  unfold State.wdata
  split
  · exact h
  · extract_lets s1 shard off
    have h1 : r.Upholds κ s1 := h.rxDone
    split
    · exact h1
    · refine .ite h1 ?_
      extract_lets slots rows js w1 s2
      have h2 : r.Upholds κ s2 := .ite (h1.each fun _ _ hu => hu.listPutRow).onPart h1.onPart
      exact .ite h2.bump h2

theorem wend {k : Nat} (h : r.Upholds κ t) : r.Upholds κ (t.wend k) := by
  unfold State.wend
  split
  · exact h
  · dsimp only
    split
    · exact .ite h.rxDone.evalGroup h.rxDone
    · exact h.rxDone

theorem wrefuse {k : Nat} (h : r.Upholds κ t) : r.Upholds κ (t.wrefuse k) := by
  unfold State.wrefuse
  split
  · exact h
  · dsimp only
    split
    · exact .ite h.rxDone.reRequest h.rxDone
    · exact h.rxDone

theorem wgtWait {n : Nat} (h : r.Upholds κ t) : r.Upholds κ (t.wgtWait n) := by
  unfold State.wgtWait
  split
  · exact h
  · exact .ite h.evalGroup h

theorem wrongCrc {m : List Byte} (h : r.Upholds κ t) : r.Upholds κ (t.wrongCrc m).2 := h.draw

theorem serveData {v : Serving} (h : r.Upholds κ t) : r.Upholds κ (t.serveData v) := by
  unfold State.serveData
  extract_lets pages slots row s1
  have h1 : r.Upholds κ s1 := by
    refine h.groupRead.each fun k u hu => hu.each fun i x hx => ?_
    extract_lets rows pay m y
    have hy : r.Upholds κ y.2 := by
      unfold y
      split
      exacts [hx.wrongCrc, hx]
    exact hy.sendTo
  exact .ite (h1.onHome.each fun _ _ hu => hu.setOn) h1

theorem wrefusal {v : Serving} (h : r.Upholds κ t) : r.Upholds κ (t.wrefusal v) := h.sendTo

theorem serveNext {l : List Serving} (h : r.Upholds κ t) : r.Upholds κ (t.serveNext l) := by
  induction l generalizing t with
  | nil => exact h.same rfl
  | cons v l ih =>
    unfold State.serveNext
    split
    · exact .serveData (h.same rfl)
    · exact ih h.wrefusal

theorem wreq {k : Nat} (h : r.Upholds κ t) : r.Upholds κ (t.wreq k) := by
  unfold State.wreq
  split
  · exact h
  · refine .ite ?_ ?_
    · exact h.rxDone
    · dsimp only
      split
      · exact h.rxDone.wrefusal
      · exact .ite (.serveData (.same h.rxDone rfl)) (.same h.rxDone rfl)

theorem wreqDone {k : Nat} (h : r.Upholds κ t) : r.Upholds κ (t.wreqDone k) := by
  unfold State.wreqDone
  split
  · exact h
  · exact .serveNext (.settleHome (.sendTo (.same h rfl)))

theorem wabort {k : Nat} (h : r.Upholds κ t) : r.Upholds κ (t.wabort k) := by
  unfold State.wabort
  split
  · exact h
  · refine .ite ?_ ?_
    · exact h.rxDone
    · dsimp only
      split
      · exact .ite (.reRequest (.each (.same h.rxDone rfl) (fun _ _ hu => hu.settleHome))) (.each (.same h.rxDone rfl)
          (fun _ _ hu => hu.settleHome))
      · exact .each (.same h.rxDone rfl) (fun _ _ hu => hu.settleHome)

theorem startFetch {n op home source : Nat} {homeOnly : Bool} {groups : List Nat} (h : r.Upholds κ t) :
    r.Upholds κ (t.startFetch n op home source homeOnly groups) :=
    .ite h.onPart.set.set.hostFetch (.ite (.ite h.onPart.set.set.fetched h.onPart.set.set.askPeer) h.onPart.set.set.failWgt)

theorem wgtStage {n : Nat} (h : r.Upholds κ t) : r.Upholds κ (t.wgtStage n) := by
  unfold State.wgtStage
  refine .ite h ?_
  extract_lets s0 only source pk d epoch s1
  have h0 : r.Upholds κ s0 := h.setOn
  split
  · exact h0.endWgt
  · have h1 : r.Upholds κ s1 := (State.Upholds.ite h0 h0.draw).set
    refine .ite h0.endWgt (.ite h0.endWgt (.ite h0.endWgt (.ite h0.endWgt ?_)))
    split
    · exact h1.onPart.set.set.fetched
    · refine .ite h1.endWgt ?_
      split
      · exact h1.endWgt
      · next hx => exact (h1.newHome.found _ hx).startFetch

theorem fillComplete {n : Nat} (h : r.Upholds κ t) : r.Upholds κ (t.fillComplete n) := by
  unfold State.fillComplete
  split
  · exact h
  · refine .ite ?_ h
    extract_lets s epoch
    have hs : r.Upholds κ s := h.each fun _ _ hu => hu.settle
    exact .ite hs.endWgt (.ite hs.failWgt hs)

theorem homeReady {n : Nat} (h : r.Upholds κ t) : r.Upholds κ (t.homeReady n) := by
  unfold State.homeReady
  split
  · exact h
  · exact .ite h.setOn.endWgt (.ite (.endWgt (.each h.onHome (fun _ _ hu => hu.setOn))) h)

theorem wgtSwap {n : Nat} (h : r.Upholds κ t) : r.Upholds κ (t.wgtSwap n) := .ite h (.ite h.setOn.set.onPart h.setOn.endWgt)

theorem wgtReload {n : Nat} (h : r.Upholds κ t) : r.Upholds κ (t.wgtReload n) := .ite h (.ite h.setOn.set h.setOn.endWgt)

theorem adoptHome {n : Nat} (h : r.Upholds κ t) : r.Upholds κ (t.adoptHome n) := by
  unfold State.adoptHome
  split
  · dsimp only
    split
    · exact h.set.onPart.settleHome
    · exact h.set.onPart
  · exact h

theorem reloadComplete {n : Nat} (h : r.Upholds κ t) : r.Upholds κ (t.reloadComplete n) := by
  unfold State.reloadComplete
  split
  · exact h
  · refine .ite ?_ h
    extract_lets s1
    have h1 : r.Upholds κ s1 := h.each fun _ _ hu => hu.fillLive
    exact h1.adoptHome.setOn.endWgt.holdClear

theorem wgtRepair {n : Nat} (h : r.Upholds κ t) : r.Upholds κ (t.wgtRepair n) := by
  unfold State.wgtRepair
  refine .ite ?_ ?_
  · exact h
  · dsimp only
    split
    · exact h.setOn.endWgt
    · exact .ite h.setOn.endWgt h.setOn.startFetch

theorem wgtDiscard {n : Nat} (h : r.Upholds κ t) : r.Upholds κ (t.wgtDiscard n) := .ite h h.setOn.discard.endWgt

theorem wgtAbort {n : Nat} (h : r.Upholds κ t) : r.Upholds κ (t.wgtAbort n) := by
  unfold State.wgtAbort
  refine .ite ?_ ?_
  · split
    · exact .ite h.failWgt h.discard.endWgt
    · exact .ite h.discard.endWgt.holdClear h.discard.endWgt
  · exact h

theorem wgtResume {n : Nat} (h : r.Upholds κ t) : r.Upholds κ (t.wgtResume n) := .ite h.hostFetch h

theorem flipStage {n st : Nat} (h : r.Upholds κ t) : r.Upholds κ (t.flipStage n st) :=
    .each h (fun _ _ hu => .onCore hu (fun _ hc1 => hc1))

theorem refillTags {n from_ : Nat} (h : r.Upholds κ t) : r.Upholds κ (t.refillTags n from_) := by
  unfold State.refillTags
  split
  · exact h
  · exact .each h (fun _ _ hu => .ite hu.fillStandby hu)

theorem endWave {n : Nat} (h : r.Upholds κ t) : r.Upholds κ (t.endWave n) := h.adoptHome.endWgt

theorem wgtReset {n : Nat} {hard : Bool} (h : r.Upholds κ t) : r.Upholds κ (t.wgtReset n hard) := by
  unfold State.wgtReset
  split
  · exact .ite h.discard.endWgt (.endWave (.each h (fun _ _ hu => .ite hu.flipStage hu)))
  · refine .ite ?_ ?_
    · split
      · exact .ite h.failWgt h.discard.endWgt
      · exact h.discard.endWgt
    · exact h

theorem wgtGo {op n : Nat} (h : r.Upholds κ t) : r.Upholds κ (t.wgtGo op n) := by
  unfold State.wgtGo
  split
  · exact h.wgtStage
  · exact h.wgtSwap
  · exact h.wgtReload
  · exact h.wgtRepair
  · exact h.wgtDiscard
  · exact .ite h h.setOn.endWgt

theorem wgtCmd {op n : Nat} (h : r.Upholds κ t) : r.Upholds κ (t.wgtCmd op n) := .ite h.wgtGo (.ite h (.setOn (.same h rfl)))

theorem wgtStart {op n : Nat} (h : r.Upholds κ t) : r.Upholds κ (t.wgtStart op n) := h.set.wgtCmd

theorem wgtWrite {op n : Nat} (h : r.Upholds κ t) : r.Upholds κ (t.wgtWrite op n) := h.ask.wgtStart

theorem wgtRuns {f : State → State} (h : r.Upholds κ t) (hf : ∀ u, r.Upholds κ u → r.Upholds κ (f u)) : r.Upholds κ (t.wgtRuns f) :=
  .ite h (hf t h)

/-! ### Kv -/

theorem pfxCreate {n head positions key : Nat} (h : r.Upholds κ t) : r.Upholds κ (t.pfxCreate n head positions key).1 := by
  unfold State.pfxCreate
  split
  · exact h
  · split
    · exact h
    · split
      · exact h
      · split
        · exact h
        · split
          · exact h
          · exact .same h rfl

theorem pfxDestroy {n h' : Nat} (h : r.Upholds κ t) : r.Upholds κ (t.pfxDestroy n h').1 := by
  unfold State.pfxDestroy
  split
  · split
    · exact h.onPfx
    · exact h
  · exact h

theorem pfxCmd {n op : Nat} {a : List Nat} (h : r.Upholds κ t) : r.Upholds κ (t.pfxCmd n op a).1 := by
  unfold State.pfxCmd
  split
  · exact h.pfxCreate
  · exact h.pfxDestroy
  · exact h

theorem pfxRun {acc n op : Nat} (h : r.Upholds κ t) : r.Upholds κ (t.pfxRun acc n op) := .ite h h.pfxCmd.wrAcc

theorem freePfx {h' : Nat} (h : r.Upholds κ t) : r.Upholds κ (t.freePfx h') := by
  unfold State.freePfx
  split
  · exact .ite (.partEvt (.each (.same h rfl) (fun _ _ hu => hu.freeSlotOp))) h
  · exact h

theorem freePfxs {n : Nat} (h : r.Upholds κ t) : r.Upholds κ (t.freePfxs n) := .each h (fun _ _ hu => .ite hu.freePfx hu)

theorem prefixFree {h' : Nat} (h : r.Upholds κ t) : r.Upholds κ (t.prefixFree h') := by
  unfold State.prefixFree
  split
  · exact .ite h.freePfx h
  · exact h

theorem writePeer {acc n : Nat} {v : Word} (h : r.Upholds κ t) : r.Upholds κ (t.writePeer acc n v) := .ite (.same h rfl) h

theorem shipFail {n e : Nat} (h : r.Upholds κ t) : r.Upholds κ (t.shipFail n e) := h.leave.bump.partEvt

theorem shipTooOld {n e module : Nat} (h : r.Upholds κ t) : r.Upholds κ (t.shipTooOld n e module) :=
    .ite (.shipFail (.same h rfl)) h

theorem startShip {n e : Nat} (h : r.Upholds κ t) : r.Upholds κ (t.startShip n e) :=
    .ite (.shipTooOld (.ship (.same h rfl))) h

theorem startShips {n : Nat} (h : r.Upholds κ t) : r.Upholds κ (t.startShips n) := .each h (fun _ _ hu => hu.startShip)

theorem sendShards {e : Nat} {o : ShipOut} {shards : List Nat} (h : r.Upholds κ t) : r.Upholds κ (t.sendShards e o shards) :=
    .ship (.each h.groupRead (fun _ _ hu => .each hu (fun _ _ hu1 => hu1.ship)))

theorem shipDrop {m : List Byte} (h : r.Upholds κ t) : r.Upholds κ (t.shipDrop m) := by
  unfold State.shipDrop
  split
  · exact h.bump
  · exact h

theorem setOut {e : Nat} {o : ShipOut} (h : r.Upholds κ t) : r.Upholds κ (t.setOut e o) := .same h rfl

theorem shipAck {k : Nat} (h : r.Upholds κ t) : r.Upholds κ (t.shipAck k) := by
  unfold State.shipAck
  split
  · exact h
  · extract_lets s1
    have h1 : r.Upholds κ s1 := h.rxDone
    split
    · exact h1.shipDrop
    · extract_lets o1
      split
      · exact .ite h1.setOut.sendShards.shipTooOld h1.setOut
      · refine .ite ?_ h1.setOut
        extract_lets
        exact .ite h1.setOut.sendShards.shipTooOld h1.setOut
      · exact (h1.frame : r.Upholds κ { s1 with shipOut := _ }).shipFail
      · exact (h1.frame : r.Upholds κ { s1 with shipOut := _ }).leave.bump
      · exact (h1.frame : r.Upholds κ { s1 with shipOut := _ }).leave.bump
      · exact h1.setOut

theorem shipNack {k : Nat} (h : r.Upholds κ t) : r.Upholds κ (t.shipNack k) := by
  unfold State.shipNack
  split
  · exact h
  · dsimp only
    split
    · exact h.rxDone.shipDrop
    · exact .ite h.rxDone.setOut.sendShards.shipTooOld h.rxDone.setOut

theorem shipFailure {n e : Nat} {sender : Option ShipPeer} {abort : Bool} (h : r.Upholds κ t) :
    r.Upholds κ (t.shipFailure n e sender abort) :=
    .ite h (.ite (.partEvt (.bump (.onReq (.each h.dropShips (fun _ _ hu => hu.answer))))) (.shipFail (.each h.dropShips
      (fun _ _ hu => hu.sendAbort))))

theorem acceptOpen {e module parity : Nat} {m : List Byte} (h : r.Upholds κ t) : r.Upholds κ (t.acceptOpen e module parity m) :=
    .answer (.onReq (.same h rfl))

theorem placeOpen {n e module : Nat} {m : List Byte} (h : r.Upholds κ t) : r.Upholds κ (t.placeOpen n e module m) := by
  unfold State.placeOpen
  dsimp only
  split
  · exact .acceptOpen (.same h rfl)
  · split
    · exact .acceptOpen (.same h rfl)
    · exact .same (.same h rfl) rfl

theorem shipOpen {k : Nat} (h : r.Upholds κ t) : r.Upholds κ (t.shipOpen k) := by
  unfold State.shipOpen
  split
  · exact h
  · refine .ite ?_ ?_
    · exact h.rxDone.shipDrop
    · split
      · exact h.rxDone.answer
      · exact .ite h.rxDone.placeOpen h.rxDone.answer.shipFailure

theorem shipDequeue {n : Nat} (h : r.Upholds κ t) : r.Upholds κ (t.shipDequeue n) := by
  unfold State.shipDequeue
  split
  · exact .acceptOpen (.same h rfl)
  · exact h

theorem setIn {e : Nat} {i : ShipIn} (h : r.Upholds κ t) : r.Upholds κ (t.setIn e i) := .same h rfl

theorem shipRow {n e : Nat} {i : ShipIn} {shard r' : Nat} {d : Row} (h : r.Upholds κ t) : r.Upholds κ (t.shipRow n e i shard r' d) :=
    .ite h.listPutRow h.listPutRow

theorem shipData {k : Nat} (h : r.Upholds κ t) : r.Upholds κ (t.shipData k) := by
  unfold State.shipData
  split
  · exact h
  · dsimp only
    split
    · exact h.rxDone.shipDrop
    · exact .ite h.rxDone.shipDrop (.onReq (.setIn (.each h.rxDone (fun _ _ hu => hu.shipRow))))

theorem shipEval {n e : Nat} {i : ShipIn} (h : r.Upholds κ t) : r.Upholds κ (t.shipEval n e i) := by
  unfold State.shipEval
  extract_lets units lost s1 s2 last s3 map
  have h1 : r.Upholds κ s1 :=
    (State.Upholds.ite h h.groupRead).each fun _ _ hu => hu.each fun _ _ hv => hv.each fun _ _ hw => hw.shipRow
  have h3 : r.Upholds κ s3 := (h1.bump.answer : r.Upholds κ s2).setIn
  exact .ite (.ite h3.onReq h3) (.ite h.bump.setIn.ship h.shipFailure)

theorem shipEnd {k : Nat} (h : r.Upholds κ t) : r.Upholds κ (t.shipEnd k) := by
  unfold State.shipEnd
  split
  · exact h
  · dsimp only
    split
    · exact h.rxDone.shipDrop
    · exact .ite h.rxDone.shipDrop h.rxDone.onReq.shipEval

theorem shipWaitEnd {e : Nat} (h : r.Upholds κ t) : r.Upholds κ (t.shipWaitEnd e) := by
  unfold State.shipWaitEnd
  split
  · exact .ite h.shipEval h
  · exact h

theorem shipAbort {k : Nat} (h : r.Upholds κ t) : r.Upholds κ (t.shipAbort k) := by
  unfold State.shipAbort
  split
  · exact h
  · extract_lets s1 e
    have h1 : r.Upholds κ s1 := h.rxDone
    split
    · exact h1.shipFailure
    · exact .shipFail h1.frame
    · split
      · exact .ite h1.shipFailure h1.shipDrop
      · exact h1

theorem shipLimit {e : Nat} (h : r.Upholds κ t) : r.Upholds κ (t.shipLimit e) := by
  unfold State.shipLimit
  split
  · exact h
  · dsimp only
    split
    · exact .ite h.abortShip.shipFail h
    · exact .ite h.shipFailure h

theorem shipOutcome {n e : Nat} (h : r.Upholds κ t) : r.Upholds κ (t.shipOutcome n e) := by
  unfold State.shipOutcome
  split
  · extract_lets w s1 s2
    have h2 : r.Upholds κ s2 := h.set.set.set.set.set.set.setDrafts
    exact .answer (.bump (.onReq h2.frame))
  · exact h.set.set.onReq
  · exact h

theorem shipOutcomes {n : Nat} (h : r.Upholds κ t) : r.Upholds κ (t.shipOutcomes n) := .each h (fun _ _ hu => hu.shipOutcome)

/-! ### Adapters -/

theorem freeEpoch {n : Nat} {x : AdpEpoch} (h : r.Upholds κ t) : r.Upholds κ (t.freeEpoch n x) :=
    .partEvt (.each h (fun _ _ hu => hu.freeSlotOp))

theorem freeAdp {h' : Nat} (h : r.Upholds κ t) : r.Upholds κ (t.freeAdp h') := by
  unfold State.freeAdp
  split
  · exact .each (.same h rfl) (fun _ _ hu => hu.freeEpoch)
  · exact h

theorem adpCmd {n op : Nat} {arg : List Nat} (h : r.Upholds κ t) : r.Upholds κ (t.adpCmd n op arg).1 := by
  unfold State.adpCmd
  extract_lets head rank model pages k badRank force
  split
  · split
    · exact h
    · split
      · exact h
      · split
        · exact h
        · split
          exacts [h, h.frame]
  · split
    · exact h
    · split
      · exact h
      · extract_lets e busy x b
        split
        · exact h
        · split
          · exact h
          · split
            exacts [h, h.frame]
  · split
    · exact h
    · split
      · exact h
      · extract_lets s1
        have h1 : r.Upholds κ s1 := h.frame
        exact .ite h1.freeAdp h1
  · exact h

theorem adpRun {acc n op : Nat} (h : r.Upholds κ t) : r.Upholds κ (t.adpRun acc n op) := .ite h h.adpCmd.wrAcc

theorem freeAdps {n : Nat} (h : r.Upholds κ t) : r.Upholds κ (t.freeAdps n) :=
    .each h (fun _ _ hu => .ite hu (.ite hu.freeAdp (.each (.same hu rfl) (fun _ _ hu1 => hu1.freeEpoch))))

theorem writeDir {n h' : Nat} {x : AdpEpoch} (h : r.Upholds κ t) : r.Upholds κ (t.writeDir n h' x) :=
    .each h (fun _ _ hu => hu.listStore)

theorem adpBoundary {n : Nat} (h : r.Upholds κ t) : r.Upholds κ (t.adpBoundary n) := by
  unfold State.adpBoundary
  extract_lets s1
  have h1 : r.Upholds κ s1 := h.each fun _ _ hu => .ite (hu.each fun _ _ hv => hv.leave) hu
  refine .ite (h1.each fun _ u hu => .ite hu ?_) h1
  extract_lets fresh t1
  have ht : r.Upholds κ t1 := hu.each fun _ _ hv => hv.writeDir
  exact ht.frame

theorem dropAdps {n : Nat} (h : r.Upholds κ t) : r.Upholds κ (t.dropAdps n) := .each h (fun _ _ hu => .ite hu.freeAdp hu)

/-! ### Watch -/

theorem recipeRequest {n st sel : Nat} (h : r.Upholds κ t) : r.Upholds κ (t.recipeRequest n st sel) :=
    h.set.setOn.onPart

theorem setRecipe {n st k : Nat} (h : r.Upholds κ t) : r.Upholds κ (t.setRecipe n st k) := .ite h h.set.bump

theorem takeRecipe {n st : Nat} (h : r.Upholds κ t) : r.Upholds κ (t.takeRecipe n st) :=
    .ite (.ite h.setOn.setRecipe h.setOn.raise) h

theorem takeRecipes {n : Nat} (h : r.Upholds κ t) : r.Upholds κ (t.takeRecipes n) := .setOn (.each h (fun _ _ hu => hu.takeRecipe))

theorem partArrives {q : Part130} (h : r.Upholds κ t) : r.Upholds κ (t.partArrives q) := by
  unfold State.partArrives
  extract_lets s1
  have h1 : r.Upholds κ s1 := h.bump
  split
  · exact .ite h1.frame h1
  · exact h1

theorem nwArrive {k : Nat} (h : r.Upholds Rest.nothing t) : r.Upholds Rest.nothing (t.nwArrive k) := by
  unfold State.nwArrive
  split
  · exact .ite (.partArrives h.clockAt.frame) h
  · exact h

theorem nwFlush {n : Nat} (h : r.Upholds κ t) : r.Upholds κ (t.nwFlush n) := .each (.same h rfl) (fun _ _ hu => hu.partArrives)

theorem flagStage {n st : Nat} {drop : Bool} (h : r.Upholds κ t) : r.Upholds κ (t.flagStage n st drop) :=
    .ite (.ite h.bump.setBit.setRecipe.setOn.raise h.bump.setBit.setRecipe) h.bump.setBit

theorem evaluate {n : Nat} {b : BeatRec} {drop : Bool} (h : r.Upholds κ t) : r.Upholds κ (t.evaluate n b drop).1 := by
  unfold State.evaluate
  split
  · exact h
  · extract_lets evs bad hit replay s1 s2
    have h1 : r.Upholds κ s1 := by
      refine h.each fun v u hu => ?_
      extract_lets t1 t2
      have h2 : r.Upholds κ t2 := by
        unfold t2
        split
        exacts [hu.bump.set, hu.bump]
      exact .ite h2 h2.set
    clear_value hit
    split
    · exact h1
    · extract_lets w s3
      have h2 : r.Upholds κ s2 := h1.each fun _ _ hu => hu.flagStage
      exact (State.Upholds.ite h2 h2.wr.setPair : r.Upholds κ s3).partEvt

theorem watchBeat {n : Nat} {drop : Bool} (h : r.Upholds κ t) : r.Upholds κ (t.watchBeat n drop).1 := by
  unfold State.watchBeat
  split
  · exact h
  · split
    · exact h
    · extract_lets s1 x u
      have h1 : r.Upholds κ s1 := h.nwFlush
      have hu : r.Upholds κ u := h1.evaluate
      dsimp only
      exact .onPart hu.frame

theorem writeMean {n st : Nat} {v : Word} (h : r.Upholds κ t) : r.Upholds κ (t.writeMean n st v) :=
    .ite h (.ite h.onPart h.wr)

theorem applyMeans {n : Nat} (h : r.Upholds κ t) : r.Upholds κ (t.applyMeans n) := .each h.onPart (fun _ _ hu => hu.wr)

/-! ### Evc -/

theorem onEvc {f : Evc → Evc} (h : r.Upholds κ t) : r.Upholds κ (t.onEvc f) := .same h rfl

theorem keepEvc (h : r.Upholds κ t) : r.Upholds κ (t.keepEvc) := .ite h h.onEvc

theorem setFn {f : Nat} {x : PciFn} (h : r.Upholds κ t) : r.Upholds κ (t.setFn f x) := .same h rfl

theorem msixFlush {f v : Nat} (h : r.Upholds κ t) : r.Upholds κ (t.msixFlush f v) := .ite h.setFn.emit h

theorem msixFlushAll {f : Nat} (h : r.Upholds κ t) : r.Upholds κ (t.msixFlushAll f) := .each h (fun _ _ hu => hu.msixFlush)

theorem msixRaise {f v src : Nat} (h : r.Upholds κ t) : r.Upholds κ (t.msixRaise f v src) := h.setFn.msixFlush

theorem hostEvent {module src vec : Nat} (h : r.Upholds κ t) : r.Upholds κ (t.hostEvent module src vec) :=
    .ite h.msixRaise (.ite h.bump (.ite h h.msixRaise))

theorem setStack {c : Nat} {l : List StackEnt} (h : r.Upholds κ t) : r.Upholds κ (t.setStack c l) := h.keepEvc.onEvc

theorem hostSend {n : Nat} (h : r.Upholds κ t) : r.Upholds κ (t.hostSend n) := by
  unfold State.hostSend
  dsimp only
  split
  · exact h
  · exact .ite h.hostEvent h.sendTo

theorem hostCheck {n : Nat} (h : r.Upholds κ t) : r.Upholds κ (t.hostCheck n) := .ite h (.ite h.onEvc.hostSend h.onEvc)

theorem evcMark (h : r.Upholds κ t) : r.Upholds κ (t.evcMark) := .ite (.each h.onEvc (fun _ _ hu => .ite hu.hostSend hu)) h.onEvc

theorem seeLevel {n : Nat} (h : r.Upholds κ t) : r.Upholds κ (t.seeLevel n) := .ite h.keepEvc.onEvc.hostCheck h

theorem seeAll (h : r.Upholds κ t) : r.Upholds κ (t.seeAll) := .each h (fun _ _ hu => hu.seeLevel)

theorem claim {c : Nat} (h : r.Upholds κ t) : r.Upholds κ (t.claim c) := by
  unfold State.claim
  refine .ite ?_ ?_
  · exact h
  · dsimp only
    split
    · exact h.emit.setStack
    · exact h.emit

theorem eoi {c src : Nat} (h : r.Upholds κ t) : r.Upholds κ (t.eoi c src) := .ite h h.onEvc

theorem reenter {n : Nat} (h : r.Upholds κ t) : r.Upholds κ (t.reenter n) :=
    .ite (.hostCheck (.ite h.onEvc.keepEvc.raise h.onEvc.keepEvc.raise.devLatch)) h.onEvc

theorem eoiPop {c : Nat} (h : r.Upholds κ t) : r.Upholds κ (t.eoiPop c) := by
  unfold State.eoiPop
  split
  · exact h
  · dsimp only
    split
    · exact h.onEvc.seeAll.raise
    · exact .ite (.reenter (.ite h.onEvc.seeAll.setStack h.onEvc.seeAll.setStack.raise))
        (.ite h.onEvc.seeAll.setStack h.onEvc.seeAll.setStack.raise)

theorem unstick {n : Nat} (h : r.Upholds κ t) : r.Upholds κ (t.unstick n) := .ite h.keepEvc.setOn.onEvc.hostCheck h

theorem withdraw {p : Nat} (h : r.Upholds κ t) : r.Upholds κ (t.withdraw p) := by
  unfold State.withdraw
  extract_lets src s1 s2 s3
  have h1 : r.Upholds κ s1 := h.keepEvc.wr
  have h2 : r.Upholds κ s2 := h1.each fun _ _ hu => hu.setOn.onEvc
  have h3 : r.Upholds κ s3 := h2.onEvc
  exact h3.host

theorem writeSrcCfg {n : Nat} {v : Word} (h : r.Upholds κ t) : r.Upholds κ (t.writeSrcCfg n v) :=
    .ite (.hostCheck (.ite h.keepEvc.wr.unstick h.keepEvc.wr)) h

theorem writePtgt {p : Nat} {v : Word} (h : r.Upholds κ t) : r.Upholds κ (t.writePtgt p v) :=
    .each h.keepEvc.wr (fun _ _ hu => hu.hostCheck)

theorem writeBase {c v : Nat} (h : r.Upholds κ t) : r.Upholds κ (t.writeBase c v) := h.keepEvc.set

theorem pinChange {k : Nat} {level : Bool} (h : r.Upholds κ t) : r.Upholds κ (t.pinChange k level) :=
    .ite h (.ite h.onEvc.onEvc (.ite (.ite h.onEvc.onEvc h.onEvc.onEvc.setBit.bump) h.onEvc))

theorem pinFilter {k : Nat} (h : r.Upholds κ t) : r.Upholds κ (t.pinFilter k) := .ite (.ite h.onEvc.setBit h.onEvc) h

theorem pinPolarity {v : Nat} (h : r.Upholds κ t) : r.Upholds κ (t.pinPolarity v) := .each h.set (fun _ _ hu => .ite hu hu.onEvc)

theorem ccStop {c : Nat} (h : r.Upholds κ t) : r.Upholds κ (t.ccStop c) := h.setStack.onEvc

/-! ### Aperture -/

theorem discard4 {acc : Nat} {read : Option Nat} (h : r.Upholds κ t) : r.Upholds κ (t.discard4 acc read) := by
  unfold State.discard4
  dsimp only
  split
  · exact h.bump.emit
  · exact h.bump

theorem countRows {f : Nat} (h : r.Upholds κ t) : r.Upholds κ (t.countRows f) := h.setFn

theorem pageReply {m tag : Nat} {discarded : Bool} {bytes : List Byte} (h : r.Upholds κ t) :
    r.Upholds κ (t.pageReply m tag discarded bytes) := by
  unfold State.pageReply
  split
  · exact h
  · exact .ite (.countRows (.ite (.discard4 (.same h rfl)) (.same h rfl))) (.ite (.discard4 (.same h rfl)) (.emit (.same h rfl)))

theorem waitAck {a : PageAck} (h : r.Upholds κ t) : r.Upholds κ (t.waitAck a) := .same h rfl

theorem pageAcks (h : r.Upholds κ t) : r.Upholds κ (t.pageAcks) := .each (.same h rfl) (fun _ _ hu => .ite hu.pageReply hu.sendTo)

/-! ### Layouts -/

theorem reloc1 {n o : Nat} {x : Stream} {heads : List Nat} (h : r.Upholds κ t) :
    ∀ y, t.reloc1 n x heads o = some y → r.Upholds κ y.1 := by
  intro y hy
  unfold State.reloc1 at hy
  dsimp only at hy
  split at hy
  · exact nomatch hy
  · split at hy
    · exact nomatch hy
    · split at hy
      · exact nomatch hy
      · split at hy
        · exact nomatch hy
        · cases hy; exact h.listPut

theorem relocate {n i : Nat} {x : Stream} {heads l : List Nat} (h : r.Upholds κ t) :
    ∀ y, t.relocate n x heads l i = .ok y → r.Upholds κ y.1 := by
  induction l generalizing t i with
  | nil => rintro _ ⟨⟩; exact h
  | cons o l ih =>
    intro y hy
    unfold State.relocate at hy
    split at hy
    · exact nomatch hy
    · next u _ h1 =>
      have hu : r.Upholds κ u := h.reloc1 _ h1
      split at hy
      · exact nomatch hy
      · next w k h2 => cases hy; exact ih hu (w, k) h2

/-! ### Loader -/

/-- Of pages allocated for a job, that what the allocation leaves upholds, also where pages run out. -/
structure PagesUphold (r : State) (κ : Rest → Rest) (x : Except (Nat × State × List Nat) (State × List Nat)) : Prop where
  taken : ∀ y, x = .ok y → r.Upholds κ y.1
  short : ∀ y, x = .error y → r.Upholds κ y.2.1

theorem eraseCtl {lo hi : Nat} (h : r.Upholds κ t) : r.Upholds κ (t.eraseCtl lo hi) := h.filterCtl

theorem wipeCore {p : Nat} (h : r.Upholds κ t) : r.Upholds κ (t.wipeCore p) := by
  unfold State.wipeCore
  exact .onCore h.coreReset.pageReset.eraseCtl (fun _ hc => hc)

theorem invalidBank {n : Nat} {standby : Bool} (h : r.Upholds κ t) : r.Upholds κ (t.invalidBank n standby) :=
    .each h (fun _ _ hu => .setXlat (.each hu (fun _ _ hu1 => hu1.wr)))

theorem barCore {p : Nat} (h : r.Upholds κ t) : r.Upholds κ (t.barCore p) := .each h.setOn.setOn (fun _ _ hu => hu.wr)

theorem loadCore {src : State} {a : Head} {b : Stream} {l p : Nat} {x : CoreRec} (h : r.Upholds κ t) :
    r.Upholds κ (t.loadCore src a b l p x) := by
  unfold State.loadCore
  extract_lets w im s2 s3
  have h2 : r.Upholds κ s2 := by
    refine h.settle.onCore fun c hc => ?_
    extract_lets c1 c2 c3 c4 c5 c6
    have hc1 : Core.Keeps r c1 := hc.foldl fun _ _ hd => hd.cpWr
    have hc2 : Core.Keeps r c2 := hc1.foldl fun _ _ hd => hd.cpWr.cpWr.cpWr
    have hc4 : Core.Keeps r c4 := (hc2.cpWr.cpWr : Core.Keeps r c3).foldl fun _ _ hd => hd.cpWr
    have hc5 : Core.Keeps r c5 := hc4.cpSet.initCounters
    have hc6 : Core.Keeps r c6 := hc5.program
    exact hc6.foldl fun _ _ hd => hd.foldl fun _ _ he => he.setPadRow
  have h3 : r.Upholds κ s3 := h2.each fun _ _ hu => hu.wr
  exact h3.setOn.setOn

theorem loadStage {src : State} {a : Head} {b : Stream} {n st : Nat} (h : r.Upholds κ t) : r.Upholds κ (t.loadStage src a b n st) := by
  unfold State.loadStage
  extract_lets w s1
  have h1 : r.Upholds κ s1 := h.wr.wr.wr
  exact h1.each fun _ _ hu => hu.wr.wr.wr

theorem loadTables {n : Nat} {bind : List (Nat × Nat)} {flows : List Flow} (h : r.Upholds κ t) : r.Upholds κ (t.loadTables n bind flows) :=
    .each (.each h.invalidBank (fun _ _ hu => hu.wr)) (fun _ _ hu => hu.setXlat)

theorem loadWrites {src : State} {n : Nat} {x : Stream} {l : List (Nat × Nat)} (h : r.Upholds κ t) :
    r.Upholds κ (t.loadWrites src n x l) := by
  unfold State.loadWrites
  extract_lets a s1 s2 s3 s4 s5
  have h1 : r.Upholds κ s1 := h.loadTables
  have h2 : r.Upholds κ s2 := by
    refine h1.each fun _ _ hu => ?_
    split
    exacts [hu.loadCore, hu.barCore]
  have h3 : r.Upholds κ s3 := h2.each fun _ _ hu => hu.loadStage
  have h4 : r.Upholds κ s4 := h3.each fun _ _ hu => hu.set.setCredit
  have h5 : r.Upholds κ s5 := h4.set.set.set.set
  exact h5.set.set

theorem setJob {j : Job} {phase : Nat} (h : r.Upholds κ t) : r.Upholds κ (t.setJob j phase) := .set (.same h rfl)

theorem openJob {op n : Nat} (h : r.Upholds κ t) : r.Upholds κ (t.openJob op n) := h.set.set.set.setOn.setOn.set.set

theorem readPhase1 {h' : Head} {f : Option Fail} (h : r.Upholds κ t) : r.Upholds κ (t.readPhase1 h' f) := by
  unfold State.readPhase1
  refine .ite ?_ ?_
  · exact h
  · dsimp only
    split
    · exact h.set.listReadBytes.listReadBytes
    · exact h.set.listReadBytes

theorem loadCheck {n : Nat} (h : r.Upholds κ t) : r.Upholds κ (t.loadCheck n) := by
  unfold State.loadCheck
  dsimp only
  split
  · exact h.openJob.readPhase1.setJob
  · exact h.openJob.readPhase1.setJob

theorem allocPages {n i : Nat} {l : List (Nat × Nat × Nat)} {heads : List Nat} (h : r.Upholds κ t) :
    PagesUphold r κ (t.allocPages n l i heads) := by
  induction l generalizing t i heads with
  | nil => exact ⟨by rintro _ ⟨⟩; exact h, fun _ hx => nomatch hx⟩
  | cons a l ih =>
    unfold State.allocPages
    split
    · exact ⟨fun _ hx => (nomatch hx), by rintro _ ⟨⟩; exact h⟩
    · next hx =>
      split
      · exact ⟨fun _ hx => (nomatch hx), by rintro _ ⟨⟩; exact h⟩
      · exact ih (h.allocList.found _ hx)

theorem loadWeights {n : Nat} {w : Wman} {fresh : Option Nat} (h : r.Upholds κ t) : r.Upholds κ (t.loadWeights n w fresh) := by
  unfold State.loadWeights
  dsimp only
  split
  · exact .same h rfl
  · exact .ite (.same (.same h rfl) rfl) (.startFetch (.same h rfl))
  · exact .same h rfl

theorem loadBody {n : Nat} {x : Stream} {j : Job} (h : r.Upholds κ t) : r.Upholds κ (t.loadBody n x j) := by
  unfold State.loadBody
  dsimp only
  split
  · next hx => exact (h.allocPages.short _ hx).setJob
  · next u heads hx =>
    have hu : r.Upholds κ u := h.allocPages.taken _ hx
    split
    · exact hu.setJob
    · next k v hk =>
      have hv : r.Upholds κ v := by
        split at hk
        · split at hk
          · exact hu.newHome.found _ hk
          · cases hk; exact hu
        · cases hk; exact hu
      split
      · exact hv.setJob
      · split
        · exact hv.setJob
        · refine .ite hv.setJob ?_
          split
          exacts [hv.loadWrites.setJob.loadWeights, hv.loadWrites.setJob]

theorem loadLoad {n : Nat} (h : r.Upholds κ t) : r.Upholds κ (t.loadLoad n) := by
  unfold State.loadLoad
  extract_lets a f s1 _ j s2 x
  have h1 : r.Upholds κ s1 := h.openJob.readPhase1
  have h2 : r.Upholds κ s2 := h1.set.listReadBytes
  clear_value f
  cases f with
  | some _ => exact h1.setJob
  | none =>
    dsimp only
    split
    exacts [h2.setJob, h2.loadBody]

theorem loadActivate {n : Nat} (h : r.Upholds κ t) : r.Upholds κ (t.loadActivate n) := by
  unfold State.loadActivate
  dsimp only
  split
  · exact h.openJob.setJob
  · exact h.openJob.setPair.setOn.beatStart.setOn.set.setJob

theorem unload {n : Nat} (h : r.Upholds κ t) : r.Upholds κ (t.unload n) := by
  unfold State.unload
  split
  · exact h
  · extract_lets s1 s2 s3 s4
    have h2 : r.Upholds κ s2 := (h.each fun _ _ hu => hu.freeList : r.Upholds κ s1).onPart
    have h3 : r.Upholds κ s3 := by
      unfold s3
      split
      exacts [h2.settleHome, h2]
    have h4 : r.Upholds κ s4 := h3.invalidBank.invalidBank.each fun _ _ hu => hu.wipeCore
    exact h4.setOn.set.set

theorem loadUnload {n : Nat} (h : r.Upholds κ t) : r.Upholds κ (t.loadUnload n) := by
  unfold State.loadUnload
  dsimp only
  split
  · exact h.openJob.setJob
  · exact h.openJob.unload.setJob

theorem loadOther {op n : Nat} (h : r.Upholds κ t) : r.Upholds κ (t.loadOther op n) := h.openJob.setJob

theorem loadGo {op n : Nat} (h : r.Upholds κ t) : r.Upholds κ (t.loadGo op n) := by
  unfold State.loadGo
  refine .ite ?_ ?_
  · exact h.raise
  · split
    · exact h.loadCheck
    · exact h.loadLoad
    · exact h.loadActivate
    · exact h.loadUnload
    · exact h.loadOther

theorem loadAbort (h : r.Upholds κ t) : r.Upholds κ (t.loadAbort) := by
  unfold State.loadAbort
  split
  · exact .ite (.setOn (.onPart (.same h rfl))) h
  · exact h

theorem undoLoad {j : Job} (h : r.Upholds κ t) : r.Upholds κ (t.undoLoad j) := by
  unfold State.undoLoad
  extract_lets s1 s2
  have h1 : r.Upholds κ s1 := (h.frame : r.Upholds κ { t with job := none }).each fun _ _ hu => hu.freeList
  have h2 : r.Upholds κ s2 := by
    unfold s2
    split
    exacts [h1.settleHome, h1]
  exact .ite (h2.invalidBank.each fun _ _ hu => hu.wipeCore).set h2

theorem bindLayout {j : Job} {l : Layout} (h : r.Upholds κ t) : r.Upholds κ (t.bindLayout j l) := by
  unfold State.bindLayout
  extract_lets n bind s1 s2 s3 slots s4 s5
  have h1 : r.Upholds κ s1 := h.onPart
  have h2 : r.Upholds κ s2 := by
    unfold s2
    split
    · exact .set (h1.each fun _ _ hu => hu.fillLive)
    · exact h1
  have h3 : r.Upholds κ s3 := h2.each fun _ _ hu => hu.swapC0
  have h4 : r.Upholds κ s4 := h3.each fun _ _ hu => hu.listPut
  have h5 : r.Upholds κ s5 := h4.each fun _ _ hu => .setSlot (hu.onBay fun _ hy => hy.setOwnBit)
  exact .set h5.frame

theorem closeJob {j : Job} (h : r.Upholds κ t) : r.Upholds κ (t.closeJob j) :=
    .devLatch (.each (.wr (.setOn (.jobAgain (.done (.set (.set (.setOn (.same h rfl)))))))) (fun _ _ hu => hu.wr))

theorem endJob {j : Job} (h : r.Upholds κ t) : r.Upholds κ (t.endJob j) := by
  unfold State.endJob
  refine .ite ?_ ?_
  · exact h.closeJob
  · split
    · exact .ite (.ite h.bindLayout.closeJob h.undoLoad.closeJob) h.undoLoad.closeJob
    · exact h.undoLoad.closeJob

theorem loadCmd {op n : Nat} (h : r.Upholds κ t) : r.Upholds κ (t.loadCmd op n) :=
    .ite h.raise (.ite h.loadGo (.setOn (.same h rfl)))

theorem resumeJobs (h : r.Upholds κ t) : r.Upholds κ (t.resumeJobs) :=
    .each (.same h rfl) (fun _ _ hu => .ite hu.setOn.loadGo hu.setOn.wgtGo)

theorem loadStart {op n : Nat} (h : r.Upholds κ t) : r.Upholds κ (t.loadStart op n) := .loadCmd (.ite h h.set.set)

theorem loadWrite {op n : Nat} (h : r.Upholds κ t) : r.Upholds κ (t.loadWrite op n) := h.ask.loadStart

theorem loadJobEnd (h : r.Upholds κ t) : r.Upholds κ (t.loadJobEnd) := by
  unfold State.loadJobEnd
  split
  · exact h
  · exact .ite h h.endJob

theorem stopJob {j : Job} {code : Nat} (h : r.Upholds κ t) : r.Upholds κ (t.stopJob j code) := h.onPart.endJob

theorem jobReset {n : Nat} (h : r.Upholds κ t) : r.Upholds κ (t.jobReset n) := by
  unfold State.jobReset
  split
  · exact .ite h.stopJob h
  · exact h

theorem jobInventory (h : r.Upholds κ t) : r.Upholds κ (t.jobInventory) := by
  unfold State.jobInventory
  split
  · exact .ite h.stopJob h
  · exact h

theorem writeChan {k : Nat} {v : Word} (h : r.Upholds κ t) : r.Upholds κ (t.writeChan k v) := by
  unfold State.writeChan
  split
  · exact .ite (.same h rfl) h.wr
  · exact h.wr

/-! ### Partitions -/

theorem refuse {n cause : Nat} (h : r.Upholds κ t) : r.Upholds κ (t.refuse n cause) := h.raise.set

theorem writeEnable {acc n : Nat} {v : Word} (h : r.Upholds κ t) : r.Upholds κ (t.writeEnable acc n v) := by
  unfold State.writeEnable
  refine .ite h.refuse ?_
  extract_lets s1 want c
  have h1 : r.Upholds κ s1 := .ite h.clear h
  exact .ite h1 (.ite (.ite h1.setOn h1.refuse) (.ite h1.setOn h1.refuse))

theorem writeShare {acc n : Nat} {v : Word} (h : r.Upholds κ t) : r.Upholds κ (t.writeShare acc n v) :=
    .ite h.refuse (.ite h.wr h.refuse)

theorem writeRecord {acc n a : Nat} {v : Word} (h : r.Upholds κ t) : r.Upholds κ (t.writeRecord acc n a v) :=
    .ite h.refuse (.ite h.set (.ite h.refuse (.ite h.wr h.wr)))

theorem shareMark {n : Nat} (h : r.Upholds κ t) : r.Upholds κ (t.shareMark n) := h.wr

theorem askReset {n : Nat} {hard : Bool} (h : r.Upholds κ t) : r.Upholds κ (t.askReset n hard) :=
    .ite (.ite (.ite h.setOn.bump (.ite h.setOn h.setOn.bump)) h) h.setOn.setOn.set

theorem discardWaiting {n : Nat} (h : r.Upholds κ t) : r.Upholds κ (t.discardWaiting n) :=
    .each (.each (.each (.same h rfl) (fun _ _ hu => hu.resetDrop)) (fun _ _ hu => .ite hu (.bump (.same hu rfl))))
      (fun _ _ hu => .ite hu hu.setPort.bump)

theorem resetBegin {n : Nat} (h : r.Upholds κ t) : r.Upholds κ (t.resetBegin n) := by
  unfold State.resetBegin
  refine .ite ?_ h
  extract_lets s0 s1 s3 s4 s5 s6 s7 s8 s9
  have h1 : r.Upholds κ s1 := (h.bump : r.Upholds κ s0).withdraw.set
  have h4 : r.Upholds κ s4 := (h1.bump : r.Upholds κ s3).setOn.wr.wr
  have h5 : r.Upholds κ s5 := h4.each fun _ _ hu => .setFreeze (hu.onCore fun _ hc => hc)
  have h6 : r.Upholds κ s6 := .onPart h5.frame
  have h7 : r.Upholds κ s7 := h6.each fun _ _ hu => hu.set.onReq
  have h8 : r.Upholds κ s8 := h7.each fun _ _ hu => hu.leave
  have h9 : r.Upholds κ s9 := h8.each fun _ _ hu => hu.settleReq
  exact h9.wgtReset.jobReset.discardWaiting.set

theorem settleCores {n : Nat} (h : r.Upholds κ t) : r.Upholds κ (t.settleCores n) := .each h (fun _ _ hu => hu.settle)

theorem zeroWords {as : List Nat} (h : r.Upholds κ t) : r.Upholds κ (t.zeroWords as) := .each h (fun _ _ hu => hu.wr)

theorem softStages {n : Nat} (h : r.Upholds κ t) : r.Upholds κ (t.softStages n) := by
  unfold State.softStages
  dsimp only
  split
  · exact .each h (fun _ _ hu => hu.wr)
  · exact .each (.listReadBytes (.each h (fun _ _ hu => hu.wr))) (fun _ _ hu => hu.wr)

theorem resetPorts {n : Nat} {hard : Bool} (h : r.Upholds κ t) : r.Upholds κ (t.resetPorts n hard) := by
  unfold State.resetPorts
  extract_lets word s1 s2 s3
  have h1 : r.Upholds κ s1 := h.each fun _ _ hu => hu.each fun _ _ hv => hv.clrBit
  have h2 : r.Upholds κ s2 := .countOver h1.frame
  refine .ite ?_ (h2.each fun _ _ hu => hu.setCredit)
  have h3 : r.Upholds κ s3 := h2.each fun _ _ hu => hu.clrBit.wr.wr
  exact h3.frame

theorem resetTenants {n : Nat} (h : r.Upholds κ t) : r.Upholds κ (t.resetTenants n) := .setOn (.each h (fun _ _ hu => hu.set.set))

theorem resetCommon {n : Nat} {hard : Bool} (h : r.Upholds κ t) : r.Upholds κ (t.resetCommon n hard) := by
  unfold State.resetCommon
  exact h.zeroWords.setOn.resetPorts.resetTenants

theorem abortMoves {n : Nat} (h : r.Upholds κ t) : r.Upholds κ (t.abortMoves n) := by
  unfold State.abortMoves
  exact .each h (fun _ _ hu => (by split; exacts [.ite hu.endMove hu, hu]))

theorem hardWork {n : Nat} (h : r.Upholds κ t) : r.Upholds κ (t.hardWork n) := by
  unfold State.hardWork
  extract_lets s1 s2 s3 s4 s5 s6 s7 gone s8 s9 base s10 q
  have h2 : r.Upholds κ s2 := (h.wgtReset : r.Upholds κ s1).unload.abortMoves
  have h3 : r.Upholds κ s3 := h2.each fun _ _ hu => hu.onCore fun _ _ _ => rfl
  have h4 : r.Upholds κ s4 := h3.each fun _ _ hu => .ite hu.onPfx hu
  have h5 : r.Upholds κ s5 := h4.freePfxs.dropAdps.resetWindows
  have h6 : r.Upholds κ s6 := h5.each fun _ _ hu => hu.freeSlotOp
  have h7 : r.Upholds κ s7 := h6.each fun _ _ hu => hu.eraseCtl
  have h9 : r.Upholds κ s9 := (h7.frame : r.Upholds κ s8).resetCommon
  have h10 : r.Upholds κ s10 := h9.eraseCtl.eraseCtl.eraseCtl.eraseCtl.eraseCtl.eraseCtl.eraseCtl
  exact h10.setPart

theorem resetCores {n : Nat} (h : r.Upholds κ t) : r.Upholds κ (t.resetCores n) := by
  unfold State.resetCores
  refine .ite ?_ h
  extract_lets s0 s1 due s2
  have h1 : r.Upholds κ s1 := h.settleCores.each fun _ _ hu => hu.coreReset.setFreeze
  exact .ite h1.hardWork.set.onPart h1.resetCommon.softStages.freeAdps.set.onPart

theorem flrHeard {module part : Nat} (h : r.Upholds κ t) : r.Upholds κ (t.flrHeard module part) := .same h rfl

theorem resetRelease {n : Nat} (h : r.Upholds κ t) : r.Upholds κ (t.resetRelease n) := by
  unfold State.resetRelease
  refine .ite (.ite h.hardWork.set.onPart ?_) h
  extract_lets s0 s1
  have h0 : r.Upholds κ s0 := h.setOn.set.setOn.setOn
  have h1 : r.Upholds κ s1 := (State.Upholds.ite h0.askReset (.ite h0.askReset h0)).flrHeard
  exact h1.onPart.each fun _ _ hu => hu.sendTo

theorem writeVfMap {acc i : Nat} {v : Word} (h : r.Upholds κ t) : r.Upholds κ (t.writeVfMap acc i v) := .ite h h.wr

theorem vfFlr {v : Nat} (h : r.Upholds κ t) : r.Upholds κ (t.vfFlr v) :=
    .ite h (.ite (.same h.setFn.setBit rfl) (.ite h.setFn.setBit.askReset h.setFn.setBit.sendTo))

theorem vfFlrDone {v : Nat} (h : r.Upholds κ t) : r.Upholds κ (t.vfFlrDone v) := .ite (.clrBit (.same h rfl)) h

theorem vfFlrTimeout {v : Nat} (h : r.Upholds κ t) : r.Upholds κ (t.vfFlrTimeout v) := .ite h.setOn.clrBit.devLatch h

/-! ### Sage -/

theorem drivePin {name : String} {was now : Bool} (h : r.Upholds κ t) : r.Upholds κ (t.drivePin name was now) :=
    .ite h h.emit

theorem pins (h : r.Upholds κ t) : r.Upholds Rest.nothing (t.pins) := h.drivePin.drivePin.drivePin.power

theorem sageEvt {k : Nat} (h : r.Upholds κ t) : r.Upholds κ (t.sageEvt k) := h.setBit

theorem logRecord {x : Report} {resp : Nat} (h : r.Upholds κ t) : r.Upholds κ (t.logRecord x resp) := by
  unfold State.logRecord
  extract_lets s1 a s2 _
  have h1 : r.Upholds κ s1 := h.bump
  refine .ite h1.raise.sageEvt ?_
  have h2 : r.Upholds κ s2 := h1.each fun _ _ hu => hu.wr
  exact .set h2.frame

theorem remember {n : Nat} {r' : Report} (h : r.Upholds κ t) : r.Upholds κ (t.remember n r') := h.onPart

theorem stopModule {why : Nat} (h : r.Upholds Rest.nothing t) : r.Upholds Rest.nothing (t.stopModule why) := by
  unfold State.stopModule
  refine .ite h ?_
  extract_lets s1 s2
  have h1 : r.Upholds Rest.nothing s1 := h.setOn.setOn.setBit
  have h2 : r.Upholds Rest.nothing s2 :=
    h1.each fun _ _ hu => .ite (.onPart (hu.wr.each fun _ _ hv => hv.onCore fun _ hc => hc)) hu
  exact h2.power

theorem suspect {n a : Nat} {ps : List Probe} {r' : Report} (h : r.Upholds κ t) : r.Upholds κ (t.suspect n a ps r').1 := by
  unfold State.suspect
  split
  · exact h
  · split
    · exact h
    · exact h.coreReset

theorem withhold {n : Nat} {bs : List BeatRec} (h : r.Upholds κ t) : r.Upholds κ (t.withhold n bs) := h.bump

theorem stopBeats {n : Nat} (h : r.Upholds κ t) : r.Upholds κ (t.stopBeats n) := by
  unfold State.stopBeats
  exact .onPart (.each h.wr.setOn (fun _ _ hu => .onCore hu (fun _ hc1 => hc1)))

theorem beginRestart {n : Nat} {rs : List Report} (h : r.Upholds κ t) : r.Upholds κ (t.beginRestart n rs) := by
  unfold State.beginRestart
  extract_lets q a s1 s2 x s3
  have h1 : r.Upholds κ s1 := h.withhold.stopBeats
  have h2 : r.Upholds κ s2 := h1.each fun _ _ hu => hu.setFreeze
  clear_value s2
  have hx : r.Upholds κ x.1 := by
    refine foldl_keeps (fun x : State × List Probe => r.Upholds κ x.1) (fun _ _ hx => ?_) rs (s2, []) h2
    exact hx.suspect
  exact (hx.onPart : r.Upholds κ s3).set.set.bump.sageEvt

theorem faultSteps {n : Nat} {steps : List Nat} (h : r.Upholds κ t) : r.Upholds κ (t.faultSteps n steps) :=
    .each h (fun _ _ hu => .ite hu.leave hu)

theorem giveUp {n state : Nat} (h : r.Upholds κ t) : r.Upholds κ (t.giveUp n state) := by
  unfold State.giveUp
  exact h.withhold.stopBeats.faultSteps.onPart.set.set.sageEvt.askReset

theorem answerOverrun {n : Nat} (h : r.Upholds κ t) : r.Upholds κ (t.answerOverrun n) := by
  unfold State.answerOverrun
  dsimp only
  split
  · exact h
  · exact .ite h (.ite h.giveUp (.beginRestart (.ite h.remember h)))

theorem faultBeat {n : Nat} {r' : Report} (h : r.Upholds κ t) : r.Upholds κ (t.faultBeat n r') := by
  unfold State.faultBeat
  split
  · exact h.onPart
  · exact .ite h.onPart h

theorem sageAct {n : Nat} {r' : Report} (h : r.Upholds κ t) : r.Upholds κ (t.sageAct n r') := by
  unfold State.sageAct
  refine .ite ?_ ?_
  · exact h
  · refine .ite ?_ ?_
    · split
      · exact h.suspect.onPart
      · exact .ite h.onPart h.faultBeat
    · exact .ite (.ite h h.faultBeat) (.ite h.onPart.answerOverrun h)

theorem sageTake {r0 : Report} (h : r.Upholds κ t) : r.Upholds κ (t.sageTake r0) := by
  unfold State.sageTake
  dsimp only
  split
  · exact h.logRecord.sageAct
  · exact h.logRecord

theorem sageReport (h : r.Upholds κ t) : r.Upholds κ (t.sageReport) := by
  unfold State.sageReport
  split
  · exact .ite h (.sageTake (.same h rfl))
  · exact h

theorem sageFlush {n : Nat} (h : r.Upholds κ t) : r.Upholds κ (t.sageFlush n) := .each (.same h rfl) (fun _ _ hu => hu.sageTake)

theorem readAsLoaded {n row : Nat} {c : Core} (h : r.Upholds κ t) : r.Upholds κ (t.readAsLoaded n row c) := by
  unfold State.readAsLoaded
  split
  exacts [h.listRead, h]

theorem repairCore {n p l : Nat} (h : r.Upholds κ t) : r.Upholds κ (t.repairCore n p l) := by
  unfold State.repairCore
  extract_lets c
  exact (h.each fun _ _ hu => hu.readAsLoaded).onCore fun _ hc => hc.foldl fun _ _ hd => hd.setPadRow

theorem onProbe {n p : Nat} {f : Probe → Probe} (h : r.Upholds κ t) : r.Upholds κ (t.onProbe n p f) := h.onPart

theorem switchRoutes {n : Nat} {set : Option Nat} {ids : List (Nat × Nat)} {t' : Nat} (h : r.Upholds κ t) :
    r.Upholds κ (t.switchRoutes n set ids t') := by
  unfold State.switchRoutes
  exact .each (by split; exacts [h.loadTables, .each h (fun _ _ hu => hu.setXlat)]) (fun _ _ hu => hu.set.setBit)

theorem setFlows {n : Nat} {set : Option Nat} (h : r.Upholds κ t) : r.Upholds κ (t.setFlows n set) := by
  unfold State.setFlows
  split
  · exact h.onPart
  · exact h

theorem planRemap {n : Nat} (h : r.Upholds κ t) : r.Upholds κ (t.planRemap n) := by
  unfold State.planRemap
  dsimp only
  split
  · exact .ite h.switchRoutes.onPart h
  · exact h

theorem remap {n : Nat} {x : Probe} (hi : Rest.BlindInv κ) (h : r.Upholds κ t) : r.Upholds κ (t.remap n x) := by
  unfold State.remap
  split
  · exact (h.onPart.setOn.markFailed hi).jobInventory.onProbe
  · exact h

theorem remapTick {n : Nat} (hi : Rest.BlindInv κ) (h : r.Upholds κ t) : r.Upholds κ (t.remapTick n) := by
  unfold State.remapTick
  dsimp only
  split
  · exact .ite (.onPart (.each h.setFlows (fun _ _ hu => hu.remap hi))) h
  · exact h

theorem probeDone {n p : Nat} {ok : Bool} (h : r.Upholds κ t) : r.Upholds κ (t.probeDone n p ok) := by
  unfold State.probeDone
  split
  · exact h
  · refine .ite h ?_
    extract_lets pass x s1 y s2
    have h1 : r.Upholds κ s1 := h.logRecord.onProbe
    have h2 : r.Upholds κ s2 := h1.repairCore.onProbe
    exact .ite (.ite h2.giveUp h2.remember) (.ite h1.giveUp h1.planRemap)

theorem reloadDone {n p : Nat} {bad : Bool} (h : r.Upholds κ t) : r.Upholds κ (t.reloadDone n p bad) := by
  unfold State.reloadDone
  split
  · split
    · exact h
    · split
      · refine .ite h (.ite ?_ ?_)
        · split
          exacts [h.giveUp, h.onProbe.planRemap]
        · extract_lets a x rec_ s1 damaged s2 s3 s4
          have h1 : r.Upholds κ s1 := h.loadCore
          have h2 : r.Upholds κ s2 := by
            unfold s2
            split
            exacts [h1.fillLive, h1]
          have h4 : r.Upholds κ s4 := (h2.onProbe.bump.sageEvt : r.Upholds κ s3).set
          exact .ite h2.giveUp (.ite h4.sageEvt h4)
      · exact h
  · exact h

theorem drainEnd {n : Nat} (h : r.Upholds κ t) : r.Upholds κ (t.drainEnd n) := by
  unfold State.drainEnd
  split
  · exact .ite (.onPart (.each h.settleCores (fun _ _ hu => hu.coreReset))) h
  · exact h

theorem searchPage {n : Nat} {r' : Report} (h : r.Upholds κ t) : r.Upholds κ (t.searchPage n r') :=
    .ite h.giveUp (.set (.onPart (.each h (fun _ _ hu => hu.leave))))

theorem answerBeats {n : Nat} {rs : List Report} {again : List (Nat × Bool)} (h : r.Upholds κ t) :
    r.Upholds κ (t.answerBeats n rs again) := by
  unfold State.answerBeats
  refine .ite ?_ ?_
  · exact h.onPart.giveUp
  · refine .ite ?_ ?_
    · exact h.onPart.beginRestart
    · dsimp only
      split
      · exact h.onPart.set.set.bump.sageEvt.onPart.searchPage
      · exact .each h.onPart.set.set.bump.sageEvt.onPart (fun _ _ hu => hu.remember)

theorem onDie {d : Nat} {f : DieSt → DieSt} (h : r.Upholds κ t) : r.Upholds Rest.nothing (t.onDie d f) := h.power

theorem dieLeaves {n d : Nat} (h : r.Upholds κ t) : r.Upholds κ (t.dieLeaves n d) := .ite h.onPart.set.set h.onPart.setOn

theorem flagDie {d cause : Nat} (h : r.Upholds Rest.nothing t) : r.Upholds Rest.nothing (t.flagDie d cause) := by
  unfold State.flagDie
  extract_lets x c s1 s2 s3
  have h1 : r.Upholds Rest.nothing s1 := h.set.setBit
  have h3 : r.Upholds Rest.nothing s3 := (State.Upholds.ite h1.setBit h1 : r.Upholds Rest.nothing s2).onDie
  exact .ite (.ite h.onDie.set.setBit h) (.ite h3 (h3.each fun _ _ hu => hu.dieLeaves))

theorem showStall {n d : Nat} (h : r.Upholds κ t) : r.Upholds κ (t.showStall n d) := h.set.set.set.sageEvt

theorem loseBeat {n d : Nat} (h : r.Upholds κ t) : r.Upholds κ (t.loseBeat n d) := by
  unfold State.loseBeat
  exact h.abandon.stopBeats.onPart.showStall

theorem railsOff {d cause : Nat} (h : r.Upholds Rest.nothing t) : r.Upholds Rest.nothing (t.railsOff d cause) := by
  unfold State.railsOff
  exact h.setOn.setOn.set.setBit.sageEvt.onDie

theorem dieSwitchOff {d : Nat} (h : r.Upholds Rest.nothing t) : r.Upholds Rest.nothing (t.dieSwitchOff d) := by
  unfold State.dieSwitchOff
  extract_lets x late s1 marks s2
  have h1 : r.Upholds Rest.nothing s1 := (h.each fun _ _ hu => hu.loseBeat).railsOff
  have h2 : r.Upholds Rest.nothing s2 := h1.bump.onDie
  split
  · exact h
  · exact .ite (.ite (.ite h2.setOn.setBit h2) h1) h

theorem foldMoves {n k : Nat} {y : Layout} {l : List FoldMove} {u : List (Nat × Nat)} (h : r.Upholds κ t) :
    r.Upholds κ (t.foldMoves n y k l u) := by
  induction l generalizing t u with
  | nil => exact h
  | cons m l ih =>
    unfold State.foldMoves
    refine ih ?_
    split
    · exact (h.each fun _ _ hu => hu.listRead).onCore fun _ hc => hc.foldl fun _ _ hd => hd.setPadRow
    · exact h

theorem foldRun {n : Nat} (h : r.Upholds κ t) : r.Upholds κ (t.foldRun n) := by
  unfold State.foldRun
  dsimp only
  split
  · refine .ite ?_ ?_
    · split
      · exact h
      · refine .ite ?_ ?_
        · exact .giveUp (by split; exacts [h.foldMoves, h])
        · exact .sageEvt (.set (.set (.setOn (.each (.switchRoutes (.setFlows (.onPart (by split; exacts [h.foldMoves, h]))))
            (fun _ _ hu => hu.setRecipe)))))
    · exact h
  · exact h

theorem unfold {n : Nat} (h : r.Upholds κ t) : r.Upholds κ (t.unfold n) :=
    .set (.set (.setOn (.each h.onPart.setFlows.switchRoutes (fun _ _ hu => hu.setRecipe))))

theorem dieReturns {d : Nat} {bad : List Nat} {n : Nat} (h : r.Upholds κ t) : r.Upholds κ (t.dieReturns d bad n) :=
    .ite (.ite h.onPart (.ite h.onPart.setOn.set.beginRestart h.onPart.setOn.onPart.set.set)) (.ite (.ite h.onPart.set h.unfold) h)

theorem dieBack {d : Nat} {bad : List Nat} (h : r.Upholds Rest.nothing t) : r.Upholds Rest.nothing (t.dieBack d bad) :=
    .each h.setOn.setOn.set.setBit.done.sageEvt.onDie (fun _ _ hu => hu.dieReturns)

theorem dieRestore {d : Nat} {bad : List Nat} (h : r.Upholds Rest.nothing t) : r.Upholds Rest.nothing (t.dieRestore d bad) :=
    .ite (.pins (.dieBack (.ite h.set.setBit.setBit h.set))) h

theorem restoreWrite {d : Nat} (h : r.Upholds κ t) : r.Upholds κ (t.restoreWrite d) := h.setOn.setOn

theorem clockFault {d cls : Nat} (h : r.Upholds Rest.nothing t) : r.Upholds Rest.nothing (t.clockFault d cls) :=
    .ite (.report (.railsOff (.each h (fun _ _ hu => hu.loseBeat)))) h

theorem clockRecover {d : Nat} {bad : List Nat} (h : r.Upholds Rest.nothing t) : r.Upholds Rest.nothing (t.clockRecover d bad) := .ite h.dieBack h

theorem clearDieFlag {d bit : Nat} (h : r.Upholds Rest.nothing t) : r.Upholds Rest.nothing (t.clearDieFlag d bit) := by
  unfold State.clearDieFlag
  split
  · exact h
  · exact .setBit (.showInv (.setOn (h.inventory Rest.nothing_blindInv)))

theorem clockTimeout {d : Nat} (h : r.Upholds Rest.nothing t) : r.Upholds Rest.nothing (t.clockTimeout d) :=
    .ite (.each h.clearDieFlag.jobInventory.installRoutes (fun _ _ hu => hu.giveUp)) h

theorem flashInv (h : r.Upholds Rest.nothing t) : r.Upholds Rest.nothing t.flashInv := by
  unfold State.flashInv
  split
  · refine .ite ?_ h
    extract_lets older
    refine .setOn (h.writeFlash ?_)
    split <;> exact Nat.le_refl _
  · exact h

theorem selfTest {ok : Bool} (h : r.Upholds Rest.nothing t) : r.Upholds Rest.nothing (t.selfTest ok) := by
  unfold State.selfTest
  exact .ite h.setOn.bump h.setOn.logRecord.stopModule.pins

theorem ccMismatch {c : Nat} (h : r.Upholds κ t) : r.Upholds κ (t.ccMismatch c) := by
  unfold State.ccMismatch
  refine .ite h ?_
  extract_lets m again s1
  have h1 : r.Upholds κ s1 := h.ccStop.sageEvt.report
  exact h1.frame

theorem ccRestart {c : Nat} (h : r.Upholds κ t) : r.Upholds κ (t.ccRestart c) := .ite h h.onEvc

/-! ### Boundary -/

theorem releaseBeats {n : Nat} {bs : List BeatRec} (h : r.Upholds κ t) : r.Upholds κ (t.releaseBeats n bs) :=
    .ite h (.ite (.set (.onPart (.each h (fun _ _ hu => hu.releaseBeat)))) (.onPart (.each h (fun _ _ hu => hu.releaseBeat))))

theorem gate {n : Nat} {ended flag : Bool} (h : r.Upholds κ t) : r.Upholds κ (t.gate n ended flag) := by
  unfold State.gate
  extract_lets q all due newest faulted starts before lost reports again s1 s2 s3
  have h1 : r.Upholds κ s1 := h.releaseBeats.onPart
  have h2 : r.Upholds κ s2 := .ite h1.onPart h1
  have h3 : r.Upholds κ s3 := .ite h2 h2.withhold
  exact .ite h3.answerBeats (.ite h3.onPart h3)

theorem flipDue {n cur : Nat} (h : r.Upholds κ t) : r.Upholds κ (t.flipDue n cur).1 := by
  unfold State.flipDue
  split
  · extract_lets v1 s1 s2
    split
    · exact h
    · have h1 : r.Upholds κ s1 := h.onPart
      split
      · exact h1
      · split
        · have h2 : r.Upholds κ s2 := h1.flipStage.onPart
          exact .ite h2.endWave h2
        · exact h1.bump.refillTags
  · exact h

theorem planStep {n : Nat} (h : r.Upholds κ t) : r.Upholds κ (t.planStep n) :=
    h.takeRecipes.onPart.setPair.settleLost.shipOutcomes.adpBoundary.tenantCheck.admission.plan.beginWorking

theorem holdFlip {n : Nat} (h : r.Upholds κ t) : r.Upholds κ (t.holdFlip n) := h.beginHold.onPart

theorem flipTick {n : Nat} (h : r.Upholds κ t) : r.Upholds κ (t.flipTick n) := by
  unfold State.flipTick
  dsimp only
  split
  · exact .ite (.ite (.onPart (.each h (fun _ _ hu => hu.settle))) (.refillTags (.each h (fun _ _ hu => hu.settle)))) h
  · exact h

theorem countReplay {n : Nat} (h : r.Upholds κ t) : r.Upholds κ (t.countReplay n) := .ite h.bump.onPart h

theorem nextWorking {n : Nat} (h : r.Upholds κ t) : r.Upholds κ (t.nextWorking n) := by
  unfold State.nextWorking
  dsimp only
  split
  · exact h.countReplay.onPart.beginWorking
  · exact h.countReplay.takeRecipes.onPart.beginWorking
  · exact .ite h.countReplay.beginWorking (.ite h.countReplay.flipDue.holdFlip h.countReplay.flipDue.planStep)

theorem enterHold {n : Nat} (h : r.Upholds κ t) : r.Upholds κ (t.enterHold n) := by
  unfold State.enterHold
  refine .ite ?_ ?_
  · exact .onPart (.setOn (by split; exacts [h.beginHold.showStall, h.beginHold]))
  · refine .ite ?_ ?_
    · exact .unfold (by split; exacts [h.beginHold.showStall, h.beginHold])
    · split
      · exact h.beginHold.showStall
      · exact h.beginHold

theorem nextInterval {n : Nat} (h : r.Upholds κ t) : r.Upholds κ (t.nextInterval n) :=
    .ite h.setOn.endIntervals (.ite h.enterHold (.ite (.enterHold (.setOn (.ite h.set h))) (.ite h.beginRest h.nextWorking)))

theorem applyRest {n : Nat} (h : r.Upholds κ t) : r.Upholds κ (t.applyRest n) := h.onPart

theorem latchWindow {n : Nat} (h : r.Upholds κ t) : r.Upholds κ (t.latchWindow n) := .ite h.closeWindow.reqWindow h

theorem afterGate {n : Nat} {window : Bool} (h : r.Upholds κ t) : r.Upholds κ (t.afterGate n window) := by
  unfold State.afterGate
  extract_lets s0 s1
  have h0 : r.Upholds κ s0 := h.startShips
  have h1 : r.Upholds κ s1 := (State.Upholds.ite h0.tenantWindow h0).releasePoint
  exact .ite h1 h1.expire.freePfxs.freeAdps.nextInterval

theorem boundary {n : Nat} (h : r.Upholds κ t) : r.Upholds κ (t.boundary n) := by
  unfold State.boundary
  refine .ite ?_ ?_
  · exact .afterGate (.gate (.applyMeans
      (by split; exacts [h.switchMoves.latchWindow.closeInterval.sageFlush.watchBeat, h.switchMoves.latchWindow.closeInterval.sageFlush.applyRest])))
  · exact h

theorem holdEnd {n : Nat} (h : r.Upholds κ t) : r.Upholds κ (t.holdEnd n) :=
    .ite (.afterGate (.gate
      (.ite h.switchMoves.latchWindow.setOn.sageFlush.applyRest.set h.switchMoves.latchWindow.setOn.sageFlush.applyRest))) h

theorem firstBeat {n : Nat} (h : r.Upholds κ t) : r.Upholds κ (t.firstBeat n) := by
  unfold State.firstBeat
  exact .ite h.startPartition.reqRestart.tenantWindow.expire.freeAdps.nextWorking h

theorem windowBoundary {n : Nat} (h : r.Upholds κ t) : r.Upholds κ (t.windowBoundary n) := by
  unfold State.windowBoundary
  exact .ite h (.ite h.latchWindow.tenantWindow.beatCnt h.latchWindow.tenantWindow)

theorem replayBegin {n : Nat} (h : r.Upholds κ t) : r.Upholds κ (t.replayBegin n) := by
  unfold State.replayBegin
  split
  · refine .ite ?_ h
    extract_lets s0 s1 s2 s3
    have h0 : r.Upholds κ s0 := .ite h.latchWindow.tenantWindow h
    have h1 : r.Upholds κ s1 := h0.each fun _ _ hu => hu.setFreeze
    have h3 : r.Upholds κ s3 := (h1.onPart : r.Upholds κ s2).set.bump
    exact .ite h3.endIntervals (.ite h3.enterHold h3.nextWorking)
  · exact h

theorem bedsyncLow (hp : Rest.BlindPwr κ) (h : r.Upholds κ t) : r.Upholds κ (t.bedsyncLow) := .ite (.emit (h.powerBlind hp)) h

/-- What a tick does once it has begun. -/
theorem tickWork_of_begun {number : Nat} (hi : Rest.BlindInv κ) (hp : Rest.BlindPwr κ) (h : r.Upholds κ (t.beginTick number)) :
    r.Upholds κ (t.tickWork number) := by
  unfold State.tickWork
  extract_lets s1 s2 idle s3 s4
  have h1 : r.Upholds κ s1 := h.setOn
  have h2 : r.Upholds κ s2 := h1.each fun _ _ hu => (hu.planTick.remapTick hi).flipTick.answerOverrun
  have h3 : r.Upholds κ s3 := ((h2.each fun _ _ hu => hu.freeAdps).bedsyncLow hp).ackTick.pageAcks
  have h4 : r.Upholds κ s4 := .ite h3 h3.resumeJobs
  exact h4.each fun _ _ hu => .ite hu.moveGo hu

theorem tickWork {number : Nat} (h : r.Upholds Rest.nothing t) : r.Upholds Rest.nothing (t.tickWork number) :=
  tickWork_of_begun Rest.nothing_blindInv Rest.nothing_blindPwr h.beginTick

theorem markCounts (h : r.Upholds κ t) : r.Upholds κ (t.markCounts) :=
    .each (.each h.countOver (fun _ _ hu => hu.set.set.set.set.set.set.set.set)) (fun _ _ hu => hu.set.set.set.set.set.set)

theorem latchReports {m : MarkIn} (h : r.Upholds κ t) : r.Upholds κ (t.latchReports m) :=
    .setBit (.each h.wr.wr (fun _ _ hu => hu.wr.wr))

theorem capMark (h : r.Upholds Rest.nothing t) : r.Upholds Rest.nothing t.capMark := by
  unfold State.capMark
  extract_lets a new s1 _ s2 s3
  have h1 : r.Upholds Rest.nothing s1 := h.each fun _ _ hu => .ite hu.holdClear hu
  have h3 : r.Upholds Rest.nothing s3 := (h1.power : r.Upholds Rest.nothing s2).set.setOn
  exact .ite h3.setBit h3

theorem heatMark {m : MarkIn} (h : r.Upholds Rest.nothing t) : r.Upholds Rest.nothing (t.heatMark m) := by
  unfold State.heatMark
  extract_lets s1
  have h1 : r.Upholds Rest.nothing s1 := by
    refine h.each fun e u hu => ?_
    extract_lets a new t1
    have ht : r.Upholds Rest.nothing t1 := hu.set.wr.set.onDie
    exact .ite ht.setBit.setBit ht
  refine h1.each fun e u hu => ?_
  extract_lets a new t0 _ t1
  have ht : r.Upholds Rest.nothing t1 := (State.Upholds.ite hu.setOn hu : r.Upholds Rest.nothing t0).power
  exact .ite ht.setBit ht

theorem restMark {n : Nat} (h : r.Upholds κ t) : r.Upholds κ (t.restMark n) := .ite h h.set.onPart

theorem millisecondMark {m : MarkIn} (h : r.Upholds Rest.nothing t) : r.Upholds Rest.nothing (t.millisecondMark m) := by
  unfold State.millisecondMark
  refine .ite ?_ h
  extract_lets s' _ s0 s1 cap s2 s3 _ s4
  have h' : r.Upholds Rest.nothing s' := h.each fun _ _ hu => hu.resetBegin
  have h0 : r.Upholds Rest.nothing s0 := h'.anew
  have h1 : r.Upholds Rest.nothing s1 := h0.markCounts.each fun _ _ hu => hu.shareMark
  have hcap : r.Upholds Rest.nothing cap := by
    unfold cap
    split
    exacts [h1.set, h1]
  have h2 : r.Upholds Rest.nothing s2 := hcap.latchReports.capMark.heatMark
  have h3 : r.Upholds Rest.nothing s3 := h2.each fun _ _ hu => hu.restMark
  exact (h3.anew : r.Upholds Rest.nothing s4).evcMark.timeMark.pins

/-! ### Firmware -/

/-- Flash is written, its rollback floor left or raised (R528). -/
theorem setFlash {g : Flash → Flash} (h : r.Upholds κ t) (hg : t.flash.floor ≤ (g t.flash).floor) : r.Upholds Rest.nothing (t.setFlash g) :=
  h.writeFlash hg

theorem setFw {f : Fw → Fw} (h : r.Upholds κ t) : r.Upholds Rest.nothing (t.setFw f) := h.anew rfl

theorem fwEvt {k : Nat} (h : r.Upholds κ t) : r.Upholds κ (t.fwEvt k) := h.setBit

theorem fwState {k : Nat} (h : r.Upholds κ t) : r.Upholds κ (t.fwState k) := h.set

theorem fwShow (h : r.Upholds κ t) : r.Upholds κ (t.fwShow) := h.set.set.setOn.set.set.set.set

theorem showVersion (h : r.Upholds κ t) : r.Upholds κ (t.showVersion) := by
  unfold State.showVersion
  split
  · exact h
  · exact h.wr.set.set.set

theorem result {status : Nat} {payload : List Byte} (h : r.Upholds κ t) : r.Upholds κ (t.result status payload) := h.emit

theorem fwRefuse {svc : Bool} {code : Nat} (h : r.Upholds κ t) : r.Upholds κ (t.fwRefuse svc code) := .ite h.set.result h.set

theorem fwRest (h : r.Upholds κ t) : r.Upholds κ (t.fwRest) := h.fwState

theorem endTransfer {code : Nat} (h : r.Upholds Rest.nothing t) : r.Upholds Rest.nothing (t.endTransfer code) := h.setFw.fwRest.fwEvt.fwRefuse.fwShow

theorem svcConnect (h : r.Upholds Rest.nothing t) : r.Upholds Rest.nothing (t.svcConnect) := .ite h (.ite h.emit h.setFw.emit)

theorem svcDisconnect (h : r.Upholds Rest.nothing t) : r.Upholds Rest.nothing (t.svcDisconnect) := .ite h (.ite h.setFw.fwRest.fwShow h.setFw)

theorem svc {f : State → State} (h : r.Upholds κ t) (hf : ∀ u, r.Upholds κ u → r.Upholds κ (f u)) : r.Upholds κ (t.svc f) :=
  .ite (hf t h) h

theorem svcOffer {h' : List Byte} (h : r.Upholds Rest.nothing t) : r.Upholds Rest.nothing (t.svcOffer h') :=
    .ite h.fwEvt.fwRefuse (.ite h.fwEvt.fwRefuse (.ite h.fwEvt.fwRefuse h.setFw.fwState.result))

theorem svcSignature {sig : List Byte} (h : r.Upholds Rest.nothing t) : r.Upholds Rest.nothing (t.svcSignature sig) := by
  unfold State.svcSignature
  split
  · exact h.fwRefuse
  · exact .ite h.fwRefuse (.ite h.endTransfer h.setFw.result)

/-- Storing a bank leaves the rollback floor as it is. -/
theorem floor_setBank {f : Flash} {b : Nat} {x : Option Bank} : (f.setBank b x).floor = f.floor := by
  unfold Flash.setBank
  split <;> rfl

theorem svcBody {data : List Byte} {flash : Nat} (h : r.Upholds Rest.nothing t) : r.Upholds Rest.nothing (t.svcBody data flash) := by
  unfold State.svcBody
  split
  · exact h.fwRefuse
  · refine .ite h.fwRefuse (.ite h ?_)
    extract_lets s1
    have h1 : r.Upholds Rest.nothing s1 := (h.setFlash (by exact floor_setBank.ge)).fwState
    split
    · exact h1.setFw.result.fwShow
    · exact h1.endTransfer
    · exact .endTransfer (.ite h1 h)

theorem failCommit {code : Nat} (h : r.Upholds Rest.nothing t) : r.Upholds Rest.nothing (t.failCommit code) :=
  (h.setFlash (by exact floor_setBank.ge)).endTransfer

theorem svcCommit (h : r.Upholds Rest.nothing t) : r.Upholds Rest.nothing t.svcCommit := by
  unfold State.svcCommit
  split
  · exact h.fwRefuse
  · refine .ite h.fwRefuse (.ite h.failCommit (.ite h.failCommit ?_))
    extract_lets s1
    have h1 : r.Upholds Rest.nothing s1 := (h.setFlash (by exact floor_setBank.ge)).setFw
    exact h1.fwState.fwEvt.fwShow.result

theorem svcStatus (h : r.Upholds κ t) : r.Upholds κ (t.svcStatus) := h.result

theorem writeSageCtl {v : Nat} (h : r.Upholds κ t) : r.Upholds κ (t.writeSageCtl v) := .ite (.ite h h.set) (.set (.ite h h.set))

theorem linkSetting {r' : SetRec} {key : Nat} (h : r.Upholds κ t) : r.Upholds κ (t.linkSetting r' key) := by
  unfold State.linkSetting
  dsimp only
  split
  · exact h.set
  · exact h.set
  · exact h.set
  · exact h.setOn.setOn.set
  · exact h

theorem linkSettings (h : r.Upholds κ t) : r.Upholds κ (t.linkSettings) := .each h.set.set (fun _ _ hu => hu.linkSetting)

theorem settingEffect {key : Nat} (h : r.Upholds Rest.nothing t) : r.Upholds Rest.nothing (t.settingEffect key) := by
  unfold State.settingEffect
  dsimp only
  split
  · exact h.setFw
  · exact h.writeSageCtl
  · exact h
  · exact .ite h.linkSetting h

theorem storeSettings (h : r.Upholds Rest.nothing t) : r.Upholds Rest.nothing t.storeSettings := .ite h.setOn (h.setFlash (Nat.le_refl _))

theorem setPut {key : Nat} {v : List Byte} (h : r.Upholds Rest.nothing t) : r.Upholds Rest.nothing (t.setPut key v).1 := by
  unfold State.setPut
  split
  · exact h.set
  · exact h.setFw.storeSettings.settingEffect

theorem settingsGet {acc : Option Nat} {key : Nat} (h : r.Upholds κ t) : r.Upholds κ (t.settingsGet acc key) := by
  unfold State.settingsGet
  split
  · exact .svc h (fun _ hu => .ite hu.result hu.set.result)
  · exact .ite h.wrAcc.wrAcc h.set.wrAcc

theorem settingsPut {acc : Option Nat} {key : Nat} {v : List Byte} (h : r.Upholds Rest.nothing t) :
    r.Upholds Rest.nothing (t.settingsPut acc key v) := by
  unfold State.settingsPut
  split
  · exact .svc h (fun _ hu => hu.setPut.result)
  · exact h.setPut.wrAcc

theorem migrate {schema : Nat} (h : r.Upholds Rest.nothing t) : r.Upholds Rest.nothing (t.migrate schema) := by
  unfold State.migrate
  refine .ite h ?_
  extract_lets old s1
  have h1 : r.Upholds Rest.nothing s1 := h.setFw
  exact .ite (h1.setFlash (Nat.le_refl _)).setOn (h1.setFlash (Nat.le_refl _))

theorem pausePorts {pause : Bool} (h : r.Upholds κ t) : r.Upholds κ (t.pausePorts pause) :=
    .each h (fun _ _ hu => .each hu (fun _ _ hu1 => hu1.emit))

theorem pauseBegin (h : r.Upholds Rest.nothing t) : r.Upholds Rest.nothing (t.pauseBegin) :=
    .pausePorts (.setFw (.each h (fun _ _ hu => .ite hu.holdSet hu)))

theorem bootRecord {a : Activation} (h : r.Upholds Rest.nothing t) : r.Upholds Rest.nothing (t.bootRecord a) :=
  .ite h.setFw.setOn (h.setFlash (Nat.le_refl _)).setFw.pauseBegin

theorem fwActivate {svc : Bool} (h : r.Upholds Rest.nothing t) : r.Upholds Rest.nothing (t.fwActivate svc) :=
    .ite h (.ite h.fwRefuse (.ite h.fwRefuse (.bootRecord (.ite h.fwState.result h.fwState.setOn))))

theorem fwDone {f : FieldRef} {g : State → State} (h : r.Upholds κ t) (hg : ∀ u, r.Upholds κ u → r.Upholds κ (g u)) :
    r.Upholds κ (t.fwDone f g) := .ite (hg _ h.setOn) h.setOn

theorem fallBack (h : r.Upholds Rest.nothing t) : r.Upholds Rest.nothing (t.fallBack) := h.fwState.bootRecord

theorem fwRevert {svc : Bool} (h : r.Upholds Rest.nothing t) : r.Upholds Rest.nothing (t.fwRevert svc) :=
    .ite h (.ite h.fwRefuse (.fallBack (.ite h.result h.setOn)))

theorem pauseEnd {us : Nat} (h : r.Upholds Rest.nothing t) : r.Upholds Rest.nothing (t.pauseEnd us) :=
    .fwShow (.resumeJobs (.set (.pausePorts (.setFw (.each h (fun _ _ hu => .ite hu.holdClear hu))))))

theorem runBank {b : Nat} (h : r.Upholds Rest.nothing t) : r.Upholds Rest.nothing (t.runBank b) := by
  unfold State.runBank
  dsimp only
  split
  · exact h.setFw.showVersion.migrate
  · exact h.setFw.showVersion

theorem fwHeld {ok : Bool} {us : Nat} (h : r.Upholds Rest.nothing t) : r.Upholds Rest.nothing (t.fwHeld ok us) := by
  unfold State.fwHeld
  split
  · exact h
  · refine .ite h (.ite ?_ (.ite ?_ ?_))
    · extract_lets old s1 s2
      have h1 : r.Upholds Rest.nothing s1 := h.setFw.showVersion
      have h2 : r.Upholds Rest.nothing s2 := h1.setFlash (Nat.le_refl _)
      exact h2.pauseEnd.fwState.set.fwEvt.fwEvt.fwDone fun _ hu => hu.fwRevert
    · extract_lets s1 s2
      have h1 : r.Upholds Rest.nothing s1 := h.runBank.setFlash (Nat.le_refl _)
      have h2 : r.Upholds Rest.nothing s2 := h1.pauseEnd.fwState.set
      exact h2.setFw.fwEvt.fwDone fun _ hu => hu.fwActivate
    · extract_lets s1
      have h1 : r.Upholds Rest.nothing s1 := (h.setFlash (Nat.le_refl _)).pauseEnd
      exact h1.fwState.set.fwEvt.fwEvt.fwDone fun _ hu => hu.fwActivate

/-- A confirmation raises the floor to the bank's rollback number, or leaves it (R528). -/
theorem confirmWrites (h : r.Upholds Rest.nothing t) : r.Upholds Rest.nothing t.confirmWrites :=
  (h.setFlash (Nat.le_max_left _ _)).setFw.fwShow

theorem fwConfirm {svc : Bool} (h : r.Upholds Rest.nothing t) : r.Upholds Rest.nothing (t.fwConfirm svc) :=
    .ite h (.ite h.fwRefuse (.ite (.setOn (.setFw (.ite h.fwState.set.result h.fwState.set))) (.confirmWrites
      (.ite h.fwState.set.result h.fwState.set))))

theorem fwTimeout (h : r.Upholds Rest.nothing t) : r.Upholds Rest.nothing (t.fwTimeout) := .ite h.fallBack h

theorem fwNvTimeout (h : r.Upholds Rest.nothing t) : r.Upholds Rest.nothing t.fwNvTimeout := by
  unfold State.fwNvTimeout
  split
  · refine .ite ?_ h
    extract_lets s1
    have h1 : r.Upholds Rest.nothing s1 := h.setFw.set.setOn
    exact .ite (h1.fwState.fwEvt.fwDone fun _ hu => hu.fwRevert) (h1.fwRest.fwEvt.fwDone fun _ hu => hu.fwActivate)
  · exact h

theorem nvRun (h : r.Upholds Rest.nothing t) : r.Upholds Rest.nothing (t.nvRun) := by
  unfold State.nvRun
  dsimp only
  split
  · exact .ite (.bootRecord (.ite h.setOn.storeSettings.confirmWrites h.setOn.storeSettings))
      (.ite h.setOn.storeSettings.confirmWrites h.setOn.storeSettings)
  · exact .ite h.setOn.storeSettings.confirmWrites h.setOn.storeSettings

theorem quoteRefuse {svc : Bool} {r' : Nat} (h : r.Upholds κ t) : r.Upholds κ (t.quoteRefuse svc r') :=
    .ite h.fwEvt.result h.fwEvt.set.setOn

theorem quoteBegin {l : List (List Byte × Bool)} (h : r.Upholds Rest.nothing t) : r.Upholds Rest.nothing (t.quoteBegin l) := by
  induction l generalizing t with
  | nil => exact h.setFw.setOn
  | cons q l ih =>
    exact .ite (ih h.quoteRefuse) (.ite h.setFw.setOn (.ite (ih h.quoteRefuse) (h.setFlash (Nat.le_refl _)).set.setFw.setOn))

theorem quoteRequest {svc : Bool} {nonce : List Byte} (h : r.Upholds Rest.nothing t) : r.Upholds Rest.nothing (t.quoteRequest svc nonce) :=
    .ite h (.ite (.ite h.setFw h.set) (.quoteBegin (.ite h h.setOn)))

theorem quoteComplete (h : r.Upholds Rest.nothing t) : r.Upholds Rest.nothing (t.quoteComplete) := by
  unfold State.quoteComplete
  split
  · exact h
  · exact .ite h.setFw.set.fwEvt.result.quoteBegin h.setFw.set.fwEvt.set.done.quoteBegin

theorem keyRotate (h : r.Upholds Rest.nothing t) : r.Upholds Rest.nothing t.keyRotate := by
  unfold State.keyRotate
  extract_lets i k body s1
  have h1 : r.Upholds Rest.nothing s1 := h.setFlash (Nat.le_refl _)
  exact .ite h (.ite h.setFw h1.setFw.set.set.set.set.fwEvt)

/-! ### Power -/

theorem setPwr {f : Pwr → Pwr} (h : r.Upholds κ t) : r.Upholds Rest.nothing (t.setPwr f) := h.power

theorem setPhase {k : Nat} (h : r.Upholds κ t) : r.Upholds κ (t.setPhase k) := h.set

theorem clearCompute (h : r.Upholds Rest.nothing t) : r.Upholds Rest.nothing t.clearCompute := by
  refine ⟨fun k => ?_, h.floor, h.rest⟩
  obtain ⟨h1, h2, -, -⟩ := State.canonical_iff.1 (h.canonical k)
  exact State.canonical_iff.2 ⟨canon_filter _ h1 _, canon_filter _ h2 _, rfl, rfl⟩

theorem logAll (h : r.Upholds κ t) : r.Upholds κ (t.logAll) := by
  unfold State.logAll
  exact .each (.same h rfl) (fun _ _ hu => hu.logRecord)

theorem finishStop (h : r.Upholds Rest.nothing t) : r.Upholds Rest.nothing (t.finishStop) :=
    (h.logAll.bedsyncLow Rest.nothing_blindPwr).clearCompute.setPhase.set.setOn.setOn.setPwr.pins

theorem logSupply {detail : Nat} (h : r.Upholds κ t) : r.Upholds κ (t.logSupply detail) := by
  unfold State.logSupply
  exact h.logRecord

theorem islandOff (h : r.Upholds Rest.nothing t) : r.Upholds Rest.nothing t.islandOff := ⟨fun _ => rfl, h.floor, rfl⟩

theorem orderedStop {cause : Nat} (h : r.Upholds Rest.nothing t) : r.Upholds Rest.nothing (t.orderedStop cause) := by
  unfold State.orderedStop
  dsimp only
  split
  · exact .ite h.finishStop h
  · exact .ite (.finishStop (.setOn (.setPwr (.ite h.logSupply.stopModule h)))) (.setOn (.setPwr (.ite h.logSupply.stopModule h)))
  · exact .ite (.finishStop (.ite h.logSupply.stopModule h)) (.ite h.logSupply.stopModule h)
  · exact .same (.islandOff (.ite (.finishStop (.ite h.logSupply.stopModule h)) (.ite h.logSupply.stopModule h))) rfl
  · exact h

theorem outOfRange (h : r.Upholds κ t) : r.Upholds κ (t.outOfRange) := h.setBit

theorem sagBegin (h : r.Upholds Rest.nothing t) : r.Upholds Rest.nothing (t.sagBegin) := h.setPwr.setOn.bump.setBit

theorem sagEnd (h : r.Upholds Rest.nothing t) : r.Upholds Rest.nothing (t.sagEnd) := .ite h.setPwr.setOn.setBit.nvRun.flashInv h

theorem pwrEn {level : Bool} (h : r.Upholds Rest.nothing t) : r.Upholds Rest.nothing (t.pwrEn level) := by
  unfold State.pwrEn
  exact .ite h (.ite (.ite h.setPwr.setOn.setPwr.pins h.setPwr.setOn) (.ite h.setPwr.setOn.setPwr.stopModule h.setPwr.setOn.setPwr))

theorem railFault {i : Nat} (h : r.Upholds Rest.nothing t) : r.Upholds Rest.nothing (t.railFault i) := by
  unfold State.railFault
  exact .ite h (.ite h.logRecord.flagDie (.ite (.ite h.logRecord.stopModule h.logRecord.setPhase.set.pins) h))

theorem thermalCross {kind unit threshold : Nat} (h : r.Upholds Rest.nothing t) : r.Upholds Rest.nothing (t.thermalCross kind unit threshold) := by
  unfold State.thermalCross
  refine .ite ?_ ?_
  · exact h
  · split
    · exact h.logRecord.flagDie
    · exact h.logRecord.stopModule
    · exact h.setOn
    · exact h.logRecord.stopModule
    · exact h.logRecord.stopModule
    · exact h.logRecord.stopModule
    · exact h.logRecord
    · exact h.logRecord
    · exact h

theorem brake (h : r.Upholds Rest.nothing t) : r.Upholds Rest.nothing (t.brake) :=
    .ite h (.ite (.setPwr (.each h (fun _ _ hu => hu.holdSet))) (.setBit (.bump (.setOn (.setPwr (.each h (fun _ _ hu => hu.holdSet)))))))

/-! ### Startup -/

theorem islandReset {pin hostPres : Bool} (h : r.Upholds Rest.nothing t) : r.Upholds Rest.nothing (t.islandReset pin hostPres) :=
  .set (.setOn (.raise (.setOn (.setOn (.setOn (.setOn ⟨fun _ => rfl, h.floor, rfl⟩))))))

theorem supplyValid {aux hostPres : Bool} (h : r.Upholds Rest.nothing t) : r.Upholds Rest.nothing (t.supplyValid aux hostPres) :=
    .ite (.ite h h.setPwr.islandReset) h.setPwr.setOn

theorem modReset {hostPres : Bool} (h : r.Upholds Rest.nothing t) : r.Upholds Rest.nothing (t.modReset hostPres) := by
  unfold State.modReset
  exact .ite h (.islandReset (.ite h.stopModule.finishStop h))

theorem bootFail {code : Nat} (h : r.Upholds Rest.nothing t) : r.Upholds Rest.nothing (t.bootFail code) := h.setPhase.set.pins

theorem bootBank {b : Nat} {fallback : Bool} (h : r.Upholds Rest.nothing t) : r.Upholds Rest.nothing (t.bootBank b fallback) := by
  unfold State.bootBank
  extract_lets f rec_ s1 s2
  have h1 : r.Upholds Rest.nothing s1 := h.setFlash (Nat.le_refl _)
  have h2 : r.Upholds Rest.nothing s2 := h1.setFw.fwShow.showVersion
  exact .ite h2.setOn.fwEvt h2

theorem bootTrust (h : r.Upholds Rest.nothing t) : r.Upholds Rest.nothing (t.bootTrust) := h.setFw.set.set.set.set

theorem bootDone {ok : Bool} {ms : Nat} (h : r.Upholds Rest.nothing t) : r.Upholds Rest.nothing (t.bootDone ok ms) := by
  unfold State.bootDone
  refine .ite ?_ ?_
  · exact h
  · refine .ite ?_ ?_
    · exact h.bootFail
    · refine .ite ?_ ?_
      · exact h.bootFail
      · dsimp only
        split
        · exact h.bootBank.setOn.bootFail
        · exact .setPhase (.set (.setOn (.settingEffect (.settingEffect (.bootTrust
            (.setOn (.showInv (h.bootBank.inventory Rest.nothing_blindInv))))))))

theorem powerUp (h : r.Upholds Rest.nothing t) : r.Upholds Rest.nothing (t.powerUp) :=
    .ite (.pins (.each h.clearCompute.setPhase.setOn.set.setPwr (fun _ _ hu => .ite hu.setOn.set hu))) h

theorem updateInv {f : Inv → Inv} (h : r.Upholds Rest.nothing t) : r.Upholds Rest.nothing (t.updateInv f) := by
  unfold State.updateInv
  split
  · exact h
  · exact .setBit (.showInv (.setOn (h.inventory Rest.nothing_blindInv)))

theorem startTest {x : TestIn} (h : r.Upholds Rest.nothing t) : r.Upholds Rest.nothing (t.startTest x) := by
  unfold State.startTest
  refine .ite h ?_
  extract_lets dieFail s1 s2 s3 s4 s5 s6
  have hf : ∀ bit d u, r.Upholds Rest.nothing u → r.Upholds Rest.nothing (dieFail bit d u) := fun _ _ _ hu => hu.clearDieFlag.setOn.set
  have h1 : r.Upholds Rest.nothing s1 := h.each fun _ _ hu => hu.markFailed Rest.nothing_blindInv
  have h3 : r.Upholds Rest.nothing s3 := (h1.each (hf 1) : r.Upholds Rest.nothing s2).each (hf 0)
  have h4 : r.Upholds Rest.nothing s4 := h3.each fun _ _ hu => hu.updateInv
  have h5 : r.Upholds Rest.nothing s5 := h4.each fun _ _ hu => hu.updateInv
  have h6 : r.Upholds Rest.nothing s6 := h5.each fun _ _ hu => hu.updateInv
  exact .ite h6.bootFail h6.setPhase

theorem moduleReady {ms : Nat} (h : r.Upholds Rest.nothing t) : r.Upholds Rest.nothing (t.moduleReady ms) :=
    .ite h (.pins (.setPhase (.set (.setOn (.each (.setOn (.linkSettings (.installRoutes (.anew h rfl))))
      (fun _ _ hu => .ite hu.writePortCtl hu))))))

theorem pcieReset (h : r.Upholds κ t) : r.Upholds κ t.pcieReset := by
  unfold State.pcieReset
  refine .ite h.raise ?_
  extract_lets s1
  have h1 : r.Upholds κ s1 := h.set.setOn.raise
  exact h1.frame

/-! ### Space -/

theorem store {acc a : Nat} {d : RegDesc} {locked : Bool} {v : Word} (h : r.Upholds κ t) : r.Upholds κ (t.store acc a d locked v) :=
    .ite h.wrAcc h.wr

theorem writePlanCtl {n : Nat} {v : Word} (h : r.Upholds κ t) : r.Upholds κ (t.writePlanCtl n v) := by
  unfold State.writePlanCtl
  extract_lets s1 s2 s3
  have h1 : r.Upholds κ s1 := .ite h.setOn h
  have h2 : r.Upholds κ s2 := .ite h1.clear h1
  have h3 : r.Upholds κ s3 := .ite h2.holdSet (.ite h2.holdClear h2)
  exact .ite h3.beatStop (.ite h3.beatStart h3)

theorem writeLoadCtl {v : Word} (h : r.Upholds κ t) : r.Upholds κ (t.writeLoadCtl v) :=
    .ite (.loadStart (.ite (.loadAbort (.ite h h.set.set)) (.ite h h.set.set))) (.ite (.loadAbort (.ite h h.set.set)) (.ite h h.set.set))

theorem writeWgtCtl {n : Nat} {v : Word} (h : r.Upholds κ t) : r.Upholds κ (t.writeWgtCtl n v) := by
  unfold State.writeWgtCtl
  extract_lets s1 s2 s3
  have h1 : r.Upholds κ s1 := h.wr
  have h2 : r.Upholds κ s2 := .ite h1.wgtAbort h1
  have h3 : r.Upholds κ s3 := .ite h2.wgtResume h2
  exact .ite h3.wgtCmd h3

theorem writeMoveCtl {b : Nat} {v : Word} (h : r.Upholds κ t) : r.Upholds κ (t.writeMoveCtl b v) :=
    .ite (.moveGo (.ite h.set.endMove h.set)) (.ite h.set.endMove h.set)

theorem writeStgRec {n st : Nat} {v : Word} (h : r.Upholds κ t) : r.Upholds κ (t.writeStgRec n st v) :=
    .ite (.recipeRequest (.ite (.clear (.ite h.clear h)) (.ite h.clear h))) (.set (.ite (.clear (.ite h.clear h)) (.ite h.clear h)))

theorem writeNwCfg {n st : Nat} {v : Word} (h : r.Upholds κ t) : r.Upholds κ (t.writeNwCfg n st v) := .ite h.set h.set.set

theorem writeFwuCtl {v : Word} (h : r.Upholds Rest.nothing t) : r.Upholds Rest.nothing (t.writeFwuCtl v) :=
    .ite (.fwRevert (.ite (.fwConfirm (.ite h.fwActivate h)) (.ite h.fwActivate h))) (.ite (.fwConfirm (.ite h.fwActivate h))
      (.ite h.fwActivate h))

theorem writeShipCtl {n : Nat} {v : Word} (h : r.Upholds κ t) : r.Upholds κ (t.writeShipCtl n v) := .ite h.wr h.wr.set

theorem writeEntry {e w : Nat} {v : Word} (h : r.Upholds κ t) : r.Upholds κ (t.writeEntry e w v) := .ite h.bump h.wr

theorem writeTenant {bank t' w : Nat} {v : Word} (h : r.Upholds κ t) : r.Upholds κ (t.writeTenant bank t' w v) :=
    .ite h h.wr

theorem writeChReg {acc a c : Nat} {d : RegDesc} {v : Word} (h : r.Upholds κ t) : r.Upholds κ (t.writeChReg acc a c d v) :=
    .ite h (.ite (.ite h.set h) (.ite h.wr h.store))

theorem writeApHi {acc : Nat} {v : Word} (h : r.Upholds κ t) : r.Upholds κ (t.writeApHi acc v) := .ite h (.same h rfl)

theorem writeFnReg {f : Nat} {r' : Reg} {v : Word} (h : r.Upholds κ t) : r.Upholds κ (t.writeFnReg f r' v) := by
  unfold State.writeFnReg
  refine .ite ?_ ?_
  · exact h
  · dsimp only
    split
    · exact h.setFn
    · exact h.setFn
    · exact h.setFn
    · exact h

theorem writeOwReg {n k : Nat} {x : Reg} {w : Word} (h : r.Upholds κ t) : r.Upholds κ (t.writeOwReg n k x w) := by
  unfold State.writeOwReg
  split
  · exact .ite h h.setWindow
  · exact .ite h h.setWindow
  · exact h.writeOwCtl
  · exact wrBanked h
  · exact h

theorem settleAt {a : Nat} (h : r.Upholds κ t) : r.Upholds κ (t.settleAt a) := by
  unfold State.settleAt
  split
  · exact .ite h.settle h
  · exact h

theorem writeCoreCtl {acc a p : Nat} {d : RegDesc} {v : Word} (h : r.Upholds κ t) : r.Upholds κ (t.writeCoreCtl acc a p d v) :=
    h.store.setOn.setFreeze

theorem writeReg {acc a : Nat} {d : RegDesc} {ix : List Nat} {v : Word} (h : r.Upholds Rest.nothing t) :
    r.Upholds Rest.nothing (t.writeReg acc a d ix v) := by
  unfold State.writeReg
  dsimp only
  split
  · exact .ite (.tickLoad (.ite h.clear h)) (.ite h.clear h)
  · exact h.store
  · exact h.store
  · exact h.store
  · exact h.writePlanCtl
  · exact .ite h h.store
  · exact .ite h h.store
  · exact .ite h h.store
  · exact .ite h h.store
  · exact h.writeSrcCfg
  · exact h.writePtgt
  · exact .ite h.eoi h
  · exact h.writeBase
  · exact .ite h h.store
  · exact h.pinPolarity
  · exact .each h (fun _ _ hu => .ite hu.unstick hu)
  · exact h.writeSageCtl
  · exact h.set
  · exact h.writeFwuCtl
  · split
    · exact h.settingsGet
    · exact h.settingsPut
    · exact h
  · exact .ite h.quoteRequest h
  · exact h.writeLoadCtl
  · exact .ite h h.store
  · exact .ite h h.store
  · exact .ite h h.store
  · exact .ite h h.store
  · exact .ite h h.store
  · exact h.writeChan
  · exact h.writeEnable
  · exact h.writeShare
  · exact h.writeRecord
  · exact h.writeRecord
  · exact h.writeRecord
  · exact .ite (.ite h.askReset.setOn h.askReset) (.ite h.askReset h)
  · exact .ite h.partEvt h
  · exact h.writeStgRec
  · exact h.writeNwCfg
  · exact h.writeMean
  · exact h.pfxRun
  · exact h.adpRun
  · exact h.writeShipCtl
  · exact .ite h.store h
  · exact h.writePeer
  · exact h.writeWgtCtl
  · exact h.writeVfMap
  · exact h.reqRun
  · exact .ite (.tenantSwapRequest (.ite h.clear h)) (.ite h.clear h)
  · exact h.writePortCtl
  · exact .ite h h.store
  · exact h.writeChReg
  · exact h.writeChReg
  · exact h.writeChReg
  · exact h.writeChReg
  · exact h.wrAcc
  · exact h.writeApHi
  · exact h.writeFnReg
  · exact h.writeFnReg
  · exact h.writeFnReg
  · exact h.writeOwReg
  · exact h.writeOwReg
  · exact h.writeOwReg
  · exact h.writeOwReg
  · exact h.writeMoveCtl
  · exact .ite h.store h
  · exact h.mapRun
  · exact .ite h.restoreWrite h
  · exact h.writeDefWord
  · exact h.writeC0Word
  · exact h.writeCoreCtl
  · exact h.store
  · exact h.store.stillOver
  · exact h.store.stillOver
  · exact h.store.stillOver
  · exact h.store.stillOver
  · exact h.writeEntry
  · exact h.writeTenant
  · exact h.writeTenant
  · exact h.store

theorem spaceWrite {acc a : Nat} {v : Word} {enables : Nat} (h : r.Upholds Rest.nothing t) :
    r.Upholds Rest.nothing (t.spaceWrite acc a v enables) := by
  unfold State.spaceWrite
  refine .ite ?_ ?_
  · exact h.bump
  · split
    · exact h.bump
    · exact .writeAt h (fun _ hu => .writeReg (.settleAt (.ite hu.ask hu)))

theorem latch {acc a : Nat} {v : Word} (h : r.Upholds κ t) : r.Upholds κ (t.latch acc a v) := .same h rfl

theorem latchEntry {acc e : Nat} (h : r.Upholds κ t) : r.Upholds κ (t.latchEntry acc e) :=
    .each (.same h rfl) (fun _ _ hu => hu.latch)

theorem spaceRead {acc a : Nat} (h : r.Upholds κ t) : r.Upholds κ (t.spaceRead acc a).2 := by
  unfold State.spaceRead
  extract_lets s
  have hs : r.Upholds κ s := h.settleAt
  split
  · exact .ite hs hs.bump
  · split
    · exact hs.bump
    · split
      · exact hs
      · extract_lets now v
        split
        · exact .ite hs.claim hs
        · exact .ite hs.latchEntry hs
        · split
          · split
            exacts [hs.latch, hs]
          · exact hs

theorem readBy {acc a : Nat} (h : r.Upholds κ t) : r.Upholds κ (t.readBy acc a) := .ite h.spaceRead h.spaceRead.emit

theorem pageWrite {p a : Nat} {v : Word} (h : r.Upholds κ t) : r.Upholds κ (t.pageWrite p a v) := by
  unfold State.pageWrite
  extract_lets s c
  have hs : r.Upholds κ s := h.settle
  have hc : Core.Keeps r c := hs.core
  split
  · exact hs
  · extract_lets n
    split
    · exact hs.writeWinCtl
    · exact hs.writeCnt
    · exact .ite hs (hs.setCore hc.cpSet)
    · exact .ite hs (hs.setCore hc.cpSet)
    · exact hs.setCore hc.cpWr

theorem pageRead {acc p a : Nat} (h : r.Upholds κ t) : r.Upholds κ (t.pageRead acc p a) := h.settle.emit

/-! ### HostBridge -/

theorem vfWrite {acc a : Nat} {v : Word} {enables : Nat} (h : r.Upholds Rest.nothing t) : r.Upholds Rest.nothing (t.vfWrite acc a v enables) :=
    .ite (.ite h.refuse (.ite h (.ite h.spaceWrite h.spaceWrite))) h.spaceWrite

theorem allOnes {acc addr len : Nat} (h : r.Upholds κ t) : r.Upholds κ (t.allOnes acc addr len) :=
    .each h (fun _ _ hu => hu.emit)

theorem fwdTag {acc addr module : Nat} {page write : Bool} {off bytes : Nat} (h : r.Upholds κ t) : r.Upholds κ
  (fwdTag t acc addr module page write off bytes) :=
    .same h rfl

theorem forward {acc addr m part mark off : Nat} {write : Option Word} (h : r.Upholds κ t) :
    r.Upholds κ (t.forward acc addr m part mark off write) := by
  unfold State.forward
  dsimp only
  split
  · exact h.sendTo
  · exact h.sendTo.fwdTag

theorem writeMsix {f w : Nat} {v : Word} (h : r.Upholds κ t) : r.Upholds κ (t.writeMsix f w v) := h.setFn.msixFlush

theorem windowWrite {f addr : Nat} {data : List Byte} (h : r.Upholds κ t) : r.Upholds κ (t.windowWrite f addr data) :=
    .ite h.setFn.counts h.setFn.countRows

theorem runRecord {rec_ : List Byte} {vf : Bool} (h : r.Upholds κ t) : r.Upholds κ (t.runRecord rec_ vf).1 := by
  unfold State.runRecord
  dsimp only
  split
  · exact h
  · split
    · split
      · exact h
      · exact h.reqCmd
    · split
      · exact h
      · exact h.pfxCmd
    · split
      · exact h
      · exact h.adpCmd
    · exact h.mapCmd

theorem complete {f : Nat} {r' : CmdRes} (h : r.Upholds κ t) : r.Upholds κ (t.complete f r') := by
  unfold State.complete
  dsimp only
  split
  · exact h
  · exact h.setFn.emit

theorem apertureRead {w : DWord} {x len : Nat} (h : r.Upholds κ t) : r.Upholds κ (t.apertureRead w x len).2 := by
  unfold State.apertureRead
  extract_lets part rows first
  split
  · split
    · exact h
    · exact h.each fun _ _ hu => hu.unitRead
  · split
    · exact h
    · split
      · exact h
      · exact h.settle.each fun _ _ hu => hu.eccRow

theorem apertureWrite {w : DWord} {x : Nat} {data : List Byte} {op : Nat} (h : r.Upholds κ t) :
    r.Upholds κ (t.apertureWrite w x data op).2 := by
  unfold State.apertureWrite
  dsimp only
  split
  · split
    · exact h
    · exact .each h (fun _ _ hu => hu.unitWrite)
  · split
    · exact h
    · exact .each h (fun _ _ hu => hu.inject)

theorem apertureAccess {acc k x : Nat} {q : HostReq} (h : r.Upholds κ t) : r.Upholds κ (t.apertureAccess acc k x q) := by
  unfold State.apertureAccess
  extract_lets w
  have hr : ∀ n y u, t.apertureRead w x n = (y, u) → r.Upholds κ u := by
    intro n y u hx
    have hu : r.Upholds κ (t.apertureRead w x n).2 := h.apertureRead
    rw [hx] at hu
    exact hu
  split
  · split
    · exact h.discard4
    · refine .ite h.discard4 (.ite h (.ite ?_ h.sendTo.fwdTag))
      split
      · next hx => exact (hr _ _ _ hx).emit
      · next hx => exact (hr _ _ _ hx).discard4
  · split
    · exact h.discard4
    · refine .ite h.discard4 (.ite h (.ite ?_ ?_))
      · extract_lets q
        have hq : r.Upholds κ q.2 := h.apertureWrite
        exact .ite h.discard4 (.ite hq hq.fwdTag.waitAck)
      · extract_lets q
        have hq : r.Upholds κ q.1 := h.sendTo
        exact .ite hq.fwdTag h

theorem hostLocal {acc base : Nat} {r' : HostReq} {vf : Bool} (h : r.Upholds Rest.nothing t) :
    r.Upholds Rest.nothing (t.hostLocal acc base r' vf) := by
  unfold State.hostLocal
  split
  · exact .each h (fun _ _ hu => hu.spaceRead.emit)
  · exact .each h (fun _ _ hu => .ite hu.vfWrite hu.spaceWrite)

theorem hostForward {acc m part mark base : Nat} {r' : HostReq} (h : r.Upholds κ t) :
    r.Upholds κ (t.hostForward acc m part mark base r') := by
  unfold State.hostForward
  split
  · exact .each h (fun _ _ hu => hu.forward)
  · exact .each h (fun _ _ hu => .ite hu.forward hu.bump)

theorem noTarget {acc : Nat} {r' : HostReq} (h : r.Upholds κ t) : r.Upholds κ (t.noTarget acc r') := by
  unfold State.noTarget
  split
  · exact h.allOnes
  · exact h

theorem bar0 {r' : HostReq} (h : r.Upholds Rest.nothing t) : r.Upholds Rest.nothing (t.bar0 r') := .ite h (.ite h.noTarget h.hostLocal)

theorem bar2 {r' : HostReq} (h : r.Upholds Rest.nothing t) : r.Upholds Rest.nothing (t.bar2 r') := by
  unfold State.bar2
  refine .ite ?_ ?_
  · exact h
  · refine .ite ?_ ?_
    · exact h.noTarget
    · split
      · split
        · exact h.bump.noTarget
        · exact h
      · exact .ite h.hostLocal h.hostForward

theorem msixAccess {f : Nat} {pba : Bool} {r' : HostReq} (h : r.Upholds κ t) : r.Upholds κ (t.msixAccess f pba r') := by
  unfold State.msixAccess
  split
  · exact .each h (fun _ _ hu => hu.emit)
  · exact .ite h (.each h (fun _ _ hu => .ite hu.writeMsix hu))

theorem windowAccess {f : Nat} {r' : HostReq} (h : r.Upholds κ t) : r.Upholds κ (t.windowAccess f r') := by
  unfold State.windowAccess
  split
  · exact .each h (fun _ _ hu => hu.draw.emit)
  · exact h.windowWrite

theorem bar4 {q : HostReq} (h : r.Upholds κ t) : r.Upholds κ (t.bar4 q) := by
  unfold State.bar4
  extract_lets k x
  exact .ite h (.ite h.noTarget (.ite h.apertureAccess
    (.ite h.windowAccess (.ite h.msixAccess (.ite h.msixAccess h.noTarget)))))

theorem vfPage {v m part : Nat} {q : HostReq} (h : r.Upholds Rest.nothing t) : r.Upholds Rest.nothing (t.vfPage v m part q) := by
  unfold State.vfPage
  extract_lets acc sel own one
  have hone : ∀ w d u, r.Upholds Rest.nothing u → r.Upholds Rest.nothing (one w d u) := by
    intro w d u hu
    unfold one
    dsimp only
    split
    · split
      exacts [hu, hu.emit]
    · split
      exacts [hu.writeFnReg, hu.emit]
    · split
      exacts [hu.writeFnReg, hu.emit]
    · split
      exacts [hu.writeFnReg, hu.emit]
    · split
      exacts [hu.wrAcc, hu.emit]
    · refine .ite ?_ (.ite ?_ hu.forward.forward)
      · split
        exacts [hu, hu.emit]
      · split
        exacts [hu.wrAcc.spaceWrite, hu.wrAcc.spaceRead.emit]
  split
  · exact h.each fun w u hu => hone w.1 none u hu
  · next addr data =>
    refine h.each fun w u hu => .ite ?_ hu.bump
    exact hone w.1 (some (hostWord addr data w.1)) u hu

theorem vfBar0 {v m part : Nat} {r' : HostReq} (h : r.Upholds Rest.nothing t) : r.Upholds Rest.nothing (t.vfBar0 v m part r') := by
  unfold State.vfBar0
  refine .ite ?_ ?_
  · exact .ite h.hostLocal h.hostForward
  · refine .ite ?_ ?_
    · split
      · exact .ite h.hostLocal h.hostForward
      · exact h
    · refine .ite ?_ ?_
      · split
        · exact .ite h.hostLocal h.hostForward
        · exact h
      · exact .ite h.windowAccess (.ite h.msixAccess (.ite h.msixAccess (.ite h.vfPage (.ite (.ite h.noTarget
          (.ite h.hostLocal h.hostForward)) h.noTarget))))

theorem vfAccess {v bar : Nat} {q : HostReq} (h : r.Upholds Rest.nothing t) : r.Upholds Rest.nothing (t.vfAccess v bar q) := by
  unfold State.vfAccess
  extract_lets i acc k
  exact .ite h (.ite h.noTarget (.ite h.vfBar0 (.ite h.noTarget h.apertureAccess)))

theorem heardBridge {m : Nat} (h : r.Upholds κ t) : r.Upholds κ (t.heardBridge m) := .same h rfl

theorem ctrlReceive {k : Nat} (h : r.Upholds Rest.nothing t) : r.Upholds Rest.nothing (t.ctrlReceive k) := by
  unfold State.ctrlReceive
  split
  · exact h
  · refine .ite ?_ ?_
    · exact .ite h.rxDone.heardBridge (.ite h.rxDone.heardBridge.vfWrite h.rxDone.heardBridge.spaceWrite)
    · exact .sendTo (by split; exacts [h.rxDone.heardBridge, h.rxDone.heardBridge.spaceRead])

theorem ctrlrReceive {k : Nat} (h : r.Upholds κ t) : r.Upholds κ (t.ctrlrReceive k) := by
  unfold State.ctrlrReceive
  split
  · exact h
  · dsimp only
    split
    · exact h.rxDone
    · exact .emit (.same h.rxDone rfl)

theorem eventReceive {k : Nat} (h : r.Upholds κ t) : r.Upholds κ (t.eventReceive k) := by
  unfold State.eventReceive
  split
  · exact h
  · exact .ite h.rxDone.hostEvent h.rxDone

theorem resetReceive {k : Nat} (h : r.Upholds κ t) : r.Upholds κ (t.resetReceive k) := by
  unfold State.resetReceive
  split
  · exact h
  · exact .ite h.rxDone.flrHeard h.rxDone.heardBridge.askReset.onPart

theorem outputReceive {k : Nat} (h : r.Upholds κ t) : r.Upholds κ (t.outputReceive k) := by
  unfold State.outputReceive
  split
  · exact h
  · exact .ite h.rxDone (.ite h.rxDone.complete h.rxDone.emit)

theorem takeRecord {f : Nat} (h : r.Upholds κ t) : r.Upholds κ (t.takeRecord f) := by
  unfold State.takeRecord
  refine .ite ?_ ?_
  · exact h.pageAcks.countRows
  · split
    · split
      · exact .ite h.pageAcks.countRows.complete h.pageAcks.countRows
      · exact h.pageAcks.countRows.complete
    · refine .ite ?_ ?_
      · exact h.pageAcks.countRows
      · refine .ite ?_ ?_
        · exact h.pageAcks.countRows.setFn.complete
        · refine .ite ?_ ?_
          · exact h.pageAcks.countRows.setFn.complete
          · split
            · exact h.pageAcks.countRows.setFn.complete
            · exact .ite h.pageAcks.countRows.setFn.runRecord.complete
                (.ite h.pageAcks.countRows.setFn.sendTo h.pageAcks.countRows.setFn.complete)

theorem pageReceive {k : Nat} (h : r.Upholds κ t) : r.Upholds κ (t.pageReceive k) := by
  unfold State.pageReceive
  split
  · exact h
  · extract_lets f s1 tag s2 w x op q u y q'
    have h1 : r.Upholds κ s1 := h.rxDone
    have h2 : r.Upholds κ s2 := h1.heardBridge
    have hq : r.Upholds κ q.2 := by
      unfold q
      split
      exacts [h2.apertureWrite, h2]
    have hq' : r.Upholds κ q'.2 := by
      unfold q'
      split
      exacts [h2.apertureRead, h2]
    refine .ite h1.pageReply (.ite h (.ite (.ite ?_ hq.sendTo) hq'.sendTo))
    exact .waitAck hq.host

theorem cmdReceive {k : Nat} (h : r.Upholds κ t) : r.Upholds κ (t.cmdReceive k) := by
  unfold State.cmdReceive
  split
  · exact h
  · exact .ite h h.rxDone.heardBridge.runRecord.sendTo

theorem readTimeout {tag : Nat} (h : r.Upholds κ t) : r.Upholds κ (t.readTimeout tag) := by
  unfold State.readTimeout
  split
  · exact h
  · exact .emit (.bump (.same h rfl))

theorem configAccess {f : Nat} {r' : CfgReq} (h : r.Upholds κ t) : r.Upholds κ (t.configAccess f r') := by
  unfold State.configAccess
  refine .ite ?_ ?_
  · exact h
  · refine .ite ?_ ?_
    · exact h.emit
    · exact .emit (.msixFlushAll (by split; exacts [h, h.setFn, h.setFn, .ite (.set (.same h rfl)) h]))

theorem pcieUp (h : r.Upholds κ t) : r.Upholds κ (t.pcieUp) := .ite h.setOn h

/-! ### Jtag -/

theorem tapClock {trst rising tms tdi : Bool} {pins : List Bool} (h : r.Upholds Rest.nothing t) :
    r.Upholds Rest.nothing (t.tapClock trst rising tms tdi pins) := by
  unfold State.tapClock
  refine .ite ?_ ?_
  · exact h
  · refine .ite ?_ ?_
    · exact .anew h rfl
    · refine .ite ?_ ?_
      · exact .anew h rfl
      · dsimp only
        split
        · exact .emit (.anew h rfl)
        · exact .anew h rfl

end State.Upholds

end Sys2Proof.Machine

/-!
The effects of the core instructions (R74 to R99) and the step of the machine: each keeps the sparse memories canonical and the
rollback floor.
-/

namespace Sys2Proof.Machine

open Sys2Proof

variable {r t : State} {κ : Rest → Rest} {w : DWord} {p n : Nat} {e : Engine}

/-! ## The effects of the plans -/

namespace Plan.Sound

theorem withWait {c : Core} {q : Plan} (h : q.Sound r) : (withWait c e w q).Sound r := by
  unfold Plan.Sound
  rw [(withWait_shape c e w q).2.2.2.1]
  exact h

/-- A plan is sound where its effect upholds. -/
theorem of {a : Option Nat} {b : Bool} {c : List (List Nat)} {d : RowUse} {f g i : Nat} {j : Option Nat} {k : Nat} {l : Bool}
    {m : Option (Nat × List LoopFrame)} {x : Nat → State → State} (h : ∀ n u, r.Upholds Rest.nothing u → r.Upholds Rest.nothing (x n u)) :
    Plan.Sound r ⟨a, b, c, d, f, g, i, j, k, l, m, x⟩ := h

/-- A plan whose work is its row accesses. -/
theorem still {a : Option Nat} {b : Bool} {c : List (List Nat)} {d : RowUse} {f g i : Nat} {j : Option Nat} {k : Nat} {l : Bool}
    {m : Option (Nat × List LoopFrame)} : Plan.Sound r ⟨a, b, c, d, f, g, i, j, k, l, m, fun _ s => s⟩ := of fun _ _ hu => hu

/-- A plan that changes its core only. -/
theorem onCore {a : Option Nat} {b : Bool} {c : List (List Nat)} {d : RowUse} {f g i : Nat} {j : Option Nat} {k : Nat} {l : Bool}
    {m : Option (Nat × List LoopFrame)} {x : Nat → Core → Core} (h : ∀ n c, c.Keeps r → (x n c).Keeps r) :
    Plan.Sound r ⟨a, b, c, d, f, g, i, j, k, l, m, fun n s => s.onCore p (x n)⟩ := of fun n _ hu => hu.onCore (h n)

theorem nop : (planNop e w p t n).Sound r := withWait still
theorem wait : (planWait w t n).Sound r := still
theorem setw : (planSetw e w p t n).Sound r := withWait (onCore fun _ _ hc => hc.later)
theorem loop : (planLoop e w p t n).Sound r := withWait still
theorem loopr : (planLoopr e w p t n).Sound r := withWait still
theorem br : (planBr e w p t n).Sound r := withWait still
theorem sig : (planSig e w p t n).Sound r := withWait (onCore fun _ _ hc => hc.later)
theorem swt : (planSwt e w p t n).Sound r := withWait (onCore fun _ _ hc => hc.same rfl)
theorem seta : (planSeta e w p t n).Sound r := withWait (onCore fun _ _ hc => hc.later)
theorem adda : (planAdda e w p t n).Sound r := withWait (onCore fun _ _ hc => hc.later)
theorem lda : (planLda e w p t n).Sound r := withWait still
theorem sbrel : (planSbrel e w p t n).Sound r := withWait (onCore fun _ _ hc => hc.release)

theorem eob : (planEob e w p t n).Sound r :=
  withWait (of fun _ _ hu => (hu.onCore fun _ hc => hc.onEng).reportResidue)

theorem loadLocal {strided : Bool} : (planLocal strided w p t n).Sound r :=
  withWait (onCore fun _ _ hc => hc.markPending)

theorem ldr : (planLdr w p t n).Sound r := withWait (of fun _ _ hu => hu.sendRead)
theorem ldb : (planLdb w p t n).Sound r := withWait (of fun _ _ hu => hu.sendRead)

theorem mxl : (planMxl w p t n).Sound r := by
  unfold planMxl
  dsimp only
  split
  · exact withWait still
  · split
    · exact withWait (onCore fun _ _ hc => .ite hc.writeX.release hc.writeX)
    · exact withWait (onCore fun _ _ hc => Core.Keeps.writeX (Core.Keeps.later (hc.same rfl)))

theorem mma : (planMma w p t n).Sound r := by
  unfold planMma
  dsimp only
  split
  · exact withWait (onCore fun _ _ hc => hc.mmaGo)
  · exact withWait (onCore fun _ _ hc => .ite hc.mmaGo.later.release hc.mmaGo.later)

theorem mdr : (planMdr w p t n).Sound r := by
  unfold planMdr
  dsimp only
  split
  · refine withWait (onCore fun _ c hc => ?_)
    have h1 : Core.Keeps r { c with rqUsed := c.rqUsed + 1 } := hc.same rfl
    exact .ite h1.later.clearAcc h1.later
  · exact withWait (onCore fun _ _ hc => .ite hc.clearAcc hc)

theorem mclr : (planMclr w p t n).Sound r := withWait (of fun _ _ hu => hu.clearAll)
theorem mscw : (planMscw w p t n).Sound r := withWait still
theorem setxp : (planSetxp w p t n).Sound r := withWait (onCore fun _ _ hc => hc.later)

theorem lanes {lat occ : Nat} {f : Core → List (Nat × VReg)} : (planLanes lat occ w p f t n).Sound r :=
  withWait (onCore fun _ _ hc => hc.laters)

theorem vld : (planVld w p t n).Sound r := withWait still

theorem vlds : (planVlds w p t n).Sound r :=
  withWait (onCore fun _ _ hc => .ite hc.later.release hc.later)

theorem vst : (planVst w p t n).Sound r := withWait still

theorem vrq : (planVrq w p t n).Sound r := by
  refine withWait (onCore fun _ c hc => ?_)
  split
  · exact hc
  · exact Core.Keeps.laters (Core.Keeps.later (hc.same rfl))

theorem near {f : Nat → FV → Nat} : (planNear f w p t n).Sound r :=
  withWait (of fun _ u hu => (hu.frame : r.Upholds Rest.nothing { u with oracle := u.oracle + 64 }).onCore fun _ hc => hc.later)

theorem vqnt : (planVqnt w p t n).Sound r := by
  refine withWait (onCore fun _ c hc => ?_)
  have h1 : Core.Keeps r { c with xqUsed := c.xqUsed + 1 } := hc.same rfl
  exact Core.Keeps.laters (Core.Keeps.laters (.ite (Core.Keeps.later (.ite h1.later hc)) (.ite h1.later hc)))

theorem vscs : (planVscs w p t n).Sound r := withWait (onCore fun _ _ hc => hc.later)
theorem vcry : (planVcry w p t n).Sound r := withWait (onCore fun _ _ hc => .ite hc.later hc.laters)
theorem vnw : (planVnw w p t n).Sound r := withWait (of fun _ _ hu => hu.sendPart.onCore fun _ hc => hc.same rfl)

theorem swr : (planSwr w p t n).Sound r := of fun _ _ hu => (hu.onCore fun _ hc => hc.afterSend).sendRows

theorem swb : (planSwb w p t n).Sound r := by
  refine withWait (of fun n u hu => ?_)
  exact State.Upholds.sendRows (hu.onCore fun _ hc => (hc.afterSend).same rfl)

theorem semt : (planSemt w p t n).Sound r := withWait still

end Plan.Sound

end Sys2Proof.Machine

/-!
A command and a step: each upholds what it starts from, so that no step lowers the rollback floor or leaves a sparse memory that is
not canonical (05_scratchpad, 07_bays, 19_firmware_trust R528).
-/

namespace Sys2Proof.Machine

open Sys2Proof

variable {r t : State} {κ : Rest → Rest} {e : Engine}

/-! ## A command -/

theorem answers_next (h : r.Upholds Rest.nothing t) : Answers r (.next t) := h

theorem answers_engineStep {k : Bool} (h : r.Upholds Rest.nothing t) : Answers r (engineStep k t) := by
  cases k
  exacts [trivial, h]

theorem answers_issue {k : Bool} {x : At} {plan : State → Nat → Plan} (h : r.Upholds Rest.nothing t)
    (hq : ∀ u n, (plan u n).Sound r) : Answers r (engineStep k (t.issue x e plan)) :=
  answers_engineStep (h.issue hq)

/-- What a command leaves keeps the sparse memories canonical and the rollback floor. -/
theorem exec_upholds (i : Instr) (h : r.Upholds Rest.nothing t) : Answers r (exec i t) := by
  cases i with
  | tick => exact answers_next (.ite h.tickWork h)
  | millisecondMark => exact answers_next h.millisecondMark
  | tickLoad => exact answers_next (.writeAt h (fun _ hu => hu.tickLoad))
  | tickLoadApply => exact answers_next (.ite h.tickWork h)
  | beatStart => exact answers_next (.ite (.writeAt h (fun _ hu => hu.beatStart)) h)
  | firstBeatBegin => exact answers_next (.ite h.resetBegin.firstBeat h)
  | beatStop => exact answers_next (.ite (.writeAt h (fun _ hu => hu.beatStop)) h)
  | holdSet => exact answers_next (.ite (.writeAt h (fun _ hu => hu.holdSet)) h)
  | holdClear => exact answers_next (.ite (.writeAt h (fun _ hu => hu.holdClear)) h)
  | holdEnd => exact answers_next (.ite h.resetBegin.holdEnd h)
  | beatDecision => exact answers_next (.ite h.beatDecision h)
  | planOverrun => exact answers_next (.ite h.planOverrun h)
  | beatBoundary => exact answers_next (.ite h.resetBegin.boundary h)
  | statsWindowBoundary => exact answers_next (.ite h.resetBegin.windowBoundary h)
  | nop => exact answers_issue h fun _ _ => Plan.Sound.nop
  | eob => exact answers_issue h fun _ _ => Plan.Sound.eob
  | wait => exact answers_issue h fun _ _ => Plan.Sound.wait
  | setw => exact answers_issue h fun _ _ => Plan.Sound.setw
  | loop => exact answers_issue h fun _ _ => Plan.Sound.loop
  | loopr => exact answers_issue h fun _ _ => Plan.Sound.loopr
  | br => exact answers_issue h fun _ _ => Plan.Sound.br
  | sig => exact answers_issue h fun _ _ => Plan.Sound.sig
  | swt => exact answers_issue h fun _ _ => Plan.Sound.swt
  | seta => exact answers_issue h fun _ _ => Plan.Sound.seta
  | adda => exact answers_issue h fun _ _ => Plan.Sound.adda
  | lda => exact answers_issue h fun _ _ => Plan.Sound.lda
  | sbrel => exact answers_issue h fun _ _ => Plan.Sound.sbrel
  | ldl => exact answers_issue h fun _ _ => Plan.Sound.loadLocal
  | lds => exact answers_issue h fun _ _ => Plan.Sound.loadLocal
  | ldr => exact answers_issue h fun _ _ => Plan.Sound.ldr
  | ldb => exact answers_issue h fun _ _ => Plan.Sound.ldb
  | mxl => exact answers_issue h fun _ _ => Plan.Sound.mxl
  | mma => exact answers_issue h fun _ _ => Plan.Sound.mma
  | mdr => exact answers_issue h fun _ _ => Plan.Sound.mdr
  | mclr => exact answers_issue h fun _ _ => Plan.Sound.mclr
  | mscw => exact answers_issue h fun _ _ => Plan.Sound.mscw
  | setxp => exact answers_issue h fun _ _ => Plan.Sound.setxp
  | vld => exact answers_issue h fun _ _ => Plan.Sound.vld
  | vlds => exact answers_issue h fun _ _ => Plan.Sound.vlds
  | vst => exact answers_issue h fun _ _ => Plan.Sound.vst
  | vrq => exact answers_issue h fun _ _ => Plan.Sound.vrq
  | vadd => exact answers_issue h fun _ _ => Plan.Sound.lanes
  | vsub => exact answers_issue h fun _ _ => Plan.Sound.lanes
  | vmul => exact answers_issue h fun _ _ => Plan.Sound.lanes
  | vfma => exact answers_issue h fun _ _ => Plan.Sound.lanes
  | vmax => exact answers_issue h fun _ _ => Plan.Sound.lanes
  | vmin => exact answers_issue h fun _ _ => Plan.Sound.lanes
  | vcvt => exact answers_issue h fun _ _ => Plan.Sound.lanes
  | vexp => exact answers_issue h fun _ _ => Plan.Sound.near
  | vrcp => exact answers_issue h fun _ _ => Plan.Sound.near
  | vrsq => exact answers_issue h fun _ _ => Plan.Sound.near
  | vred => exact answers_issue h fun _ _ => Plan.Sound.lanes
  | vrot => exact answers_issue h fun _ _ => Plan.Sound.lanes
  | vqnt => exact answers_issue h fun _ _ => Plan.Sound.vqnt
  | vscs => exact answers_issue h fun _ _ => Plan.Sound.vscs
  | vcry => exact answers_issue h fun _ _ => Plan.Sound.vcry
  | vnw => exact answers_issue h fun _ _ => Plan.Sound.vnw
  | vmovi => exact answers_issue h fun _ _ => Plan.Sound.lanes
  | swr => exact answers_issue h fun _ _ => Plan.Sound.swr
  | swb => exact answers_issue h fun _ _ => Plan.Sound.swb
  | semt => exact answers_issue h fun _ _ => Plan.Sound.semt
  | rowLand => exact answers_next (.ite h.rowLand h)
  | remoteReadServe => exact answers_next h.remoteServe
  | readReplyLand => exact answers_next h.replyLand
  | bayWriteAck => exact answers_next h.bayAck
  | bayRefusalNotice => exact answers_next h.refusalNotice
  | scratchpadPatrolRead => exact answers_next (.ite h.padPatrol h)
  | spcWinCtlWrite => exact answers_next (.ite h.writeWinCtl h)
  | spcCntWrite => exact answers_next (.ite h.writeCnt h)
  | nwPartArrive => exact answers_next h.nwArrive
  | recipeRequest => exact answers_next (.ite (.writeAt h (fun _ hu => hu.recipeRequest)) h)
  | stgMeanWrite => exact answers_next (.ite (.writeAt h (fun _ hu => hu.writeMean)) h)
  | hopCrcRetry => exact answers_next (.ite h.hopRetry h)
  | routeSwapRequest => exact answers_next (.ite (.writeAt h (fun _ hu => hu.routeSwapRequest)) h)
  | defaultTableSwap => exact answers_next (.ite (.ite h.swapDefault h) h)
  | c0TableSwap => exact answers_next (.ite (.ite h.swapC0 h) h)
  | edgeOverBudget => exact answers_next (.ite (.ite h.edgeOver h) h)
  | edgeBudgetRecover => exact answers_next (.ite (.ite h.edgeRecover h) h)
  | bayReadRequest => exact answers_next h.bayRead
  | bayWriteRow => exact answers_next h.bayWrite
  | bayRefreshTick => exact answers_next (.ite h.bayRefresh h)
  | bayPatrolRead => exact answers_next (.ite h.bayPatrol h)
  | mapAlloc => exact answers_next (.ite (.writeAt h (fun _ hu => hu.mapRun)) h)
  | mapFree => exact answers_next (.ite (.writeAt h (fun _ hu => hu.mapRun)) h)
  | mapSetnext => exact answers_next (.ite (.writeAt h (fun _ hu => hu.mapRun)) h)
  | mapSetfill => exact answers_next (.ite (.writeAt h (fun _ hu => hu.mapRun)) h)
  | pageRelease => exact answers_next h.pageRelease
  | moveGo => exact answers_next (.ite (.writeAt h (fun _ hu => hu.ask.moveGo)) h)
  | moveCopyRow => exact answers_next (.ite h.moveCopy h)
  | moveSwitch => exact answers_next (.ite (.moveIndexed h (fun _ hu => hu.moveSwitch)) h)
  | moveAbort => exact answers_next (.ite (.writeAt h (fun _ hu => hu.endMove)) h)
  | loadCheck => exact answers_next (.ite (.writeAt h (fun _ hu => hu.loadWrite)) h)
  | loadLoad => exact answers_next (.ite (.writeAt h (fun _ hu => hu.loadWrite)) h)
  | loadActivate => exact answers_next (.ite (.writeAt h (fun _ hu => hu.loadWrite)) h)
  | loadUnload => exact answers_next (.ite (.writeAt h (fun _ hu => hu.loadWrite)) h)
  | loadAbort => exact answers_next (.writeAt h (fun _ hu => hu.loadAbort))
  | loadJobEnd => exact answers_next h.loadJobEnd
  | loadChanWrite => exact answers_next (.ite (.writeAt h (fun _ hu => hu.writeChan)) h)
  | reqSubmit => exact answers_next (.ite (.writeAt h (fun _ hu => hu.reqRun)) h)
  | reqCancel => exact answers_next (.ite (.writeAt h (fun _ hu => hu.reqRun)) h)
  | reqPause => exact answers_next (.ite (.writeAt h (fun _ hu => hu.reqRun)) h)
  | reqResume => exact answers_next (.ite (.writeAt h (fun _ hu => hu.reqRun)) h)
  | reqRelease => exact answers_next (.ite (.writeAt h (fun _ hu => hu.reqRun)) h)
  | reqDeadline => exact answers_next (.ite (.writeAt h (fun _ hu => hu.reqRun)) h)
  | tenantSwapRequest => exact answers_next (.ite (.writeAt h (fun _ hu => hu.askFor.tenantSwapRequest)) h)
  | pfxCreate => exact answers_next (.ite (.writeAt h (fun _ hu => hu.pfxRun)) h)
  | pfxDestroy => exact answers_next (.ite (.writeAt h (fun _ hu => hu.pfxRun)) h)
  | prefixFree => exact answers_next (.ite h.prefixFree h)
  | shipPeerWrite => exact answers_next (.ite (.writeAt h (fun _ hu => hu.writePeer)) h)
  | shipOpenReceive => exact answers_next h.shipOpen
  | shipOpenDequeue => exact answers_next (.ite h.shipDequeue h)
  | shipDataReceive => exact answers_next h.shipData
  | shipEndReceive => exact answers_next h.shipEnd
  | shipGroupWaitExpire => exact answers_next (.ite h.shipWaitEnd h)
  | shipAckReceive => exact answers_next h.shipAck
  | shipNackReceive => exact answers_next h.shipNack
  | shipAbortReceive => exact answers_next h.shipAbort
  | shipLimitExpire => exact answers_next (.ite h.shipLimit h)
  | wgtStage => exact answers_next (.ite (.writeAt h (fun _ hu => hu.wgtWrite)) h)
  | wgtSwap => exact answers_next (.ite (.writeAt h (fun _ hu => hu.wgtWrite)) h)
  | wgtReload => exact answers_next (.ite (.writeAt h (fun _ hu => hu.wgtWrite)) h)
  | wgtRepair => exact answers_next (.ite (.writeAt h (fun _ hu => hu.wgtWrite)) h)
  | wgtDiscard => exact answers_next (.ite (.writeAt h (fun _ hu => hu.wgtWrite)) h)
  | wgtAbort => exact answers_next (.ite (.writeAt h (fun _ hu => hu.wgtAbort)) h)
  | wgtResume => exact answers_next (.ite (.writeAt h (fun _ hu => hu.wgtResume)) h)
  | wgtFillComplete => exact answers_next (.ite (.wgtRuns h (fun _ hu => hu.fillComplete)) h)
  | wgtReloadComplete => exact answers_next (.ite (.wgtRuns h (fun _ hu => hu.reloadComplete)) h)
  | wgtGroupWaitExpire => exact answers_next (.ite (.wgtRuns h (fun _ hu => hu.wgtWait)) h)
  | wreqReceive => exact answers_next h.wreq
  | wdataReceive => exact answers_next h.wdata
  | wendReceive => exact answers_next h.wend
  | wrefuseReceive => exact answers_next h.wrefuse
  | wabortReceive => exact answers_next h.wabort
  | adpAdd => exact answers_next (.ite (.writeAt h (fun _ hu => hu.adpRun)) h)
  | adpReplace => exact answers_next (.ite (.writeAt h (fun _ hu => hu.adpRun)) h)
  | adpRemove => exact answers_next (.ite (.writeAt h (fun _ hu => hu.adpRun)) h)
  | partEnableWrite => exact answers_next (.ite (.writeAt h (fun _ hu => hu.writeEnable)) h)
  | partShareWrite => exact answers_next (.ite (.writeAt h (fun _ hu => hu.writeShare)) h)
  | partRstSoft => exact answers_next (.ite (.writeAt h (fun _ hu => hu.askFor.askReset)) h)
  | partRstHard => exact answers_next (.ite (.writeAt h (fun _ hu => .ite hu hu.askFor.askReset)) h)
  | partResetBegin => exact answers_next (.ite h.resetBegin h)
  | partResetDrainEnd => exact answers_next (.ite h.resetCores h)
  | partResetRelease => exact answers_next (.ite h.resetRelease h)
  | partEvtSet => exact answers_next (.ite (.writeAt h (fun _ hu => hu.partEvt)) h)
  | vfMapWrite => exact answers_next (.ite (.writeAt h (fun _ hu => hu.writeVfMap)) h)
  | vfFlr => exact answers_next (.ite h.vfFlr h)
  | vfFlrComplete => exact answers_next (.ite h.vfFlrDone h)
  | vfFlrTimeout => exact answers_next (.ite h.vfFlrTimeout h)
  | evcLevelChange => exact answers_next (.ite h.seeLevel h)
  | evcClaim => exact answers_next (.ite h.claim h)
  | evcEoi => exact answers_next (.ite h.eoi h)
  | evcEoiPop => exact answers_next (.ite h.eoiPop h)
  | evcStuckClear => exact answers_next (.ite h.unstick h)
  | extEvtPinChange => exact answers_next (.ite h.pinChange h)
  | pinFilterExpire => exact answers_next (.ite h.pinFilter h)
  | pinPolarityWrite => exact answers_next (.ite h.pinPolarity h)
  | portTrain => exact answers_next (.ite h.portTrain h)
  | portTrainRetryExpire => exact answers_next (.ite h.portRetry h)
  | pcsLockLoss => exact answers_next (.ite h.lockLoss h)
  | frameReceive => exact answers_next (.ite h.frameReceive h)
  | pfcReceive => exact answers_next (.ite h.pfcReceive h)
  | helloReceive => exact answers_next h.helloReceive
  | helloSendTimer => exact answers_next (.ite h.helloTimer h)
  | connHelloTimeout => exact answers_next (.ite h.connFail h)
  | ackReceive => exact answers_next h.ackReceive
  | linkRtoExpire => exact answers_next (.ite h.rtoExpire h)
  | rowsFrameClose => exact answers_next (.ite h.rowsClose h)
  | rowsReceive => exact answers_next h.rowsReceive
  | ctrlReceive => exact answers_next h.ctrlReceive
  | ctrlrReceive => exact answers_next h.ctrlrReceive
  | eventReceive => exact answers_next h.eventReceive
  | timeReceive => exact answers_next h.timeReceive
  | bedsyncEdge => exact answers_next h.bedsync
  | resetReceive => exact answers_next h.resetReceive
  | outputReceive => exact answers_next h.outputReceive
  | pageReceive => exact answers_next h.pageReceive
  | cmdReceive => exact answers_next h.cmdReceive
  | hostBar0Access => exact answers_next h.bar0
  | hostBar2Access => exact answers_next h.bar2
  | hostBar4Access => exact answers_next h.bar4
  | hostVfAccess => exact answers_next (.ite h.vfAccess h)
  | forwardReadTimeout => exact answers_next h.readTimeout
  | linkHbApHiWrite => exact answers_next (.ite (.writeAt h (fun _ hu => hu.writeApHi)) h)
  | cmdRecordTake => exact answers_next (.ite h.takeRecord h)
  | outputQueueDrain => exact answers_next (.ite h.drainOut h)
  | pcieFundamentalReset => exact answers_next h.pcieReset
  | sageReport => exact answers_next h.sageReport
  | sageSelftest => exact answers_next h.selfTest
  | restartDrainEnd => exact answers_next (.ite h.drainEnd h)
  | coreProbeComplete => exact answers_next (.ite h.probeDone h)
  | spareReloadComplete => exact answers_next (.ite h.reloadDone h)
  | restartReplayBegin => exact answers_next (.ite h.resetBegin.replayBegin h)
  | inventoryFlashWrite => exact answers_next h.flashInv
  | ccLockstepMismatch => exact answers_next (.ite h.ccMismatch h)
  | ccRestart => exact answers_next (.ite h.ccRestart h)
  | dieClockFault => exact answers_next (.ite h.clockFault h)
  | dieClockRecover => exact answers_next (.ite h.clockRecover h)
  | dieClockTimeout => exact answers_next (.ite h.clockTimeout h)
  | dieSwitchoff => exact answers_next (.ite h.dieSwitchOff h)
  | foldRun => exact answers_next (.ite h.foldRun h)
  | dieRestore => exact answers_next (.ite h.dieRestore h)
  | diePwrRestoreWrite => exact answers_next (.ite (.writeAt h (fun _ hu => hu.askFor.restoreWrite)) h)
  | supplyValid => exact answers_next h.supplyValid
  | sagBegin => exact answers_next h.sagBegin
  | sagEnd => exact answers_next h.sagEnd
  | supplyOutOfRange => exact answers_next h.outOfRange
  | pwrEnChange => exact answers_next h.pwrEn
  | orderedStop => exact answers_next (.ite h.orderedStop h)
  | powerUpStaging => exact answers_next h.powerUp
  | railFault => exact answers_next (.ite h.railFault h)
  | thermalCrossing => exact answers_next (.ite h.thermalCross h)
  | brake => exact answers_next h.brake
  | islandReset => exact answers_next (.ite h.islandReset h)
  | modReset => exact answers_next h.modReset
  | bootVerifyDone => exact answers_next h.bootDone
  | startupSelfTest => exact answers_next h.startTest
  | moduleReady => exact answers_next h.moduleReady
  | svcConnect => exact answers_next h.svcConnect
  | svcOffer => exact answers_next (.svc h (fun _ hu => hu.svcOffer))
  | svcSignature => exact answers_next (.svc h (fun _ hu => hu.svcSignature))
  | svcBody => exact answers_next (.svc h (fun _ hu => hu.svcBody))
  | svcCommit => exact answers_next (.svc h (fun _ hu => hu.svcCommit))
  | fwActivate => exact answers_next (.ite h.fwActivate h.askFor.fwActivate)
  | fwActivationHeld => exact answers_next h.fwHeld
  | fwConfirm => exact answers_next h.fwConfirm
  | fwRevert => exact answers_next (.ite h.fwRevert h.askFor.fwRevert)
  | fwProvisionalTimeout => exact answers_next h.fwTimeout
  | svcStatus => exact answers_next (.svc h (fun _ hu => hu.svcStatus))
  | svcIdcert => exact answers_next (.svc h (fun _ hu => hu.result))
  | settingsGet => exact answers_next h.settingsGet
  | settingsPut => exact answers_next h.settingsPut
  | quoteRequest => exact answers_next (.ite h.quoteRequest h.askFor.quoteRequest)
  | quoteComplete => exact answers_next h.quoteComplete
  | attestKeyRotate => exact answers_next h.keyRotate
  | registerWrite => exact answers_next ((by split; exacts [h.spaceWrite, .ite h.pageWrite h]))
  | latchingRead => exact answers_next ((by split; exacts [.ite h.readBy h, .ite h.pageRead h]))
  | pcieConfigAccess => exact answers_next (.ite h.configAccess h)
  | pcieLinkUp => exact answers_next h.pcieUp
  | portLinkUp => exact answers_next (.ite h.portLinkUp h)
  | svcDisconnect => exact answers_next h.svcDisconnect
  | svcLinkUp => exact answers_next h.setFw
  | fwNvWaitTimeout => exact answers_next h.fwNvTimeout
  | ioDieFault => exact answers_next (.ite h.raise h)
  | wreqServeDone => exact answers_next h.wreqDone
  | wgtHomeReady => exact answers_next (.ite (.wgtRuns h (fun _ hu => hu.homeReady)) h)
  | jtagTapClock => exact answers_next h.tapClock

/-! ## A step -/

/-- A step upholds what it starts from, also where the queue is empty. -/
theorem step_upholds (s : State) : Answers s (step s) := by
  unfold step
  split
  · exact State.Upholds.refl
  · exact exec_upholds _ (State.Upholds.refl (κ := id)).anew

theorem upholds_of_step {s t : State} (h : step s = .next t) : s.Upholds Rest.nothing t := by
  have hs := step_upholds s
  rw [h] at hs
  exact hs

/-- Settles O59: the canonical form is one half of what a step upholds. -/
theorem everyStepKeepsCanonicalForm : Obligations.EveryStepKeepsCanonicalForm := by
  unfold Obligations.EveryStepKeepsCanonicalForm
  exact fun _ _ hs h => (upholds_of_step h).canonical hs

/-- Settles O60: the rollback floor is the other half. -/
theorem rollbackFloorNeverFalls : Obligations.RollbackFloorNeverFalls := by
  unfold Obligations.RollbackFloorNeverFalls
  exact fun _ _ h => (upholds_of_step h).floor


end Sys2Proof.Machine

/-!
The issue of an instruction, for the statements about the engines (03_core_engines R74 to R99): the core when its effect takes place,
one lemma for an instruction that claims no bank, and that a core keeps what the program counter and the wait do not touch.
-/

namespace Sys2Proof.Machine

open Sys2Proof

variable {s : State} {c : Core} {x : At} {e : Engine} {w : DWord} {q : Plan} {t : Nat} {mm : Bool}

/-! ## Readings that updates of other parts leave as they are -/

@[simp] theorem State.core_report (r : Report) (p : Nat) : (s.report r).core p = s.core p := rfl
@[simp] theorem State.core_wr (a : Nat) (v : Word) (p : Nat) : (s.wr a v).core p = s.core p := rfl
@[simp] theorem State.core_set (f : FieldRef) (v p : Nat) : (s.set f v).core p = s.core p := rfl
@[simp] theorem State.core_strike (a : Nat) (g : Word → Word) (p : Nat) : (s.strike a g).core p = s.core p := rfl
@[simp] theorem State.core_bump (f : FieldRef) (n p : Nat) : (s.bump f n).core p = s.core p := rfl
@[simp] theorem State.core_at (t p : Nat) : (s.at t).core p = s.core p := rfl

/-! ## Engine operations -/

/-- A command that is an engine step of a word that spells it answers the step's state. -/
theorem runs_of_step {i : Instr} {k : Bool} {u : State} {P : State → Prop} (h : exec i s = engineStep k u) (hk : k = true)
    (hP : P u) : Runs i s P :=
  ⟨u, by rw [h, hk]; rfl, hP⟩

/-- The core as the effect of an instruction finds it: the wait taken from its counter, the program moved on, the engine occupied for
`extra` cycles more than the plan says (R74, R76, R90, R153). -/
def Core.issued (c : Core) (e : Engine) (q : Plan) (t extra : Nat) (mm : Bool) : Core :=
  (match q.cnt with
    | some k => if q.take then (c.prune t).cpSet (SPC_CNT_value k) ((c.prune t).cpGet (SPC_CNT_value k) - q.amount) else c.prune t
    | none => c.prune t).onEng e (fun x =>
      let np := match q.jump with | some j => j | none => nextPc x.loops x.pc
      { x with
        pc := np.1 % 16384, loops := np.2, ready := t + q.occ + extra
        heldSum := x.heldSum + (t - x.ready) + extra, residue := x.residue || mm })

/-- A reading of a core that neither the wait, the program counter nor the pruning of old claims changes is what it was. -/
theorem Core.issued_same {α : Type} (f : Core → α) (hcp : ∀ c l, f { c with cp := l } = f c)
    (hcl : ∀ c l, f { c with claims := l } = f c) (heng : ∀ c e x, f (Core.setEng c e x) = f c) (extra : Nat) :
    f (c.issued e q t extra mm) = f c := by
  have h0 : f (c.prune t) = f c := hcl c _
  have h1 : ∀ r v, f ((c.prune t).cpSet r v) = f c := fun r v => (hcp (c.prune t) _).trans h0
  unfold Core.issued
  dsimp only
  refine (heng _ e _).trans ?_
  split
  · split
    exacts [h1 _ _, h0]
  · exact h0

section
variable {extra : Nat}

@[simp] theorem Core.issued_pend : (c.issued e q t extra mm).pend = c.pend :=
  Core.issued_same Core.pend (fun _ _ => rfl) (fun _ _ => rfl) (fun _ e _ => by cases e <;> rfl) extra
@[simp] theorem Core.issued_sb : (c.issued e q t extra mm).sb = c.sb :=
  Core.issued_same Core.sb (fun _ _ => rfl) (fun _ _ => rfl) (fun _ e _ => by cases e <;> rfl) extra
@[simp] theorem Core.issued_tags : (c.issued e q t extra mm).tags = c.tags :=
  Core.issued_same Core.tags (fun _ _ => rfl) (fun _ _ => rfl) (fun _ e _ => by cases e <;> rfl) extra
@[simp] theorem Core.issued_sig : (c.issued e q t extra mm).sig = c.sig :=
  Core.issued_same Core.sig (fun _ _ => rfl) (fun _ _ => rfl) (fun _ e _ => by cases e <;> rfl) extra
@[simp] theorem Core.issued_marks : (c.issued e q t extra mm).marks = c.marks :=
  Core.issued_same Core.marks (fun _ _ => rfl) (fun _ _ => rfl) (fun _ e _ => by cases e <;> rfl) extra
@[simp] theorem Core.issued_pad : (c.issued e q t extra mm).pad = c.pad :=
  Core.issued_same Core.pad (fun _ _ => rfl) (fun _ _ => rfl) (fun _ e _ => by cases e <;> rfl) extra
@[simp] theorem Core.issued_runs : (c.issued e q t extra mm).runs = c.runs :=
  Core.issued_same Core.runs (fun _ _ => rfl) (fun _ _ => rfl) (fun _ e _ => by cases e <;> rfl) extra
@[simp] theorem Core.issued_ranges : (c.issued e q t extra mm).ranges = c.ranges :=
  Core.issued_same Core.ranges (fun _ _ => rfl) (fun _ _ => rfl) (fun _ e _ => by cases e <;> rfl) extra
@[simp] theorem Core.issued_xq : (c.issued e q t extra mm).xq = c.xq :=
  Core.issued_same Core.xq (fun _ _ => rfl) (fun _ _ => rfl) (fun _ e _ => by cases e <;> rfl) extra
@[simp] theorem Core.issued_rq : (c.issued e q t extra mm).rq = c.rq :=
  Core.issued_same Core.rq (fun _ _ => rfl) (fun _ _ => rfl) (fun _ e _ => by cases e <;> rfl) extra
@[simp] theorem Core.issued_rqUsed : (c.issued e q t extra mm).rqUsed = c.rqUsed :=
  Core.issued_same Core.rqUsed (fun _ _ => rfl) (fun _ _ => rfl) (fun _ e _ => by cases e <;> rfl) extra
@[simp] theorem Core.issued_xqUsed : (c.issued e q t extra mm).xqUsed = c.xqUsed :=
  Core.issued_same Core.xqUsed (fun _ _ => rfl) (fun _ _ => rfl) (fun _ e _ => by cases e <;> rfl) extra
@[simp] theorem Core.issued_acc : (c.issued e q t extra mm).acc = c.acc :=
  Core.issued_same Core.acc (fun _ _ => rfl) (fun _ _ => rfl) (fun _ e _ => by cases e <;> rfl) extra
@[simp] theorem Core.issued_vreg : (c.issued e q t extra mm).vreg = c.vreg :=
  Core.issued_same Core.vreg (fun _ _ => rfl) (fun _ _ => rfl) (fun _ e _ => by cases e <;> rfl) extra
@[simp] theorem Core.issued_xstore : (c.issued e q t extra mm).xstore = c.xstore :=
  Core.issued_same Core.xstore (fun _ _ => rfl) (fun _ _ => rfl) (fun _ e _ => by cases e <;> rfl) extra
@[simp] theorem Core.issued_collector : (c.issued e q t extra mm).collector = c.collector :=
  Core.issued_same Core.collector (fun _ _ => rfl) (fun _ _ => rfl) (fun _ e _ => by cases e <;> rfl) extra
@[simp] theorem Core.issued_carry : (c.issued e q t extra mm).carry = c.carry :=
  Core.issued_same Core.carry (fun _ _ => rfl) (fun _ _ => rfl) (fun _ e _ => by cases e <;> rfl) extra
@[simp] theorem Core.issued_tally : (c.issued e q t extra mm).tally = c.tally :=
  Core.issued_same Core.tally (fun _ _ => rfl) (fun _ _ => rfl) (fun _ e _ => by cases e <;> rfl) extra
@[simp] theorem Core.issued_inject : (c.issued e q t extra mm).inject = c.inject :=
  Core.issued_same Core.inject (fun _ _ => rfl) (fun _ _ => rfl) (fun _ e _ => by cases e <;> rfl) extra

@[simp] theorem Core.issued_awaits {d : Nat} {f : Eff} : (c.issued e q t extra mm).awaits d f ↔ c.awaits d f := by
  unfold Core.awaits; rw [Core.issued_pend]

end

/-- An engine after an instruction that claims no bank (R74, R76). -/
theorem Core.issued_eng : (c.issued e q t 0 mm).eng e =
    (c.eng e).after t q.occ (match q.jump with | some j => j | none => nextPc (c.eng e).loops (c.eng e).pc) mm := by
  have h : ∀ d : Core, d.eng e = c.eng e → (d.onEng e (fun x =>
      let np := match q.jump with | some j => j | none => nextPc x.loops x.pc
      { x with
        pc := np.1 % 16384, loops := np.2, ready := t + q.occ + 0
        heldSum := x.heldSum + (t - x.ready) + 0, residue := x.residue || mm })).eng e =
      (c.eng e).after t q.occ (match q.jump with | some j => j | none => nextPc (c.eng e).loops (c.eng e).pc) mm := by
    intro d hd
    rw [Core.eng_onEng, hd]
    rfl
  refine h _ ?_
  split
  · split <;> simp
  · simp

/-- What a plan says, read off its definition through the wait that may be added to it (R90). -/
structure Plan.Says (q : Plan) (groups : List (List Nat)) (use : RowUse) (lat period occ : Nat)
    (jump : Option (Nat × List LoopFrame)) (effect : Nat → State → State) : Prop where
  groups : q.groups = groups
  use : q.use = use
  lat : q.lat = lat
  period : q.period = period
  occ : q.occ = occ
  jump : q.jump = jump
  effect : q.effect = effect

theorem Plan.says_mk {a : Option Nat} {b : Bool} {g : List (List Nat)} {u : RowUse} {l p o : Nat} {n : Option Nat} {m : Nat}
    {k : Bool} {j : Option (Nat × List LoopFrame)} {f : Nat → State → State} :
    Plan.Says ⟨a, b, g, u, l, p, o, n, m, k, j, f⟩ g u l p o j f := ⟨rfl, rfl, rfl, rfl, rfl, rfl, rfl⟩

theorem Plan.says_withWait {d : Core} {a : Option Nat} {b : Bool} {g : List (List Nat)} {u : RowUse} {l p o : Nat} {n : Option Nat}
    {m : Nat} {k : Bool} {j : Option (Nat × List LoopFrame)} {f : Nat → State → State} :
    Plan.Says (withWait d e w ⟨a, b, g, u, l, p, o, n, m, k, j, f⟩) g u l p o j f := by
  obtain ⟨hg, hj, ho, hf, hu, hl, hp⟩ := withWait_shape d e w ⟨a, b, g, u, l, p, o, n, m, k, j, f⟩
  exact ⟨hg, hu, hl, hp, ho, hj, hf⟩

/-- An instruction that claims no bank: its effect on the core as it is issued. -/
theorem State.issue_quiet {plan : State → Nat → Plan} (h : s.issuesNow x e plan = true)
    (hg : (plan (s.landed x.core e) s.cycle).groups = []) :
    s.issue x e plan = (plan (s.landed x.core e) s.cycle).effect s.cycle ((s.landed x.core e).setCore x.core
      (((s.landed x.core e).core x.core).issued e (plan (s.landed x.core e) s.cycle) s.cycle 0 x.mismatch)) := by
  rw [State.issue_of_issuesNow h, State.issueAt_no_groups hg (s.landed_cycle x.core e)]
  rfl


/-- The core after an instruction that claims no bank and whose effect changes the core alone. -/
theorem State.issue_core {plan : State → Nat → Plan} {u : RowUse} {l p o : Nat} {j : Option (Nat × List LoopFrame)}
    {g : Nat → Core → Core} (h : s.issuesNow x e plan = true)
    (hq : (plan (s.landed x.core e) s.cycle).Says [] u l p o j fun t s => s.onCore x.core (g t)) :
    (s.issue x e plan).core x.core =
      g s.cycle (((s.landed x.core e).core x.core).issued e (plan (s.landed x.core e) s.cycle) s.cycle 0 x.mismatch) := by
  rw [State.issue_quiet h hq.groups, hq.effect]
  simp

/-- The core after an instruction that claims no bank and has no effect of its own. -/
theorem State.issue_flow {plan : State → Nat → Plan} {u : RowUse} {l p o : Nat} {j : Option (Nat × List LoopFrame)}
    (h : s.issuesNow x e plan = true) (hq : (plan (s.landed x.core e) s.cycle).Says [] u l p o j fun _ s => s) :
    (s.issue x e plan).core x.core =
      ((s.landed x.core e).core x.core).issued e (plan (s.landed x.core e) s.cycle) s.cycle 0 x.mismatch := by
  rw [State.issue_quiet h hq.groups, hq.effect]
  simp

end Sys2Proof.Machine

/-!
Program flow, waits, signals and address registers (03_core_engines R76, R83, R86, R90, R92).
-/

namespace Sys2Proof.Machine

open Sys2Proof

variable {s : State} {c : Core} {x : At} {e : Engine} {w : DWord} {q : Plan} {t : Nat} {mm : Bool}

/-! ## Program flow -/

/-- The engine after an instruction that only moves its program. -/
theorem State.issue_flow_eng {plan : State → Nat → Plan} {u : RowUse} {l p o : Nat} {j : Option (Nat × List LoopFrame)}
    (h : s.issuesNow x e plan = true) (hq : (plan (s.landed x.core e) s.cycle).Says [] u l p o j fun _ s => s) :
    ((s.issue x e plan).core x.core).eng e = (((s.landed x.core e).core x.core).eng e).after s.cycle o
      (j.getD (nextPc (((s.landed x.core e).core x.core).eng e).loops (((s.landed x.core e).core x.core).eng e).pc)) x.mismatch := by
  rw [State.issue_flow h hq, Core.issued_eng, hq.occ, hq.jump]
  cases j <;> rfl

/-- What an engine's residue report leaves of its core (R466). -/
theorem State.reportResidue_eng (s : State) (p : Nat) (e : Engine) :
    (((s.reportResidue p e).core p).eng e).eob = ((s.core p).eng e).eob ∧
      (((s.reportResidue p e).core p).eng e).eobAt = ((s.core p).eng e).eobAt ∧
      (((s.reportResidue p e).core p).eng e).pc = ((s.core p).eng e).pc := by
  unfold State.reportResidue
  split
  · have hr : ∀ r, ((s.onCore p (fun c => c.onEng e (fun x => { x with residue := false }))).report r).core p =
        (s.core p).onEng e (fun x => { x with residue := false }) := fun r => by
      rw [State.core_report, State.core_onCore, if_pos rfl]
    rw [hr, Core.eng_onEng]
    exact ⟨rfl, rfl, rfl⟩
  · exact ⟨rfl, rfl, rfl⟩

/-- Settles O1: each of them claims no bank, so that the engine moves as its plan says. -/
theorem flowOperationsMoveTheProgram : Obligations.FlowOperationsMoveTheProgram := by
  unfold Obligations.FlowOperationsMoveTheProgram
  intro e x w s u
  refine ⟨fun hw h => ?_, fun hw h => ?_, fun hw h => ?_, fun hw h => ?_, fun hw h => ?_⟩
  · exact runs_of_step rfl hw (State.issue_flow_eng h Plan.says_withWait)
  · exact runs_of_step rfl hw (State.issue_flow_eng h Plan.says_withWait)
  · exact runs_of_step rfl hw (State.issue_flow_eng h Plan.says_withWait)
  · exact runs_of_step rfl hw (State.issue_flow_eng h Plan.says_withWait)
  · refine runs_of_step rfl hw ?_
    have hq : (planEob e w x.core (s.landed x.core e) s.cycle).Says [] .scale 0 1 1 (some (u.pc, u.loops)) _ := Plan.says_withWait
    rw [State.issue_quiet h hq.groups, hq.effect]
    obtain ⟨h1, h2, h3⟩ := State.reportResidue_eng (((s.landed x.core e).setCore x.core
      (((s.landed x.core e).core x.core).issued e (planEob e w x.core (s.landed x.core e) s.cycle) s.cycle 0 x.mismatch)).onCore x.core
        (fun c => c.onEng e (fun y => { y with eob := true, eobAt := s.cycle }))) x.core e
    rw [h1, h2, h3]
    simp only [State.core_onCore, State.core_setCore, if_true, Core.eng_onEng, Core.issued_eng, hq.jump, Eng.after, true_and]

/-! ## Waits and signals -/

@[simp] theorem Core.cpGet_cpSet (c : Core) (f : FieldRef) (v : Nat) (h : f.lo + f.len ≤ 32) :
    (c.cpSet f v).cpGet f = v % 2 ^ f.len := by
  unfold Core.cpGet Core.cpSet Core.cpWr Core.cpRd
  rw [rdAt_wrAt, if_pos rfl, bits_setBits _ _ _ _ h]

/-- The wait takes its amount from the counter it names (R90). -/
theorem Core.issued_cnt {k extra : Nat} (hk : q.cnt = some k) (hq : q.take = true) :
    (c.issued e q t extra mm).cpGet (SPC_CNT_value k) = c.cpGet (SPC_CNT_value k) - q.amount := by
  have hcp : ∀ (d : Core) (g : Eng → Eng), (d.onEng e g).cpGet (SPC_CNT_value k) = d.cpGet (SPC_CNT_value k) := by
    intro d g
    cases e <;> rfl
  have hlt : c.cpGet (SPC_CNT_value k) < 2 ^ 24 := field_lt _ _ 24
  unfold Core.issued
  rw [hcp, hk]
  dsimp only
  rw [if_pos hq, Core.cpGet_cpSet _ _ _ (by simp [SPC_CNT_value])]
  exact Nat.mod_eq_of_lt (Nat.lt_of_le_of_lt (Nat.sub_le _ _) hlt)

/-- Settles O2. -/
theorem waitsAndSignalsMoveTheirCounters : Obligations.WaitsAndSignalsMoveTheirCounters := by
  unfold Obligations.WaitsAndSignalsMoveTheirCounters
  intro e x w s c
  refine ⟨fun hw h => ?_, fun hw h => ?_, fun hw h => ?_, fun hw h => ?_⟩
  · refine runs_of_step rfl hw ?_
    rw [State.issue_flow h Plan.says_mk]
    exact Core.issued_cnt rfl rfl
  · refine runs_of_step rfl hw ?_
    rw [State.issue_core h Plan.says_withWait]
    simp
  · refine runs_of_step rfl hw ?_
    rw [State.issue_core h Plan.says_withWait]
    simp [sigIndex, Core.writesDone, c]
  · refine runs_of_step rfl hw ?_
    rw [State.issue_core h Plan.says_withWait]
    simp [sigIndex, c]

end Sys2Proof.Machine

/-!
An instruction that claims banks, and its first claim cycle (R149 to R153): the rows of one group, no two of which share a bank, are read
or written in the cycle of issue.
-/

namespace Sys2Proof.Machine

open Sys2Proof

variable {s v : State} {c : Core} {x : At} {e : Engine} {q : Plan} {p t : Nat} {mm : Bool}

/-! ## Issue with bank claims -/

theorem State.landed_at (s : State) (p : Nat) (e : Engine) : (s.landed p e).at s.cycle = s.landed p e := by
  unfold State.at
  rw [s.landed_cycle, if_neg (Nat.lt_irrefl _)]
  exact congrArg (fun n => { s.landed p e with cycle := n }) (s.landed_cycle p e).symm

/-- An instruction whose first group of rows needs one claim cycle: its effect, then that cycle's grant. -/
theorem State.issue_claim {plan : State → Nat → Plan} {g : List Nat} {gs : List (List Nat)} {u : RowUse} {l k o : Nat}
    {j : Option (Nat × List LoopFrame)} {f : Nat → State → State} (h : s.issuesNow x e plan = true)
    (hq : (plan (s.landed x.core e) s.cycle).Says (g :: gs) u l k o j f) (hg : g ≠ [])
    (ha : ((s.landed x.core e).core x.core).apart g = true) :
    ∃ rest extra, (gs = [] → rest = []) ∧ s.issue x e plan =
      (f s.cycle ((s.landed x.core e).setCore x.core
        (((s.landed x.core e).core x.core).issued e (plan (s.landed x.core e) s.cycle) s.cycle extra x.mismatch))).grant x.core
        ⟨e, s.cycle, k, ((s.landed x.core e).core x.core).wants 0 g :: rest, [], u, l⟩ s.cycle := by
  have h0 := s.landed_at x.core e
  have hs : spread (((s.landed x.core e).core x.core).wants 0 g) = [((s.landed x.core e).core x.core).wants 0 g] := by
    refine spread_apart _ ?_ ?_
    · rw [Core.wants_banks]
      exact of_decide_eq_true ha
    · cases g with
      | nil => exact absurd rfl hg
      | cons a r => simp [Core.wants, List.range_succ_eq_map]
  have hc : (((s.landed x.core e).core x.core).prune s.cycle).claimCycles 0 (g :: gs) =
      ((s.landed x.core e).core x.core).wants 0 g :: ((s.landed x.core e).core x.core).claimCycles g.length gs := by
    have hp : ∀ n l, (((s.landed x.core e).core x.core).prune s.cycle).claimCycles n l =
        ((s.landed x.core e).core x.core).claimCycles n l := by
      intro n l
      induction l generalizing n with
      | nil => rfl
      | cons a r ih => exact congrArg₂ _ rfl (ih _)
    rw [hp, Core.claimCycles, hs, Nat.zero_add]
    rfl
  refine ⟨((s.landed x.core e).core x.core).claimCycles g.length gs,
    (((s.landed x.core e).core x.core).claimCycles g.length gs).length + 1 - (gs.length + 1), fun hn => by rw [hn]; rfl, ?_⟩
  rw [State.issue_of_issuesNow h]
  unfold State.issueAt
  simp only [h0, hq.groups, hc, hq.effect, hq.period, hq.use, hq.lat]
  rfl

/-! ## A grant -/

theorem put_last {β : Type} {m : List (Nat × β)} {k : Nat} (h : ∀ y ∈ m, y.1 < k) (d : β) : put m k d = m ++ [(k, d)] := by
  induction m with
  | nil => rfl
  | cons a r ih =>
    have ha : a.1 < k := h a List.mem_cons_self
    rw [put, if_neg (by omega), if_neg (by omega), ih fun y hy => h y (List.mem_cons_of_mem _ hy)]
    rfl

/-- A table built from keys in rising order lists them in that order. -/
theorem foldl_put {β : Type} (l : List (Nat × β)) (m : List (Nat × β)) (h : ((m ++ l).map (·.1)).Pairwise (· < ·)) :
    l.foldl (fun m y => put m y.1 y.2) m = m ++ l := by
  induction l generalizing m with
  | nil => simp
  | cons a r ih =>
    have hm : ∀ y ∈ m, y.1 < a.1 := by
      intro y hy
      rw [List.map_append, List.pairwise_append] at h
      exact h.2.2 _ (List.mem_map_of_mem hy) _ (by simp)
    rw [List.foldl_cons, put_last hm, ih _ (by simpa using h)]
    simp

/-- The rows that a claim cycle has read, in the order of the instruction's rows. -/
theorem Core.wants_got (c : Core) (g : List Nat) (f : Nat → Row) :
    (((c.wants 0 g).map (fun w => (w.pos, f w.row))).foldl (fun m y => put m y.1 y.2) []).map (·.2) = g.map f := by
  have hl : (c.wants 0 g).map (fun w => (w.pos, f w.row)) = ((List.range g.length).zip g).map (fun y => (y.1, f y.2)) := by
    unfold Core.wants
    simp
  have hk : (((List.range g.length).zip g).map (fun y => (y.1, f y.2))).map (·.1) = List.range g.length := by
    rw [List.map_map]
    exact (List.map_fst_zip (by simp))
  rw [hl, foldl_put _ _ (by simpa [hk] using List.pairwise_lt_range), List.nil_append, List.map_map]
  have h2 : ((fun y : Nat × Row => y.2) ∘ fun y : Nat × Nat => (y.1, f y.2)) = f ∘ Prod.snd := rfl
  rw [h2, ← List.map_map, List.map_snd_zip (by simp)]

/-- Rows that hold no upset are read as they stand, at no cost (R149, R150). -/
theorem State.eccGroup_unmarked {l : List Nat} (h : ∀ row ∈ l, lookup? (v.core p).marks row = none) : v.eccGroup p t l = (v, 0) := by
  have hf : l.foldl (fun (x : State × Bool) row => let y := x.1.eccRow p row t false; (y.1, x.2 || y.2)) (v, false) = (v, false) := by
    induction l with
    | nil => rfl
    | cons a r ih =>
      have ha : v.eccRow p a t false = (v, false) := by
        unfold State.eccRow
        dsimp only
        rw [h a List.mem_cons_self]
      rw [List.foldl_cons]
      dsimp only
      rw [ha]
      exact ih fun row hr => h row (List.mem_cons_of_mem _ hr)
  unfold State.eccGroup
  dsimp only
  rw [hf]
  rfl

/-- A claim of banks changes nothing but claims and engines. -/
theorem Core.claim_same {α : Type} (f : Core → α) (hcl : ∀ c l, f { c with claims := l } = f c)
    (heng : ∀ c e x, f (Core.setEng c e x) = f c) (c : Core) (n k : Nat) (l : List Nat) : f (c.claim n k l) = f c := by
  unfold Core.claim
  refine (hcl (c.displace n k l) _).trans ?_
  unfold Core.displace
  refine foldl_same f (fun d g => ?_) _ c
  split
  · exact heng _ _ _
  · rfl

@[simp] theorem Core.claim_pend (c : Core) (n k : Nat) (l : List Nat) : (c.claim n k l).pend = c.pend :=
  Core.claim_same Core.pend (fun _ _ => rfl) (fun _ e _ => by cases e <;> rfl) c n k l
@[simp] theorem Core.claim_marks (c : Core) (n k : Nat) (l : List Nat) : (c.claim n k l).marks = c.marks :=
  Core.claim_same Core.marks (fun _ _ => rfl) (fun _ e _ => by cases e <;> rfl) c n k l
@[simp] theorem Core.claim_sb (c : Core) (n k : Nat) (l : List Nat) : (c.claim n k l).sb = c.sb :=
  Core.claim_same Core.sb (fun _ _ => rfl) (fun _ e _ => by cases e <;> rfl) c n k l

theorem State.emitToken_core (s : State) (n k : Nat) (w : DWord) (p : Nat) : (s.emitToken n k w).core p = s.core p := by
  unfold State.emitToken
  dsimp only
  repeat' split
  all_goals rfl

theorem State.handOver_core (s : State) (k : Nat) (r : Run) (p : Nat) : (s.handOver k r).core p = s.core p := by
  unfold State.handOver
  split
  · exact s.emitToken_core _ _ _ _
  · rfl

/-- What a granted cycle has read. -/
def Run.taken (r : Run) (c : Core) (g : List Want) : List (Nat × Row) :=
  if r.use.writes then [] else g.map (fun w => (w.pos, padRow c.pad w.row))

/-- The core before the last group of an access is done with: the claims made, the rows handed on. -/
structure Core.Granted (c d : Core) (r : Run) (rows : List (Nat × Row)) (t : Nat) : Prop where
  pend : ∀ n f, d.awaits n f ↔ c.awaits n f ∨
    ∃ ts, r.use = .stage ts ∧ (n, f) ∈ rows.map (fun y => (t + r.lat, Eff.sb (ts.getD y.1 0) y.2))
  sb : d.sb = c.sb

theorem State.core_passRows (s : State) (p : Nat) (r : Run) (u : Nat) (rows : List (Nat × Row)) :
    (∀ n f, ((s.passRows p r u rows).core p).awaits n f ↔ (s.core p).awaits n f ∨
      ∃ ts, r.use = .stage ts ∧ (n, f) ∈ rows.map (fun y => (u + r.lat, Eff.sb (ts.getD y.1 0) y.2))) ∧
    ((s.passRows p r u rows).core p).sb = (s.core p).sb := by
  have hsb : ∀ (l : List (Nat × Eff)) (c : Core), (c.laters l).sb = c.sb := fun l c =>
    foldl_same Core.sb (f := fun c (y : Nat × Eff) => c.later y.1 y.2) (fun _ _ => rfl) l c
  unfold State.passRows
  split
  · next ts hu =>
    rw [State.core_onCore, if_pos rfl]
    refine ⟨fun n f => ?_, hsb _ _⟩
    rw [Core.awaits_laters]
    constructor
    · rintro (hm | hm)
      exacts [.inr ⟨ts, hu, hm⟩, .inl hm]
    · rintro (hm | ⟨ts', hts, hm⟩)
      · exact .inr hm
      · rw [hu] at hts
        cases hts
        exact .inl hm
  · next hu => exact ⟨fun n f => by simp [hu, State.fillRows, State.core], rfl⟩
  · next hu _ => exact ⟨fun n f => by simpa using fun ts h => absurd h (hu ts), rfl⟩

/-- The state after the claims of a granted group without upsets and the passing on of its rows. -/
def State.claimed (v : State) (p : Nat) (r : Run) (g : List Want) (t : Nat) : State :=
  (v.onCore p (fun c => c.claim t (enginePrio r.eng) (wantBanks g))).passRows p r t (r.taken (v.core p) g)

/-- An access after a granted group: its next claim cycle, what it has read. -/
def Run.granted (r : Run) (c : Core) (g : List Want) (rest : List (List Want)) (t : Nat) : Run :=
  { r with next := t + r.period, groups := rest, got := (r.taken c g).foldl (fun m y => put m y.1 y.2) r.got }

/-- The grant of a group without upsets: after the last group the access is done, else it waits for its next cycle (R153). -/
theorem State.grant_unmarked {r : Run} {g : List Want} {rest : List (List Want)} (hr : r.groups = g :: rest)
    (hm : r.use.writes = false → ∀ w ∈ g, lookup? (v.core p).marks w.row = none) :
    v.grant p r t = if rest = [] then
        (((v.claimed p r g t).setRun p r.eng none).onCore p (fun c => c.finish (r.granted (v.core p) g rest t) (t + r.lat))).handOver p
          (r.granted (v.core p) g rest t)
      else (v.claimed p r g t).setRun p r.eng (some (r.granted (v.core p) g rest t)) := by
  have hclean : (if r.use.writes then (v.onCore p (fun c => c.claim t (enginePrio r.eng) (wantBanks g)), 0)
      else (v.onCore p (fun c => c.claim t (enginePrio r.eng) (wantBanks g))).eccGroup p t (g.map (·.row))) =
      (v.onCore p (fun c => c.claim t (enginePrio r.eng) (wantBanks g)), 0) := by
    split
    · rfl
    · next hw =>
      refine State.eccGroup_unmarked fun row hrow => ?_
      obtain ⟨y, hy, rfl⟩ := List.mem_map.1 hrow
      rw [State.core_onCore, if_pos rfl, Core.claim_marks]
      exact hm (by simpa using hw) y hy
  unfold State.grant
  rw [hr]
  dsimp only
  rw [hclean]
  dsimp only
  rw [if_pos rfl, Nat.add_zero]
  cases rest with
  | nil => rw [if_pos rfl]; rfl
  | cons a l => rw [if_neg (List.cons_ne_nil a l)]; rfl

theorem State.claimed_core (v : State) (p : Nat) (r : Run) (g : List Want) (t : Nat) (k : List Run) :
    Core.Granted (v.core p) { (v.claimed p r g t).core p with runs := k } r (r.taken (v.core p) g) t := by
  obtain ⟨hpend, hsb⟩ := State.core_passRows (v.onCore p (fun c => c.claim t (enginePrio r.eng) (wantBanks g))) p r t
    (r.taken (v.core p) g)
  rw [State.core_onCore, if_pos rfl, Core.claim_sb] at hsb
  refine ⟨fun n f => ?_, hsb⟩
  have hn := hpend n f
  rw [State.core_onCore, if_pos rfl, Core.awaits, Core.awaits, Core.claim_pend] at hn
  exact hn

/-- The core after the grant of a group without upsets. -/
theorem State.grant_core {r : Run} {g : List Want} {rest : List (List Want)} (hr : r.groups = g :: rest)
    (hm : r.use.writes = false → ∀ w ∈ g, lookup? (v.core p).marks w.row = none) :
    ∃ d, Core.Granted (v.core p) d r (r.taken (v.core p) g) t ∧
      (v.grant p r t).core p = if rest = [] then d.finish (r.granted (v.core p) g rest t) (t + r.lat) else d := by
  rw [State.grant_unmarked hr hm]
  split
  · refine ⟨_, v.claimed_core p r g t (((v.claimed p r g t).core p).runs.filter (fun y => y.eng != r.eng) ++ Option.toList none), ?_⟩
    rw [State.handOver_core, State.core_onCore, if_pos rfl, State.setRun, State.core_onCore, if_pos rfl]
  · refine ⟨_, v.claimed_core p r g t (((v.claimed p r g t).core p).runs.filter (fun y => y.eng != r.eng) ++
      Option.toList (some (r.granted (v.core p) g rest t))), ?_⟩
    rw [State.setRun, State.core_onCore, if_pos rfl]

end Sys2Proof.Machine

/-!
Instructions that read or write one group of rows (R93 to R98, R149 to R153); address registers, stage-buffer release and the reads of
the load engine (R79, R86, R89, R92, R93).
-/

namespace Sys2Proof.Machine

open Sys2Proof

variable {s v : State} {c d : Core} {x : At} {e : Engine} {w : DWord} {q : Plan} {p t : Nat} {mm : Bool}

/-! ## One group of rows -/

/-- What a plan's effect does to its core, where it changes nothing that the claim cycle reads. -/
structure Plan.Acts (p : Nat) (f : State → State) (F : Core → Core) : Prop where
  core : ∀ s, (f s).core p = F (s.core p)
  marks : ∀ c, (F c).marks = c.marks
  pad : ∀ c, (F c).pad = c.pad

theorem Plan.acts_none {p : Nat} : Plan.Acts p (fun s => s) (fun c => c) := ⟨fun _ => rfl, fun _ => rfl, fun _ => rfl⟩

theorem Plan.Acts.onCore {F : Core → Core} (hm : ∀ c, (F c).marks = c.marks) (hp : ∀ c, (F c).pad = c.pad) :
    Plan.Acts p (fun s => s.onCore p F) F :=
  ⟨fun s => by rw [State.core_onCore, if_pos rfl], hm, hp⟩

/-- The core `d` after the claim cycle that has served the rows `g` of the access `r` on the core `c`: the rows read, and the rows of a
stage buffer on their way. -/
structure Core.Served (c d : Core) (r : Run) (g : List Nat) (t : Nat) : Prop where
  got : r.use.writes = false → r.got.map (·.2) = g.map (padRow c.pad)
  pend : ∀ n y, d.awaits n y ↔ c.awaits n y ∨ ∃ ts, r.use = .stage ts ∧
    ∃ i row, g[i]? = some row ∧ n = t + r.lat ∧ y = Eff.sb (ts.getD i 0) (padRow c.pad row)
  sb : d.sb = c.sb

theorem mem_range_zip {β : Type} {l : List β} {i : Nat} {b : β} : (i, b) ∈ (List.range l.length).zip l ↔ l[i]? = some b := by
  rw [List.mem_iff_getElem?]
  constructor
  · rintro ⟨m, hm⟩
    obtain ⟨h1, h2⟩ := List.getElem?_zip_eq_some.1 hm
    obtain ⟨hlt, h1⟩ := List.getElem?_eq_some_iff.1 h1
    rw [List.getElem_range] at h1
    dsimp only at h1 h2
    rwa [← h1]
  · intro h
    have hlt : i < l.length := (List.getElem?_eq_some_iff.1 h).1
    exact ⟨i, List.getElem?_zip_eq_some.2 ⟨by rw [List.getElem?_range hlt], h⟩⟩

/-- The claims of a group name its rows with their positions. -/
theorem Core.mem_wants {c : Core} {g : List Nat} {β : Type} {f : Nat → Nat → β} {b : β} :
    b ∈ (c.wants 0 g).map (fun w => f w.pos w.row) ↔ ∃ i row, g[i]? = some row ∧ b = f i row := by
  unfold Core.wants
  rw [List.map_map, List.mem_map]
  constructor
  · rintro ⟨⟨i, row⟩, hz, rfl⟩
    exact ⟨i, row, mem_range_zip.1 hz, by simp⟩
  · rintro ⟨i, row, hi, rfl⟩
    exact ⟨(i, row), mem_range_zip.2 hi, by simp⟩

/-- The first claim cycle of an access to unmarked rows. -/
theorem State.grant_served {r : Run} {g : List Nat} {rest : List (List Want)} (hr : r.groups = c.wants 0 g :: rest) (hg : r.got = [])
    (hm : r.use.writes = false → ∀ row ∈ g, lookup? (v.core p).marks row = none) :
    ∃ d q, q.use = r.use ∧ q.eng = r.eng ∧ q.lat = r.lat ∧ Core.Served (v.core p) d q g t ∧
      ((v.grant p r t).core p = d.finish q (t + r.lat) ∨ rest ≠ [] ∧ (v.grant p r t).core p = d) := by
  obtain ⟨d, hd, hcore⟩ := State.grant_core (v := v) (p := p) (t := t) hr (fun hu y hy => by
    obtain ⟨z, hz, rfl⟩ := List.mem_map.1 hy
    exact hm hu _ (List.of_mem_zip hz).2)
  have hs : Core.Served (v.core p) d (r.granted (v.core p) (c.wants 0 g) rest t) g t := by
    refine ⟨fun hu => ?_, fun n y => ?_, hd.sb⟩
    · dsimp only [Run.granted] at hu ⊢
      rw [Run.taken, hu, if_neg Bool.false_ne_true, hg]
      exact c.wants_got g (padRow (v.core p).pad)
    · rw [hd.pend]
      refine or_congr Iff.rfl (exists_congr fun ts => and_congr_right fun hts => ?_)
      rw [Run.taken, hts, if_neg (by simp [RowUse.writes]), List.map_map]
      refine (Core.mem_wants (f := fun i row => (t + r.lat, Eff.sb (ts.getD i 0) (padRow (v.core p).pad row)))).trans ?_
      simp only [Prod.mk.injEq]
      rfl
  refine ⟨d, r.granted (v.core p) (c.wants 0 g) rest t, rfl, rfl, rfl, hs, ?_⟩
  by_cases h : rest = []
  · rw [if_pos h] at hcore
    exact .inl hcore
  · rw [if_neg h] at hcore
    exact .inr ⟨h, hcore⟩

/-- The core after an instruction whose first group of rows needs one claim cycle: the effect, the claim, and where no group follows the
end of the access. -/
theorem State.issue_served {plan : State → Nat → Plan} {g : List Nat} {gs : List (List Nat)} {u : RowUse} {l k o : Nat}
    {j : Option (Nat × List LoopFrame)} {f : Nat → State → State} {F : Core → Core} (h : s.issuesNow x e plan = true)
    (hq : (plan (s.landed x.core e) s.cycle).Says (g :: gs) u l k o j f) (hF : Plan.Acts x.core (f s.cycle) F) (hg : g ≠ [])
    (ha : ((s.landed x.core e).core x.core).apart g = true)
    (hm : u.writes = false → ∀ row ∈ g, lookup? ((s.landed x.core e).core x.core).marks row = none) :
    ∃ extra d r, r.use = u ∧ r.eng = e ∧ r.lat = l ∧
      Core.Served (F (((s.landed x.core e).core x.core).issued e (plan (s.landed x.core e) s.cycle) s.cycle extra x.mismatch)) d r g
        s.cycle ∧
      ((s.issue x e plan).core x.core = d.finish r (s.cycle + l) ∨ gs ≠ [] ∧ (s.issue x e plan).core x.core = d) := by
  obtain ⟨rest, extra, hrest, hi⟩ := State.issue_claim h hq hg ha
  obtain ⟨c1, hc1⟩ : ∃ c1, c1 = F (((s.landed x.core e).core x.core).issued e (plan (s.landed x.core e) s.cycle) s.cycle extra
    x.mismatch) := ⟨_, rfl⟩
  obtain ⟨v, hv⟩ : ∃ v, v = f s.cycle ((s.landed x.core e).setCore x.core
    (((s.landed x.core e).core x.core).issued e (plan (s.landed x.core e) s.cycle) s.cycle extra x.mismatch)) := ⟨_, rfl⟩
  have hvc : v.core x.core = c1 := by rw [hv, hF.core, State.core_setCore, if_pos rfl, hc1]
  obtain ⟨d, r, h1, h2, h3, hs, hcore⟩ := State.grant_served (t := s.cycle) (p := x.core) (v := v) (g := g)
    (c := (s.landed x.core e).core x.core) (rest := rest)
    (r := ⟨e, s.cycle, k, ((s.landed x.core e).core x.core).wants 0 g :: rest, [], u, l⟩) rfl rfl (fun hu row hrow => by
      rw [hvc, hc1, hF.marks, Core.issued_marks]
      exact hm hu row hrow)
  rw [← hv] at hi
  rw [← hi] at hcore
  rw [hvc] at hs
  refine ⟨extra, d, r, h1, h2, h3, hc1 ▸ hs, hcore.imp id (fun hc => ⟨fun hn => hc.1 (hrest hn), hc.2⟩)⟩

/-- The core after an instruction with one group of rows. -/
theorem State.issue_group {plan : State → Nat → Plan} {g : List Nat} {u : RowUse} {l k o : Nat}
    {j : Option (Nat × List LoopFrame)} {f : Nat → State → State} {F : Core → Core} (h : s.issuesNow x e plan = true)
    (hq : (plan (s.landed x.core e) s.cycle).Says [g] u l k o j f) (hF : Plan.Acts x.core (f s.cycle) F) (hg : g ≠ [])
    (ha : ((s.landed x.core e).core x.core).apart g = true)
    (hm : u.writes = false → ∀ row ∈ g, lookup? ((s.landed x.core e).core x.core).marks row = none) :
    ∃ (extra : Nat) (d : Core) (r : Run), r.use = u ∧ r.eng = e ∧
      (u.writes = false → r.got.map (·.2) = g.map (padRow ((s.landed x.core e).core x.core).pad)) ∧
      (∀ n y, (F (((s.landed x.core e).core x.core).issued e (plan (s.landed x.core e) s.cycle) s.cycle extra
        x.mismatch)).awaits n y → d.awaits n y) ∧
      (s.issue x e plan).core x.core = d.finish r (s.cycle + l) := by
  obtain ⟨extra, d, r, hu, he, -, hs, hcore | ⟨hne, -⟩⟩ := State.issue_served h hq hF hg ha hm
  · refine ⟨extra, d, r, hu, he, fun hw => ?_, fun n y hy => (hs.pend n y).2 (.inl hy), hcore⟩
    rw [hs.got (by rw [hu, hw]), hF.pad, Core.issued_pad]
  · exact absurd rfl hne

/-- The end of an access adds to the effects in flight. -/
theorem Core.writeX_awaits (c : Core) (due first : Nat) (rows : List Row) (n : Nat) (y : Eff) :
    (c.writeX due first rows).awaits n y ↔
      (∃ i ch, (rows.flatMap rowChunks)[i]? = some ch ∧ n = due ∧ y = .x ((first + i) % 512) ch) ∨ c.awaits n y := by
  have hl : ∀ (l : List (Nat × BitVec 256)) (c : Core),
      l.foldl (fun c x => c.later due (.x ((first + x.1) % 512) x.2)) c =
        c.laters (l.map fun x => (due, Eff.x ((first + x.1) % 512) x.2)) := by
    intro l c
    unfold Core.laters
    rw [List.foldl_map]
  unfold Core.writeX
  dsimp only
  rw [hl, Core.awaits_laters, List.mem_map]
  refine or_congr ⟨?_, ?_⟩ Iff.rfl
  · rintro ⟨⟨i, ch⟩, hz, he⟩
    rw [Prod.mk.injEq] at he
    exact ⟨i, ch, mem_range_zip.1 hz, he.1.symm, he.2.symm⟩
  · rintro ⟨i, ch, hi, rfl, rfl⟩
    exact ⟨(i, ch), mem_range_zip.2 hi, rfl⟩

theorem Core.awaits_finish {r : Run} {due n : Nat} {y : Eff} (h : d.awaits n y) : (d.finish r due).awaits n y := by
  unfold Core.finish
  dsimp only
  split
  all_goals first
    | exact h
    | exact (Core.awaits_later _ _ _ _ _).2 (.inr h)
    | exact (Core.awaits_laters _ _ _ _).2 (.inr h)
    | exact (Core.writeX_awaits _ _ _ _ _ _).2 (.inr h)

/-- The rows that a write of one group lands. -/
theorem State.issue_writes {plan : State → Nat → Plan} {g : List Nat} {rows : List (Nat × Row)} {l k o : Nat}
    {j : Option (Nat × List LoopFrame)} {f : Nat → State → State} {F : Core → Core} (h : s.issuesNow x e plan = true)
    (hq : (plan (s.landed x.core e) s.cycle).Says [g] (.write rows) l k o j f) (hF : Plan.Acts x.core (f s.cycle) F) (hg : g ≠ [])
    (ha : ((s.landed x.core e).core x.core).apart g = true) {y : Nat × Row} (hy : y ∈ rows) :
    ((s.issue x e plan).core x.core).awaits (s.cycle + l) (.pad (some e) y.1 y.2) := by
  obtain ⟨extra, d, r, hu, he, -, -, hcore⟩ := State.issue_group h hq hF hg ha (fun hw => by cases hw)
  rw [hcore]
  unfold Core.finish
  rw [hu, he]
  exact (Core.awaits_laters _ _ _ _).2 (.inl (List.mem_map.2 ⟨y, hy, rfl⟩))

/-- One row by itself shares its bank with no other. -/
theorem Core.apart_one (c : Core) (row : Nat) : c.apart [row] = true := by simp [Core.apart]

/-! ## Address registers and stage-buffer release -/

/-- Settles O3. -/
theorem addressOperationsWriteTheirRegister : Obligations.AddressOperationsWriteTheirRegister := by
  unfold Obligations.AddressOperationsWriteTheirRegister
  intro e x w s c r
  refine ⟨fun hw h => ?_, fun hw h => ?_, fun hw h => ?_, fun hw h => ?_⟩
  · refine runs_of_step rfl hw ?_
    rw [State.issue_core h Plan.says_withWait, Core.awaits_later]
    refine Or.inl ⟨rfl, ?_⟩
    split <;> rfl
  · refine runs_of_step rfl hw ?_
    rw [State.issue_core h Plan.says_withWait, Core.awaits_later]
    refine Or.inl ⟨rfl, ?_⟩
    split
    · next h0 => rw [h0]; rfl
    · split
      · next h1 => rw [h1]; rfl
      · next h0 h1 =>
        have h2 : addaField (c.areg e r) (bits w 42 2) = (32, 14) := by
          unfold addaField
          split
          · exact absurd ‹_› h0
          · exact absurd ‹_› h1
          · rfl
        show Eff.areg e r 32 14 _ = Eff.areg e r _ _ _
        rw [h2]
  · intro row hrow
    refine runs_of_step rfl hw ?_
    obtain ⟨extra, d, q, hu, he, hgot, -, hcore⟩ := State.issue_group h Plan.says_withWait Plan.acts_none (by simp)
      (Core.apart_one _ _) (fun _ y hy => by rw [List.mem_singleton.1 hy]; exact hrow)
    rw [hcore]
    unfold Core.finish
    rw [hu, he, hgot rfl]
    refine (Core.awaits_later _ _ _ _ _).2 (.inl ⟨rfl, ?_⟩)
    simp [rowsNum, row, r, c]
  · refine runs_of_step rfl hw ?_
    rw [State.issue_core h Plan.says_withWait]
    intro i hi d hd
    refine (Core.awaits_laters _ _ _ _).2 (.inl (List.mem_map.2 ⟨i, List.mem_filter.2 ⟨hi, ?_⟩, rfl⟩))
    rw [Core.issued_sb, hd]
    rfl

end Sys2Proof.Machine

/-!
The load engine (R79, R87, R89, R93): what the claim cycle of an instruction leaves as it is, the requests that leave a core, and the
rows of the stage buffers.
-/

namespace Sys2Proof.Machine

open Sys2Proof

variable {s v : State} {c d : Core} {x : At} {e : Engine} {w : DWord} {q : Plan} {p t : Nat} {mm : Bool}

/-! ## What claims and accesses leave of a core -/

/-- A reading of a core that no claim, access under way or effect in flight changes (R149 to R153). -/
structure Core.Aside {α : Type} (f : Core → α) : Prop where
  claims : ∀ c l, f { c with claims := l } = f c
  eng : ∀ c e y, f (Core.setEng c e y) = f c
  pend : ∀ c l, f { c with pend := l } = f c
  runs : ∀ c l, f { c with runs := l } = f c
  marks : ∀ c l, f { c with marks := l } = f c
  cp : ∀ c l, f { c with cp := l } = f c
  inject : ∀ c n, f { c with inject := n } = f c

theorem Core.aside_sb : Core.Aside Core.sb :=
  ⟨fun _ _ => rfl, fun _ e _ => by cases e <;> rfl, fun _ _ => rfl, fun _ _ => rfl, fun _ _ => rfl, fun _ _ => rfl, fun _ _ => rfl⟩

section
variable {α : Type} {f : Core → α} (hf : Core.Aside f)
include hf

theorem Core.Aside.later (c : Core) (n : Nat) (y : Eff) : f (c.later n y) = f c := hf.pend _ _

theorem Core.Aside.laters (c : Core) (l : List (Nat × Eff)) : f (c.laters l) = f c :=
  foldl_same f (f := fun c (y : Nat × Eff) => c.later y.1 y.2) (fun c y => hf.later c y.1 y.2) l c

theorem Core.Aside.finish (c : Core) (r : Run) (due : Nat) : f (c.finish r due) = f c := by
  unfold Core.finish
  dsimp only
  split
  · exact hf.later _ _ _
  · exact hf.later _ _ _
  · exact foldl_same f (f := fun c (y : Nat × BitVec 256) => c.later due (.x _ y.2)) (fun c y => hf.later c _ _) _ c
  · exact hf.later _ _ _
  · exact hf.later _ _ _
  · exact hf.later _ _ _
  · exact hf.laters _ _
  · rfl
  · rfl

theorem Core.Aside.claim (c : Core) (n k : Nat) (l : List Nat) : f (c.claim n k l) = f c :=
  Core.claim_same f hf.claims hf.eng c n k l

theorem Core.Aside.marks_claims (c : Core) (m : List (Nat × Mark)) (l : List Claim) : f { c with marks := m, claims := l } = f c :=
  (hf.claims { c with marks := m } l).trans (hf.marks c m)

theorem Core.Aside.cpCount (s : State) (p : Nat) (r : FieldRef) (n t : Nat) : f ((s.cpCount p r n t).core p) = f (s.core p) := by
  have h : f ((s.setCore p ((s.core p).cpBump r n)).core p) = f (s.core p) := by
    rw [State.core_setCore, if_pos rfl]; exact hf.cp _ _
  unfold State.cpCount
  dsimp only
  split
  · rw [State.core_strike, h]
  · exact h

theorem Core.Aside.cpRecord (s : State) (p a stamp v t : Nat) : f ((s.cpRecord p a stamp v t).core p) = f (s.core p) := by
  have h : f ((s.setCore p (((s.core p).cpWr a (BitVec.ofNat 32 (2 ^ 31 + v))).cpWr stamp (BitVec.ofNat 32 s.stamp))).core p) =
      f (s.core p) := by
    rw [State.core_setCore, if_pos rfl]; exact (hf.cp _ _).trans (hf.cp _ _)
  unfold State.cpRecord
  dsimp only
  split
  · rfl
  · split
    · rw [State.core_strike, h]
    · exact h

theorem Core.Aside.eccRow (s : State) (p row t : Nat) : f ((s.eccRow p row t false).1.core p) = f (s.core p) := by
  unfold State.eccRow
  dsimp only
  split
  · rfl
  · split
    · dsimp only
      rw [State.core_onCore, if_pos rfl, if_neg (by simp)]
      exact (hf.marks_claims _ _ _).trans (hf.cpCount s p _ _ _)
    · dsimp only
      rw [State.core_report, hf.cpRecord, hf.cpCount]

theorem Core.Aside.eccGroup (s : State) (p t : Nat) (l : List Nat) : f ((s.eccGroup p t l).1.core p) = f (s.core p) := by
  unfold State.eccGroup
  exact foldl_same (fun x : State × Bool => f (x.1.core p))
    (f := fun x row => ((x.1.eccRow p row t false).1, x.2 || (x.1.eccRow p row t false).2)) (fun x row => hf.eccRow x.1 p row t)
    l (s, false)

theorem Core.Aside.delay (s : State) (p : Nat) (r : Run) (t n : Nat) : f ((s.delay p r t n).core p) = f (s.core p) := by
  have h : f ((s.onCore p (fun c => c.hold r.eng t n)).core p) = f (s.core p) := by
    rw [State.core_onCore, if_pos rfl]; exact hf.eng _ _ _
  unfold State.delay
  dsimp only
  split
  · rw [State.core_onCore, if_pos rfl]
    exact (hf.inject _ _).trans h
  · exact h

theorem Core.Aside.passRows (s : State) (p : Nat) (r : Run) (u : Nat) (l : List (Nat × Row)) :
    f ((s.passRows p r u l).core p) = f (s.core p) := by
  unfold State.passRows
  split
  · rw [State.core_onCore, if_pos rfl]
    exact hf.laters _ _
  · rfl
  · rfl

/-- A grant leaves what stands aside as it is. -/
theorem Core.Aside.grant (s : State) (p : Nat) (r : Run) (u : Nat) : f ((s.grant p r u).core p) = f (s.core p) := by
  have hset : ∀ (v : State) k, f ((v.setRun p r.eng k).core p) = f (v.core p) := by
    intro v k
    rw [State.setRun, State.core_onCore, if_pos rfl]
    exact hf.runs _ _
  have hclaim : ∀ g, f ((s.onCore p (fun c => c.claim u (enginePrio r.eng) (wantBanks g))).core p) = f (s.core p) := by
    intro g
    rw [State.core_onCore, if_pos rfl]
    exact hf.claim _ _ _ _
  unfold State.grant
  split
  · exact hset _ _
  · next g rest hr =>
    dsimp only
    have hread : ∀ k rows, f ((State.passRows (if (if r.use.writes then ((s.onCore p (fun c => c.claim u (enginePrio r.eng)
        (wantBanks g))), 0) else (s.onCore p (fun c => c.claim u (enginePrio r.eng) (wantBanks g))).eccGroup p u (g.map (·.row))).2 = 0
          then (if r.use.writes then ((s.onCore p (fun c => c.claim u (enginePrio r.eng) (wantBanks g))), 0)
            else (s.onCore p (fun c => c.claim u (enginePrio r.eng) (wantBanks g))).eccGroup p u (g.map (·.row))).1
          else (if r.use.writes then ((s.onCore p (fun c => c.claim u (enginePrio r.eng) (wantBanks g))), 0)
            else (s.onCore p (fun c => c.claim u (enginePrio r.eng) (wantBanks g))).eccGroup p u (g.map (·.row))).1.delay p r (u + 1)
            (if r.use.writes then ((s.onCore p (fun c => c.claim u (enginePrio r.eng) (wantBanks g))), 0)
            else (s.onCore p (fun c => c.claim u (enginePrio r.eng) (wantBanks g))).eccGroup p u (g.map (·.row))).2)
          p r k rows).core p) = f (s.core p) := by
      intro k rows
      rw [hf.passRows]
      split <;> split <;> simp only [hf.delay, hf.eccGroup, hclaim]
    split
    · rw [State.handOver_core, State.core_onCore, if_pos rfl, hf.finish, hset]
      exact hread _ _
    · rw [hset]
      exact hread _ _

/-- An instruction leaves what stands aside as its effect makes it. -/
theorem Core.Aside.issue {plan : State → Nat → Plan} {g : List (List Nat)} {u : RowUse} {l k o : Nat}
    {j : Option (Nat × List LoopFrame)} {h : Nat → State → State} {F : Core → Core} (hi : s.issuesNow x e plan = true)
    (hq : (plan (s.landed x.core e) s.cycle).Says g u l k o j h) (hF : ∀ v, (h s.cycle v).core x.core = F (v.core x.core)) :
    ∃ extra, f ((s.issue x e plan).core x.core) =
      f (F (((s.landed x.core e).core x.core).issued e (plan (s.landed x.core e) s.cycle) s.cycle extra x.mismatch)) := by
  have h0 : (s.landed x.core e).at s.cycle = s.landed x.core e := s.landed_at x.core e
  rw [State.issue_of_issuesNow hi]
  unfold State.issueAt
  simp only [h0, hq.groups, hq.effect]
  refine ⟨((((s.landed x.core e).core x.core).prune s.cycle).claimCycles 0 g).length - g.length, ?_⟩
  split
  · rw [hF, State.core_setCore, if_pos rfl]
    rfl
  · rw [hf.grant, hF, State.core_setCore, if_pos rfl]
    rfl

end

/-! ## Routes -/

/-- A walk through the dies reads neither cores nor what is on its way. -/
theorem State.walk_moved (s : State) (cores : List (Nat × Core)) (net : List Packet) (lanes : List (Nat × Nat)) (cls n node : Nat) :
    ∀ fuel d h, State.walk { s with cores := cores, net := net, lanes := lanes } cls n node fuel d h = s.walk cls n node fuel d h := by
  intro fuel
  induction fuel with
  | zero => exact fun _ _ => rfl
  | succ k ih =>
    intro d h
    unfold State.walk
    simp only [ih]
    rfl

theorem State.route_moved (s : State) (cores : List (Nat × Core)) (net : List Packet) (lanes : List (Nat × Nat))
    (cls n source node core : Nat) (o : Option Nat) :
    State.route { s with cores := cores, net := net, lanes := lanes } cls n source node core o = s.route cls n source node core o := by
  unfold State.route
  rw [State.walk_moved]
  rfl

@[simp] theorem State.route_setCore (s : State) (p : Nat) (c : Core) (cls n source node core : Nat) (o : Option Nat) :
    (s.setCore p c).route cls n source node core o = s.route cls n source node core o :=
  State.route_moved s _ s.net s.lanes cls n source node core o

@[simp] theorem State.route_onCore (s : State) (p : Nat) (f : Core → Core) (cls n source node core : Nat) (o : Option Nat) :
    (s.onCore p f).route cls n source node core o = s.route cls n source node core o := State.route_setCore _ _ _ _ _ _ _ _ _

/-- The lanes counted on change nothing else. -/
theorem State.lanesOf_shape (s : State) (l : List Nat) : ∃ m, (s.lanesOf l).2 = { s with lanes := m } := by
  induction l generalizing s with
  | nil => exact ⟨s.lanes, rfl⟩
  | cons a r ih =>
    cases r with
    | nil => exact ⟨s.lanes, rfl⟩
    | cons b r =>
      obtain ⟨m, hm⟩ := ih (s.laneSeq a b).2
      exact ⟨m, hm⟩

/-- A packet whose route is whole is on its way (R174, R177). -/
theorem State.inject_ok {k : Packet} {dies : List Nat} (h : s.route k.cls k.part k.source k.node k.core k.enter = .ok dies) :
    ∃ m path seqs, s.inject k t = { s with
      lanes := m
      net := s.net ++ [{ k with
        due := t + (if k.kind = .readReq then requestLatency (clusterHops k.source k.node k.core) (crossings dies)
          else routeLatency (clusterHops k.source k.node k.core) (crossings dies)), path := path, seqs := seqs }] } := by
  obtain ⟨m, hm⟩ := s.lanesOf_shape dies
  unfold State.inject
  rw [h]
  dsimp only
  rw [hm]
  exact ⟨m, _, _, rfl⟩

/-! ## Stage buffers -/

theorem lookup?_puts {β : Type} {l : List Nat} {b : β} {i : Nat} (h : i ∈ l) (m : List (Nat × β)) :
    lookup? (l.foldl (fun m i => put m i b) m) i = some b := by
  have hkeep : ∀ (l : List Nat) (m : List (Nat × β)), lookup? m i = some b → lookup? (l.foldl (fun m i => put m i b) m) i = some b :=
    fun l m hm => foldl_keeps (fun m => lookup? m i = some b) (f := fun m i => put m i b) (fun m j hm => by
      rw [lookup?_put]; split <;> [rfl; exact hm]) l m hm
  induction l generalizing m with
  | nil => cases h
  | cons a r ih =>
    rw [List.foldl_cons]
    rcases List.mem_cons.1 h with rfl | h
    · exact hkeep r _ (by simp)
    · exact ih h _

theorem Core.markPending_sb {l : List Nat} {i : Nat} (h : i ∈ l) (c : Core) : lookup? (c.markPending l).sb i = some ⟨none⟩ :=
  lookup?_puts h c.sb

theorem Plan.acts_markPending (l : List Nat) : Plan.Acts p (fun s => s.onCore p (fun c => c.markPending l)) (fun c => c.markPending l) :=
  Plan.Acts.onCore (fun _ => rfl) (fun _ => rfl)

theorem sbRows_getD {buf row n j : Nat} (h : j < n) : (sbRows buf row n).getD j 0 = 512 * buf + (row + j) % 512 := by
  simp [sbRows, h]

theorem Core.liveRows_getElem? {c : Core} {r n j : Nat} (h : j < n) : (c.liveRows r n)[j]? = some (c.live ((r + j) % 2 ^ 17)) := by
  simp [Core.liveRows, rowsFrom, h]

/-- The rows of the first claim cycle of a local read (R93, R153). -/
theorem State.issue_stages {plan : State → Nat → Plan} {g : List Nat} {gs : List (List Nat)} {ts : List Nat} {l k o i row : Nat}
    {j : Option (Nat × List LoopFrame)} {f : Nat → State → State} {F : Core → Core} (h : s.issuesNow x e plan = true)
    (hq : (plan (s.landed x.core e) s.cycle).Says (g :: gs) (.stage ts) l k o j f) (hF : Plan.Acts x.core (f s.cycle) F)
    (ha : ((s.landed x.core e).core x.core).apart g = true) (hm : ((s.landed x.core e).core x.core).marks = [])
    (hrow : g[i]? = some row) :
    ((s.issue x e plan).core x.core).awaits (s.cycle + l)
      (.sb (ts.getD i 0) (padRow ((s.landed x.core e).core x.core).pad row)) := by
  have hg : g ≠ [] := fun hn => by rw [hn] at hrow; cases hrow
  obtain ⟨extra, d, r, hu, he, hl, hs, hcore⟩ := State.issue_served h hq hF hg ha (fun _ y _ => by rw [hm]; rfl)
  have hd : d.awaits (s.cycle + l) (.sb (ts.getD i 0) (padRow ((s.landed x.core e).core x.core).pad row)) := by
    refine (hs.pend _ _).2 (.inr ⟨ts, hu, i, row, hrow, by rw [hl], ?_⟩)
    rw [hF.pad, Core.issued_pad]
  rcases hcore with hcore | ⟨-, hcore⟩
  · rw [hcore]
    exact Core.awaits_finish hd
  · rw [hcore]
    exact hd

/-- A packet on its way changes no core. -/
theorem State.inject_net {k : Packet} {dies : List Nat} (h : s.route k.cls k.part k.source k.node k.core k.enter = .ok dies) :
    (∀ p, (s.inject k t).core p = s.core p) ∧ ∃ path seqs, (s.inject k t).net = s.net ++ [{ k with
      due := t + (if k.kind = .readReq then requestLatency (clusterHops k.source k.node k.core) (crossings dies)
        else routeLatency (clusterHops k.source k.node k.core) (crossings dies)), path := path, seqs := seqs }] := by
  obtain ⟨m, path, seqs, hi⟩ := State.inject_ok (t := t) h
  rw [hi]
  exact ⟨fun _ => rfl, path, seqs, rfl⟩

/-- A read request whose route is whole: the rows of the stage buffer pending, the tag held, one request on its way (R79, R87). -/
theorem State.sendRead_ok {n tag pc sb : Nat} {k : Packet} {dies : List Nat} (hk : k.kind = .readReq)
    (h : s.route k.cls k.part k.source k.node k.core k.enter = .ok dies) :
    ((s.sendRead p pc tag n sb k t).core p).sb = ((s.core p).markPending (sbRows (sb / 512) (sb % 512) n)).sb ∧
      ((s.sendRead p pc tag n sb k t).core p).tags = put (s.core p).tags tag ⟨.load, pc, sb, n, n⟩ ∧
      ∃ path seqs, (s.sendRead p pc tag n sb k t).net = s.net ++ [{ k with
        due := t + requestLatency (clusterHops k.source k.node k.core) (crossings dies), path := path, seqs := seqs }] := by
  obtain ⟨hc, path, seqs, hn⟩ := State.inject_net (s := s.onCore p (fun c =>
    { (c.markPending (sbRows (sb / 512) (sb % 512) n)) with tags := put c.tags tag ⟨.load, pc, sb, n, n⟩ })) (k := k) (t := t)
    (dies := dies) (by rw [State.route_onCore]; exact h)
  rw [if_pos hk] at hn
  unfold State.sendRead
  rw [hc, hn, State.core_onCore, if_pos rfl]
  exact ⟨rfl, rfl, path, seqs, rfl⟩

theorem chunksOf_succ {α : Type} (n fuel : Nat) {l : List α} (h : l ≠ []) :
    chunksOf n (fuel + 1) l = l.take n :: chunksOf n fuel (l.drop n) := by
  cases l with
  | nil => exact absurd rfl h
  | cons a r => rfl

/-- A stage-buffer reference is read back from the row it names (R89). -/
theorem sbRows_ref {buf row : Nat} (h : row < 512) (n : Nat) :
    sbRows ((512 * buf + row) / 512) ((512 * buf + row) % 512) n = sbRows buf row n := by
  rw [Nat.mul_add_div (by decide), Nat.div_eq_of_lt h, Nat.mul_add_mod, Nat.mod_eq_of_lt h]
  rfl

/-- The request of an LDR to core `q` and of an LDB to Bay `b` (R87, R93, R177). -/
def ldrRequest (cls part p q row tag n : Nat) : Packet :=
  { cls := cls, kind := .readReq, part := part, source := p, node := nodeOf q, core := q, page := 0, row := row, counter := 0
    tag := tag, rows := n - 1, total := n, writer := .core, data := 0, due := 0, fails := 0 }

def ldbRequest (part p b page row tag n t : Nat) : Packet :=
  { cls := 1, kind := .readReq, part := part, source := p, node := 72 + b, core := 0, page := page, row := row, counter := 0
    tag := tag, rows := n - 1, total := n, writer := .core, data := 0, due := 0, fails := 0, op := t }

/-- Settles O4. -/
theorem loadEngineReadsFillTheStageBuffers : Obligations.LoadEngineReadsFillTheStageBuffers := by
  unfold Obligations.LoadEngineReadsFillTheStageBuffers
  intro x w s u c a n part
  have hbit : bits w 33 9 < 512 := field_lt _ 33 9
  refine ⟨fun hw h => ?_, fun hw h => ?_, fun hw h g q dies hg hq hr => ?_, fun hw h g dies hg hr => ?_⟩
  · refine runs_of_step rfl hw ⟨fun i hi => ?_, fun hm ha j hj h4 => ?_⟩
    · obtain ⟨extra, hsb⟩ := Core.aside_sb.issue (F := fun c => c.markPending (sbTarget w)) h Plan.says_withWait
        (Plan.acts_markPending _).core
      rw [hsb]
      exact Core.markPending_sb hi _
    · have hne : c.liveRows (effRow a (bits w 0 17)) n ≠ [] := by simp [Core.liveRows, rowsFrom, n]
      have hq : (planLocal false w x.core u s.cycle).Says
          ((c.liveRows (effRow a (bits w 0 17)) n).take 4 :: chunksOf 4 63 ((c.liveRows (effRow a (bits w 0 17)) n).drop 4))
          (.stage (sbTarget w)) 4 1 (ceilDiv n 4) none
          (fun _ s => s.onCore x.core (fun c => c.markPending (sbTarget w))) := by
        rw [← chunksOf_succ _ _ hne]
        exact Plan.says_withWait
      have := State.issue_stages h hq (Plan.acts_markPending _) ha hm (i := j)
        (by rw [List.getElem?_take, if_pos h4]; exact Core.liveRows_getElem? hj)
      rwa [sbTarget, sbRows_getD hj] at this
  · refine runs_of_step rfl hw ⟨fun i hi => ?_, fun hm => ?_⟩
    · obtain ⟨extra, hsb⟩ := Core.aside_sb.issue (F := fun c => c.markPending (sbTarget w)) h Plan.says_withWait
        (Plan.acts_markPending _).core
      rw [hsb]
      exact Core.markPending_sb hi _
    · obtain ⟨gs, hgs⟩ : ∃ gs, ((List.range n).map (fun j => c.live ((effRow a (bits w 0 17) + j * bits w 17 10) % 2 ^ 17))).map
          (fun r => [r]) = [c.live (effRow a (bits w 0 17) % 2 ^ 17)] :: gs :=
        ⟨_, by rw [List.range_succ_eq_map, List.map_cons, List.map_cons, Nat.zero_mul, Nat.add_zero]⟩
      have hq : (planLocal true w x.core u s.cycle).Says ([c.live (effRow a (bits w 0 17) % 2 ^ 17)] :: gs)
          (.stage (sbTarget w)) 4 4 (4 * n) none (fun _ s => s.onCore x.core (fun c => c.markPending (sbTarget w))) := by
        rw [← hgs]
        exact Plan.says_withWait
      have := State.issue_stages h hq (Plan.acts_markPending _) (Core.apart_one _ _) hm (i := 0) rfl
      rwa [sbTarget, sbRows_getD (Nat.succ_pos _), Nat.add_zero (bits w 33 9), Nat.mod_eq_of_lt hbit] at this
  · refine runs_of_step rfl hw ?_
    have hp : (planLdr w x.core u s.cycle).Says [] .scale 0 1 1 none (fun t s =>
        s.sendRead x.core c.le.pc (c.freeTag.getD 0) n (512 * bits w 42 2 + bits w 33 9)
          (ldrRequest (bits w 17 2) part x.core ((u.translate x.core part (bits a 32 14)).getD 0) (effRow a (bits w 0 17))
            (c.freeTag.getD 0) n) t) := Plan.says_withWait
    rw [hq, hg, Option.getD_some, Option.getD_some] at hp
    rw [State.issue_quiet h hp.groups, hp.effect]
    obtain ⟨hsb, htags, path, seqs, hn⟩ := State.sendRead_ok (s := u.setCore x.core
      (c.issued .load (planLdr w x.core u s.cycle) s.cycle 0 x.mismatch))
      (p := x.core) (pc := c.le.pc) (tag := g) (n := n) (sb := 512 * bits w 42 2 + bits w 33 9) (t := s.cycle)
      (k := ldrRequest (bits w 17 2) part x.core q (effRow a (bits w 0 17)) g n) (dies := dies) rfl
      (by rw [State.route_setCore]; exact hr)
    refine ⟨fun i hi => ?_, ?_, _, hn, rfl, rfl, rfl, rfl, rfl, rfl⟩
    · rw [hsb, sbRows_ref hbit]
      exact Core.markPending_sb hi _
    · rw [htags, lookup?_put, if_pos rfl]
  · refine runs_of_step rfl hw ?_
    have hp : (planLdb w x.core u s.cycle).Says [] .scale 0 1 1 none (fun t s =>
        s.sendRead x.core c.le.pc (c.freeTag.getD 0) n (512 * bits w 42 2 + bits w 33 9)
          (ldbRequest part x.core (bits a 40 5) (bits a 20 20) (effBayRow a (bits w 0 17)) (c.freeTag.getD 0) n t) t) :=
      Plan.says_withWait
    rw [hg, Option.getD_some] at hp
    rw [State.issue_quiet h hp.groups, hp.effect]
    obtain ⟨hsb, htags, path, seqs, hn⟩ := State.sendRead_ok (s := u.setCore x.core
      (c.issued .load (planLdb w x.core u s.cycle) s.cycle 0 x.mismatch))
      (p := x.core) (pc := c.le.pc) (tag := g) (n := n) (sb := 512 * bits w 42 2 + bits w 33 9) (t := s.cycle)
      (k := ldbRequest part x.core (bits a 40 5) (bits a 20 20) (effBayRow a (bits w 0 17)) g n s.cycle) (dies := dies) rfl
      (by rw [State.route_setCore]; exact hr)
    refine ⟨fun i hi => ?_, ?_, _, hn, rfl, rfl, rfl, rfl, rfl, rfl⟩
    · rw [hsb, sbRows_ref hbit]
      exact Core.markPending_sb hi _
    · rw [htags, lookup?_put, if_pos rfl]

end Sys2Proof.Machine

/-!
The matrix engine (R94 to R96, R113 to R119).
-/

namespace Sys2Proof.Machine

open Sys2Proof

variable {s v : State} {c d : Core} {x : At} {e : Engine} {w : DWord} {q : Plan} {p t : Nat} {mm : Bool}

/-! ## Rows in 256-bit chunks -/

/-- Rows on their way to the X store change nothing else. -/
theorem Core.writeX_same {α : Type} (f : Core → α) (h : ∀ c l, f { c with pend := l } = f c) (due first : Nat) (rows : List Row) :
    f (c.writeX due first rows) = f c :=
  foldl_same f (f := fun (c : Core) (y : Nat × BitVec 256) => c.later due (.x ((first + y.1) % 512) y.2)) (fun c _ => h c _) _ c

theorem imageRows_ne_zero (f b : Nat) : imageRows f b ≠ 0 := by
  unfold imageRows
  split <;> (try split) <;> decide

/-- Each row gives two chunks, in order. -/
theorem rowChunks_getElem? {rows : List Row} {i : Nat} {d : Row} (h : rows[i]? = some d) :
    (rows.flatMap rowChunks)[2 * i]? = some (BitVec.ofNat 256 d.toNat) ∧
      (rows.flatMap rowChunks)[2 * i + 1]? = some (BitVec.ofNat 256 (d.toNat >>> 256)) := by
  induction rows generalizing i with
  | nil => cases h
  | cons a r ih =>
    cases i with
    | zero => cases h; exact ⟨rfl, rfl⟩
    | succ i => exact ih h

/-- Every row written to the X store is on its way in both halves. -/
theorem Core.writeX_row {rows : List Row} {due first i : Nat} {y : Row} (h : rows[i]? = some y) :
    (c.writeX due first rows).awaits due (.x ((first + 2 * i) % 512) (BitVec.ofNat 256 y.toNat)) ∧
      (c.writeX due first rows).awaits due (.x ((first + 2 * i + 1) % 512) (BitVec.ofNat 256 (y.toNat >>> 256))) := by
  obtain ⟨h0, h1⟩ := rowChunks_getElem? h
  exact ⟨(Core.writeX_awaits _ _ _ _ _ _).2 (.inl ⟨_, _, h0, rfl, rfl⟩),
    (Core.writeX_awaits _ _ _ _ _ _).2 (.inl ⟨_, _, h1, rfl, by rw [Nat.add_assoc]⟩)⟩

/-- Rows given back await as before. -/
theorem Core.awaits_release {n : Nat} {y : Eff} (l : List Nat) (h : c.awaits n y) : (c.release t l).awaits n y :=
  (Core.awaits_laters _ _ _ _).2 (.inr h)

/-- Thirty-two rows or fewer are one group. -/
theorem chunksOf_one {α : Type} {l : List α} (hl : l ≠ []) (n k : Nat) (h : l.length ≤ n) : chunksOf n (k + 1) l = [l] := by
  rw [chunksOf_succ n k hl, List.take_of_length_le h, List.drop_of_length_le h]
  cases k <;> rfl

theorem Core.liveRows_ne_nil (c : Core) (r n : Nat) : c.liveRows r (n + 1) ≠ [] := by simp [Core.liveRows, rowsFrom]

theorem Core.liveRows_length (c : Core) (r n : Nat) : (c.liveRows r n).length = n := by simp [Core.liveRows, rowsFrom]

/-! ## What an MMA reads -/

section
variable {extra : Nat}

@[simp] theorem Core.issued_sbData : (c.issued e q t extra mm).sbData = c.sbData :=
  Core.issued_same (fun c => c.sbData) (fun _ _ => rfl) (fun _ _ => rfl) (fun _ e _ => by cases e <;> rfl) extra

@[simp] theorem Core.issued_accOf (a : Nat) : (c.issued e q t extra mm).accOf a = c.accOf a :=
  Core.issued_same (fun c => c.accOf a) (fun _ _ => rfl) (fun _ _ => rfl) (fun _ e _ => by cases e <;> rfl) extra

@[simp] theorem Core.issued_operand (img : Nat) : (c.issued e q t extra mm).operand w img = c.operand w img :=
  Core.issued_same (fun c => c.operand w img) (fun _ _ => rfl) (fun _ _ => rfl) (fun _ e _ => by cases e <;> rfl) extra

end

/-- An operand with its image put in later is the operand of that image. -/
theorem Core.operand_withImage (c : Core) (w : DWord) (img : Nat) : (c.operand w 0).withImage img = c.operand w img := by
  unfold Operand.withImage Core.operand
  dsimp only
  cases windowFmt (bits w 33 3) <;> rfl

/-- A reading that the pointers and the effects in flight do not change is the same after an MMA. -/
theorem Core.mmaGo_same {α : Type} (f : Core → α) (h : ∀ c n m l, f { c with xptr := n, sptr := m, pend := l } = f c) (c : Core) :
    f (c.mmaGo w t) = f c := by
  unfold Core.mmaGo
  dsimp only
  split <;> split <;> split <;> exact h c _ _ _

theorem Plan.acts_mmaGo : Plan.Acts p (fun s => s.onCore p (fun c => c.mmaGo w t)) (fun c => c.mmaGo w t) :=
  Plan.Acts.onCore (Core.mmaGo_same Core.marks fun _ _ _ _ => rfl) (Core.mmaGo_same Core.pad fun _ _ _ _ => rfl)

/-! ## MCLR -/

/-- A note changes nothing of a core but its control page. -/
theorem State.note_core {α : Type} (f : Core → α) (hcp : ∀ c l, f { c with cp := l } = f c) (s : State) (p t : Nat) (n : Note) :
    f ((s.note p t n).core p) = f (s.core p) := by
  have hset : ∀ (s : State) c, f c = f (s.core p) → f ((s.setCore p c).core p) = f (s.core p) := by
    intro s c h
    rw [State.core_setCore, if_pos rfl, h]
  cases n with
  | sat n =>
    dsimp only [State.note]
    split
    · rw [State.core_bump]
    · rw [State.core_set]
  | overflow k row w =>
    have h1 : f ((s.cpCount p SPC_CNTERR_overflow 1 t).core p) = f (s.core p) := by
      unfold State.cpCount
      dsimp only
      split
      · rw [State.core_strike]
        exact hset _ _ (hcp _ _)
      · exact hset _ _ (hcp _ _)
    have h2 : ∀ (s : State) a b n, f ((s.cpRecord p a b n t).core p) = f (s.core p) := by
      intro s a b n
      unfold State.cpRecord
      dsimp only
      split
      · rfl
      · split
        · rw [State.core_strike]
          exact hset _ _ ((hcp _ _).trans (hcp _ _))
        · exact hset _ _ ((hcp _ _).trans (hcp _ _))
    exact (h2 _ _ _ _).trans h1

/-- A cleared accumulator: nothing of it is left, in place or in flight (R96, R116). -/
theorem State.clearAll_core (s : State) (p a ref : Nat) :
    ((s.clearAll p a ref).core p).acc = put (s.core p).acc a ⟨ref, []⟩ ∧
      ((s.clearAll p a ref).core p).pend = (s.core p).pend.filter (fun q => !accPend a q) := by
  have h : ∀ {α : Type} (f : Core → α), (∀ c l, f { c with cp := l } = f c) →
      f ((s.clearAll p a ref).core p) = f { s.core p with
        acc := put (s.core p).acc a ⟨ref, []⟩, pend := (s.core p).pend.filter (fun q => !accPend a q) } := by
    intro α f hcp
    unfold State.clearAll
    dsimp only
    rw [each_eq (fun t : State => f (t.core p)) (fun n (t : State) => State.note_core f hcp t p t.cycle n),
      State.core_setCore, if_pos rfl]
  exact ⟨h Core.acc (fun _ _ => rfl), h Core.pend (fun _ _ => rfl)⟩

/-- Settles O5. -/
theorem matrixOperationsWriteTheirTarget : Obligations.MatrixOperationsWriteTheirTarget := by
  unfold Obligations.MatrixOperationsWriteTheirTarget
  intro x w s c a occ n filled
  refine ⟨fun hw h => ⟨fun h0 hn hm ha => ?_, fun h1 => ?_, fun h2 => ?_⟩, fun hw h => ?_, fun hw h => ?_, fun hw h => ?_,
    fun hw h => ?_, fun hw h => ?_⟩
  · refine runs_of_step rfl hw ?_
    have hq : (planMxl w x.core (s.landed x.core .matrix) s.cycle).Says [c.liveRows (effRow a (bits w 0 17)) n]
        (.xstore (bits w 32 9)) 5 1 (ceilDiv n 32) none (fun _ s => s) := by
      rw [← chunksOf_one (c.liveRows_ne_nil _ _) 32 63 (by rwa [Core.liveRows_length])]
      unfold planMxl
      dsimp only
      rw [if_pos h0]
      exact Plan.says_withWait
    obtain ⟨extra, d, r, hu, he, hgot, -, hcore⟩ := State.issue_group h hq Plan.acts_none (c.liveRows_ne_nil _ _) ha
      (fun _ y _ => by show lookup? c.marks y = none; rw [hm]; rfl)
    intro i y hy
    rw [hcore]
    unfold Core.finish
    rw [hu, hgot rfl]
    exact Core.writeX_row hy
  · refine runs_of_step rfl hw ?_
    have hq : (planMxl w x.core (s.landed x.core .matrix) s.cycle).Says [] .scale 0 1 (ceilDiv n 32) none (fun t s =>
        s.onCore x.core (fun c => if bits w 31 1 = 1
          then (c.writeX (t + 4 + ceilDiv n 32) (bits w 32 9) ((sbOff w n).map c.sbData)).release t (sbOff w n)
          else c.writeX (t + 4 + ceilDiv n 32) (bits w 32 9) ((sbOff w n).map c.sbData))) := by
      unfold planMxl
      dsimp only
      rw [if_neg (by omega), if_pos h1]
      exact Plan.says_withWait
    intro i y hy
    rw [State.issue_core h hq]
    have hrow := Core.writeX_row (c := c.issued .matrix (planMxl w x.core (s.landed x.core .matrix) s.cycle) s.cycle 0 x.mismatch)
      (due := s.cycle + 4 + ceilDiv n 32) (first := bits w 32 9) (rows := (sbOff w n).map
        (c.issued .matrix (planMxl w x.core (s.landed x.core .matrix) s.cycle) s.cycle 0 x.mismatch).sbData) (i := i) (y := y)
      (by rw [Core.issued_sbData]; exact hy)
    split
    · exact ⟨Core.awaits_release _ hrow.1, Core.awaits_release _ hrow.2⟩
    · exact hrow
  · refine runs_of_step rfl hw ?_
    have hq : (planMxl w x.core (s.landed x.core .matrix) s.cycle).Says [] .scale 0 1 (ceilDiv n 32) none (fun t s =>
        s.onCore x.core (fun c => ({ c with xq := c.xq.drop n }.later (t + 1) (.xqSpace n)).writeX (t + 4 + ceilDiv n 32) (bits w 32 9)
          (c.xq.take n))) := by
      unfold planMxl
      dsimp only
      rw [if_neg (by omega), if_neg (by omega)]
      exact Plan.says_withWait
    refine ⟨fun i y hy => ?_, ?_⟩
    · rw [State.issue_core h hq]
      exact Core.writeX_row (by rw [Core.issued_xq]; exact hy)
    · rw [State.issue_core h hq, Core.writeX_same Core.xq fun _ _ => rfl]
      exact congrArg (List.drop n) Core.issued_xq
  · intro rows image hone
    refine runs_of_step rfl hw ?_
    by_cases h0 : bits w 31 1 = 0
    · obtain ⟨hlen, hm, ha⟩ := hone h0
      have hne : rows ≠ [] := fun hn => by
        have hl : rows.length = imageRows (bits w 33 3) (bits w 32 1) := Core.liveRows_length _ _ _
        rw [hn] at hl
        exact absurd hl.symm (imageRows_ne_zero _ _)
      have hq : (planMma w x.core (s.landed x.core .matrix) s.cycle).Says [rows] (.image (bits w 45 3) (c.operand w 0)) (9 + occ) 1 occ
          none (fun t s => s.onCore x.core (fun c => c.mmaGo w t)) := by
        have h9 : 9 + occ = 10 + occ - (chunksOf 32 64 rows).length := by
          rw [chunksOf_one hne 32 63 hlen, List.length_singleton]; omega
        rw [h9, ← chunksOf_one hne 32 63 hlen]
        unfold planMma
        dsimp only
        rw [if_pos h0]
        exact Plan.says_withWait
      obtain ⟨extra, d, r, hu, he, hgot, -, hcore⟩ := State.issue_group h hq Plan.acts_mmaGo hne ha
        (fun _ y _ => by show lookup? c.marks y = none; rw [hm]; rfl)
      rw [hcore]
      unfold Core.finish
      rw [hu, hgot rfl]
      refine (Core.awaits_later _ _ _ _ _).2 (.inl ⟨by rw [Nat.add_assoc], ?_⟩)
      dsimp only [image]
      rw [if_pos h0, Core.operand_withImage]
    · have hq : (planMma w x.core (s.landed x.core .matrix) s.cycle).Says [] .scale 0 1 occ none (fun t s => s.onCore x.core (fun c =>
          if bits w 29 1 = 1 then ((c.mmaGo w t).later (t + 9 + occ) (.acc (bits w 45 3) ((List.range 64).map (c.operand w (rowsNum
            ((sbOff w (imageRows (bits w 33 3) (bits w 32 1))).map c.sbData))).sum))).release t
              (sbOff w (imageRows (bits w 33 3) (bits w 32 1)))
          else (c.mmaGo w t).later (t + 9 + occ) (.acc (bits w 45 3) ((List.range 64).map (c.operand w (rowsNum
            ((sbOff w (imageRows (bits w 33 3) (bits w 32 1))).map c.sbData))).sum)))) := by
        unfold planMma
        dsimp only
        rw [if_neg h0]
        exact Plan.says_withWait
      rw [State.issue_core h hq, Core.issued_sbData, Core.issued_operand]
      dsimp only [image]
      rw [if_neg h0]
      split
      · exact Core.awaits_release _ ((Core.awaits_later _ _ _ _ _).2 (.inl ⟨rfl, rfl⟩))
      · exact (Core.awaits_later _ _ _ _ _).2 (.inl ⟨rfl, rfl⟩)
  · intro q
    refine ⟨fun h0 => ?_, fun h1 => ?_⟩
    · refine runs_of_step rfl hw ?_
      have hq : (planMdr w x.core (s.landed x.core .matrix) s.cycle).Says [] .scale 0 1 1 none (fun t s => s.onCore x.core (fun c =>
          if bits w 43 1 = 1 then ({ c with rqUsed := c.rqUsed + 1 }.later (t + 3) (.rqPush ⟨(c.accOf (bits w 45 3)).ref,
            (c.accOf (bits w 45 3)).list⟩)).clearAcc (bits w 45 3)
          else { c with rqUsed := c.rqUsed + 1 }.later (t + 3) (.rqPush ⟨(c.accOf (bits w 45 3)).ref,
            (c.accOf (bits w 45 3)).list⟩))) := by
        unfold planMdr
        dsimp only
        rw [if_pos h0]
        exact Plan.says_withWait
      rw [State.issue_core h hq, Core.issued_accOf, Core.issued_rqUsed]
      split
      · exact ⟨(Core.awaits_later _ _ _ _ _).2 (.inl ⟨rfl, rfl⟩), rfl⟩
      · exact ⟨(Core.awaits_later _ _ _ _ _).2 (.inl ⟨rfl, rfl⟩), rfl⟩
    · refine runs_of_step rfl hw fun ha j hj => ?_
      have hq : (planMdr w x.core (s.landed x.core .matrix) s.cycle).Says [c.liveRows (effRow a (bits w 0 17)) 4]
          (.write (((c.liveRows (effRow a (bits w 0 17)) 4).zip (List.range 4)).map (fun x => (x.1, accRow q.list x.2)))) 4 1 1 none
          (fun _ s => s.onCore x.core (fun c => if bits w 43 1 = 1 then c.clearAcc (bits w 45 3) else c)) := by
        unfold planMdr
        dsimp only
        rw [if_neg (by omega)]
        exact Plan.says_withWait
      refine State.issue_writes h hq (Plan.Acts.onCore (F := fun c => if bits w 43 1 = 1 then c.clearAcc (bits w 45 3) else c)
        (fun c => by split <;> rfl) (fun c => by split <;> rfl)) (c.liveRows_ne_nil _ _) ha
        (y := (c.live ((effRow a (bits w 0 17) + j) % 2 ^ 17), accRow q.list j)) (List.mem_map.2 ⟨(_, j), ?_, rfl⟩)
      exact List.mem_iff_getElem?.2 ⟨j, List.getElem?_zip_eq_some.2 ⟨Core.liveRows_getElem? hj, List.getElem?_range hj⟩⟩
  · refine runs_of_step rfl hw ?_
    have hq : (planMclr w x.core (s.landed x.core .matrix) s.cycle).Says [] .scale 0 1 1 none
      (fun _ s => s.clearAll x.core (bits w 45 3) (bits w 0 8)) := Plan.says_withWait
    rw [State.issue_quiet h hq.groups, hq.effect]
    obtain ⟨hacc, hpend⟩ := State.clearAll_core (((s.landed x.core .matrix)).setCore x.core
      (c.issued .matrix (planMclr w x.core (s.landed x.core .matrix) s.cycle) s.cycle 0 x.mismatch)) x.core (bits w 45 3) (bits w 0 8)
    rw [Core.accOf, hacc, hpend, lookupD_put, if_pos rfl]
    refine ⟨rfl, fun y hy l hl => ?_⟩
    have hn := (List.mem_filter.1 hy).2
    rw [accPend, hl] at hn
    simp at hn
  · refine runs_of_step rfl hw fun hm ha => ?_
    obtain ⟨extra, d, r, hu, he, hgot, -, hcore⟩ := State.issue_group h Plan.says_withWait Plan.acts_none (c.liveRows_ne_nil _ _) ha
      (fun _ y _ => by show lookup? c.marks y = none; rw [hm]; rfl)
    rw [hcore]
    unfold Core.finish
    rw [hu, hgot rfl]
    exact (Core.awaits_later _ _ _ _ _).2 (.inl ⟨rfl, rfl⟩)
  · refine runs_of_step rfl hw ?_
    rw [State.issue_core h Plan.says_withWait]
    exact (Core.awaits_later _ _ _ _ _).2 (.inl ⟨rfl, rfl⟩)

end Sys2Proof.Machine

/-!
The vector engine (R97, R119 to R124, R130).
-/

namespace Sys2Proof.Machine

open Sys2Proof

variable {s v : State} {c d : Core} {x : At} {e : Engine} {w : DWord} {q : Plan} {p t : Nat} {mm : Bool}

section
variable {extra : Nat}

@[simp] theorem Core.issued_v : (c.issued e q t extra mm).v = c.v :=
  Core.issued_same (fun c => c.v) (fun _ _ => rfl) (fun _ _ => rfl) (fun _ e _ => by cases e <;> rfl) extra

@[simp] theorem Core.issued_vqnt : (c.issued e q t extra mm).vqnt w = c.vqnt w :=
  Core.issued_same (fun c => c.vqnt w) (fun _ _ => rfl) (fun _ _ => rfl) (fun _ e _ => by cases e <;> rfl) extra

end

/-! ## Lane operations -/

/-- When a lane operation may issue does not depend on its function. -/
theorem State.issuesNow_planLanes (lat occ : Nat) (f g : Core → List (Nat × VReg)) :
    s.issuesNow x e (planLanes lat occ w x.core f) = s.issuesNow x e (planLanes lat occ w x.core g) := by
  have h : ∀ s t, ∃ k : Nat → State → State,
      planLanes lat occ w x.core f s t = { planLanes lat occ w x.core g s t with effect := k } := by
    intro s t
    refine ⟨(planLanes lat occ w x.core f s t).effect, ?_⟩
    unfold planLanes withWait
    split <;> rfl
  obtain ⟨k, hk⟩ := h (s.landed x.core e) s.cycle
  unfold State.issuesNow
  rw [hk]
  rfl

/-- A lane operation puts the registers of its function on their way. -/
theorem State.issue_lanes {lat occ : Nat} {f : Core → List (Nat × VReg)} {r : Nat} {y : VReg}
    (h : s.issuesNow x .vector (planLanes lat occ w x.core f) = true)
    (hf : (r, y) ∈ f (((s.landed x.core .vector).core x.core).issued .vector
      (planLanes lat occ w x.core f (s.landed x.core .vector) s.cycle) s.cycle 0 x.mismatch)) :
    ((s.issue x .vector (planLanes lat occ w x.core f)).core x.core).awaits (s.cycle + lat) (.vreg (r % 32) y) := by
  rw [State.issue_core h Plan.says_withWait, Core.awaits_laters]
  exact .inl (List.mem_map.2 ⟨_, hf, rfl⟩)

/-- Settles O6: each of them is a lane operation of its own function. -/
theorem vectorLaneOperationsWriteTheirLanes : Obligations.VectorLaneOperationsWriteTheirLanes := by
  unfold Obligations.VectorLaneOperationsWriteTheirLanes
  intro x w s c z lane lands
  refine ⟨fun hw h => ?_, fun hw h => ?_, fun hw h => ?_, fun hw h => ?_, fun hw h => ?_, fun hw h => ?_, fun hw h => ?_,
    fun hw h => ?_, fun hw h => ?_, fun hw h => ?_⟩
  · exact runs_of_step rfl hw (State.issue_lanes h (by rw [binLanes, Core.issued_v]; exact List.mem_singleton.2 rfl))
  · exact runs_of_step rfl hw (State.issue_lanes h (by rw [binLanes, Core.issued_v]; exact List.mem_singleton.2 rfl))
  · exact runs_of_step rfl hw (State.issue_lanes h (by rw [binLanes, Core.issued_v]; exact List.mem_singleton.2 rfl))
  · exact runs_of_step rfl hw (State.issue_lanes h (by rw [fmaLanes, Core.issued_v]; exact List.mem_singleton.2 rfl))
  · rw [State.issuesNow_planLanes _ _ _ fun c => [(vd w, pickLanes (is32 w) true (c.v (va w)) (c.v (vb w)))]] at h
    exact runs_of_step rfl hw (State.issue_lanes h (by rw [Core.issued_v]; exact List.mem_singleton.2 rfl))
  · rw [State.issuesNow_planLanes _ _ _ fun c => [(vd w, pickLanes (is32 w) false (c.v (va w)) (c.v (vb w)))]] at h
    exact runs_of_step rfl hw (State.issue_lanes h (by rw [Core.issued_v]; exact List.mem_singleton.2 rfl))
  · refine runs_of_step rfl hw ?_
    split
    · next h0 => exact State.issue_lanes h (by rw [cvtLanes, if_pos h0, Core.issued_v]; exact List.mem_singleton.2 rfl)
    · next h0 =>
      refine ⟨State.issue_lanes h ?_, State.issue_lanes h ?_⟩
      · rw [cvtLanes, if_neg h0, Core.issued_v]
        exact List.mem_cons_self
      · rw [cvtLanes, if_neg h0, Core.issued_v]
        exact List.mem_cons_of_mem _ (List.mem_singleton.2 rfl)
  · refine runs_of_step rfl hw (State.issue_lanes h ?_)
    unfold redLanes
    rw [Core.issued_v]
    dsimp only
    split
    · exact List.mem_singleton.2 rfl
    · split
      · exact List.mem_singleton.2 rfl
      · exact List.mem_cons_self
  · rw [State.issuesNow_planLanes _ _ _ fun c => [(vd w, rotate (is32 w) (c.v (va w)) (c.v (vb w)) (c.v (vc w)))]] at h
    exact runs_of_step rfl hw (State.issue_lanes h (by rw [Core.issued_v]; exact List.mem_singleton.2 rfl))
  · rw [State.issuesNow_planLanes _ _ _ fun _ => [(vd w, splat (is32 w) (bits w 0 32))]] at h
    exact runs_of_step rfl hw (State.issue_lanes h (List.mem_singleton.2 rfl))

theorem State.core_oracle (s : State) (n p : Nat) (f : Core → Core) : ({ s with oracle := n }.onCore p f).core p = f (s.core p) := by
  rw [State.core_onCore, if_pos rfl]
  rfl

/-- A near function writes each lane with a free number of its own (R120). -/
theorem State.issue_near {f : Nat → FV → Nat} (h : s.issuesNow x .vector (planNear f w x.core) = true) :
    ∃ k : Nat → Nat, ((s.issue x .vector (planNear f w x.core)).core x.core).awaits (s.cycle + 8)
      (.vreg (vd w) (mapLanes32 (is32 w)
        (fun i => f (k i) (laneV (is32 w) (((s.landed x.core .vector).core x.core).v (va w)) i)))) := by
  have hq : (planNear f w x.core (s.landed x.core .vector) s.cycle).Says [] .scale 0 1 1 none _ := Plan.says_withWait
  rw [State.issue_quiet h hq.groups, hq.effect]
  generalize hv : (s.landed x.core .vector).setCore x.core _ = v
  have hc : (v.core x.core).v = ((s.landed x.core .vector).core x.core).v := by
    rw [← hv, State.core_setCore, if_pos rfl, Core.issued_v]
  refine ⟨fun i => Config.freeNat (v.oracle + i), ?_⟩
  dsimp only
  rw [State.core_oracle, ← hc]
  exact (Core.awaits_later _ _ _ _ _).2 (.inl ⟨rfl, rfl⟩)

/-- Settles O7. -/
theorem nearFunctionsWriteAllowedValues : Obligations.NearFunctionsWriteAllowedValues := by
  unfold Obligations.NearFunctionsWriteAllowedValues
  intro x w s c lands
  exact ⟨fun hw h => runs_of_step rfl hw (State.issue_near h), fun hw h => runs_of_step rfl hw (State.issue_near h),
    fun hw h => runs_of_step rfl hw (State.issue_near h)⟩

end Sys2Proof.Machine

/-!
The moves of the vector engine, quantisation, scales, carry and the watcher part (R82, R97, R119 to R124, R130).
-/

namespace Sys2Proof.Machine

open Sys2Proof

variable {s v : State} {c d : Core} {x : At} {e : Engine} {w : DWord} {q : Plan} {p t : Nat} {mm : Bool}

/-! ## Moves -/

/-- Settles O8. -/
theorem vectorMovesCarryTheirRows : Obligations.VectorMovesCarryTheirRows := by
  unfold Obligations.VectorMovesCarryTheirRows
  intro x w s c rows
  refine ⟨fun hw h => ?_, fun hw h => ?_, fun hw h => ?_, fun hw h q r hq => ?_⟩
  · refine runs_of_step rfl hw fun hm ha => ?_
    obtain ⟨extra, d, r, hu, he, hgot, -, hcore⟩ := State.issue_group h Plan.says_withWait Plan.acts_none (c.liveRows_ne_nil _ _) ha
      (fun _ y _ => by show lookup? c.marks y = none; rw [hm]; rfl)
    rw [hcore]
    unfold Core.finish
    rw [hu, hgot rfl]
    exact (Core.awaits_later _ _ _ _ _).2 (.inl ⟨rfl, rfl⟩)
  · refine runs_of_step rfl hw ?_
    rw [State.issue_core h Plan.says_withWait, Core.issued_sbData]
    dsimp only
    split
    · exact Core.awaits_release _ ((Core.awaits_later _ _ _ _ _).2 (.inl ⟨rfl, rfl⟩))
    · exact (Core.awaits_later _ _ _ _ _).2 (.inl ⟨rfl, rfl⟩)
  · refine runs_of_step rfl hw fun ha j row hj => ?_
    have hlen : j < 2 := by
      have hlt := (List.getElem?_eq_some_iff.1 hj).1
      rwa [Core.liveRows_length] at hlt
    have hd : (vregRows (c.v (vd w)))[j]? = some (BitVec.ofNat 512 ((c.v (vd w)).toNat >>> (512 * j))) := by
      match j, hlen with
      | 0, _ => rfl
      | 1, _ => rfl
    exact State.issue_writes h Plan.says_withWait Plan.acts_none (c.liveRows_ne_nil _ _) ha
      (y := (row, BitVec.ofNat 512 ((c.v (vd w)).toNat >>> (512 * j)))) (List.mem_iff_getElem?.2 ⟨j, List.getElem?_zip_eq_some.2 ⟨hj, hd⟩⟩)
  · refine runs_of_step rfl hw ?_
    rw [State.issue_core h Plan.says_withWait, Core.issued_rq, hq]
    refine ⟨rfl, ?_, ?_⟩
    · exact (Core.awaits_laters _ _ _ _).2 (.inl List.mem_cons_self)
    · exact (Core.awaits_laters _ _ _ _).2 (.inl (List.mem_cons_of_mem _ List.mem_cons_self))

/-! ## Quantisation -/

/-- What a VQNT changes of its core (R97, R121 to R124). -/
def Core.vqntGo (w : DWord) (t : Nat) (c : Core) : Core :=
  let c1 := if bits w 19 1 = 1 then { c with xqUsed := c.xqUsed + 1 }.later (t + 6) (.xqPush (c.vqnt w).row) else c
  let c2 := if bits w 20 3 < 2 then c1.later (t + 6) (.carry (c.vqnt w).carry true) else c1
  (c2.laters [(t + 6, .collect (c.vqnt w).scales), (t + 6, .tally (c.vqnt w).clamps)]).laters
    (((List.range (c.vqnt w).resid.length).zip (c.vqnt w).resid).map
      (fun x => (t + 6, Eff.vreg ((vd w + x.1) % 32) (ofLanes false x.2))))

theorem Core.awaits_laters_of {l : List (Nat × Eff)} {n : Nat} {y : Eff} (h : c.awaits n y) : (c.laters l).awaits n y :=
  (Core.awaits_laters _ _ _ _).2 (.inr h)

theorem Core.vqntGo_awaits (c : Core) :
    (c.vqntGo w t).awaits (t + 6) (.collect (c.vqnt w).scales) ∧ (c.vqntGo w t).awaits (t + 6) (.tally (c.vqnt w).clamps) ∧
      (bits w 20 3 < 2 → (c.vqntGo w t).awaits (t + 6) (.carry (c.vqnt w).carry true)) ∧
      (bits w 19 1 = 1 → (c.vqntGo w t).awaits (t + 6) (.xqPush (c.vqnt w).row)) := by
  unfold Core.vqntGo
  dsimp only
  refine ⟨Core.awaits_laters_of ((Core.awaits_laters _ _ _ _).2 (.inl List.mem_cons_self)),
    Core.awaits_laters_of ((Core.awaits_laters _ _ _ _).2 (.inl (List.mem_cons_of_mem _ List.mem_cons_self))),
    fun h => Core.awaits_laters_of (Core.awaits_laters_of ?_), fun h => Core.awaits_laters_of (Core.awaits_laters_of ?_)⟩
  · rw [if_pos h]
    exact (Core.awaits_later _ _ _ _ _).2 (.inl ⟨rfl, rfl⟩)
  · rw [if_pos h]
    have h1 := (Core.awaits_later { c with xqUsed := c.xqUsed + 1 } (t + 6) (.xqPush (c.vqnt w).row) _ _).2 (.inl ⟨rfl, rfl⟩)
    split
    · exact (Core.awaits_later _ _ _ _ _).2 (.inr h1)
    · exact h1

theorem Core.vqntGo_same {α : Type} (f : Core → α) (h : ∀ c n l, f { c with xqUsed := n, pend := l } = f c) (c : Core) :
    f (c.vqntGo w t) = f c := by
  have hl : ∀ (c : Core) l, f (c.laters l) = f c := fun c l =>
    foldl_same f (f := fun c (y : Nat × Eff) => c.later y.1 y.2) (fun c y => h c _ _) l c
  unfold Core.vqntGo
  dsimp only
  rw [hl, hl]
  split <;> split <;> exact h c _ _

theorem Plan.acts_vqntGo : Plan.Acts p (fun s => s.onCore p (Core.vqntGo w t)) (Core.vqntGo w t) :=
  Plan.Acts.onCore (Core.vqntGo_same Core.marks fun _ _ _ => rfl) (Core.vqntGo_same Core.pad fun _ _ _ => rfl)

/-- A part that leaves its core: on its way to the watch unit, where the route to the steward is whole (R130, R178). -/
theorem State.sendPart_ok {y : Part130} {n : Nat} {dies : List Nat} (h : s.route 3 n p 98 0 none = .ok dies) (hn : y.part = n) :
    s.sendPart y p = { s with
      watch := s.watch ++ [{ y with due := y.issued + routeLatency (clusterHops p 98 0) (crossings dies) }] } := by
  unfold State.sendPart
  rw [hn, h]

/-- The parts on their way to the watch unit, which no access under way can change. -/
theorem untouched_watch (p : Nat) : Untouched State.watch p where
  core _ _ := rfl
  wr _ _ _ := rfl
  strike _ _ _ := rfl
  report _ _ := rfl
  net _ _ := rfl
  gate s n w := by
    unfold State.emitToken; dsimp only
    repeat' split
    all_goals rfl

theorem State.core_watch (s : State) (l : List Part130) (p : Nat) (f : Core → Core) :
    ({ s with watch := l }.onCore p f).core p = f (s.core p) := by
  rw [State.core_onCore, if_pos rfl]
  rfl

theorem State.watch_watch (s : State) (l : List Part130) (p : Nat) (f : Core → Core) :
    ({ s with watch := l }.onCore p f).watch = l := rfl

/-- Settles O9. -/
theorem quantisationMovesRowScalesAndCarry : Obligations.QuantisationMovesRowScalesAndCarry := by
  unfold Obligations.QuantisationMovesRowScalesAndCarry
  intro x w s u c row
  refine ⟨fun hw h => ?_, fun hw h => ?_, fun hw h => ?_, fun hw h dies hr => ?_⟩
  · refine runs_of_step rfl hw ?_
    by_cases h1 : bits w 19 1 = 1
    · have hq : (planVqnt w x.core u s.cycle).Says [] (.write [(row, (c.vqnt w).row)]) 6 1 (if bits w 20 1 = 0 then 2 else 1) none
          (fun t s => s.onCore x.core (Core.vqntGo w t)) := by
        have hq : (planVqnt w x.core u s.cycle).Says (if bits w 19 1 = 1 then [] else [[row]]) (.write [(row, (c.vqnt w).row)]) 6 1
          (if bits w 20 1 = 0 then 2 else 1) none (fun t s => s.onCore x.core (Core.vqntGo w t)) := Plan.says_withWait
        rwa [if_pos h1] at hq
      obtain ⟨hc, ht, hy, hx⟩ := Core.vqntGo_awaits (w := w) (t := s.cycle) (c.issued .vector (planVqnt w x.core u s.cycle) s.cycle 0 x.mismatch)
      rw [Core.issued_vqnt] at hc ht hy hx
      rw [State.issue_core h hq, if_pos h1]
      exact ⟨hx h1, hc, ht, hy⟩
    · have hq : (planVqnt w x.core u s.cycle).Says [[row]] (.write [(row, (c.vqnt w).row)]) 6 1 (if bits w 20 1 = 0 then 2 else 1) none
          (fun t s => s.onCore x.core (Core.vqntGo w t)) := by
        have hq : (planVqnt w x.core u s.cycle).Says (if bits w 19 1 = 1 then [] else [[row]]) (.write [(row, (c.vqnt w).row)]) 6 1
          (if bits w 20 1 = 0 then 2 else 1) none (fun t s => s.onCore x.core (Core.vqntGo w t)) := Plan.says_withWait
        rwa [if_neg h1] at hq
      obtain ⟨extra, d, r, hu, he, -, hkeep, hcore⟩ := State.issue_group h hq Plan.acts_vqntGo (by simp) (Core.apart_one _ _)
        (fun hn => by cases hn)
      obtain ⟨hc, ht, hy, -⟩ := Core.vqntGo_awaits (w := w) (t := s.cycle) (c.issued .vector (planVqnt w x.core u s.cycle) s.cycle extra x.mismatch)
      rw [Core.issued_vqnt] at hc ht hy
      rw [if_neg h1]
      refine ⟨State.issue_writes h hq Plan.acts_vqntGo (by simp) (Core.apart_one _ _) (y := (row, (c.vqnt w).row)) List.mem_cons_self, ?_⟩
      rw [hcore]
      exact ⟨Core.awaits_finish (hkeep _ _ hc), Core.awaits_finish (hkeep _ _ ht), fun h2 => Core.awaits_finish (hkeep _ _ (hy h2))⟩
  · refine runs_of_step rfl hw ?_
    have hF : Plan.Acts x.core (fun s' => s'.onCore x.core (fun c => c.later (s.cycle + 4) .emptied)) (fun c => c.later (s.cycle + 4) .emptied) :=
      Plan.Acts.onCore (fun _ => rfl) (fun _ => rfl)
    have hq : (planVscs w x.core u s.cycle).Says [[row]] (.write [(row, BitVec.ofNat 512 (ofBytes c.collector))]) 4 1 1 none
      (fun t s => s.onCore x.core (fun c => c.later (t + 4) .emptied)) := Plan.says_withWait
    obtain ⟨extra, d, r, hu, he, -, hkeep, hcore⟩ := State.issue_group h hq hF (by simp) (Core.apart_one _ _) (fun hn => by cases hn)
    refine ⟨?_, State.issue_writes h hq hF (by simp) (Core.apart_one _ _) (y := (row, _)) List.mem_cons_self⟩
    rw [hcore]
    exact Core.awaits_finish (hkeep _ _ ((Core.awaits_later _ _ _ _ _).2 (.inl ⟨rfl, rfl⟩)))
  · refine runs_of_step rfl hw ?_
    rw [State.issue_core h Plan.says_withWait, Core.issued_v, Core.issued_carry]
    split
    · exact (Core.awaits_later _ _ _ _ _).2 (.inl ⟨rfl, rfl⟩)
    · exact (Core.awaits_laters _ _ _ _).2 (.inl List.mem_cons_self)
  · refine runs_of_step rfl hw ?_
    have hq : (planVnw w x.core u s.cycle).Says [] .scale 0 1 1 none _ := Plan.says_withWait
    have hwatch : u.watch = s.watch := (untouched_watch x.core).ahead s _ _
    rw [State.issue_quiet h hq.groups, hq.effect]
    generalize hv : (s.landed x.core .vector).setCore x.core _ = v
    have hvc : v.core x.core = c.issued .vector (planVnw w x.core u s.cycle) s.cycle 0 x.mismatch := by
      rw [← hv, State.core_setCore, if_pos rfl]
    have howner : v.ownerOfCore x.core = u.ownerOfCore x.core := by rw [← hv]; rfl
    have hvw : v.watch = s.watch := by rw [← hwatch, ← hv]; rfl
    have hvr : v.route 3 ((v.ownerOfCore x.core).getD 0) x.core 98 0 none = .ok dies := by
      rw [howner, ← hv, State.route_setCore]; exact hr
    dsimp only
    rw [State.sendPart_ok hvr rfl, State.core_watch, State.watch_watch, hvw, hvc, Core.issued_v, Core.issued_tally]
    exact ⟨rfl, _, rfl, rfl, rfl, rfl, rfl, rfl⟩

end Sys2Proof.Machine

/-!
The send engine (R79, R87, R98, R153, R468): the packets that an SWR and an SWB put into the network, and the row of a SEMT.
-/

namespace Sys2Proof.Machine

open Sys2Proof

variable {s v u : State} {c d : Core} {x : At} {e : Engine} {w : DWord} {q : Plan} {p t : Nat} {mm : Bool}

/-! ## What accesses under way do to a state -/

/-- The state `u` comes from `s` by what the accesses of core `p` can do: changes of the core, of its count of saturations and of the record of the
present cycle, reports, rows filled in and times moved in the network, words given to the emit gate (R149 to R153, R468). -/
inductive Accessed (p : Nat) (s : State) : State → Prop
  | refl : Accessed p s s
  | core {u : State} (h : Accessed p s u) (c : Core) : Accessed p s (u.setCore p c)
  | sat {u : State} (h : Accessed p s u) (y : Word) : Accessed p s (u.wr (DIE_CORE_SAT p) y)
  | strike {u : State} (h : Accessed p s u) (a : Nat) (g : Word → Word) : Accessed p s (u.strike a g)
  | report {u : State} (h : Accessed p s u) (r : Report) : Accessed p s (u.report r)
  | net {u : State} (h : Accessed p s u) (g : Packet → Packet) : Accessed p s { u with net := u.net.map g }
  | gate {u : State} (h : Accessed p s u) (n : Nat) (y : DWord) : Accessed p s (u.emitToken n p y)

namespace Accessed

theorem ite {b : Prop} [Decidable b] {v : State} (h : Accessed p s u) (h' : Accessed p s v) : Accessed p s (if b then u else v) := by
  split <;> assumption

theorem cpCount (h : Accessed p s u) (r : FieldRef) (n t : Nat) : Accessed p s (u.cpCount p r n t) :=
  .ite ((h.core _).strike _ _) (h.core _)

theorem cpRecord (h : Accessed p s u) (a stamp y t : Nat) : Accessed p s (u.cpRecord p a stamp y t) :=
  .ite h (.ite ((h.core _).strike _ _) (h.core _))

theorem note (h : Accessed p s u) (t : Nat) (n : Note) : Accessed p s (u.note p t n) := by
  cases n with
  | sat n => exact .ite ((h.sat _).strike _ _) (h.sat _)
  | overflow k row w => exact ((h.cpCount _ _ _).cpRecord _ _ _ _).report _

theorem effects (h : Accessed p s u) (t : Nat) : Accessed p s (u.effects p t) :=
  each_keeps (Accessed p s) (f := fun (n : Nat × Note) (u : State) => u.note p n.1 n.2) (fun n _ hu => hu.note n.1 n.2) _ _ (h.core _)

theorem delay (h : Accessed p s u) (r : Run) (t n : Nat) : Accessed p s (u.delay p r t n) := by
  unfold State.delay
  dsimp only
  split
  · exact ((h.core _).net _).core _
  · exact h.core _

theorem eccRow (h : Accessed p s u) (row t : Nat) (b : Bool) : Accessed p s (u.eccRow p row t b).1 := by
  unfold State.eccRow
  dsimp only
  split
  · exact h
  · split
    · exact (h.cpCount _ _ _).core _
    · exact ((h.cpCount _ _ _).cpRecord _ _ _ _).report _

theorem eccGroup (h : Accessed p s u) (t : Nat) (l : List Nat) : Accessed p s (u.eccGroup p t l).1 :=
  foldl_keeps (fun y : State × Bool => Accessed p s y.1)
    (f := fun y row => ((y.1.eccRow p row t false).1, y.2 || (y.1.eccRow p row t false).2)) (fun _ row hy => hy.eccRow row t false)
    l (u, false) h

theorem passRows (h : Accessed p s u) (r : Run) (t : Nat) (l : List (Nat × Row)) : Accessed p s (u.passRows p r t l) := by
  unfold State.passRows
  split
  · exact h.core _
  · exact h.net _
  · exact h

theorem handOver (h : Accessed p s u) (r : Run) : Accessed p s (u.handOver p r) := by
  unfold State.handOver
  split
  · exact h.gate _ _
  · exact h

theorem grant (h : Accessed p s u) (r : Run) (t : Nat) : Accessed p s (u.grant p r t) := by
  unfold State.grant
  split
  · exact h.core _
  · next g rest hr =>
    dsimp only
    have hecc : Accessed p s (if r.use.writes then (u.onCore p (fun c => c.claim t (enginePrio r.eng) (wantBanks g)), 0)
        else (u.onCore p (fun c => c.claim t (enginePrio r.eng) (wantBanks g))).eccGroup p t (g.map (·.row))).1 := by
      split
      · exact h.core _
      · exact Accessed.eccGroup (h.core _) _ _
    split
    · exact (((passRows (.ite hecc (hecc.delay _ _ _)) _ _ _).core _).core _).handOver _
    · exact (passRows (.ite hecc (hecc.delay _ _ _)) _ _ _).core _

theorem runAt (h : Accessed p s u) (t : Nat) (e : Engine) : Accessed p s (u.runAt p t e) := by
  unfold State.runAt
  split
  · exact h
  · exact .ite (h.grant _ _) ((h.delay _ _ _).core _)

theorem serveRow (h : Accessed p s u) (t : Nat) (y : RemoteRead) : Accessed p s (u.serveRow p t y) := by
  have hecc : ∀ g row, Accessed p s ((u.onCore p g).eccRow p row t false).1 := fun g row => Accessed.eccRow (h.core _) _ _ _
  exact .ite ((net (.ite ((hecc _ _).net _) (hecc _ _)) _).core _) ((h.net _).core _)

theorem serveReads (h : Accessed p s u) (t : Nat) (b : Bool) : Accessed p s (u.serveReads p t b) :=
  foldl_keeps (Accessed p s) (f := fun s y => s.serveRow p t y) (fun _ y hu => hu.serveRow t y) _ _ h

theorem runCycle (h : Accessed p s u) (t below : Nat) : Accessed p s (u.runCycle p t below) := by
  have hrun : Accessed p s ([Engine.matrix, .load, .vector, .send].foldl
      (fun s e => if enginePrio e < below then s.runAt p t e else s) (u.serveReads p t true)) :=
    foldl_keeps (Accessed p s) (f := fun s e => if enginePrio e < below then s.runAt p t e else s)
      (fun _ e hu => .ite (hu.runAt t e) hu) _ _ (h.serveReads t true)
  exact .ite h (.ite (hrun.serveReads t false) hrun)

theorem runTo (h : Accessed p s u) (t fuel : Nat) : Accessed p s (State.runTo p t fuel u) := by
  induction fuel generalizing u with
  | zero => exact h
  | succ n ih =>
    unfold State.runTo
    split
    · exact h
    · split
      · exact ih ((h.effects _).runCycle _ _)
      · exact h

/-- What a core's accesses under way do until cycle `t`. -/
theorem ahead (h : Accessed p s u) (t below : Nat) : Accessed p s (u.ahead p t below) :=
  ((h.runTo t t).effects t).runCycle t below

/-- No access adds a packet or takes one out of the network. -/
theorem net_length (h : Accessed p s u) : u.net.length = s.net.length := by
  induction h with
  | refl => rfl
  | core _ _ ih => exact ih
  | sat _ _ ih => exact ih
  | strike _ _ _ ih => exact ih
  | report _ _ ih => exact ih
  | net _ _ ih => exact (List.length_map _).trans ih
  | gate _ n y ih =>
    refine Eq.trans ?_ ih
    unfold State.emitToken
    dsimp only
    repeat' split
    all_goals rfl

end Accessed

theorem State.landed_net_length (s : State) (p : Nat) (e : Engine) : (s.landed p e).net.length = s.net.length :=
  (Accessed.refl.ahead s.cycle (enginePrio e)).net_length

/-! ## Rows that leave -/

/-- Packets whose routes are whole, put into the network one after another (R87). -/
theorem State.injects_ok {α : Type} {dies : List Nat} {hc : Nat} (f : α → Packet) (g : α → Nat) (l : List α) :
    ∀ s : State, (∀ y ∈ l, s.route (f y).cls (f y).part (f y).source (f y).node (f y).core (f y).enter = .ok dies ∧ (f y).kind ≠ .readReq ∧
        clusterHops (f y).source (f y).node (f y).core = hc) →
      ∃ m new, l.foldl (fun s y => s.inject (f y) (g y)) s = { s with lanes := m, net := s.net ++ new } ∧ new.length = l.length ∧
        ∀ y ∈ l, ∃ path seqs, { f y with due := g y + routeLatency hc (crossings dies), path := path, seqs := seqs } ∈ new := by
  induction l with
  | nil => exact fun s _ => ⟨s.lanes, [], by simp⟩
  | cons a r ih =>
    intro s h
    obtain ⟨hr, hk, hhc⟩ := h a List.mem_cons_self
    obtain ⟨m, path, seqs, hi⟩ := State.inject_ok (t := g a) hr
    rw [if_neg hk, hhc] at hi
    obtain ⟨m', new, hnet, hlen, hmem⟩ := ih (s.inject (f a) (g a)) fun y hy => by
      obtain ⟨hr', hk', hhc'⟩ := h y (List.mem_cons_of_mem _ hy)
      rw [hi, State.route_moved s s.cores]
      exact ⟨hr', hk', hhc'⟩
    rw [hi] at hnet
    rw [List.foldl_cons, hi, hnet]
    refine ⟨m', _ :: new, by rw [List.append_assoc]; rfl, by rw [List.length_cons, hlen, List.length_cons], fun y hy => ?_⟩
    rcases List.mem_cons.1 hy with rfl | hy
    · exact ⟨path, seqs, List.mem_cons_self⟩
    · obtain ⟨path, seqs, hm⟩ := hmem y hy
      exact ⟨path, seqs, List.mem_cons_of_mem _ hm⟩

/-- The rows of an instruction on their way, where the route is whole. -/
theorem State.sendRows_ok {dies : List Nat} {hc n : Nat} {f : Nat → Packet}
    (h : ∀ j, s.route (f j).cls (f j).part (f j).source (f j).node (f j).core (f j).enter = .ok dies ∧ (f j).kind ≠ .readReq ∧
      clusterHops (f j).source (f j).node (f j).core = hc) :
    (∀ p, (s.sendRows t ((List.range n).map f)).core p = s.core p) ∧
      ∃ new, (s.sendRows t ((List.range n).map f)).net = s.net ++ new ∧ new.length = n ∧
        ∀ j, j < n → ∃ path seqs,
          { f j with due := t + 2 * j + 1 + routeLatency hc (crossings dies), path := path, seqs := seqs } ∈ new := by
  have hz : ∀ y, y ∈ (List.range ((List.range n).map f).length).zip ((List.range n).map f) → ∃ j, y = (j, f j) := by
    rintro ⟨i, k⟩ hy
    have hk := mem_range_zip.1 hy
    rw [List.getElem?_map, Option.map_eq_some_iff] at hk
    obtain ⟨j, hj, rfl⟩ := hk
    obtain ⟨hlt, rfl⟩ := List.getElem?_eq_some_iff.1 hj
    exact ⟨i, by rw [List.getElem_range]⟩
  obtain ⟨m, new, hnet, hlen, hmem⟩ := State.injects_ok (dies := dies) (hc := hc) (fun y : Nat × Packet => y.2) (fun y => t + 2 * y.1 + 1)
    ((List.range ((List.range n).map f).length).zip ((List.range n).map f)) s fun y hy => by
      obtain ⟨j, rfl⟩ := hz y hy
      exact h j
  have hsend : s.sendRows t ((List.range n).map f) = { s with lanes := m, net := s.net ++ new } := hnet
  rw [hsend]
  refine ⟨fun _ => rfl, new, rfl, by simpa using hlen, fun j hj => ?_⟩
  exact hmem (j, f j) (mem_range_zip.2 (by simp [hj]))

end Sys2Proof.Machine

/-!
SWR, SWB and SEMT (R79, R87, R98, R153, R468).
-/

namespace Sys2Proof.Machine

open Sys2Proof

variable {s v u : State} {c d : Core} {x : At} {e : Engine} {w : DWord} {q : Plan} {p t : Nat} {mm : Bool}

/-! ## The packets of an SWR and of an SWB -/

/-- Row `j` of an SWR of `n` rows to core `q` (R98). -/
def swrRow (w : DWord) (part p q : Nat) (a : AReg) (n : Nat) (c : Core) (j : Nat) : Packet :=
  { cls := bits w 32 2, kind := .write, part := part, source := p, node := nodeOf q, core := q, page := 0
    row := (bits a 0 17 + j) % 2 ^ 17, counter := bits w 50 6, tag := 0, rows := n - 1 - j, total := n, writer := .core
    data := sourceRow c w j, due := 0, fails := 0, late := bits w 31 1 == 0 }

/-- Row `j` of an SWB of `n` rows that holds `tag` (R98, R204). -/
def swbRow (w : DWord) (part p tag : Nat) (a : AReg) (n t : Nat) (c : Core) (j : Nat) : Packet :=
  { cls := 1, kind := .bayWrite, part := part, source := p, node := 72 + bits a 40 5, core := 0, page := bits a 20 20
    row := effBayRow a j, counter := 0, tag := tag, rows := n - 1 - j, total := n, writer := .core
    data := sourceRow c w j, due := 0, fails := 0, late := bits w 31 1 == 0, op := t }

/-- What an SWR of `n` rows to core `q`, and an SWB that takes tag `g`, do as they issue (R79, R87). -/
def State.swrGo (w : DWord) (part p q : Nat) (a : AReg) (n t : Nat) (s : State) : State :=
  (s.onCore p (fun c => c.afterSend w n t)).sendRows t ((List.range n).map (swrRow w part p q a n (s.core p)))

def State.swbGo (w : DWord) (part p g pc : Nat) (a : AReg) (n t : Nat) (s : State) : State :=
  (s.onCore p (fun c => { (c.afterSend w n t) with tags := put c.tags g ⟨.send, pc, 0, n, n⟩ })).sendRows t
    ((List.range n).map (swbRow w part p g a n t (s.core p)))

theorem planSwr_says {n o : Nat} (hk : kindOf ((s.core p).areg .send (bits w 44 4)) = 1)
    (hq : s.translate p ((s.ownerOfCore p).getD 0) (bits ((s.core p).areg .send (bits w 44 4)) 32 14) = some n) :
    (planSwr w p s o).Says (sourceGroups (s.core p) w (bits w 34 6 + 1)) (.send (bits w 34 6 + 1)) 0 2 (2 * (bits w 34 6 + 1)) none
      (State.swrGo w ((s.ownerOfCore p).getD 0) p n ((s.core p).areg .send (bits w 44 4)) (bits w 34 6 + 1)) := by
  have hl : decide (kindOf ((s.core p).areg .send (bits w 44 4)) = 3) = false := by rw [hk]; rfl
  unfold planSwr
  dsimp only
  rw [hl, hq, Option.getD_some]
  exact Plan.says_mk

theorem planSwb_says {g o : Nat} (hg : (s.core p).freeTag = some g) :
    (planSwb w p s o).Says (sourceGroups (s.core p) w (bits w 34 6 + 1)) (.send (bits w 34 6 + 1)) 0 2 (2 * (bits w 34 6 + 1)) none
      (State.swbGo w ((s.ownerOfCore p).getD 0) p g (s.core p).se.pc ((s.core p).areg .send (bits w 44 4)) (bits w 34 6 + 1)) := by
  unfold planSwb
  dsimp only
  rw [hg, Option.getD_some]
  exact Plan.says_withWait

theorem State.swrGo_ok {part q n : Nat} {a : AReg} {dies : List Nat}
    (h : s.route (bits w 32 2) part p (q / 128) q none = .ok dies) :
    (s.swrGo w part p q a n t).core p = (s.core p).afterSend w n t ∧
      ∃ new, (s.swrGo w part p q a n t).net = s.net ++ new ∧ new.length = n ∧ ∀ j, j < n → ∃ path seqs,
        { swrRow w part p q a n (s.core p) j with
          due := t + 2 * j + 1 + routeLatency (clusterHops p (q / 128) q) (crossings dies), path := path, seqs := seqs } ∈ new := by
  obtain ⟨hcore, hnet⟩ := State.sendRows_ok (s := s.onCore p (fun c => c.afterSend w n t)) (dies := dies)
    (hc := clusterHops p (q / 128) q) (t := t) (n := n) (f := swrRow w part p q a n (s.core p))
    (fun j => ⟨by rw [State.route_onCore]; exact h, Kind.noConfusion, rfl⟩)
  exact ⟨(hcore p).trans (by rw [State.core_onCore, if_pos rfl]), hnet⟩

theorem State.swbGo_ok {part g pc n : Nat} {a : AReg} {dies : List Nat} (h : s.route 1 part p (72 + bits a 40 5) 0 none = .ok dies) :
    ((s.swbGo w part p g pc a n t).core p).tags = put (s.core p).tags g ⟨.send, pc, 0, n, n⟩ ∧
      ∃ new, (s.swbGo w part p g pc a n t).net = s.net ++ new ∧ new.length = n ∧ ∀ j, j < n → ∃ path seqs,
        { swbRow w part p g a n t (s.core p) j with
          due := t + 2 * j + 1 + routeLatency (clusterHops p (72 + bits a 40 5) 0) (crossings dies)
          path := path, seqs := seqs } ∈ new := by
  obtain ⟨hcore, hnet⟩ := State.sendRows_ok (dies := dies) (hc := clusterHops p (72 + bits a 40 5) 0) (t := t) (n := n)
    (s := s.onCore p (fun c => { (c.afterSend w n t) with tags := put c.tags g ⟨.send, pc, 0, n, n⟩ }))
    (f := swbRow w part p g a n t (s.core p)) (fun j => ⟨by rw [State.route_onCore]; exact h, Kind.noConfusion, rfl⟩)
  refine ⟨?_, hnet⟩
  refine (congrArg Core.tags (hcore p)).trans ?_
  rw [State.core_onCore, if_pos rfl]

theorem Core.afterSend_same {α : Type} (f : Core → α) (h : ∀ c n l, f { c with inject := n, pend := l } = f c) (n : Nat) (c : Core) :
    f (c.afterSend w n t) = f c := by
  have hl : ∀ (c : Core) l, f (c.laters l) = f c := fun c l =>
    foldl_same f (f := fun c (y : Nat × Eff) => c.later y.1 y.2) (fun c y => h c _ _) l c
  unfold Core.afterSend
  dsimp only
  split
  · exact (hl _ _).trans (h c _ _)
  · exact h c _ _

theorem sourceRow_sb (h : bits w 31 1 = 1) (c : Core) (j : Nat) :
    sourceRow c w j = c.sbData (512 * bits w 9 2 + (bits w 0 9 + j) % 512) := if_pos h

theorem sourceGroups_sb (h : bits w 31 1 = 1) (c : Core) (n : Nat) : sourceGroups c w n = [] := if_pos h

/-- The first claim of an instruction that sends rows of the scratchpad (R153). -/
theorem sourceGroups_pad (h : bits w 31 1 = 0) (c : Core) (n : Nat) :
    ∃ gs, sourceGroups c w (n + 1) = [c.live (effRow (c.areg .send (bits w 40 4)) (bits w 0 17))] :: gs := by
  have hlt : effRow (c.areg .send (bits w 40 4)) (bits w 0 17) % 2 ^ 17 = effRow (c.areg .send (bits w 40 4)) (bits w 0 17) :=
    Nat.mod_mod _ _
  unfold sourceGroups
  rw [if_neg (by omega), Core.liveRows, rowsFrom, List.range_succ_eq_map, List.map_cons, List.map_cons, List.map_cons,
    Nat.add_zero, hlt]
  exact ⟨_, rfl⟩

/-! ## Grants of the send engine -/

/-- The rows of a granted cycle go into the packets that wait for them (R153). -/
theorem State.grant_send_net {r : Run} {n : Nat} {g : List Want} {rest : List (List Want)} (hu : r.use = .send n)
    (hr : r.groups = g :: rest) (hm : ∀ w ∈ g, lookup? (v.core p).marks w.row = none) :
    (v.grant p r t).net = (v.fillRows p n (g.map (fun w => (w.pos, padRow (v.core p).pad w.row)))).net := by
  have hn : (v.claimed p r g t).net = (v.fillRows p n (g.map (fun w => (w.pos, padRow (v.core p).pad w.row)))).net := by
    unfold State.claimed State.passRows Run.taken
    rw [hu]
    rfl
  have ho : ∀ (s : State) y, (s.handOver p (r.granted (v.core p) g rest y)).net = s.net := by
    intro s y
    unfold State.handOver
    rw [Run.granted, hu]
  rw [State.grant_unmarked hr fun _ => hm]
  split
  · rw [ho]; exact hn
  · exact hn

/-- A row filled into the packet that waits for it. -/
theorem State.fillRows_mem {k : Packet} {n : Nat} {rows : List (Nat × Row)} {y : Row} (hk : k ∈ s.net) (hl : sendLate p k = true)
    (hy : lookup? rows (n - 1 - k.rows) = some y) : { k with data := y, late := false } ∈ (s.fillRows p n rows).net := by
  refine List.mem_map.2 ⟨k, hk, ?_⟩
  rw [if_pos hl, hy]

/-- A grant of the emit gate's row hands its word over (R98, R468). -/
theorem State.grant_token {r : Run} {k : Nat} {g : List Want} (hu : r.use = .token k)
    (hr : r.groups = [g]) (hm : ∀ w ∈ g, lookup? (v.core p).marks w.row = none) :
    ∃ u : State, v.grant p r t = u.emitToken ((v.ownerOfCore p).getD 0) p
        (BitVec.ofNat 64 (rowsNum ((r.granted (v.core p) g [] t).got.map (·.2)) >>> (64 * k))) ∧ u.parts = v.parts := by
  have hc : v.claimed p r g t = v.onCore p (fun c => c.claim t (enginePrio r.eng) (wantBanks g)) := by
    unfold State.claimed State.passRows
    rw [hu]
  have ho : ∀ (s : State) (y : Run), y.use = .token k → s.handOver p y =
      s.emitToken ((s.ownerOfCore p).getD 0) p (BitVec.ofNat 64 (rowsNum (y.got.map (·.2)) >>> (64 * k))) := by
    intro s y hy
    unfold State.handOver
    rw [hy]
  rw [State.grant_unmarked hr fun _ => hm, if_pos rfl, ho _ (r.granted (v.core p) g [] t) (by exact hu), hc]
  exact ⟨_, rfl, rfl⟩

/-- The emit gate takes 64 records of a beat; a further one is dropped and sets SAGE_EVT.gate (R468). -/
theorem State.emitToken_beats {n : Nat} {y : DWord} {b : BeatRec} {r : List BeatRec} (h : (s.part n).beats = b :: r) :
    if b.gate.length < 64 then ((s.emitToken n p y).part n).beats = { b with gate := b.gate ++ [⟨p, y⟩] } :: r
    else (s.emitToken n p y).bitOn SAGE_EVT 6 = true ∧ ((s.emitToken n p y).part n).beats = b :: r := by
  unfold State.emitToken
  dsimp only
  rw [h]
  dsimp only
  split
  · simp
  · exact ⟨by rw [State.setBit_bitOn _ _ _ _ (by decide), if_pos rfl], h⟩

/-- Settles O10. -/
theorem sendEngineSendsItsRows : Obligations.SendEngineSendsItsRows := by
  unfold Obligations.SendEngineSendsItsRows
  intro x w s u c a n part
  have hlen : u.net.length = s.net.length := s.landed_net_length x.core .send
  refine ⟨fun hw h h1 hk q dies hq hr => ?_, fun hw h h0 hk q dies hq hr => ?_, fun hw h h1 g dies hg hr => ?_, fun hw h => ?_⟩
  · refine runs_of_step rfl hw ?_
    have hp := planSwr_says (w := w) (o := s.cycle) (s := u) (p := x.core) hk hq
    rw [sourceGroups_sb h1] at hp
    rw [State.issue_quiet h hp.groups, hp.effect]
    generalize hv : (s.landed x.core .send).setCore x.core _ = v
    have hsb : (v.core x.core).sbData = c.sbData := by rw [← hv, State.core_setCore, if_pos rfl, Core.issued_sbData]
    have hvn : v.net = u.net := by rw [← hv]; rfl
    obtain ⟨-, new, hnet, hnew, hmem⟩ := State.swrGo_ok (s := v) (t := s.cycle) (n := n) (a := a) (w := w)
      (by rw [← hv, State.route_setCore]; exact hr)
    refine ⟨by rw [hnet, List.length_append, hnew, hvn, hlen], fun j hj => ?_⟩
    obtain ⟨path, seqs, hm⟩ := hmem j hj
    refine ⟨_, by rw [hnet]; exact List.mem_append_right _ hm, rfl, rfl, rfl, rfl, ?_, rfl⟩
    exact (sourceRow_sb h1 _ j).trans (by rw [hsb])
  · refine runs_of_step rfl hw ?_
    obtain ⟨gs, hgs⟩ := sourceGroups_pad h0 c (bits w 34 6)
    have hp := planSwr_says (w := w) (o := s.cycle) (s := u) (p := x.core) hk hq
    rw [hgs] at hp
    obtain ⟨rest, extra, -, hi⟩ := State.issue_claim h hp (by simp) (Core.apart_one _ _)
    rw [hi]
    generalize hv : (s.landed x.core .send).setCore x.core _ = v
    have hvc : v.core x.core = c.issued .send (planSwr w x.core u s.cycle) s.cycle extra x.mismatch := by
      rw [← hv, State.core_setCore, if_pos rfl]
    have hvn : v.net = u.net := by rw [← hv]; rfl
    obtain ⟨hcore, new, hnet, hnew, hmem⟩ := State.swrGo_ok (s := v) (t := s.cycle) (n := n) (a := a) (w := w)
      (by rw [← hv, State.route_setCore]; exact hr)
    refine ⟨?_, fun hm => ?_⟩
    · rw [(Accessed.refl.grant _ _).net_length, hnet, List.length_append, hnew, hvn, hlen]
    · have hmarks : ((v.swrGo w part x.core q a n s.cycle).core x.core).marks = [] := by
        rw [hcore, hvc, Core.afterSend_same Core.marks fun _ _ _ => rfl, Core.issued_marks]
        exact hm
      have hpad : ((v.swrGo w part x.core q a n s.cycle).core x.core).pad = c.pad := by
        rw [hcore, hvc, Core.afterSend_same Core.pad fun _ _ _ => rfl, Core.issued_pad]
      obtain ⟨path, seqs, hin⟩ := hmem 0 (Nat.succ_pos _)
      rw [State.grant_send_net rfl rfl fun _ _ => by rw [hmarks]; rfl, hpad]
      have hrow : bits a 0 17 % 2 ^ 17 = bits a 0 17 := Nat.mod_eq_of_lt (field_lt _ 0 17)
      refine ⟨_, State.fillRows_mem (y := padRow c.pad (c.live (effRow (c.areg .send (bits w 40 4)) (bits w 0 17))))
        (by rw [hnet]; exact List.mem_append_right _ hin) ?_ ?_, rfl, rfl, hrow, rfl, rfl, rfl⟩
      · simp [sendLate, swrRow, h0]
      · simp [swrRow, Core.wants, lookup?, n, c, u]
  · refine runs_of_step rfl hw ?_
    have hp := planSwb_says (w := w) (o := s.cycle) (s := u) (p := x.core) hg
    rw [sourceGroups_sb h1] at hp
    rw [State.issue_quiet h hp.groups, hp.effect]
    generalize hv : (s.landed x.core .send).setCore x.core _ = v
    have hsb : (v.core x.core).sbData = c.sbData := by rw [← hv, State.core_setCore, if_pos rfl, Core.issued_sbData]
    have hvn : v.net = u.net := by rw [← hv]; rfl
    obtain ⟨htags, new, hnet, hnew, hmem⟩ := State.swbGo_ok (s := v) (t := s.cycle) (n := n) (a := a) (w := w) (g := g) (pc := c.se.pc)
      (by rw [← hv, State.route_setCore]; exact hr)
    refine ⟨by rw [hnet, List.length_append, hnew, hvn, hlen], ?_, fun j hj => ?_⟩
    · rw [htags, lookup?_put, if_pos rfl]
    · obtain ⟨path, seqs, hm⟩ := hmem j hj
      refine ⟨_, by rw [hnet]; exact List.mem_append_right _ hm, rfl, rfl, rfl, rfl, rfl, ?_⟩
      exact (sourceRow_sb h1 _ j).trans (by rw [hsb])
  · intro row b r hrow hb
    refine runs_of_step rfl hw ?_
    have hp : (planSemt w x.core u s.cycle).Says [[row]] (.token (bits w 37 3)) 0 1 1 none (fun _ s => s) := Plan.says_withWait
    obtain ⟨rest, extra, hrest, hi⟩ := State.issue_claim h hp (by simp) (Core.apart_one _ _)
    rw [hi, hrest rfl]
    generalize hv : (s.landed x.core .send).setCore x.core _ = v
    have hvc : v.core x.core = c.issued .send (planSemt w x.core u s.cycle) s.cycle extra x.mismatch := by
      rw [← hv, State.core_setCore, if_pos rfl]
    obtain ⟨y, hy, hparts⟩ := State.grant_token (v := v) (p := x.core) (t := s.cycle)
      (r := ⟨.send, s.cycle, 1, [((s.landed x.core .send).core x.core).wants 0 [row]], [], .token (bits w 37 3), 0⟩) rfl rfl (by
        intro z hz
        obtain ⟨z', hz', rfl⟩ := List.mem_map.1 hz
        rw [hvc, Core.issued_marks, List.mem_singleton.1 (List.of_mem_zip hz').2]
        exact hrow)
    rw [hy]
    have hyb : (y.part part).beats = b :: r := by
      rw [State.part, hparts, ← hv]
      exact hb
    have howner : (v.ownerOfCore x.core).getD 0 = part := by rw [← hv]; rfl
    rw [howner]
    have hpad : (v.core x.core).pad = c.pad := by rw [hvc, Core.issued_pad]
    have hword : rowsNum (((⟨.send, s.cycle, 1, [((s.landed x.core .send).core x.core).wants 0 [row]], [], .token
      (bits w 37 3), 0⟩ : Run).granted
        (v.core x.core) (((s.landed x.core .send).core x.core).wants 0 [row]) [] s.cycle).got.map (·.2)) = (padRow c.pad row).toNat := by
      rw [← hpad]
      exact (congrArg rowsNum (Core.wants_got _ [row] (padRow (v.core x.core).pad))).trans (by simp [rowsNum])
    rw [hword]
    exact State.emitToken_beats (p := x.core) (y := BitVec.ofNat 64 ((padRow c.pad row).toNat >>> (64 * bits w 37 3))) hyb

end Sys2Proof.Machine

/-!
Traps (R99, R107) and the frame of the vector engine's register operations.
-/

namespace Sys2Proof.Machine

open Sys2Proof

variable {s v u : State} {c d : Core} {x : At} {e : Engine} {w : DWord} {q : Plan} {p t : Nat} {mm : Bool}

/-! ## Traps -/

/-- An instruction that would trap in the present cycle traps in it. -/
theorem State.issue_trap {plan : State → Nat → Plan} {k : Nat} (hp : x.core < 9216) (hu : x.upsets = [])
    (hr : s.mayRun x.core e = true) (hc : (((s.landed x.core e).core x.core).eng e).ready ≤ s.cycle)
    (hk : (plan (s.landed x.core e) s.cycle).cause ((s.landed x.core e).core x.core) = some k) :
    s.issue x e plan = ((s.landed x.core e).onCore x.core (fun c => c.onEng e (fun y =>
      { y with heldSum := y.heldSum + (s.cycle - y.ready) }))).trap x.core e (((s.landed x.core e).core x.core).eng e).pc k := by
  have hs : s.upset x.core x.upsets = s := by simp [State.upset, hu]
  have h2 : s.tickEnd - s.cycle = (s.tickEnd - s.cycle - 1) + 1 := by unfold State.tickEnd; omega
  have h0 := s.landed_at x.core e
  unfold State.issue
  rw [if_neg (by simp [hr]; omega), hs]
  unfold State.landed at hc hk h0 ⊢
  dsimp only
  rw [h2, State.issueCycle]
  simp only [hc, hk, Option.isSome_some, true_or, and_self, if_true, h0]

/-- What a trap leaves: the engine stopped, the report, and the first trap's record (R99, R107). -/
theorem State.trap_core (s : State) (p : Nat) (e : Engine) (pc k : Nat) :
    (s.trap p e pc k).core p = (s.core p).onEng e (fun x => { x with trapped := true }) := by
  have h : (s.onCore p (fun c => c.onEng e (fun x => { x with trapped := true }))).core p =
      (s.core p).onEng e (fun x => { x with trapped := true }) := by rw [State.core_onCore, if_pos rfl]
  unfold State.trap
  dsimp only
  rw [State.core_report]
  split
  · split
    · rw [State.core_wr, h]
    · exact h
  · rw [State.core_wr]
    unfold State.recordFirst
    split
    · exact h
    · rw [State.core_strike, State.core_wr, h]

@[simp] theorem State.report_reports (s : State) (r : Report) : (s.report r).reports = s.reports ++ [r] := rfl

theorem State.trap_reports (s : State) (p : Nat) (e : Engine) (pc k : Nat) :
    (s.trap p e pc k).reports = s.reports ++ [⟨7, s.tick, s.ownerOfCore p, some p, 0, none, k, 0, false⟩] := by
  have h : ∀ (b b' : Bool) (s1 : State) a a' y y' z, s1.reports = s.reports → (if b = true then (if b' = true then s1.wr a y else s1)
      else (s1.recordFirst a z).wr a' y').reports = s.reports := by
    intro b b' s1 a a' y y' z h1
    split
    · split
      exacts [h1, h1]
    · rw [State.wr_reports, State.recordFirst_reports, h1]
  exact congrArg (· ++ [_]) (h _ _ (s.onCore p (fun c => c.onEng e (fun x => { x with trapped := true }))) _ _ _ _ _ rfl)

/-- A field of one bit reads as that bit. -/
theorem State.on_eq_bitOn (s : State) (a i : Nat) : s.on ⟨a, i, 1⟩ = s.bitOn a i := by
  have hf : s.get ⟨a, i, 1⟩ = (s.rd a).toNat / 2 ^ i % 2 := field_eq _ i 1
  rw [State.on, hf, State.bitOn, BitVec.getLsbD, Nat.testBit_eq_decide_div_mod_eq]
  rcases Nat.mod_two_eq_zero_or_one ((s.rd a).toNat / 2 ^ i) with h | h <;> rw [h] <;> rfl

theorem State.strike_rd (s : State) (a : Nat) (g : Word → Word) (b : Nat) : (s.strike a g).rd b = s.rd b := rfl

/-- A first event takes the record whose valid bit is clear (R107). -/
theorem State.recordFirst_rd {a : Nat} (y : Nat) (h : s.bitOn a 31 = false) :
    (s.recordFirst a y).rd a = BitVec.ofNat 32 (2 ^ 31 + y % 2 ^ 31) := by
  unfold State.recordFirst
  rw [if_neg (by rw [h]; exact Bool.false_ne_true), State.strike_rd, State.rd_wr, if_pos rfl]

/-- The record of a trap of the load engine (R107). -/
theorem State.trap_rd {k pc : Nat} (hk : k < 8) (hpc : pc < 16384) (h : s.on (DIE_CORE_TRAP_valid p) = false) :
    (s.trap p .load pc k).rd (DIE_CORE_TRAP p) = BitVec.ofNat 32 (2 ^ 31 + k * 2 ^ 28 + pc) := by
  have hne : DIE_CORE_TRAP p ≠ DIE_CORE_TRAP_TICK p := by unfold DIE_CORE_TRAP DIE_CORE_TRAP_TICK; omega
  have hb : (s.onCore p (fun c => c.onEng .load (fun x => { x with trapped := true }))).bitOn (DIE_CORE_TRAP p) 31 = false := by
    rw [← h, DIE_CORE_TRAP_valid, State.on_eq_bitOn]
    rfl
  have hr : ∀ (u : State) r, (u.report r).rd (DIE_CORE_TRAP p) = u.rd (DIE_CORE_TRAP p) := fun _ _ => rfl
  unfold State.trap
  dsimp only
  rw [hr, DIE_CORE_TRAP_valid, State.on_eq_bitOn, hb, if_neg Bool.false_ne_true, State.rd_wr, if_neg hne, State.recordFirst_rd _ hb]
  congr 1
  show 2 ^ 31 + (k * 2 ^ 28 + 0 * 2 ^ 26 + pc) % 2 ^ 31 = _
  omega

/-- The load engine stops where it stands, and its trap is reported and recorded (R78, R107). -/
theorem State.trap_held {u : State} {p k : Nat} (f : Eng → Eng) (hf : ∀ y, (f y).pc = y.pc) (hk : k < 8)
    (hpc : (u.core p).le.pc < 16384) {t : State}
    (ht : t = (u.onCore p (fun c => c.onEng .load f)).trap p .load ((u.core p).eng .load).pc k) :
    (t.core p).le.trapped = true ∧ (t.core p).le.pc = (u.core p).le.pc ∧ (t.core p).sb = (u.core p).sb ∧
      (∃ r, t.reports = u.reports ++ [r] ∧ r.cls = 7 ∧ r.core = some p ∧ r.detail = k) ∧
      (u.on (DIE_CORE_TRAP_valid p) = false →
        t.rd (DIE_CORE_TRAP p) = BitVec.ofNat 32 (2 ^ 31 + k * 2 ^ 28 + (u.core p).le.pc)) := by
  have hcore : t.core p = ((u.core p).onEng .load f).onEng .load (fun x => { x with trapped := true }) := by
    rw [ht, State.trap_core, State.core_onCore, if_pos rfl]
  refine ⟨?_, ?_, ?_, ?_, fun hv => ?_⟩
  · rw [hcore]; rfl
  · rw [hcore]; exact hf _
  · rw [hcore]; rfl
  · rw [ht]; exact ⟨_, State.trap_reports _ _ _ _ _, rfl, rfl, rfl⟩
  · rw [ht]; exact State.trap_rd hk hpc hv

/-- Settles O11. -/
theorem trapsAndWrongWordsStopAnOperation : Obligations.TrapsAndWrongWordsStopAnOperation := by
  unfold Obligations.TrapsAndWrongWordsStopAnOperation
  refine ⟨?_, fun e x w s => ⟨fun h => ?_, fun h => ?_, fun h => ?_, fun h => ?_, fun h => ?_, fun h => ?_⟩⟩
  · intro x w s k u x0 hp hu hr hc hw hk hk8 hpc
    exact runs_of_step rfl hw (State.trap_held (fun y => { y with heldSum := y.heldSum + (s.cycle - y.ready) }) (fun _ => rfl) hk8 hpc
      (State.issue_trap (plan := planLocal false w x.core) hp hu hr hc hk))
  · exact congrArg (fun b => engineStep b _) h
  · exact congrArg (fun b => engineStep b _) h
  · exact congrArg (fun b => engineStep b _) h
  · exact congrArg (fun b => engineStep b _) h
  · exact congrArg (fun b => engineStep b _) h
  · exact congrArg (fun b => engineStep b _) h

end Sys2Proof.Machine

/-!
The frame of the vector engine's register operations (R74, R97).
-/

namespace Sys2Proof.Machine

open Sys2Proof

variable {s v u : State} {c d : Core} {x : At} {e : Engine} {w : DWord} {q : Plan} {p t : Nat} {mm : Bool}

/-! ## A core with no access under way -/

/-- No access to the scratchpad is under way. -/
def Core.Quiet (c : Core) : Prop := c.runs = [] ∧ c.serves = []

theorem Core.Quiet.same (h : c.Quiet) (hr : d.runs = c.runs) (hs : d.serves = c.serves) : d.Quiet := ⟨hr.trans h.1, hs.trans h.2⟩

theorem Core.Quiet.cpSet {r : FieldRef} {n : Nat} (h : c.Quiet) : (c.cpSet r n).Quiet := h

theorem Core.Quiet.cpWr {a : Nat} {y : Word} (h : c.Quiet) : (c.cpWr a y).Quiet := h

theorem Core.Quiet.onEng {g : Eng → Eng} (h : c.Quiet) : (c.onEng e g).Quiet := by cases e <;> exact h

theorem Core.Quiet.ite {b : Prop} [Decidable b] (h : c.Quiet) (h' : d.Quiet) : (if b then c else d).Quiet := by split <;> assumption

/-- Effects that take place start no access. -/
theorem Core.Quiet.apply {y : Eff} (h : c.Quiet) : (c.apply y).1.Quiet := by
  cases y with
  | areg e k lo len v =>
    simp only [Core.apply]
    exact .ite h h.onEng
  | wamt e v => exact (h.onEng : Core.Quiet (c.onEng _ _))
  | sb i d =>
    simp only [Core.apply]
    exact .ite h h
  | cnt k row x =>
    simp only [Core.apply]
    split
    · exact h
    · split
      · exact h
      · exact h.cpSet
  | winCtl w v =>
    simp only [Core.apply, Core.writeWinCtl]
    exact .ite h.cpSet h.cpWr
  | _ => exact h

theorem settleList_quiet {l : List Pend} (h : c.Quiet) : (settleList l t c).1.Quiet := by
  induction l generalizing c with
  | nil => exact h
  | cons a r ih =>
    unfold settleList
    split
    · exact ih h.apply
    · exact h

/-- The effects of a core that are due start no access. -/
theorem State.effects_quiet (h : (s.core p).Quiet) : ((s.effects p t).core p).Quiet := by
  have hn : ∀ {α : Type} (f : Core → α), (∀ c l, f { c with cp := l } = f c) →
      f ((s.effects p t).core p) = f ((s.core p).settle t).1 := by
    intro α f hcp
    unfold State.effects
    dsimp only
    rw [each_eq (fun u : State => f (u.core p)) (fun (n : Nat × Note) (u : State) => State.note_core f hcp u p n.1 n.2),
      State.core_setCore, if_pos rfl]
  have hs : ((s.core p).settle t).1.Quiet := settleList_quiet h
  exact hs.same (hn Core.runs fun _ _ => rfl) (hn Core.serves fun _ _ => rfl)

/-- The reading `f` depends neither on the core `p` nor on registers, the record of the cycle, reports or the cycle itself. -/
structure Aloof {α : Type} (f : State → α) (p : Nat) : Prop where
  core : ∀ s c, f (s.setCore p c) = f s
  wr : ∀ s a v, f (s.wr a v) = f s
  strike : ∀ s a g, f (s.strike a g) = f s
  report : ∀ s r, f (s.report r) = f s
  cycle : ∀ (s : State) n, f { s with cycle := n } = f s

/-- What the cycles until the issue of an instruction leave. -/
theorem State.issueCycle_same {α : Type} {f : State → α} {plan : State → Nat → Plan} (ha : ∀ t, f (s.ahead p t (enginePrio e)) = f s)
    (fuel t : Nat) {u : State} {n : Nat} (h : s.issueCycle p e plan fuel t = some (u, n)) : f u = f s := by
  induction fuel generalizing t with
  | zero => cases h
  | succ k ih =>
    unfold State.issueCycle at h
    dsimp only at h
    split at h
    · cases h
      exact ha _
    · exact ih _ h

section
variable {α : Type} {f : State → α} (hf : Aloof f p)
include hf

theorem Aloof.note (s : State) (t : Nat) (n : Note) : f (s.note p t n) = f s := by
  have hcount : ∀ (s : State) r n t, f (s.cpCount p r n t) = f s := by
    intro s r n t
    unfold State.cpCount
    dsimp only
    split
    · rw [hf.strike, hf.core]
    · exact hf.core _ _
  have hrecord : ∀ (s : State) a b y t, f (s.cpRecord p a b y t) = f s := by
    intro s a b y t
    unfold State.cpRecord
    dsimp only
    split
    · rfl
    · split
      · rw [hf.strike, hf.core]
      · exact hf.core _ _
  cases n with
  | sat n =>
    dsimp only [State.note]
    split
    · exact (hf.strike _ _ _).trans (hf.wr _ _ _)
    · exact hf.wr _ _ _
  | overflow k row w => exact (hf.report _ _).trans ((hrecord _ _ _ _ _).trans (hcount _ _ _ _))

/-- A core with no access under way, brought to cycle `t`. -/
theorem Aloof.ahead (hq : (s.core p).Quiet) (t below : Nat) : f (s.ahead p t below) = f s := by
  have hn : (s.core p).nextRun = none := by
    unfold Core.nextRun
    rw [hq.1, hq.2]
    rfl
  have hto : ∀ fuel, State.runTo p t fuel s = s := by
    intro fuel
    cases fuel with
    | zero => rfl
    | succ n =>
      unfold State.runTo
      rw [hn]
  have hrun : ∀ u : State, (u.core p).Quiet → u.runCycle p t below = u := by
    intro u hu
    unfold State.runCycle
    rw [hu.1, hu.2]
    rfl
  unfold State.ahead State.settle
  rw [hto, hrun _ (State.effects_quiet hq)]
  exact (each_eq f (fun (n : Nat × Note) (u : State) => hf.note u n.1 n.2) _ _).trans (hf.core _ _)

theorem Aloof.trap (s : State) (e : Engine) (pc k : Nat) : f (s.trap p e pc k) = f s := by
  have hfirst : ∀ (s : State) a y, f (s.recordFirst a y) = f s := by
    intro s a y
    unfold State.recordFirst
    split
    · rfl
    · rw [hf.strike, hf.wr]
  unfold State.trap
  dsimp only
  rw [hf.report]
  split
  · split
    · rw [hf.wr]; exact hf.core _ _
    · exact hf.core _ _
  · rw [hf.wr, hfirst]; exact hf.core _ _

theorem Aloof.at (s : State) (t : Nat) : f (s.at t) = f s := hf.cycle _ _

end

/-- A register operation leaves what does not depend on its core, on registers and on reports, as the accesses under way leave it. -/
theorem Aloof.issue_lanes {α : Type} {f : State → α} (hf : Aloof f x.core) {lat occ : Nat} {g : Core → List (Nat × VReg)}
    (ha : ∀ t, f ((s.upset x.core x.upsets).ahead x.core t (enginePrio .vector)) = f (s.upset x.core x.upsets)) :
    f (s.issue x .vector (planLanes lat occ w x.core g)) = f s := by
  have hu : f (s.upset x.core x.upsets) = f s := by
    unfold State.upset
    split
    exacts [rfl, hf.core _ _]
  have hq : ∀ u n, (planLanes lat occ w x.core g u n).Says [] .scale 0 1 occ none
      (fun t s => s.onCore x.core (fun c => c.laters ((g c).map (fun x => (t + lat, Eff.vreg (x.1 % 32) x.2))))) :=
    fun u n => Plan.says_withWait
  unfold State.issue
  split
  · rfl
  · dsimp only
    split
    · exact hu
    · next u n hi =>
      have hi' := (State.issueCycle_same ha _ _ hi).trans hu
      split
      · exact (hf.trap _ _ _ _).trans ((hf.core _ _).trans ((hf.at _ _).trans hi'))
      · unfold State.issueAt
        simp only [(hq u n).groups, Core.claimCycles, if_true, (hq u n).effect]
        exact (hf.core _ _).trans ((hf.core _ _).trans ((hf.at _ _).trans hi'))

/-- Every register operation of the vector engine is a lane operation. -/
theorem exec_lanes {i : Instr}
    (h : i ∈ [.vadd x w, .vsub x w, .vmul x w, .vfma x w, .vmax x w, .vmin x w, .vcvt x w, .vred x w, .vrot x w, .vmovi x w]) :
    ∃ k lat occ g, exec i s = engineStep k (s.issue x .vector (planLanes lat occ w x.core g)) := by
  simp only [List.mem_cons, List.not_mem_nil, or_false] at h
  rcases h with rfl | rfl | rfl | rfl | rfl | rfl | rfl | rfl | rfl | rfl <;> exact ⟨_, _, _, _, rfl⟩

/-- When a lane operation may issue depends on none of its parameters. -/
theorem State.issuesNow_lanes (lat occ lat' occ' : Nat) (f g : Core → List (Nat × VReg)) :
    s.issuesNow x e (planLanes lat occ w x.core f) = s.issuesNow x e (planLanes lat' occ' w x.core g) := by
  have h : ∀ s t, ∃ (k : Nat → State → State) (o : Nat),
      planLanes lat occ w x.core f s t = { planLanes lat' occ' w x.core g s t with occ := o, effect := k } := by
    intro s t
    refine ⟨(planLanes lat occ w x.core f s t).effect, occ, ?_⟩
    unfold planLanes withWait
    split <;> rfl
  obtain ⟨k, o, hk⟩ := h (s.landed x.core e) s.cycle
  unfold State.issuesNow
  rw [hk]
  rfl

/-- A reading of a core that an instruction of engine `e` leaves alone: it does not see that engine, its wait or its claims. -/
theorem Core.issued_other {α : Type} (f : Core → α) (hcp : ∀ c l, f { c with cp := l } = f c)
    (hcl : ∀ c l, f { c with claims := l } = f c) (heng : ∀ c y, f (Core.setEng c e y) = f c) (extra : Nat) :
    f (c.issued e q t extra mm) = f c := by
  have h0 : f (c.prune t) = f c := hcl c _
  have h1 : ∀ r v, f ((c.prune t).cpSet r v) = f c := fun r v => (hcp (c.prune t) _).trans h0
  unfold Core.issued
  dsimp only
  refine (heng _ _).trans ?_
  split
  · split
    exacts [h1 _ _, h0]
  · exact h0

/-- A reading of the core that neither the vector engine nor an effect to come changes is as it was after a lane operation. -/
theorem State.issue_lanes_core {α : Type} (f : Core → α) (hcp : ∀ c l, f { c with cp := l } = f c)
    (hcl : ∀ c l, f { c with claims := l } = f c) (heng : ∀ c y, f { c with ve := y } = f c) (hp : ∀ c l, f { c with pend := l } = f c)
    {lat occ : Nat} {g : Core → List (Nat × VReg)} (h : s.issuesNow x .vector (planLanes lat occ w x.core g) = true) :
    f ((s.issue x .vector (planLanes lat occ w x.core g)).core x.core) = f ((s.landed x.core .vector).core x.core) := by
  rw [State.issue_core h Plan.says_withWait]
  exact (foldl_same f (f := fun c (y : Nat × Eff) => c.later y.1 y.2) (fun c y => hp c _) _ _).trans
    (Core.issued_other (e := .vector) f hcp hcl heng 0)

theorem aloof_net (p : Nat) : Aloof (fun s => (s.net, s.parts)) p :=
  ⟨fun _ _ => rfl, fun _ _ _ => rfl, fun _ _ _ => rfl, fun _ _ => rfl, fun _ _ => rfl⟩

/-- What no operation of core `p` changes: the other cores, the Bays, the flash, the tick counter and the queue. -/
theorem aloof_rest (p : Nat) :
    Aloof (fun s => (fun q : Nat => if q = p then Core.reset else s.core q, s.bays, s.flash, s.tick, s.pending)) p :=
  ⟨(untouched_rest p).core, fun _ _ _ => rfl, fun _ _ _ => rfl, fun _ _ => rfl, fun _ _ => rfl⟩

/-- Settles O12. -/
theorem vectorArithmeticFrame : Obligations.VectorArithmeticFrame := by
  unfold Obligations.VectorArithmeticFrame
  intro x w s t i hi hex
  obtain ⟨k, lat, occ, g, he⟩ := exec_lanes (s := s) hi
  have ht : t = s.issue x .vector (planLanes lat occ w x.core g) := by
    rw [he] at hex
    unfold engineStep at hex
    split at hex
    · exact (Host.Outcome.next.inj hex).symm
    · cases hex
  rw [ht]
  have hrest := (aloof_rest x.core).issue_lanes (s := s) (w := w) (lat := lat) (occ := occ) (g := g)
    fun t => (untouched_rest x.core).ahead _ t _
  have hupset : ∀ {α : Type} (f : Core → α), (∀ c l m, f { c with marks := l, pad := m } = f c) →
      f ((s.upset x.core x.upsets).core x.core) = f (s.core x.core) := by
    intro α f hf
    unfold State.upset
    split
    · rfl
    · rw [State.core_onCore, if_pos rfl]
      exact foldl_same f (fun c u => hf c _ _) _ _
  simp only [Prod.mk.injEq] at hrest
  obtain ⟨hcores, hbays, hflash, htick, hpend⟩ := hrest
  refine ⟨fun p hp => ?_, fun hr hs => ?_, ?_, hbays, hflash, htick, hpend⟩
  · have := congrFun hcores p
    rwa [if_neg hp, if_neg hp] at this
  · have hnet := (aloof_net x.core).issue_lanes (s := s) (w := w) (lat := lat) (occ := occ) (g := g) fun t =>
      (aloof_net x.core).ahead (Core.Quiet.same ⟨hr, hs⟩ (hupset Core.runs fun _ _ _ => rfl) (hupset Core.serves fun _ _ _ => rfl)) t _
    exact Prod.mk.inj hnet
  · intro c h _
    rw [State.issuesNow_lanes 4 1 lat occ _ g] at h
    have same : ∀ {α : Type} (f : Core → α), (∀ c l, f { c with cp := l } = f c) → (∀ c l, f { c with claims := l } = f c) →
        (∀ c y, f { c with ve := y } = f c) → (∀ c l, f { c with pend := l } = f c) →
        f ((s.issue x .vector (planLanes lat occ w x.core g)).core x.core) = f c :=
      fun f h1 h2 h3 h4 => State.issue_lanes_core f h1 h2 h3 h4 h
    exact ⟨same Core.pad (fun _ _ => rfl) (fun _ _ => rfl) (fun _ _ => rfl) (fun _ _ => rfl),
      same Core.sb (fun _ _ => rfl) (fun _ _ => rfl) (fun _ _ => rfl) (fun _ _ => rfl),
      same Core.rq (fun _ _ => rfl) (fun _ _ => rfl) (fun _ _ => rfl) (fun _ _ => rfl),
      same Core.xq (fun _ _ => rfl) (fun _ _ => rfl) (fun _ _ => rfl) (fun _ _ => rfl),
      same Core.acc (fun _ _ => rfl) (fun _ _ => rfl) (fun _ _ => rfl) (fun _ _ => rfl),
      same Core.xstore (fun _ _ => rfl) (fun _ _ => rfl) (fun _ _ => rfl) (fun _ _ => rfl),
      same Core.vreg (fun _ _ => rfl) (fun _ _ => rfl) (fun _ _ => rfl) (fun _ _ => rfl),
      same Core.le (fun _ _ => rfl) (fun _ _ => rfl) (fun _ _ => rfl) (fun _ _ => rfl),
      same Core.me (fun _ _ => rfl) (fun _ _ => rfl) (fun _ _ => rfl) (fun _ _ => rfl),
      same Core.se (fun _ _ => rfl) (fun _ _ => rfl) (fun _ _ => rfl) (fun _ _ => rfl)⟩

end Sys2Proof.Machine

namespace Sys2Proof.Machine

/-! ### What an operation on control words leaves of the rest -/

section Registers

variable {s t : State} {as : List Nat}

theorem State.onlyRegs_refl (s : State) (as : List Nat) : s.onlyRegs s as := ⟨rfl, fun _ _ => rfl⟩

/-- A further change of the control space and of the cycle's record, at named words only. -/
theorem State.onlyRegs.words (h : s.onlyRegs t as) (c : List (Nat × Word)) (n : Now)
    (hc : ∀ a, a ∉ as → rdAt resetWord c a = t.rd a) : s.onlyRegs { t with ctl := c, now := n } as := by
  obtain ⟨ht, hk⟩ := h
  exact ⟨by rw [ht], fun a ha => (hc a ha).trans (hk a ha)⟩

theorem State.onlyRegs.strike (h : s.onlyRegs t as) (a : Nat) (g : Word → Word) : s.onlyRegs (t.strike a g) as :=
  h.words t.ctl _ fun _ _ => rfl

theorem State.onlyRegs.wr (h : s.onlyRegs t as) {a : Nat} {v : Word} (ha : a ∈ as := by exact .head _) : s.onlyRegs (t.wr a v) as :=
  h.words _ t.now fun b hb => by
    have hne : b ≠ a := fun e => hb (e.symm ▸ ha)
    exact (t.rd_wr a v b).trans (if_neg hne)

theorem State.onlyRegs.set (h : s.onlyRegs t as) {f : FieldRef} {v : Nat} (hf : f.addr ∈ as := by exact .head _) :
    s.onlyRegs (t.set f v) as := h.wr hf

theorem State.onlyRegs.setOn (h : s.onlyRegs t as) {f : FieldRef} {b : Bool} (hf : f.addr ∈ as := by exact .head _) :
    s.onlyRegs (t.setOn f b) as := h.set hf

theorem State.onlyRegs.raise (h : s.onlyRegs t as) {f : FieldRef} (hf : f.addr ∈ as := by exact .head _) : s.onlyRegs (t.raise f) as :=
  (h.setOn hf).strike _ _

theorem State.onlyRegs.bump (h : s.onlyRegs t as) {f : FieldRef} {n : Nat} (hf : f.addr ∈ as := by exact .head _) :
    s.onlyRegs (t.bump f n) as := (h.set hf).strike _ _

theorem State.onlyRegs.incr (h : s.onlyRegs t as) {f : FieldRef} (hf : f.addr ∈ as := by exact .head _) : s.onlyRegs (t.incr f) as :=
  h.set hf

theorem State.onlyRegs.setBit (h : s.onlyRegs t as) {a i : Nat} (ha : a ∈ as := by exact .head _) : s.onlyRegs (t.setBit a i) as :=
  (h.wr ha).strike _ _

theorem State.onlyRegs.askFor (h : s.onlyRegs t as) (f : FieldRef) : s.onlyRegs (t.askFor f) as := h.words t.ctl _ fun _ _ => rfl

theorem State.onlyRegs.done (h : s.onlyRegs t as) {f : FieldRef} (hf : f.addr ∈ as := by exact .head _) : s.onlyRegs (t.done f) as := by
  unfold State.done; split
  · exact h
  · exact h.setOn hf

theorem State.onlyRegs.ite {c : Prop} [Decidable c] {u : State} (h : s.onlyRegs t as) (h' : s.onlyRegs u as) :
    s.onlyRegs (if c then t else u) as := by split <;> assumption

theorem State.keeps_refl (s : State) (as : List Nat) : s.keeps s as := fun _ _ => rfl

theorem State.keeps.trans {u : State} (h : s.keeps t as) (h' : t.keeps u as) : s.keeps u as :=
  fun a ha => (h' a ha).trans (h a ha)

theorem State.keeps.wr (h : s.keeps t as) {a : Nat} {v : Word} (ha : a ∈ as := by exact .head _) : s.keeps (t.wr a v) as :=
  fun b hb => by
    have hne : b ≠ a := fun e => hb (e.symm ▸ ha)
    rw [State.rd_wr, if_neg hne, h b hb]

theorem State.keeps.set (h : s.keeps t as) {f : FieldRef} {v : Nat} (hf : f.addr ∈ as := by exact .head _) : s.keeps (t.set f v) as :=
  h.wr hf

theorem State.keeps.setOn (h : s.keeps t as) {f : FieldRef} {b : Bool} (hf : f.addr ∈ as := by exact .head _) :
    s.keeps (t.setOn f b) as := h.set hf

/-- What is done to anything but the control space keeps all its words. -/
theorem State.keeps.same {u : State} (h : s.keeps t as) (hu : u.ctl = t.ctl) : s.keeps u as :=
  fun a ha => by unfold State.rd; rw [hu]; exact h a ha

end Registers

/-! ### Fields read back -/

/-- The field lies in its word. -/
def FieldRef.fits (f : FieldRef) : Bool := (f.lo + f.len).ble 32

/-- The two fields share no bit, were they in one word. -/
def FieldRef.apart (f g : FieldRef) : Bool := (f.lo + f.len).ble g.lo || (g.lo + g.len).ble f.lo

theorem FieldRef.fits.le {f : FieldRef} (h : f.fits = true) : f.lo + f.len ≤ 32 := Nat.le_of_ble_eq_true h

section Fields

variable (s : State) {f g : FieldRef}

theorem State.get_set_fits (v : Nat) (h : f.fits = true := by exact rfl) : (s.set f v).get f = v % 2 ^ f.len :=
  s.get_set f v (FieldRef.fits.le h)

/-- A value that the field's `n` bits hold is read back. -/
theorem State.get_set_of_lt {v : Nat} (n : Nat) (hv : v < 2 ^ n) (hn : f.len = n := by exact rfl) (h : f.fits = true := by exact rfl) :
    (s.set f v).get f = v := by
  subst hn
  exact (s.get_set_fits v h).trans (Nat.mod_eq_of_lt hv)

theorem State.get_set_apart (v : Nat) (h : f.fits = true := by exact rfl) (hg : f.apart g = true := by exact rfl) :
    (s.set f v).get g = s.get g := by
  refine s.get_set_bits f g v (FieldRef.fits.le h) ?_
  rcases Bool.or_eq_true_iff.1 hg with h | h
  · exact .inr (Nat.le_of_ble_eq_true h)
  · exact .inl (Nat.le_of_ble_eq_true h)

theorem State.get_setOn (b : Bool) (h : f.fits = true := by exact rfl) (h1 : f.len = 1 := by exact rfl) :
    (s.setOn f b).get f = b2n b := by
  unfold State.setOn
  rw [State.get_set_fits s _ h, h1]
  cases b <;> rfl

theorem State.get_setOn_apart (b : Bool) (h : f.fits = true := by exact rfl) (hg : f.apart g = true := by exact rfl) :
    (s.setOn f b).get g = s.get g := s.get_set_apart _ h hg

theorem State.get_raise (h : f.fits = true := by exact rfl) (h1 : f.len = 1 := by exact rfl) : (s.raise f).get f = 1 :=
  s.get_setOn true h h1

theorem State.get_raise_apart (h : f.fits = true := by exact rfl) (hg : f.apart g = true := by exact rfl) :
    (s.raise f).get g = s.get g := s.get_set_apart _ h hg

theorem satAdd_lt (len a n : Nat) : satAdd len a n < 2 ^ len := by
  unfold satAdd
  split
  · assumption
  · exact Nat.sub_lt (Nat.two_pow_pos _) Nat.one_pos

theorem State.get_bump (n : Nat) (h : f.fits = true := by exact rfl) : (s.bump f n).get f = satAdd f.len (s.get f) n :=
  (s.get_set_fits _ h).trans (Nat.mod_eq_of_lt (satAdd_lt _ _ _))

theorem State.get_of_ctl {t : State} (h : t.ctl = s.ctl) (f : FieldRef) : t.get f = s.get f := by
  unfold State.get State.rd; rw [h]

end Fields

/-! ### Starts, stops and holds -/

theorem runs_next {i : Instr} {s u : State} {P : State → Prop} (hi : exec i s = .next u) (hP : P u) : Runs i s P := ⟨u, hi, hP⟩

/-- An operation that asks whether it may write the word carries out its work where the word opens. -/
theorem runs_writeAt {i : Instr} {s : State} {a : Nat} {f : State → State} {P : State → Prop}
    (hi : exec i s = .next (s.writeAt a f)) (h : s.opens a = true) (hP : P (f s)) : Runs i s P :=
  ⟨_, hi, by rwa [State.writeAt_of_opens h]⟩

theorem exec_beatStart {n : Nat} (h : n < 64) (s : State) :
    exec (.beatStart n) s = .next (s.writeAt (BEAT_PLAN_CTL n) fun s => s.beatStart n) := congrArg Host.Outcome.next (if_pos h)

theorem exec_beatStop {n : Nat} (h : n < 64) (s : State) :
    exec (.beatStop n) s = .next (s.writeAt (BEAT_PLAN_CTL n) fun s => s.beatStop n) := congrArg Host.Outcome.next (if_pos h)

theorem exec_holdSet {n : Nat} (h : n < 64) (s : State) :
    exec (.holdSet n) s = .next (s.writeAt (BEAT_PLAN_CTL n) fun s => s.holdSet n) := congrArg Host.Outcome.next (if_pos h)

theorem exec_holdClear {n : Nat} (h : n < 64) (s : State) :
    exec (.holdClear n) s = .next (s.writeAt (BEAT_PLAN_CTL n) fun s => s.holdClear n) := congrArg Host.Outcome.next (if_pos h)

theorem State.beatStart_passed {s : State} {n : Nat} (hl : s.on (BEAT_PLAN_CTL_lock n) = true) (hp : s.planOk n = true)
    (ha : s.on (BEAT_PLAN_CTL_active n) = false) (hs : s.on (BEAT_PLAN_CTL_stop n) = false) :
    s.beatStart n = if s.origin n ≤ s.tick then s.raise (BEAT_PLAN_CTL_late n) else s.setOn (BEAT_PLAN_CTL_start n) true := by
  rw [State.beatStart, if_neg]
  simp [hl, hp, ha, hs]

/-- Settles O14: each write through the field it sets and the fields of BEAT_PLAN_CTL beside it. -/
theorem planControlWritesSetTheirBits : Obligations.PlanControlWritesSetTheirBits := by
  intro n s hn ho
  refine ⟨fun hl hp ha hs => runs_writeAt (exec_beatStart hn s) ho ?_, runs_writeAt (exec_beatStop hn s) ho ?_,
    runs_writeAt (exec_holdSet hn s) ho ⟨(s.onlyRegs_refl _).setOn, s.get_setOn true⟩,
    runs_writeAt (exec_holdClear hn s) ho ⟨((s.keeps_refl _).setOn).same rfl, s.get_setOn false⟩⟩
  · rw [State.beatStart_passed hl hp ha hs]
    by_cases ht : s.tick < s.origin n
    · rw [if_neg (Nat.not_le.2 ht), if_pos ht]
      exact ⟨(s.onlyRegs_refl _).setOn, s.get_setOn true, s.get_setOn_apart true⟩
    · rw [if_pos (Nat.not_lt.1 ht), if_neg ht]
      exact ⟨(s.onlyRegs_refl _).raise, s.get_raise, s.get_raise_apart⟩
  · unfold State.beatStop
    by_cases ha : s.on (BEAT_PLAN_CTL_active n) = true
    · rw [if_pos ha, if_pos ha]
      exact ⟨((s.keeps_refl _).setOn).same rfl, s.get_setOn true⟩
    · rw [if_neg ha, if_neg ha]
      exact ⟨(s.keeps_refl _).setOn, s.get_setOn false, rfl⟩

end Sys2Proof.Machine

/-!
The JTAG port (R556) and the gates of the partition records (R385, R388, R402).
-/

namespace Sys2Proof.Machine

/-! ### The JTAG port -/

theorem State.tapClock_powered {s : State} (h : s.pwr.aux = true) (trst rising tms tdi : Bool) (pins : List Bool) :
    s.tapClock trst rising tms tdi pins =
      if trst then { s with jtag := { s.jtag with tap := .reset, ir := 1 } }
      else if rising then { s with jtag := s.jtag.rise tms tdi pins }
      else (s.jtag.fall.tdo).elim { s with jtag := s.jtag.fall } (fun b => State.emit { s with jtag := s.jtag.fall } (.jtag b)) := by
  rw [State.tapClock, if_neg (by simp [h])]
  cases trst <;> cases rising
  · cases hb : s.jtag.fall.tdo <;> simp [hb]
  all_goals rfl

@[simp] theorem Jtag.rise_tap (j : Jtag) (tms tdi : Bool) (pins : List Bool) : (j.rise tms tdi pins).tap = tapNext j.tap tms := rfl

theorem Jtag.fall_tap (j : Jtag) : j.fall.tap = j.tap := by
  unfold Jtag.fall
  split
  · rfl
  · split <;> rfl
  · rfl
  · rfl

theorem Jtag.fall_of_shifting {j : Jtag} (h : j.tap = .shiftDr ∨ j.tap = .shiftIr) : j.fall = j := by
  unfold Jtag.fall
  rcases h with h | h <;> rw [h]

theorem Jtag.tdo_none {j : Jtag} (h : j.tap ≠ .shiftDr) (h' : j.tap ≠ .shiftIr) : j.tdo = none := by
  unfold Jtag.tdo
  split
  · contradiction
  · contradiction
  · rfl

/-- Settles O46: a rising edge through `Jtag.rise`, a falling one through `Jtag.fall` and the level it drives. -/
theorem tapControllerFollowsItsPins : Obligations.TapControllerFollowsItsPins := by
  intro tms tdi pins s hp
  refine ⟨fun rising => ⟨_, rfl, ?_⟩, ⟨_, rfl, ?_⟩, ⟨_, rfl, ?_⟩⟩
  · rw [State.tapClock_powered hp]
    exact ⟨rfl, rfl, rfl⟩
  · rw [State.tapClock_powered hp]
    refine ⟨rfl, fun h => ?_, fun h => ?_, fun h hi => ?_, rfl⟩
    · simp [Jtag.rise, h, shiftIn]
    · simp [Jtag.rise, h, shiftIn]
    · simp [Jtag.rise, h, Jtag.capture, hi]
  · rw [State.tapClock_powered hp]
    simp only [Bool.false_eq_true, if_false]
    refine ⟨?_, fun h h' => ?_, fun b l h hl => ?_, fun h => ?_, ?_, ?_⟩
    · cases s.jtag.fall.tdo <;> exact Jtag.fall_tap _
    · rw [Jtag.tdo_none (by rwa [Jtag.fall_tap]) (by rwa [Jtag.fall_tap])]
      rfl
    · have hb : s.jtag.fall.tdo = some b := by
        rw [Jtag.fall_of_shifting (.inl h), Jtag.tdo, h]
        simp [hl]
      rw [hb]
      rfl
    · have hf : s.jtag.fall.ir = 1 := by simp [Jtag.fall, h]
      cases s.jtag.fall.tdo <;> exact hf
    · cases s.jtag.fall.tdo <;> rfl
    · cases s.jtag.fall.tdo <;> rfl

/-! ### Partition records -/

section Records

variable {s : State} {n : Nat}

theorem State.refuse_onlyRegs {t : State} (h : s.onlyRegs t [PART_RES_CTL n]) (k : Nat) : s.onlyRegs (t.refuse n k) [PART_RES_CTL n] :=
  (h.raise (f := PART_RES_CTL_refused n)).set

theorem State.refuse_refused (s : State) (n k : Nat) : (s.refuse n k).get (PART_RES_CTL_refused n) = 1 :=
  ((s.raise _).get_set_apart (f := PART_RES_CTL_cause n) k).trans s.get_raise

theorem State.refuse_cause (s : State) (n : Nat) {k : Nat} (hk : k < 8) : (s.refuse n k).get (PART_RES_CTL_cause n) = k :=
  ((s.raise (PART_RES_CTL_refused n)).get_set_fits (f := PART_RES_CTL_cause n) k).trans (Nat.mod_eq_of_lt hk)

theorem State.refuse_enable (s : State) (n k : Nat) : (s.refuse n k).get (PART_RES_CTL_enable n) = s.get (PART_RES_CTL_enable n) :=
  ((s.raise (PART_RES_CTL_refused n)).get_set_apart (f := PART_RES_CTL_cause n) k).trans s.get_raise_apart

/-- The state at which a write of the enable is judged: the refused bit it clears is clear (R402). -/
def State.unrefused (s : State) (n : Nat) (v : Word) : State := if v.getLsbD 30 then s.clear (PART_RES_CTL_refused n) else s

/-- Clearing the refused bit touches no other bit of PART_RES_CTL. -/
theorem State.unrefused_cases (s : State) (n : Nat) (v : Word) :
    s.unrefused n v = s ∨ s.unrefused n v = s.setOn (PART_RES_CTL_refused n) false := by
  unfold State.unrefused State.clear
  split
  · split
    · exact .inl rfl
    · exact .inr rfl
  · exact .inl rfl

theorem State.unrefused_onlyRegs (s : State) (n : Nat) (v : Word) : s.onlyRegs (s.unrefused n v) [PART_RES_CTL n] := by
  rcases s.unrefused_cases n v with h | h <;> rw [h]
  · exact s.onlyRegs_refl _
  · exact (s.onlyRegs_refl _).setOn

theorem State.unrefused_rd (s : State) (n : Nat) (v : Word) {a : Nat} (h : a ≠ PART_RES_CTL n) : (s.unrefused n v).rd a = s.rd a :=
  (s.unrefused_onlyRegs n v).2 a (by simpa using h)

theorem State.unrefused_enable (s : State) (n : Nat) (v : Word) (m : Nat) :
    (s.unrefused n v).on (PART_RES_CTL_enable m) = s.on (PART_RES_CTL_enable m) := by
  rcases s.unrefused_cases n v with h | h <;> rw [h]
  by_cases hm : m = n
  · rw [hm]
    exact congrArg (· != 0) (s.get_setOn_apart (f := PART_RES_CTL_refused n) false)
  · refine congrArg (· != 0) (s.get_set_addr (PART_RES_CTL_refused n) _ _ ?_)
    show PART_RES_CTL m ≠ PART_RES_CTL n
    unfold PART_RES_CTL
    omega

theorem State.unrefused_enableCause (s : State) (n : Nat) (v : Word) : (s.unrefused n v).enableCause n = s.enableCause n := by
  have hcl : ∀ m k, (s.unrefused n v).rd (PART_RES_CL m k) = s.rd (PART_RES_CL m k) ∨ 18 ≤ k := by
    intro m k
    by_cases hk : 18 ≤ k
    · exact .inr hk
    · refine .inl (s.unrefused_rd n v ?_)
      unfold PART_RES_CL PART_RES_CTL
      omega
  have hsl : ∀ m, (s.unrefused n v).rd (PART_RES_SLICE m) = s.rd (PART_RES_SLICE m) := fun m =>
    s.unrefused_rd n v (by unfold PART_RES_SLICE PART_RES_CTL; omega)
  have hb : ∀ m, (s.unrefused n v).sliceBase m = s.sliceBase m := fun m => congrArg (fun w => 256 * bits w _ _) (hsl m)
  have hs : ∀ m, (s.unrefused n v).sliceSize m = s.sliceSize m := fun m => congrArg (fun w => 256 * bits w _ _) (hsl m)
  have hany : ∀ m, (List.range 18).any (fun k => (s.unrefused n v).rd (PART_RES_CL n k) &&& (s.unrefused n v).rd (PART_RES_CL m k) != 0) =
      (List.range 18).any (fun k => s.rd (PART_RES_CL n k) &&& s.rd (PART_RES_CL m k) != 0) := by
    intro m
    rw [Bool.eq_iff_iff]
    simp only [List.any_eq_true, List.mem_range]
    refine exists_congr fun k => and_congr_right fun hk => ?_
    rw [(hcl n k).resolve_right (by omega), (hcl m k).resolve_right (by omega)]
  unfold State.enableCause
  simp only [s.unrefused_enable n v, hany, hb, hs]

theorem State.unrefused_resState (s : State) (n : Nat) (v : Word) (hn : n < 64) : (s.unrefused n v).resState n = s.resState n := by
  have hr : (s.unrefused n v).rd (PART_RST n) = s.rd (PART_RST n) := s.unrefused_rd n v (by unfold PART_RST PART_RES_CTL; omega)
  have hp : (s.unrefused n v).rd (BEAT_PLAN_CTL n) = s.rd (BEAT_PLAN_CTL n) :=
    s.unrefused_rd n v (by unfold BEAT_PLAN_CTL PART_RES_CTL; omega)
  have hb : (s.unrefused n v).on (PART_RST_busy n) = s.on (PART_RST_busy n) := congrArg (fun w => bits w _ _ != 0) hr
  have hh : (s.unrefused n v).on (PART_RST_hard n) = s.on (PART_RST_hard n) := congrArg (fun w => bits w _ _ != 0) hr
  have ha : (s.unrefused n v).on (BEAT_PLAN_CTL_active n) = s.on (BEAT_PLAN_CTL_active n) := congrArg (fun w => bits w _ _ != 0) hp
  have hq : (s.unrefused n v).parts = s.parts ∧ (s.unrefused n v).job = s.job := by
    rcases s.unrefused_cases n v with h | h <;> rw [h]
    · exact ⟨rfl, rfl⟩
    · exact ⟨State.setOn_parts _ _ _, State.setOn_job _ _ _⟩
  unfold State.resState State.pstate State.part
  rw [hb, hh, ha, hq.1, hq.2]

theorem State.writeEnable_vf {acc : Nat} (h : isVf acc = true) (s : State) (n : Nat) (v : Word) : s.writeEnable acc n v = s.refuse n 5 := by
  rw [State.writeEnable, if_pos h]

/-- A write that asks for the other value of the enable is judged by the cause that stands against it. -/
theorem State.writeEnable_other {acc : Nat} (h : isVf acc = false) {v : Word} (hn : n < 64)
    (he : s.on (PART_RES_CTL_enable n) = !v.getLsbD 31) :
    s.writeEnable acc n v =
      if v.getLsbD 31 = true then
        (if s.enableCause n = 0 then (s.unrefused n v).setOn (PART_RES_CTL_enable n) true else (s.unrefused n v).refuse n (s.enableCause n))
      else if s.resState n = 0 then (s.unrefused n v).setOn (PART_RES_CTL_enable n) false else (s.unrefused n v).refuse n 4 := by
  have hne : ¬ v.getLsbD 31 = (s.unrefused n v).on (PART_RES_CTL_enable n) := by
    rw [State.unrefused_enable, he]
    cases v.getLsbD 31 <;> simp
  have hc := s.unrefused_enableCause n v
  have hr := s.unrefused_resState n v hn
  unfold State.unrefused at hne hc hr ⊢
  unfold State.writeEnable
  rw [if_neg (by simp [h])]
  dsimp only
  rw [if_neg hne, hc, hr]

theorem State.enableCause_lt (s : State) (n : Nat) : s.enableCause n < 8 := by
  unfold State.enableCause
  dsimp only
  split
  · omega
  · split <;> omega

end Records

/-- The words of a partition's record outside the guarded ones open together (R393, R402). -/
theorem partRecord_opens (s : State) {n o : Nat} (hn : n < 64) (ho : o < 0x18) :
    s.opens (0x100000 + o + 0x10000 * n) = s.opens (PART_RES_CTL n) := by
  have key : ∀ a, 0x100000 ≤ a → a < 0x500000 → (a - 0x100000) % 0x10000 < 0x18 → s.opens a = s.powered := by
    intro a h1 h2 h3
    have hc : computeBlock a = true := by
      unfold computeBlock
      rw [Bool.or_eq_true_iff]
      exact .inr (decide_eq_true (by omega))
    have hg : resetGuard a = none := by
      unfold resetGuard
      rw [if_neg (by omega), if_neg (by omega), if_pos ⟨h1, h2⟩]
      exact if_pos (.inl h3)
    have hh : s.hidden a = false := by
      unfold State.hidden
      simp only [Bool.or_eq_false_iff, Bool.and_eq_false_iff, decide_eq_false_iff_not]
      exact ⟨⟨.inl (.inl (by omega)), .inl (by omega)⟩, .inl (by omega)⟩
    unfold State.opens
    rw [hc, hg, hh]
    cases s.powered <;> rfl
  rw [key _ (by omega) (by omega) (by omega), key (PART_RES_CTL n) (by unfold PART_RES_CTL; omega) (by unfold PART_RES_CTL; omega)
    (by unfold PART_RES_CTL; omega)]

theorem State.get_eq_one {s : State} {a i : Nat} (h : s.on ⟨a, i, 1⟩ = true) : s.get ⟨a, i, 1⟩ = 1 := by
  have hlt : s.get ⟨a, i, 1⟩ < 2 := field_lt _ i 1
  have hne : s.get ⟨a, i, 1⟩ ≠ 0 := by simpa [State.on] using h
  omega

theorem State.get_eq_zero {s : State} {f : FieldRef} (h : s.on f = false) : s.get f = 0 := by simpa [State.on] using h

/-- Settles O35: the enable through the state with the refused bit as the write leaves it, the shares through their sums. -/
theorem partitionRecordWritesAreGatedByCause : Obligations.PartitionRecordWritesAreGatedByCause := by
  intro acc n v s hacc hn ho
  have hos : s.opens (PART_RES_SHARE n) = true := (partRecord_opens s hn (by omega : 0x10 < 0x18)).trans ho
  have hE : exec (.partEnableWrite acc n v) s = .next (s.writeAt (PART_RES_CTL n) fun s => s.writeEnable acc n v) :=
    congrArg Host.Outcome.next (if_pos ⟨hacc, hn⟩)
  have hS : exec (.partShareWrite acc n v) s = .next (s.writeAt (PART_RES_SHARE n) fun s => s.writeShare acc n v) :=
    congrArg Host.Outcome.next (if_pos ⟨hacc, hn⟩)
  have hu := s.unrefused_onlyRegs n v
  have hself := s.onlyRegs_refl [PART_RES_CTL n]
  refine ⟨fun hv i hi => ?_, fun hv h31 he => ⟨fun hc => runs_writeAt hE ho ?_, fun hc => runs_writeAt hE ho ?_⟩,
    fun hv h31 he => runs_writeAt hE ho ?_, fun hv => ⟨fun hsum => runs_writeAt hS hos ?_, fun lo hlo hsum => runs_writeAt hS hos ?_⟩⟩
  · rcases List.mem_pair.1 hi with rfl | rfl
    · refine runs_writeAt hE ho ?_
      rw [State.writeEnable_vf hv]
      exact ⟨s.refuse_refused n 5, s.refuse_cause n (by omega), s.refuse_onlyRegs hself 5⟩
    · refine runs_writeAt hS hos ?_
      rw [State.writeShare, if_pos hv]
      exact ⟨s.refuse_refused n 5, s.refuse_cause n (by omega), s.refuse_onlyRegs hself 5⟩
  · rw [State.writeEnable_other hv hn (by rw [h31, he]; rfl), if_pos h31, if_pos hc]
    exact ⟨(s.unrefused n v).get_setOn true, hu.setOn⟩
  · rw [State.writeEnable_other hv hn (by rw [h31, he]; rfl), if_pos h31, if_neg hc]
    refine ⟨?_, State.refuse_refused _ _ _, State.refuse_cause _ _ (s.enableCause_lt n), State.refuse_onlyRegs hu _⟩
    rw [State.refuse_enable]
    exact State.get_eq_zero ((s.unrefused_enable n v n).trans he)
  · rw [State.writeEnable_other hv hn (by rw [h31, he]; rfl), if_neg (show ¬ v.getLsbD 31 = true by rw [h31]; exact Bool.false_ne_true)]
    refine ⟨?_, ?_⟩
    · by_cases hr : s.resState n = 0
      · rw [if_pos hr, if_pos hr]
        exact (s.unrefused n v).get_setOn false
      · rw [if_neg hr, if_neg hr]
        refine ⟨?_, State.refuse_refused _ _ _, State.refuse_cause _ _ (by omega)⟩
        rw [State.refuse_enable]
        exact State.get_eq_one ((s.unrefused_enable n v n).trans he)
    · split
      · exact hu.setOn
      · exact State.refuse_onlyRegs hu _
  · rw [State.writeShare, if_neg (by simp [hv]), if_pos (List.all_eq_true.2 fun lo hlo => decide_eq_true (hsum lo hlo))]
    exact ⟨(s.rd_wr _ _ _).trans (if_pos rfl), (s.onlyRegs_refl _).wr⟩
  · have hno : ¬ ([0, 8, 16].all fun lo => decide (s.shareSum n v.toNat lo ≤ 256)) = true := fun h =>
      absurd (of_decide_eq_true (List.all_eq_true.1 h lo hlo)) (Nat.not_le.2 hsum)
    rw [State.writeShare, if_neg (by simp [hv]), if_neg hno]
    have hr := s.refuse_onlyRegs (n := n) hself 3
    exact ⟨hr.2 _ (by simp [PART_RES_SHARE, PART_RES_CTL]), s.refuse_refused n 3, s.refuse_cause n (by omega), hr⟩

end Sys2Proof.Machine

/-!
Retries and drops at a hop, edge budgets (R187 to R199) and the swaps of the route tables (R185, R192, R193).
-/

namespace Sys2Proof.Machine

/-! ### Packets dropped -/

section Drops

variable {s t : State} {as : List Nat}

theorem State.onlyRegs.recordFirst (h : s.onlyRegs t as) {a v : Nat} (ha : a ∈ as := by exact .head _) :
    s.onlyRegs (t.recordFirst a v) as := by
  unfold State.recordFirst
  split
  · exact h
  · exact (h.wr ha).strike _ _

/-- The words in which a die counts and keeps the packets that it drops (R196, R197). -/
def dropWords (d : Nat) : List Nat := [DIE_NET_DROP d, DIE_NET_LAST d, DIE_NET_LAST_TICK d]

/-- A packet dropped for its retries, a closed port or its route is counted, kept as the last one and reported. -/
theorem State.netDrop_eq (s : State) {d k : Nat} (hk : k < 4) (p : Packet) :
    ∃ u r, s.netDrop d k p = u.report r ∧ s.onlyRegs u (dropWords d) ∧ r.cls = 5 ∧ r.unit = d ∧ r.detail = k ∧
      (k = 1 → u.get (DIE_NET_DROP_exhausted d) = satAdd 8 (s.get (DIE_NET_DROP_exhausted d)) 1) := by
  have hn : ∀ (o : Option Nat), (if k ≠ 4 then none else o) = none := fun o => if_pos (by omega)
  unfold State.netDrop
  dsimp only
  rw [hn]
  dsimp only
  generalize hf : (if k = 1 then DIE_NET_DROP_exhausted d else if k = 2 then DIE_NET_DROP_closed d
    else if k = 3 then DIE_NET_DROP_route d else DIE_NET_DROP_stray d) = f
  have ha : f.addr = DIE_NET_DROP d := by
    rw [← hf]
    split
    · rfl
    · split
      · rfl
      · split <;> rfl
  have hb : s.onlyRegs (s.bump f 1) (dropWords d) := (s.onlyRegs_refl _).bump (ha ▸ .head _)
  refine ⟨_, _, rfl, hb.ite ((hb.recordFirst (.tail _ (.head _))).wr (.tail _ (.tail _ (.head _)))), rfl, rfl, rfl, fun h1 => ?_⟩
  have hg : (s.bump f 1).get (DIE_NET_DROP_exhausted d) = satAdd 8 (s.get (DIE_NET_DROP_exhausted d)) 1 := by
    rw [← hf, if_pos h1]
    exact s.get_bump 1
  split
  · exact hg
  · rw [State.get_wr_addr _ _ _ _ (by show DIE_NET_DROP d ≠ DIE_NET_LAST_TICK d; unfold DIE_NET_DROP DIE_NET_LAST_TICK; omega)]
    refine Eq.trans ?_ hg
    · have hr := (((s.bump f 1).onlyRegs_refl [DIE_NET_LAST d]).recordFirst (v := k * 2 ^ 28 + p.cls * 2 ^ 26 + kindCode p.kind * 2 ^ 23 + p.source)).2
        (DIE_NET_DROP d) (by simp [DIE_NET_DROP, DIE_NET_LAST])
      exact congrArg (fun w => bits w _ _) hr

/-- What the packets rerouted leave: nothing changes but the network, the reports and the counts of the drops. -/
theorem State.reroute_keeps {γ : Type} (g : State → γ) (hnet : ∀ (t : State) l, g { t with net := l } = g t)
    (hrep : ∀ (t : State) r, g (t.report r) = g t) (hreg : ∀ (t u : State) d, t.onlyRegs u (dropWords d) → g u = g t)
    (s : State) (d : Nat) (f : Packet → Bool) : g (s.reroute d f) = g s := by
  unfold State.reroute
  rw [foldl_same g (fun t p => ?_) s.net { s with net := [] }, hnet]
  split
  · exact hnet _ _
  next e _ =>
    obtain ⟨u, r, he, hu, -⟩ := t.netDrop_eq (d := e) (k := 3) (by omega) p
    rw [he, hrep, hreg t u e hu]

theorem State.reroute_rd (s : State) (d : Nat) (f : Packet → Bool) {a : Nat} (h : ∀ e, a ∉ dropWords e) :
    (s.reroute d f).rd a = s.rd a :=
  State.reroute_keeps (fun t => t.rd a) (fun _ _ => rfl) (fun _ _ => rfl) (fun _ _ e hu => hu.2 a (h e)) s d f

theorem State.reroute_rtDef (s : State) (d : Nat) (f : Packet → Bool) : (s.reroute d f).rtDef = s.rtDef :=
  State.reroute_keeps State.rtDef (fun _ _ => rfl) (fun _ _ => rfl) (fun _ u _ hu => by rw [hu.1]) s d f

theorem State.reroute_cores (s : State) (d : Nat) (f : Packet → Bool) : (s.reroute d f).cores = s.cores :=
  State.reroute_keeps State.cores (fun _ _ => rfl) (fun _ _ => rfl) (fun _ u _ hu => by rw [hu.1]) s d f

/-- The words of a die's tables and their control are none that a drop writes. -/
theorem not_mem_dropWords {a : Nat} (h : a % 0x10000 < 0x4024 ∨ 0x4030 ≤ a % 0x10000) (e : Nat) : a ∉ dropWords e := by
  unfold dropWords DIE_NET_DROP DIE_NET_LAST DIE_NET_LAST_TICK
  simp only [List.mem_cons, List.not_mem_nil, or_false, not_or]
  omega

end Drops

/-! ### Retries and edge budgets -/

theorem State.hopRetry_again {s : State} {k : Nat} {pk : Packet} (h : s.net[k]? = some pk) (d : Nat) (cluster : Bool)
    (hn : (if pk.failKey = 2 * d + b2n cluster + 1 then pk.fails else 0) < 3) :
    ∃ f : FieldRef, f.addr = DIE_NET_RETRY d ∧ s.hopRetry k d cluster =
      ({ s with net := replaceAt s.net k { pk with
          fails := (if pk.failKey = 2 * d + b2n cluster + 1 then pk.fails else 0) + 1, failKey := 2 * d + b2n cluster + 1
          due := pk.due + (if cluster then 8 else 16)
          path := pk.path.map (fun x => if s.cycle ≤ x.2 then (x.1, x.2 + (if cluster then 8 else 16)) else x) } } : State).bump f 1 := by
  refine ⟨if cluster then DIE_NET_RETRY_cluster d else DIE_NET_RETRY_die d, by cases cluster <;> rfl, ?_⟩
  rw [State.hopRetry, h]
  dsimp only
  rw [if_neg (by omega)]

theorem State.hopRetry_dropped {s : State} {k : Nat} {pk : Packet} (h : s.net[k]? = some pk) (d : Nat) (cluster : Bool)
    (hn : 3 ≤ (if pk.failKey = 2 * d + b2n cluster + 1 then pk.fails else 0)) :
    s.hopRetry k d cluster = (s.netDrop d 1 pk).dropNet k := by
  rw [State.hopRetry, h]
  exact if_pos hn

/-- A bit that is set reads set. -/
theorem State.setBit_bitOn_same (s : State) (a : Nat) {i : Nat} (h : i < 32) : (s.setBit a i).bitOn a i = true := by
  have hf : FieldRef.fits ⟨a, i, 1⟩ = true := Nat.ble_eq_true_of_le (by show i + 1 ≤ 32; omega)
  have h1 : (s.setBit a i).get ⟨a, i, 1⟩ = 1 := s.get_set_fits (f := ⟨a, i, 1⟩) 1 hf
  rw [← State.on_eq_bitOn, State.on, h1]
  rfl

/-- Settles O26. -/
theorem crossingsRetryAndEdgePortsHold : Obligations.CrossingsRetryAndEdgePortsHold := by
  refine ⟨?_, fun link d n s hd hn => ⟨fun h => ?_, fun h hc => ?_⟩⟩
  · intro k d cluster pk s hd hpk key n w
    refine ⟨fun hn => ⟨_, congrArg Host.Outcome.next (if_pos hd), ?_⟩, fun hn => ⟨_, congrArg Host.Outcome.next (if_pos hd), ?_⟩⟩
    · obtain ⟨f, hf, he⟩ := State.hopRetry_again hpk d cluster hn
      rw [he]
      exact ⟨rfl, fun a ha => State.bump_rd_ne _ _ _ (by rw [hf]; exact List.ne_of_not_mem_cons ha), rfl⟩
    · obtain ⟨u, r, he, hu, h5, hr, h1, hg⟩ := s.netDrop_eq (d := d) (k := 1) (by omega) pk
      rw [State.hopRetry_dropped hpk d cluster hn, he]
      have hnet : u.net = s.net := by rw [hu.1]
      have hrep : u.reports = s.reports := by rw [hu.1]
      exact ⟨congrArg (eraseAt · k) hnet, hg rfl, r, congrArg (· ++ [r]) hrep, h5, hr, h1⟩
  · refine ⟨_, congrArg Host.Outcome.next ((if_pos ⟨hd, hn⟩).trans (if_pos h)), ?_, State.setBit_bitOn_same _ _ (Nat.mod_lt _ (by omega)), rfl, rfl⟩
    show (s.ovr ++ [64 * edgePort link d + n]).contains (64 * edgePort link d + n) = true
    simp
  · refine ⟨_, congrArg Host.Outcome.next ((if_pos ⟨hd, hn⟩).trans (if_pos (by simp [h, hc]))), ?_, rfl, rfl, fun k hk => ?_⟩
    · show (s.ovr.filter (· != 64 * edgePort link d + n)).contains (64 * edgePort link d + n) = false
      simp
    · show (s.ovr.filter (· != 64 * edgePort link d + n)).contains k = s.ovr.contains k
      simp [List.contains_eq_mem, List.mem_filter, hk]

/-! ### Route tables -/

section Tables

variable {s : State} {d : Nat}

/-- Words copied one by one, none of them a source: each holds what its source held, and no other word changes. -/
theorem each_copy (f g : Nat → Nat) (s : State) (m : Nat) (hf : ∀ i j, f i = f j → i = j) (hfg : ∀ i j, i < m → j < m → f i ≠ g j) :
    (∀ i, i < m → (each (fun k (t : State) => t.wr (f k) (t.rd (g k))) (List.range m) s).rd (f i) = s.rd (g i)) ∧
    (∀ a, (∀ i, i < m → a ≠ f i) → (each (fun k (t : State) => t.wr (f k) (t.rd (g k))) (List.range m) s).rd a = s.rd a) := by
  induction m with
  | zero => exact ⟨fun i hi => absurd hi (by omega), fun a _ => rfl⟩
  | succ m ih =>
    obtain ⟨h1, h2⟩ := ih fun i j hi hj => hfg i j (by omega) (by omega)
    rw [each_foldl] at h1 h2 ⊢
    rw [List.range_succ, List.foldl_append]
    refine ⟨fun i hi => ?_, fun a ha => ?_⟩
    · rw [List.foldl_cons, List.foldl_nil, State.rd_wr]
      by_cases h : i = m
      · rw [h, if_pos rfl]
        exact h2 _ fun j hj e => hfg j m (by omega) (by omega) e.symm
      · rw [if_neg fun e => h (hf _ _ e)]
        exact h1 i (by omega)
    · rw [List.foldl_cons, List.foldl_nil, State.rd_wr, if_neg (ha m (by omega))]
      exact h2 a fun i hi => ha i (by omega)

theorem State.asked_congr {t : State} (hn : t.now = s.now) (hc : t.cycle = s.cycle) (f : FieldRef) : t.asked f = s.asked f := by
  unfold State.asked State.askedWord State.present
  rw [hn, hc]

theorem State.done_of_quiet {f : FieldRef} (h : s.asked f = false) : s.done f = s.setOn f false := by
  rw [State.done, h]
  rfl

theorem c0Addr_eq (d bank p n : Nat) : c0Addr d bank p n = 0x1005000 + 0x10000 * d + 0x1200 * bank + 72 * p + 4 * (n / 4) := by
  unfold c0Addr
  omega

/-- The default table of a bank is what the bank's entry in the route store says. -/
theorem State.defAt_congr {t : State} {e b b' : Nat}
    (h : lookupD ⟨none, []⟩ t.rtDef (2 * e + b) = lookupD ⟨none, []⟩ s.rtDef (2 * e + b')) (n : Nat) : t.defAt e b n = s.defAt e b' n := by
  unfold State.defAt
  rw [h]

end Tables

/-- The bit that names the bank of a partition's class 0 table in use (R193). -/
def c0BankBit (d p : Nat) : FieldRef := ⟨if p < 32 then DIE_RT_C0BANK_LO d else DIE_RT_C0BANK_HI d, p % 32, 1⟩

/-- The bit that asks for the swap of a partition's class 0 table (R193). -/
def c0SwapBit (d p : Nat) : FieldRef := ⟨if p < 32 then DIE_RT_C0SWAP_LO d else DIE_RT_C0SWAP_HI d, p % 32, 1⟩

theorem c0Bank_eq (s : State) (d p : Nat) : s.c0Bank d p = b2n (s.on (c0BankBit d p)) := by
  rw [c0BankBit, State.on_eq_bitOn]
  rfl

theorem c0SwapSet_eq (s : State) (d p : Nat) : s.c0SwapSet d p = s.on (c0SwapBit d p) := by
  rw [c0SwapBit, State.on_eq_bitOn]
  rfl

theorem c0BankBit_addr (d p : Nat) : (c0BankBit d p).addr = 0x1004008 + 0x10000 * d ∨ (c0BankBit d p).addr = 0x100400C + 0x10000 * d := by
  unfold c0BankBit
  dsimp only
  split
  · exact .inl rfl
  · exact .inr rfl

theorem c0SwapBit_addr (d p : Nat) : (c0SwapBit d p).addr = 0x1004010 + 0x10000 * d ∨ (c0SwapBit d p).addr = 0x1004014 + 0x10000 * d := by
  unfold c0SwapBit
  dsimp only
  split
  · exact .inl rfl
  · exact .inr rfl

theorem c0BankBit_fits (d p : Nat) : (c0BankBit d p).fits = true :=
  Nat.ble_eq_true_of_le (Nat.succ_le_of_lt (Nat.mod_lt p (by omega)))

theorem c0SwapBit_fits (d p : Nat) : (c0SwapBit d p).fits = true :=
  Nat.ble_eq_true_of_le (Nat.succ_le_of_lt (Nat.mod_lt p (by omega)))

/-- The class 0 table of a partition copied from one bank dst the other. -/
def State.copyC0 (s : State) (d p bank dst : Nat) : State :=
  each (fun k (t : State) => t.wr (c0Addr d dst p (4 * k)) (t.rd (c0Addr d bank p (4 * k)))) (List.range 18) s

theorem State.copyC0_rd (s : State) {d p bank dst : Nat} (hto : dst < 2) (hne : bank ≠ dst) (hp : p < 64) :
    (∀ n, n < 72 → (s.copyC0 d p bank dst).rd (c0Addr d dst p n) = s.rd (c0Addr d bank p n)) ∧
    (∀ a, a < 0x1005000 + 0x10000 * d → (s.copyC0 d p bank dst).rd a = s.rd a) := by
  obtain ⟨h1, h2⟩ := each_copy (fun k => c0Addr d dst p (4 * k)) (fun k => c0Addr d bank p (4 * k)) s 18
    (fun i j h => by simp only [c0Addr_eq] at h; omega)
    (fun i j hi hj h => by simp only [c0Addr_eq] at h; omega)
  have hn : ∀ b n, c0Addr d b p n = c0Addr d b p (4 * (n / 4)) := fun b n => by simp only [c0Addr_eq]; omega
  refine ⟨fun n h => ?_, fun a ha => h2 a fun i _ => ?_⟩
  · rw [hn dst, hn bank]
    exact h1 (n / 4) (by omega)
  · rw [c0Addr_eq]
    omega

theorem State.copyC0_same {γ : Type} (g : State → γ) (hg : ∀ (t : State) a v, g (t.wr a v) = g t) (s : State) (d p bank dst : Nat) :
    g (s.copyC0 d p bank dst) = g s := each_eq g (fun _ t => hg t _ _) _ s

/-- A swap that no write of the cycle asks for again: the copied table, the bank bit and the request's bit. -/
theorem State.swapC0_quiet {s : State} {d p : Nat} (hq : s.asked (c0SwapBit d p) = false) :
    ∃ (v : State) (g : Packet → Bool), s.swapC0 d p =
      ((v.set (c0BankBit d p) (1 - s.c0Bank d p)).setOn (c0SwapBit d p) false).reroute d g ∧
      (∀ a, v.rd a = (s.copyC0 d p (1 - s.c0Bank d p) (1 - (1 - s.c0Bank d p))).rd a) ∧ v.rtDef = s.rtDef ∧ v.cores = s.cores := by
  have hsame : ∀ {γ : Type} (g : State → γ), (∀ (t : State) a v, g (t.wr a v) = g t) →
      g (s.copyC0 d p (1 - s.c0Bank d p) (1 - (1 - s.c0Bank d p))) = g s := fun g hg => State.copyC0_same g hg s d p _ _
  have hrt := hsame State.rtDef fun _ _ _ => rfl
  have hco := hsame State.cores fun _ _ _ => rfl
  have hnow := hsame State.now fun _ _ _ => rfl
  have hcy := hsame State.cycle fun _ _ _ => rfl
  unfold State.swapC0
  unfold State.copyC0 at *
  dsimp only
  generalize each _ (List.range 18) s = u at *
  refine ⟨u.setXlat d _ p _, _, congrArg (fun w => State.reroute w d _) (State.done_of_quiet (f := c0SwapBit d p) ?_), fun _ => rfl, hrt, hco⟩
  exact (State.asked_congr hnow hcy _).trans hq

/-- Settles O27: a swap through the bank bit it turns, the copy it makes and the request it clears. -/
theorem routeTablesSwapTheirBanks : Obligations.RouteTablesSwapTheirBanks := by
  intro d s hd
  refine ⟨fun v ho => ⟨fun hv => ?_, ?_, ?_⟩, fun hs hq => ?_, fun n hn hs hq => ?_⟩
  · refine runs_writeAt (congrArg Host.Outcome.next (if_pos ⟨hd, by omega⟩)) ho ?_
    have he : s.routeSwapRequest d 0 v = (s.ask (DIE_RT_CTL d) v).setOn (DIE_RT_CTL_def_swap d) true := if_pos hv
    rw [he]
    exact ⟨State.get_setOn _ true, State.onlyRegs.setOn (t := s.ask _ v) ((s.onlyRegs_refl _).words s.ctl _ fun _ _ => rfl)⟩
  · refine runs_writeAt (congrArg Host.Outcome.next (if_pos ⟨hd, by omega⟩)) ho ⟨(State.rd_wr _ _ _ _).trans (if_pos rfl), ?_⟩
    exact State.onlyRegs.wr (t := s.ask _ v) ((s.onlyRegs_refl _).words s.ctl _ fun _ _ => rfl)
  · refine runs_writeAt (congrArg Host.Outcome.next (if_pos ⟨hd, by omega⟩)) ho ⟨(State.rd_wr _ _ _ _).trans (if_pos rfl), ?_⟩
    exact State.onlyRegs.wr (t := s.ask _ v) ((s.onlyRegs_refl _).words s.ctl _ fun _ _ => rfl)
  · refine ⟨_, congrArg Host.Outcome.next ((if_pos hd).trans (if_pos hs)), ?_⟩
    have h01 : s.get (DIE_RT_CTL_def_bank d) < 2 := field_lt _ _ 1
    unfold State.swapDefault
    generalize hb : s.get (DIE_RT_CTL_def_bank d) = b at h01
    dsimp only
    generalize hu : ({ s with rtDef := put s.rtDef (2 * d + 1 - (1 - b)) (lookupD ⟨none, []⟩ s.rtDef (2 * d + (1 - b))) } : State) = u
    have hdone : (u.set (DIE_RT_CTL_def_bank d) (1 - b)).done (DIE_RT_CTL_def_swap d) =
        (u.set (DIE_RT_CTL_def_bank d) (1 - b)).setOn (DIE_RT_CTL_def_swap d) false :=
      State.done_of_quiet ((State.asked_congr (by rw [← hu]; rfl) (by rw [← hu]; rfl) _).trans hq)
    rw [hdone]
    have hctl : ∀ f : FieldRef, f.addr = DIE_RT_CTL d → ∀ (w : State) g, (w.reroute d g).get f = w.get f := fun f hf w g =>
      congrArg (fun w => bits w f.lo f.len) (w.reroute_rd d g (not_mem_dropWords (by rw [hf]; unfold DIE_RT_CTL; omega)))
    have hrt : ∀ g, (((u.set (DIE_RT_CTL_def_bank d) (1 - b)).setOn (DIE_RT_CTL_def_swap d) false).reroute d g).rtDef =
        put s.rtDef (2 * d + 1 - (1 - b)) (lookupD ⟨none, []⟩ s.rtDef (2 * d + (1 - b))) := fun g => by
      rw [State.reroute_rtDef, ← hu]
      rfl
    refine ⟨?_, ?_, fun n => ⟨State.defAt_congr ?_ n, State.defAt_congr ?_ n⟩, fun e n bank he h72 hbk => State.defAt_congr ?_ n⟩
    · rw [hctl _ rfl, State.get_setOn_apart, State.get_set_fits, Nat.mod_eq_of_lt]
      show 1 - b < 2
      omega
    · rw [hctl _ rfl, State.get_setOn]
      rfl
    · rw [hrt, lookupD_put]
      split
      · rfl
      · congr 1; omega
    · rw [hrt, lookupD_put]
      split
      · rfl
      · congr 1; omega
    · rw [hrt, lookupD_put, if_neg (by omega)]
  · refine ⟨_, congrArg Host.Outcome.next ((if_pos ⟨hd, hn⟩).trans (if_pos hs)), ?_⟩
    obtain ⟨v, g, he, hv, hvr, hvc⟩ := State.swapC0_quiet hq
    have hb : s.c0Bank d n = 0 ∨ s.c0Bank d n = 1 := by
      rw [c0Bank_eq]
      cases s.on (c0BankBit d n)
      · exact .inl rfl
      · exact .inr rfl
    have hba := c0BankBit_addr d n
    have hsa := c0SwapBit_addr d n
    rw [he]
    have hset : ∀ a, (a < 0x1004024 + 0x10000 * d ∧ 0x1004000 + 0x10000 * d ≤ a) ∨
          (0x1005000 + 0x10000 * d ≤ a ∧ a < 0x1010000 + 0x10000 * d) →
        ∀ w : State, (w.reroute d g).rd a = w.rd a := fun a ha w => w.reroute_rd d g (not_mem_dropWords (by omega))
    refine ⟨?_, ?_, fun node hnode => ?_, ?_, ?_⟩
    · rw [c0Bank_eq]
      have hg : ∀ w : State, (w.reroute d g).get (c0BankBit d n) = w.get (c0BankBit d n) := fun w =>
        congrArg (fun w => bits w _ _) (hset _ (by omega) w)
      rw [State.on, hg, State.setOn, State.get_set_addr _ _ _ _ (by omega), State.get_set_fits _ _ (c0BankBit_fits d n)]
      rcases hb with h | h <;> rw [h] <;> rfl
    · rw [c0SwapSet_eq]
      have hg : ∀ w : State, (w.reroute d g).get (c0SwapBit d n) = w.get (c0SwapBit d n) := fun w =>
        congrArg (fun w => bits w _ _) (hset _ (by omega) w)
      rw [State.on, hg, State.get_setOn _ false (c0SwapBit_fits d n) rfl]
      rfl
    · have hcopy := (s.copyC0_rd (d := d) (bank := 1 - s.c0Bank d n) (dst := s.c0Bank d n) (by omega) (by omega) hn).1 node hnode
      have hto : 1 - (1 - s.c0Bank d n) = s.c0Bank d n := by omega
      rw [hto] at hv
      have hle : 0x1005000 + 0x10000 * d ≤ c0Addr d (s.c0Bank d n) n node ∧ c0Addr d (s.c0Bank d n) n node < 0x1010000 + 0x10000 * d := by
        rw [c0Addr_eq]
        omega
      unfold State.c0At
      rw [hset _ (.inr hle), State.setOn, State.set_rd_ne _ _ _ _ (by omega), State.set_rd_ne _ _ _ _ (by omega)]
      exact congrArg (fun w => bits w _ _) ((hv _).trans hcopy)
    · rw [State.reroute_rtDef]
      exact hvr
    · rw [State.reroute_cores]
      exact hvc

end Sys2Proof.Machine

/-!
Patrols and refresh (R54, R151, R206, R209), window controls and arrival counters of the control page (R158, R161, R171).
-/

namespace Sys2Proof.Machine

/-! ### What accesses under way leave -/

section Accesses

variable {s u : State} {p : Nat}

theorem Accessed.settle (h : Accessed p s u) (t : Nat) : Accessed p s (u.settle p t) := (h.runTo t t).effects t

/-- What neither the core nor its count of saturations, the gate, the reports nor the packets have a part in. -/
theorem Accessed.same {γ : Type} {g : State → γ} (h : Accessed p s u) (core : ∀ (v : State) c, g (v.setCore p c) = g v)
    (sat : ∀ (v : State) y, g (v.wr (DIE_CORE_SAT p) y) = g v) (evt : ∀ (v : State) y, g (v.wr SAGE_EVT y) = g v)
    (strike : ∀ (v : State) a f, g (v.strike a f) = g v) (report : ∀ (v : State) r, g (v.report r) = g v)
    (net : ∀ (v : State) l, g { v with net := l } = g v) (part : ∀ (v : State) n q, g (v.setPart n q) = g v) : g u = g s := by
  induction h with
  | refl => rfl
  | core _ c ih => exact (core _ c).trans ih
  | sat _ y ih => exact (sat _ y).trans ih
  | strike _ a f ih => exact (strike _ a f).trans ih
  | report _ r ih => exact (report _ r).trans ih
  | net _ f ih => exact (net _ _).trans ih
  | gate _ n y ih =>
    refine Eq.trans ?_ ih
    unfold State.emitToken
    dsimp only
    split
    · rfl
    · split
      · exact part _ _ _
      · exact (strike _ _ _).trans (evt _ _)

theorem Accessed.rd (h : Accessed p s u) {a : Nat} (hs : a ≠ DIE_CORE_SAT p) (he : a ≠ SAGE_EVT) : u.rd a = s.rd a :=
  h.same (g := fun v => v.rd a) (fun _ _ => rfl) (fun v _ => (v.rd_wr _ _ _).trans (if_neg hs)) (fun v _ => (v.rd_wr _ _ _).trans (if_neg he))
    (fun _ _ _ => rfl) (fun _ _ => rfl) (fun _ _ => rfl) (fun _ _ _ => rfl)

theorem Accessed.bays (h : Accessed p s u) : u.bays = s.bays :=
  h.same (fun _ _ => rfl) (fun _ _ => rfl) (fun _ _ => rfl) (fun _ _ _ => rfl) (fun _ _ => rfl) (fun _ _ => rfl) (fun _ _ _ => rfl)

theorem Accessed.core_ne (h : Accessed p s u) {q : Nat} (hq : q ≠ p) : u.core q = s.core q :=
  h.same (g := fun v => v.core q) (fun v _ => (v.core_setCore _ _ _).trans (if_neg hq)) (fun _ _ => rfl) (fun _ _ => rfl)
    (fun _ _ _ => rfl) (fun _ _ => rfl) (fun _ _ => rfl) (fun _ _ _ => rfl)

theorem Accessed.onCore (h : Accessed p s u) (f : Core → Core) : Accessed p s (u.onCore p f) := h.core _

theorem Accessed.upset (h : Accessed p s u) (l : List Upset) : Accessed p s (u.upset p l) := .ite h (h.onCore _)

theorem firstFrom_congr {f g : Nat → Bool} (h : ∀ n, f n = g n) (lo k : Nat) : firstFrom f lo k = firstFrom g lo k := by
  rw [funext h]

theorem firstFrom_lt {f : Nat → Bool} {lo k n : Nat} (h : firstFrom f lo k = some n) : n < lo + k := by
  induction k generalizing lo with
  | zero => cases h
  | succ k ih =>
    unfold firstFrom at h
    split at h
    · cases h
      omega
    · have := ih h
      omega

/-- No access moves a core to another partition. -/
theorem Accessed.ownerOfCore (h : Accessed p s u) {q : Nat} (hq : q < 9216) : u.ownerOfCore q = s.ownerOfCore q := by
  unfold State.ownerOfCore State.clusterOwner
  refine firstFrom_congr (fun n => ?_) _ _
  have h1 : u.rd (PART_RES_CTL n) = s.rd (PART_RES_CTL n) :=
    h.rd (by unfold PART_RES_CTL DIE_CORE_SAT; omega) (by unfold PART_RES_CTL SAGE_EVT; omega)
  have h2 : u.rd (PART_RES_CL n (q / 16 / 32)) = s.rd (PART_RES_CL n (q / 16 / 32)) :=
    h.rd (by unfold PART_RES_CL DIE_CORE_SAT; omega) (by unfold PART_RES_CL SAGE_EVT; omega)
  have e1 : u.on (PART_RES_CTL_enable n) = s.on (PART_RES_CTL_enable n) := congrArg (fun w => bits w _ _ != 0) h1
  have e2 : u.holdsCluster n (q / 16) = s.holdsCluster n (q / 16) := congrArg (fun w => w.getLsbD (q / 16 % 32)) h2
  rw [e1, e2]

theorem State.ownerOfCore_lt {q n : Nat} (h : s.ownerOfCore q = some n) : n < 64 := by
  have := firstFrom_lt h
  omega

theorem Accessed.active (h : Accessed p s u) {n : Nat} (hn : n < 64) : u.on (BEAT_PLAN_CTL_active n) = s.on (BEAT_PLAN_CTL_active n) := by
  have h1 : u.rd (BEAT_PLAN_CTL n) = s.rd (BEAT_PLAN_CTL n) :=
    h.rd (by unfold BEAT_PLAN_CTL DIE_CORE_SAT; omega) (by unfold BEAT_PLAN_CTL SAGE_EVT; omega)
  exact congrArg (fun w => bits w _ _ != 0) h1

theorem Accessed.freeze (h : Accessed p s u) : u.on (DIE_CORE_CTL_freeze p) = s.on (DIE_CORE_CTL_freeze p) := by
  have h1 : u.rd (DIE_CORE_CTL p) = s.rd (DIE_CORE_CTL p) :=
    h.rd (by unfold DIE_CORE_CTL DIE_CORE_SAT; omega) (by unfold DIE_CORE_CTL SAGE_EVT; omega)
  exact congrArg (fun w => bits w _ _ != 0) h1

theorem Accessed.cntWritable (h : Accessed p s u) (hp : p < 9216) : u.cntWritable p = s.cntWritable p := by
  unfold State.cntWritable
  rw [h.freeze, h.ownerOfCore hp]
  cases ho : s.ownerOfCore p with
  | none => rfl
  | some n => exact congrArg (fun b => _ || !b) (h.active (State.ownerOfCore_lt ho))

end Accesses

/-! ### Control page -/

section Page

variable {s : State} {p : Nat}

theorem Core.cpRd_cpWr (c : Core) (a : Nat) (v : Word) (b : Nat) : (c.cpWr a v).cpRd b = if b = a then v else c.cpRd b := by
  unfold Core.cpRd Core.cpWr
  exact rdAt_wrAt _ _ _ _ _

/-- A write to a window control: all of a closed window's fields, of an open one's `open` alone (R158, R164). -/
theorem Core.writeWinCtl_cpRd (c : Core) (w : Nat) (v : Word) (a : Nat) :
    (c.writeWinCtl w v).cpRd a =
      if a = SPC_WIN_CTL w then
        (if (c.cpRd (SPC_WIN_CTL w)).getLsbD 31 then setBits (c.cpRd (SPC_WIN_CTL w)) 31 1 (bits v 31 1) else v &&& 0x87C0007F)
      else c.cpRd a := by
  unfold Core.writeWinCtl
  by_cases h : (c.cpRd (SPC_WIN_CTL w)).getLsbD 31 = true
  · rw [if_pos h, if_pos h, Core.cpSet, Core.cpRd_cpWr]
    rfl
  · rw [if_neg h, if_neg h, Core.cpRd_cpWr]

theorem Core.cpWr_pad (c : Core) (a : Nat) (v : Word) : (c.cpWr a v).pad = c.pad := rfl

theorem Core.cpSet_pad (c : Core) (f : FieldRef) (n : Nat) : (c.cpSet f n).pad = c.pad := rfl

theorem Core.later_frame (c : Core) (n : Nat) (e : Eff) : (c.later n e).cp = c.cp ∧ (c.later n e).pad = c.pad := ⟨rfl, rfl⟩

theorem Core.writeWinCtl_pad (c : Core) (w : Nat) (v : Word) : (c.writeWinCtl w v).pad = c.pad := by
  unfold Core.writeWinCtl
  split
  · exact c.cpSet_pad _ _
  · exact c.cpWr_pad _ _

theorem State.writeCnt_open {k : Nat} {v : Word} (h : s.cntWritable p = true) (hp : p < 9216) :
    s.writeCnt p k v = (s.settle p s.cycle).onCore p (fun c => c.cpSet (SPC_CNT_value k) (bits v 0 24)) := by
  rw [State.writeCnt]
  exact if_pos (((Accessed.refl.settle s.cycle).cntWritable hp).trans h)

theorem State.writeCnt_closed {k : Nat} {v : Word} (h : s.cntWritable p = false) (hp : p < 9216) :
    s.writeCnt p k v = s.settle p s.cycle := by
  rw [State.writeCnt]
  refine if_neg ?_
  rw [((Accessed.refl.settle s.cycle).cntWritable hp).trans h]
  exact Bool.false_ne_true

end Page

/-- Settles O21. -/
theorem controlPageWritesFollowTheirGates : Obligations.ControlPageWritesFollowTheirGates := by
  intro p v s hp hpow c
  have hacc : Accessed p s (s.settle p s.cycle) := Accessed.refl.settle s.cycle
  refine ⟨fun w hw => ⟨runs_next (congrArg Host.Outcome.next (if_pos ⟨hp, hw, hpow⟩)) ?_, fun x => ?_⟩,
    fun k hk h => runs_next (congrArg Host.Outcome.next (if_pos ⟨hp, hk, hpow⟩)) ?_,
    fun k n hk hf ho ha => runs_next (congrArg Host.Outcome.next (if_pos ⟨hp, hk, hpow⟩)) ?_⟩
  · have hc : (s.writeWinCtl p (w % 8) v).core p = c.later (s.cycle + 1) (.winCtl w v) := by
      rw [Nat.mod_eq_of_lt hw, State.writeWinCtl, State.core_onCore, if_pos rfl]
    rw [hc]
    exact ⟨(Core.awaits_later _ _ _ _ _).2 (.inl ⟨rfl, rfl⟩), (c.later_frame _ _).1, (c.later_frame _ _).2,
      fun q hq => (hacc.onCore _).core_ne hq⟩
  · refine ⟨(x.writeWinCtl_cpRd w v _).trans (if_pos rfl), fun a ha => (x.writeWinCtl_cpRd w v a).trans (if_neg ha), x.writeWinCtl_pad w v⟩
  · have hw : s.cntWritable p = true := by
      unfold State.cntWritable
      rcases h with h | h
      · rw [h]
        rfl
      · cases ho : s.ownerOfCore p with
        | none => simp
        | some n => simp [h n ho]
    rw [Nat.mod_eq_of_lt hk, State.writeCnt_open hw hp]
    have hc : ((s.settle p s.cycle).onCore p (fun c => c.cpSet (SPC_CNT_value k) (bits v 0 24))).core p = c.cpSet (SPC_CNT_value k) (bits v 0 24) := by
      rw [State.core_onCore, if_pos rfl]
    rw [hc]
    refine ⟨?_, c.cpSet_pad _ _, fun q hq => (hacc.onCore _).core_ne hq⟩
    rw [Core.cpGet_cpSet _ _ _ (by show 0 + 24 ≤ 32; omega)]
    exact Nat.mod_eq_of_lt (field_lt _ 0 24)
  · have hw : s.cntWritable p = false := by
      unfold State.cntWritable
      rw [hf, ho]
      simp [ha]
    rw [Nat.mod_eq_of_lt hk, State.writeCnt_closed hw hp]
    exact ⟨rfl, fun q hq => hacc.core_ne hq⟩

/-! ### Patrols and refresh -/

section Patrols

variable {s : State} {p b : Nat}

theorem State.cpCount_field {γ : Type} (f : Core → γ) (hf : ∀ (c : Core) l, f { c with cp := l } = f c) (s : State) (p : Nat) (r : FieldRef)
    (n t : Nat) : f ((s.cpCount p r n t).core p) = f (s.core p) := by
  have h : f ((s.setCore p ((s.core p).cpBump r n)).core p) = f (s.core p) := by
    rw [State.core_setCore, if_pos rfl]
    exact hf _ _
  unfold State.cpCount
  dsimp only
  split
  · exact h
  · exact h

theorem State.cpRecord_field {γ : Type} (f : Core → γ) (hf : ∀ (c : Core) l, f { c with cp := l } = f c) (s : State)
    (p a stamp v t : Nat) : f ((s.cpRecord p a stamp v t).core p) = f (s.core p) := by
  have h : ∀ w, f ((s.setCore p (((s.core p).cpWr a w).cpWr stamp (BitVec.ofNat 32 s.stamp))).core p) = f (s.core p) := fun w => by
    rw [State.core_setCore, if_pos rfl]
    exact (hf _ _).trans (hf _ _)
  unfold State.cpRecord
  dsimp only
  split
  · rfl
  · split
    · exact h _
    · exact h _

/-- What a read checks leaves everything of the core but its control page, its marks, the rows to write back and its claims. -/
theorem State.eccRow_field {γ : Type} (f : Core → γ) (hcp : ∀ (c : Core) l, f { c with cp := l } = f c)
    (hfix : ∀ (c : Core) l, f { c with fixes := l } = f c) (hclm : ∀ (c : Core) m l, f { c with marks := m, claims := l } = f c)
    (s : State) (p row t : Nat) (patrol : Bool) : f ((s.eccRow p row t patrol).1.core p) = f (s.core p) := by
  unfold State.eccRow
  dsimp only
  split
  · rfl
  · split
    · rw [State.core_onCore, if_pos rfl]
      refine Eq.trans ?_ (State.cpCount_field f hcp s p SPC_ECC_CNT_corrected 1 t)
      cases patrol
      · exact hclm _ _ _
      · exact hfix _ _
    · exact (State.cpRecord_field f hcp _ _ _ _ _ _).trans (State.cpCount_field f hcp s p SPC_ECC_CNT_uncorrected 1 t)

/-- The patrol's read of row `row`, its `n`-th of the bank, with the upsets `l` (R151). -/
def State.patrolRead (v : State) (p bank row n t : Nat) (l : List Upset) : State :=
  let w := ((v.upset p l).eccRow p row t true).1.onCore p (fun c => { c.patrolClaim t bank with patrol := put c.patrol bank (n + 1) })
  if (n + 1) % 3072 = 0 ∧ (List.range 32).all (fun b => decide ((n + 1) / 3072 ≤ lookupD 0 (w.core p).patrol b / 3072)) then
    w.cpCount p SPC_PATROL_passes 1 t
  else w

theorem Accessed.patrolRead {v : State} (h : Accessed p s v) (bank row n t : Nat) (l : List Upset) :
    Accessed p s (v.patrolRead p bank row n t l) := by
  have hw := ((h.upset l).eccRow row t true).onCore fun c => { c.patrolClaim t bank with patrol := put c.patrol bank (n + 1) }
  exact .ite (hw.cpCount _ _ _) hw

theorem State.patrolRead_field {γ : Type} (f : Core → γ) (hcp : ∀ (c : Core) l, f { c with cp := l } = f c)
    (v : State) (p bank row n t : Nat) (l : List Upset) :
    f ((v.patrolRead p bank row n t l).core p) =
      f { (((v.upset p l).eccRow p row t true).1.core p).patrolClaim t bank with
        patrol := put (((v.upset p l).eccRow p row t true).1.core p).patrol bank (n + 1) } := by
  unfold State.patrolRead
  dsimp only
  generalize ((v.upset p l).eccRow p row t true).1 = w
  have hw : ∀ g : Core → Core, f ((w.onCore p g).core p) = f (g (w.core p)) := fun g => by rw [State.core_onCore, if_pos rfl]
  split
  · exact (State.cpCount_field f hcp _ _ _ _ _).trans (hw _)
  · exact hw _

theorem State.patrolRead_patrol (v : State) (p bank row n t : Nat) (l : List Upset) :
    lookupD 0 ((v.patrolRead p bank row n t l).core p).patrol bank = n + 1 := by
  rw [State.patrolRead_field Core.patrol (fun _ _ => rfl)]
  exact (lookupD_put _ _ _ _ _).trans (if_pos rfl)

theorem State.patrolRead_pad (v : State) (p bank row n t : Nat) : ((v.patrolRead p bank row n t []).core p).pad = (v.core p).pad := by
  rw [State.patrolRead_field Core.pad (fun _ _ => rfl)]
  refine (State.eccRow_field Core.pad (fun _ _ => rfl) (fun _ _ => rfl) (fun _ _ _ => rfl) _ p row t true).trans ?_
  rw [State.upset, if_pos rfl]

/-- The patrol of a bank that no access claims: the row corrected goes back, or the next row is read (R151). -/
theorem State.padPatrol_free {bank : Nat} (u : Option Upset) (hb : bank < 32)
    (he : ((s.ahead p s.cycle 10).core p).cpOn SPC_PATROL_enable = true)
    (hc : ((s.ahead p s.cycle 10).core p).claims.any (fun k => k.cycle == s.cycle && k.bank == bank) = false) :
    (∃ row, lookup? ((s.ahead p s.cycle 10).core p).fixes bank = some row ∧
      s.padPatrol p bank u = (s.ahead p s.cycle 10).onCore p (fun c =>
        { c.patrolClaim s.cycle bank with marks := del c.marks row, fixes := del c.fixes bank })) ∨
    (lookup? ((s.ahead p s.cycle 10).core p).fixes bank = none ∧ ∃ row l, (u = none → l = []) ∧
      s.padPatrol p bank u = (s.ahead p s.cycle 10).patrolRead p bank row (lookupD 0 ((s.ahead p s.cycle 10).core p).patrol bank) s.cycle l) := by
  have hif : (((s.ahead p s.cycle 10).core p).cpOn SPC_PATROL_enable && decide (bank < 32) &&
      !((s.ahead p s.cycle 10).core p).claims.any (fun k => k.cycle == s.cycle && k.bank == bank)) = true := by
    rw [he, hc]
    simp [hb]
  unfold State.padPatrol
  dsimp only
  rw [if_pos hif]
  cases hx : lookup? ((s.ahead p s.cycle 10).core p).fixes bank with
  | some row => exact .inl ⟨row, rfl, rfl⟩
  | none =>
    refine .inr ⟨rfl, ?_⟩
    cases u with
    | none => exact ⟨((s.ahead p s.cycle 10).core p).rowAt bank _, [], fun _ => rfl, rfl⟩
    | some x =>
      exact ⟨((s.ahead p s.cycle 10).core p).rowAt bank _, [{ x with row := _ }], (by intro h; cases h), rfl⟩

/-- What a Bay's read checks leaves: its data and the patrol's place, and everything outside the Bay that no loss of a home touches. -/
theorem State.bayEcc_same {γ : Type} (g : State → γ) (hbay : ∀ (v : State) m, g (v.setBay b { v.bay b with marks := m }) = g v)
    (hwr : ∀ (v : State) a w, g (v.wr a w) = g v) (hst : ∀ (v : State) a f, g (v.strike a f) = g v)
    (hrep : ∀ (v : State) r, g (v.report r) = g v) (hhome : ∀ (v : State) l, g { v with homes := l } = g v)
    (s : State) (page row : Nat) (patrol : Bool) (o : Option Nat) : g (s.bayEcc b page row patrol o) = g s := by
  have hdam : ∀ v : State, g (v.damage b page) = g v := fun v =>
    each_eq g (fun h t => by
      split
      · refine (each_eq g (fun q u => ?_) _ _).trans (hhome _ _)
        split
        · exact hwr _ _ _
        · rfl
      · rfl) _ _
  have hrec : ∀ (v : State) a y, g (v.recordFirst a y) = g v := fun v a y => by
    unfold State.recordFirst
    split
    · rfl
    · exact (hst _ _ _).trans (hwr _ _ _)
  unfold State.bayEcc
  dsimp only
  split
  · rfl
  · split
    · exact ((hst _ _ _).trans (hwr _ _ _)).trans (hbay _ _)
    · refine (hrep _ _).trans ((hdam _).trans ?_)
      split
      · exact (hst _ _ _).trans (hwr _ _ _)
      · exact (hwr _ _ _).trans ((hwr _ _ _).trans ((hrec _ _ _).trans ((hst _ _ _).trans (hwr _ _ _))))

theorem State.bayEcc_bay {γ : Type} (f : Bay → γ) (hf : ∀ (y : Bay) m, f { y with marks := m } = f y)
    (s : State) (b page row : Nat) (patrol : Bool) (o : Option Nat) (c : Nat) : f ((s.bayEcc b page row patrol o).bay c) = f (s.bay c) :=
  State.bayEcc_same (fun v => f (v.bay c)) (fun v m => by
      rw [State.bay_setBay]
      split
      next h => rw [h]; exact hf _ _
      · rfl)
    (fun _ _ _ => rfl) (fun _ _ _ => rfl) (fun _ _ => rfl) (fun _ _ => rfl) s page row patrol o

theorem State.bayEcc_cores (s : State) (b page row : Nat) (patrol : Bool) (o : Option Nat) : (s.bayEcc b page row patrol o).cores = s.cores :=
  State.bayEcc_same State.cores (fun _ _ => rfl) (fun _ _ _ => rfl) (fun _ _ _ => rfl) (fun _ _ => rfl) (fun _ _ => rfl) s page row patrol o

theorem Bay.upset_patrol (page : Nat) (us : List Upset) (y : Bay) :
    (us.foldl (fun (y : Bay) u =>
      let z := if u.fatal then y.setRow page u.row (upsetRow (bayRow y page u.row) u) else y
      { z with marks := addMark y.marks { u with row := 32768 * page + u.row } }) y).patrol = y.patrol :=
  foldl_same Bay.patrol (fun y u => by
    dsimp only
    split <;> rfl) us y

theorem State.bayUpset_patrol (s : State) (b page : Nat) (us : List Upset) : ((s.bayUpset b page us).bay b).patrol = (s.bay b).patrol := by
  unfold State.bayUpset
  split
  · rfl
  · rw [State.bay_onBay, if_pos rfl]
    exact Bay.upset_patrol _ _ _

theorem State.bayUpset_cores (s : State) (b page : Nat) (us : List Upset) : (s.bayUpset b page us).cores = s.cores := by
  unfold State.bayUpset
  split <;> rfl

/-- The patrol of a Bay that serves nothing else in this tick reads its first row (R209). -/
theorem State.bayPatrol_free (u : Option Upset) (hu : s.bayUsable b = true) (hr : s.running = true)
    (ho : s.on (BAY_CTL_patrol b) = true) (hf : s.refreshing b = false) (hq : s.bayQueued b = false) (hd : s.copyDue b = false)
    (ht : (s.bay b).patrolTick ≠ s.cycle / 256) :
    ∃ l, (u = none → l = []) ∧ s.bayPatrol b u = ((s.bayUpset b ((s.bay b).patrol / 32768) l).bayEcc b ((s.bay b).patrol / 32768)
      ((s.bay b).patrol % 32768) true none).onBay b (fun y =>
        { y with patrol := (y.patrol + 1) % (45776 * 32768), patrolTick := s.cycle / 256, patrolled := 1 }) := by
  have hif : (s.bayUsable b && s.running && s.on (BAY_CTL_patrol b) && !s.refreshing b && !s.bayQueued b && !s.copyDue b &&
      decide (0 < 64)) = true := by
    rw [hu, hr, ho, hf, hq, hd]
    rfl
  unfold State.bayPatrol
  dsimp only
  rw [if_neg ht, if_pos hif]
  cases u with
  | none => exact ⟨[], fun _ => rfl, rfl⟩
  | some x => exact ⟨[{ x with row := (s.bay b).patrol % 32768 }], (by intro h; cases h), rfl⟩

end Patrols

theorem lookup?_del_self {β : Type} (m : List (Nat × β)) (k : Nat) : lookup? (del m k) k = none :=
  (lookup?_del m k k).trans (if_pos rfl)

/-- Settles O20. -/
theorem baysRefreshAndPatrolsMoveOn : Obligations.BaysRefreshAndPatrolsMoveOn := by
  refine ⟨fun s => ⟨?_, fun b u hb hu hr ho href hq hd ht => runs_next (congrArg Host.Outcome.next (if_pos hb)) ?_⟩, fun b s hb => ⟨fun hr ht => ?_, fun ht => ?_⟩⟩
  · intro p bank u hp hb c he hc
    refine runs_next (congrArg Host.Outcome.next (if_pos ⟨hp, hb⟩)) ?_
    have hacc : Accessed p s (s.ahead p s.cycle 10) := Accessed.refl.ahead s.cycle 10
    rcases State.padPatrol_free u hb he hc with ⟨row, hx, h⟩ | ⟨hx, row, l, hl, h⟩
    · have hcore : ((s.ahead p s.cycle 10).onCore p (fun c =>
          { c.patrolClaim s.cycle bank with marks := del c.marks row, fixes := del c.fixes bank })).core p =
          { c.patrolClaim s.cycle bank with marks := del c.marks row, fixes := del c.fixes bank } := by
        rw [State.core_onCore, if_pos rfl]
      rw [h, hcore, hx]
      exact ⟨⟨lookup?_del_self _ _, lookup?_del_self _ _, rfl⟩, fun _ => rfl, (hacc.onCore _).bays⟩
    · rw [h, hx]
      refine ⟨State.patrolRead_patrol _ _ _ _ _ _ _, fun hu => ?_, (hacc.patrolRead _ _ _ _ _).bays⟩
      rw [hl hu]
      exact State.patrolRead_pad _ _ _ _ _ _
  · obtain ⟨l, hl, h⟩ := State.bayPatrol_free u hu hr ho href hq hd ht
    rw [h]
    generalize hpage : (s.bay b).patrol / 32768 = page
    generalize hrow : (s.bay b).patrol % 32768 = row
    have hw := State.bayEcc_bay (b := b) Bay.patrol (fun _ _ => rfl) (s.bayUpset b page l) page row true none
    refine ⟨?_, ?_, fun hn => ?_, ?_⟩
    · rw [State.bay_onBay, if_pos rfl]
      show (((s.bayUpset b page l).bayEcc b page row true none).bay b).patrol.succ % _ = _
      rw [hw, State.bayUpset_patrol]
    · rw [State.bay_onBay, if_pos rfl]
    · rw [State.bay_onBay, if_pos rfl]
      refine (State.bayEcc_bay Bay.mem (fun _ _ => rfl) _ _ _ _ _ _ _).trans ?_
      rw [hl hn, State.bayUpset, if_pos rfl]
    · exact (State.bayEcc_cores _ _ _ _ _ _).trans (s.bayUpset_cores _ _ _)
  · have href : s.refreshing b = true := by
      rw [State.refreshing, hr, ht]
      exact beq_self_eq_true b
    have he : s.bayRefresh b = s.onBay b (fun y => { y with refreshed := some s.tick }) := if_pos href
    refine runs_next (congrArg Host.Outcome.next ((if_pos hb).trans he)) ?_
    have hbay : (s.onBay b (fun y => { y with refreshed := some s.tick })).bay b = { s.bay b with refreshed := some s.tick } := by
      rw [State.bay_onBay, if_pos rfl]
    rw [hbay]
    exact ⟨rfl, rfl, rfl, fun c hc => (State.bay_onBay _ _ _ _).trans (if_neg hc)⟩
  · have href : ¬ s.refreshing b = true := by
      simp [State.refreshing, ht]
    exact congrArg Host.Outcome.next ((if_pos hb).trans (if_neg href))

end Sys2Proof.Machine

/-!
The page map: its slots, the commands of the map unit and the release of retired pages (R213 to R218, R228).
-/

namespace Sys2Proof.Machine

/-! ### Slots -/

section Slots

variable {s t : State} {i j v : Nat}

/-- A word outside the page map. -/
def offMap (a : Nat) : Prop := a < 0x3000000 ∨ 0x3800000 ≤ a

theorem offMap_ne {a : Nat} (h : offMap a) (hi : i < noSlot) : a ≠ PAGE_MAP i 0 ∧ a ≠ PAGE_MAP i 1 := by
  unfold noSlot at hi
  unfold offMap at h
  unfold PAGE_MAP
  omega

theorem State.slot_of_rd (h : ∀ k, t.rd (PAGE_MAP i k) = s.rd (PAGE_MAP i k)) : t.slot i = s.slot i := by
  unfold State.slot State.pair
  rw [h, h]

theorem State.slot_of_ctl (h : t.ctl = s.ctl) (i : Nat) : t.slot i = s.slot i :=
  State.slot_of_rd fun k => by
    unfold State.rd
    rw [h]

theorem State.slot_set (s : State) (f : FieldRef) (n : Nat) (hi : i < noSlot) (hf : offMap f.addr) : (s.set f n).slot i = s.slot i := by
  obtain ⟨h0, h1⟩ := offMap_ne hf hi
  unfold State.slot State.pair
  rw [State.set_rd_ne _ _ _ _ h0.symm, State.set_rd_ne _ _ _ _ h1.symm]

theorem State.setSlot_rd (s : State) (hi : i < noSlot) {a : Nat} (ha : offMap a) : (s.setSlot i v).rd a = s.rd a := by
  obtain ⟨h0, h1⟩ := offMap_ne ha hi
  unfold State.setSlot State.setPair
  rw [State.rd_wr, if_neg h1, State.rd_wr, if_neg h0]

theorem State.setSlot_get (s : State) (hi : i < noSlot) (f : FieldRef) (hf : offMap f.addr) : (s.setSlot i v).get f = s.get f :=
  congrArg (fun w => bits w f.lo f.len) (s.setSlot_rd hi hf)

theorem State.slot_setSlot (s : State) (hi : i < noSlot) (hv : v < 2 ^ 64) :
    (s.setSlot i v).slot j = if j = i then v else s.slot j := by
  unfold State.setSlot State.setPair State.slot State.pair
  simp only [State.rd_wr]
  unfold noSlot at hi
  by_cases h : j = i
  · subst h
    rw [if_pos rfl, if_pos rfl, if_pos rfl, if_neg (by unfold PAGE_MAP; omega)]
    rw [BitVec.toNat_ofNat, BitVec.toNat_ofNat, Nat.shiftRight_eq_div_pow]
    omega
  · rw [if_neg h, if_neg (by unfold PAGE_MAP; omega), if_neg (by unfold PAGE_MAP; omega), if_neg (by unfold PAGE_MAP; omega),
      if_neg (by unfold PAGE_MAP; omega)]

theorem State.slot_lt (s : State) (i : Nat) : s.slot i < 2 ^ 64 := by
  have h0 := (s.rd (PAGE_MAP i 0)).isLt
  have h1 := (s.rd (PAGE_MAP i 1)).isLt
  unfold State.slot State.pair
  omega

theorem State.slotLive_lt (h : s.slotLive i = true) : i < noSlot := by
  unfold State.slotLive at h
  exact of_decide_eq_true (Bool.and_eq_true_iff.1 h).1

/-- A field of a live slot replaced: the other fields and the other slots stay. -/
theorem State.slots_setField (hi : i < noSlot) (lo len n : Nat) (h : lo + len ≤ 64) :
    (s.setSlot i (setField (s.slot i) lo len n)).slot i = setField (s.slot i) lo len n ∧
      ∀ j, j ≠ i → j < noSlot → (s.setSlot i (setField (s.slot i) lo len n)).slot j = s.slot j :=
  ⟨(s.slot_setSlot hi (setField_lt _ _ _ _ _ (s.slot_lt i) h)).trans (if_pos rfl),
    fun _ hj _ => (s.slot_setSlot hi (setField_lt _ _ _ _ _ (s.slot_lt i) h)).trans (if_neg hj)⟩

theorem State.setSlot_same {γ : Type} (g : State → γ) (hg : ∀ (t : State) a w, g (t.wr a w) = g t) (s : State) (i v : Nat) :
    g (s.setSlot i v) = g s := (hg _ _ _).trans (hg _ _ _)

end Slots

/-! ### Commands of the map unit -/

section Commands

variable {s t : State} {acc : Nat}

theorem State.rdAcc_wrAcc (s : State) (acc a : Nat) (v : Word) : (s.wrAcc acc a v).rdAcc acc a = v :=
  (rdAt_wrAt _ _ _ _ _).trans (if_pos rfl)

/-- The accessors' own registers are no part of what `g` reads. -/
theorem State.wrAcc_same {γ : Type} (g : State → γ) (hg : ∀ (t : State) l, g { t with banked := l } = g t) (s : State) (acc a : Nat)
    (v : Word) : g (s.wrAcc acc a v) = g s := hg s _

@[simp] theorem State.wrAcc_bays (s : State) (acc a : Nat) (v : Word) : (s.wrAcc acc a v).bays = s.bays :=
  State.wrAcc_same State.bays (fun _ _ => rfl) s acc a v

@[simp] theorem State.wrAcc_bay (s : State) (acc a : Nat) (v : Word) (b : Nat) : (s.wrAcc acc a v).bay b = s.bay b :=
  State.wrAcc_same (fun t => t.bay b) (fun _ _ => rfl) s acc a v

@[simp] theorem State.wrAcc_retiring (s : State) (acc a : Nat) (v : Word) : (s.wrAcc acc a v).retiring = s.retiring :=
  State.wrAcc_same State.retiring (fun _ _ => rfl) s acc a v

@[simp] theorem State.wrAcc_slot (s : State) (acc a : Nat) (v : Word) (i : Nat) : (s.wrAcc acc a v).slot i = s.slot i :=
  State.wrAcc_same (fun t => t.slot i) (fun _ _ => rfl) s acc a v

@[simp] theorem State.wrAcc_get (s : State) (acc a : Nat) (v : Word) (f : FieldRef) : (s.wrAcc acc a v).get f = s.get f :=
  State.wrAcc_same (fun t => t.get f) (fun _ _ => rfl) s acc a v

@[simp] theorem State.set_bay (s : State) (f : FieldRef) (n b : Nat) : (s.set f n).bay b = s.bay b := rfl

/-- What a map command answers with status 0. -/
theorem State.mapRun_done {op i : Nat} {u : State}
    (h : s.mapCmd op (s.rdAcc acc BAY_MAP_ARG0) (s.rdAcc acc BAY_MAP_ARG1) = (u, ⟨0, i⟩)) :
    s.mapRun acc op = u.wrAcc acc BAY_MAP_RES (BitVec.ofNat 32 (if op = 1 then i else 0)) := by
  unfold State.mapRun
  rw [h]
  simp

theorem State.setNext_ok {i next : Nat} (h : s.slotLive i = true) (hn : next = noSlot ∨ s.slotLive next = true) :
    s.setNext i next = (s.setSlot i (setField (s.slot i) 24 20 next), ⟨0, i⟩) :=
  if_pos (by
    rw [h, Bool.true_and, Bool.or_eq_true_iff, beq_iff_eq]
    exact hn)

theorem State.setFill_ok {i fill : Nat} (h : s.slotLive i = true) (hf : fill ≤ 2048) :
    s.setFill i fill = (s.setSlot i (setField (s.slot i) 12 12 fill), ⟨0, i⟩) :=
  if_pos (by rw [h, Bool.true_and]; exact decide_eq_true hf)

/-- A slot freed: no longer valid, of the next epoch, at the end of no list (R216). -/
def freedSlot (v : Nat) : Nat := setField (setField (setField v 5 1 0) 6 6 (slotEpoch v + 1)) 24 20 noSlot

/-- The page of a freed slot retires under its owner (R216). -/
def State.retire (s : State) (b page : Nat) (mover : Bool) (part last : Nat) : State :=
  { s with retiring := s.retiring ++ [(⟨b, page, part, 2, last, mover⟩ : Retiring)] }

theorem Bay.own_setOwn (y : Bay) (page : Nat) (v : Half) (g : Nat) : (y.setOwn page v).own g = if g = page then v else y.own g :=
  lookupD_put _ _ _ _ _

theorem Bay.own_setOwnBit_same (y : Bay) (page : Nat) {i : Nat} (hi : i < 16) (b : Bool) :
    ((y.setOwnBit page i b).own page).getLsbD i = b := by
  unfold Bay.setOwnBit
  rw [Bay.own_setOwn, if_pos rfl, setBits, BitVec.getLsbD_ofNat, testBit_setField, if_neg (by omega), if_pos (by omega)]
  cases b <;> simp [b2n, hi]

/-- A slot of no list and of the next epoch, its page retiring under its owner (R216). -/
def State.freedAt (s : State) (i b page part : Nat) : State :=
  (((s.setSlot i (freedSlot (s.slot i))).onBay b (fun y => y.setOwnBit page 12 true)).unexcuse b page).retire b page false part s.cycle

theorem State.freeSlotOp_ok {i b page : Nat} (h : s.slotLive i = true) (hb : slotPage (s.slot i) / pagesPerBay = b)
    (hp : slotPage (s.slot i) % pagesPerBay = page) (hm : (s.bay b).move = none) :
    ∃ part, s.freeSlotOp i =
      ((s.freedAt i b page part).set BAY_MAP_SLOTS_free ((s.freedAt i b page part).get BAY_MAP_SLOTS_free + 1), ⟨0, i⟩) := by
  refine ⟨bits ((s.bay b).own page) 0 6, ?_⟩
  unfold State.freeSlotOp
  rw [if_neg (by simp [h])]
  dsimp only
  rw [hb, hp, hm]
  unfold State.freedAt State.retire freedSlot
  rfl

theorem State.freedAt_slot {i : Nat} (b page part : Nat) (hi : i < noSlot) : (s.freedAt i b page part).slot i = freedSlot (s.slot i) := by
  have hc : (s.freedAt i b page part).ctl = (s.setSlot i (freedSlot (s.slot i))).ctl := rfl
  have hlt : freedSlot (s.slot i) < 2 ^ 64 :=
    setField_lt _ _ _ _ _ (setField_lt _ _ _ _ _ (setField_lt _ _ _ _ _ (s.slot_lt i) (by omega)) (by omega)) (by omega)
  rw [State.slot_of_ctl hc, State.slot_setSlot _ hi hlt, if_pos rfl]

theorem State.freedAt_own (s : State) (i b page part : Nat) : (((s.freedAt i b page part).bay b).own page).getLsbD 12 = true := by
  have h : (s.freedAt i b page part).bay b = (s.bay b).setOwnBit page 12 true := by
    have hb : ∀ u : State, ((u.unexcuse b page).retire b page false part s.cycle).bay b = u.bay b := fun _ => rfl
    unfold State.freedAt
    rw [hb, State.bay_onBay, if_pos rfl, State.setSlot_same (fun u => u.bay b) (fun _ _ _ => rfl)]
  rw [h]
  exact Bay.own_setOwnBit_same _ _ (by omega) _

theorem State.freedAt_retiring (s : State) (i b page part : Nat) :
    (s.freedAt i b page part).retiring = s.retiring ++ [(⟨b, page, part, 2, s.cycle, false⟩ : Retiring)] := by
  have h : ∀ u : State, ((u.onBay b (fun y => y.setOwnBit page 12 true)).unexcuse b page).retiring = u.retiring := fun _ => rfl
  unfold State.freedAt State.retire
  dsimp only
  rw [h, State.setSlot_same State.retiring (fun _ _ _ => rfl)]

theorem slotValid_freedSlot (v : Nat) : slotValid (freedSlot v) = false := by
  unfold slotValid freedSlot
  simp [testBit_setField]

theorem slotEpoch_freedSlot (v : Nat) : slotEpoch (freedSlot v) = (slotEpoch v + 1) % 64 := by
  unfold freedSlot
  rw [slotEpoch, field_setField_ne _ _ _ _ _ _ (by omega), field_setField]
  rfl

end Commands

/-! ### Release of pages -/

theorem State.pageRelease_waits {s : State} {k : Nat} {r : Retiring} (h : s.retiring[k]? = some r) (hl : 0 < r.left) : s.pageRelease k = s := by
  unfold State.pageRelease
  rw [h]
  exact if_pos hl

/-- The page back on the free stack of its Bay. -/
def State.takeBack (s : State) (k : Nat) (r : Retiring) : State :=
  { s with retiring := eraseAt s.retiring k }.onBay r.bay (fun y => { (y.setOwn r.page 0) with returned := r.page :: y.returned })

theorem State.pageRelease_due {s : State} {k : Nat} {r : Retiring} (h : s.retiring[k]? = some r) (hl : r.left = 0) :
    s.pageRelease k =
      if r.mover then
        (((s.takeBack k r).onBay r.bay (fun y => { y with move := none })).set (BAY_MOVE_STAT_state r.bay) 0).done (BAY_MOVE_CTL_go r.bay)
      else (s.takeBack k r).set (PART_RES_USED_pages r.part) ((s.takeBack k r).get (PART_RES_USED_pages r.part) - 1) := by
  unfold State.pageRelease
  rw [h]
  exact if_neg (by omega)

theorem State.done_same {γ : Type} (g : State → γ) (hg : ∀ (t : State) a w, g (t.wr a w) = g t) (s : State) (f : FieldRef) :
    g (s.done f) = g s := by
  unfold State.done
  split
  · rfl
  · exact hg _ _ _

theorem State.done_get (s : State) {f g : FieldRef} (h : g.addr ≠ f.addr) : (s.done f).get g = s.get g := by
  unfold State.done
  split
  · rfl
  · exact s.get_set_addr f g _ h

/-- Settles O24. -/
theorem slotsChangeAndRetiredPagesReturn : Obligations.SlotsChangeAndRetiredPagesReturn := by
  refine ⟨?_, fun k r s hr => ⟨fun hl => congrArg Host.Outcome.next (State.pageRelease_waits hr hl), fun hl => runs_next rfl ?_⟩⟩
  · intro acc s hacc ho i v f hlive
    have hi := State.slotLive_lt hlive
    refine ⟨fun hm => runs_writeAt (congrArg Host.Outcome.next (if_pos hacc)) ho ?_,
      fun hv => runs_writeAt (congrArg Host.Outcome.next (if_pos hacc)) ho ?_,
      fun hf => runs_writeAt (congrArg Host.Outcome.next (if_pos hacc)) ho ?_⟩
    · generalize hb : slotPage (s.slot i) / pagesPerBay = b at hm ⊢
      generalize hp : slotPage (s.slot i) % pagesPerBay = page
      obtain ⟨part, he⟩ := State.freeSlotOp_ok hlive hb hp hm
      have he' : s.mapCmd 2 (s.rdAcc acc BAY_MAP_ARG0) (s.rdAcc acc BAY_MAP_ARG1) = _ := he
      rw [State.mapRun_done he']
      have hslot : ((s.freedAt i b page part).set BAY_MAP_SLOTS_free ((s.freedAt i b page part).get BAY_MAP_SLOTS_free + 1)).slot i =
          freedSlot (s.slot i) := (State.slot_set _ _ _ hi (.inl (by decide))).trans (State.freedAt_slot b page part hi)
      generalize hu : (s.freedAt i b page part).set BAY_MAP_SLOTS_free ((s.freedAt i b page part).get BAY_MAP_SLOTS_free + 1) = u at hslot
      refine ⟨?_, ?_, ?_, ⟨⟨b, page, part, 2, s.cycle, false⟩, ?_, rfl, rfl, rfl⟩, ?_⟩
      · rw [State.slotLive, State.wrAcc_slot, hslot, slotValid_freedSlot, Bool.and_false]
      · rw [State.wrAcc_slot, hslot, slotEpoch_freedSlot]
      · rw [State.wrAcc_bay, ← hu, State.set_bay]
        exact s.freedAt_own i b page part
      · rw [State.wrAcc_retiring, ← hu, State.set_retiring]
        exact s.freedAt_retiring i b page part
      · rw [State.rdAcc_wrAcc, if_neg (by omega)]
        rfl
    · have he : s.mapCmd 3 (s.rdAcc acc BAY_MAP_ARG0) (s.rdAcc acc BAY_MAP_ARG1) = _ := State.setNext_ok hlive hv
      rw [State.mapRun_done he]
      obtain ⟨h1, h2⟩ := State.slots_setField (s := s) hi 24 20 v (by omega)
      have hlt : v < 2 ^ 20 := field_lt _ _ _
      simp only [State.wrAcc_slot, State.wrAcc_bays]
      refine ⟨?_, ?_, ?_, h2, State.setSlot_same State.bays (fun _ _ _ => rfl) s _ _⟩
      · exact (congrArg slotNext h1).trans ((field_setField _ _ _ _).trans (Nat.mod_eq_of_lt hlt))
      · exact (congrArg slotPage h1).trans (field_setField_ne _ _ _ _ _ _ (by omega))
      · exact (congrArg slotFill h1).trans (field_setField_ne _ _ _ _ _ _ (by omega))
    · have he : s.mapCmd 4 (s.rdAcc acc BAY_MAP_ARG0) (s.rdAcc acc BAY_MAP_ARG1) = _ := State.setFill_ok hlive hf
      rw [State.mapRun_done he]
      obtain ⟨h1, h2⟩ := State.slots_setField (s := s) hi 12 12 f (by omega)
      have hlt : f < 2 ^ 12 := field_lt _ _ _
      simp only [State.wrAcc_slot, State.wrAcc_bays]
      refine ⟨?_, ?_, ?_, h2, State.setSlot_same State.bays (fun _ _ _ => rfl) s _ _⟩
      · exact (congrArg slotFill h1).trans ((field_setField _ _ _ _).trans (Nat.mod_eq_of_lt hlt))
      · exact (congrArg slotPage h1).trans (field_setField_ne _ _ _ _ _ _ (by omega))
      · exact (congrArg slotNext h1).trans (field_setField_ne _ _ _ _ _ _ (by omega))
  · rw [State.pageRelease_due hr hl]
    have hbay : (s.takeBack k r).bay r.bay = { ((s.bay r.bay).setOwn r.page 0) with returned := r.page :: (s.bay r.bay).returned } :=
      (State.bay_onBay _ _ _ _).trans (if_pos rfl)
    generalize hu : s.takeBack k r = u at hbay
    have hret : u.retiring = eraseAt s.retiring k := by
      rw [← hu]
      rfl
    have hget : ∀ f, u.get f = s.get f := fun f => by
      rw [← hu]
      rfl
    have hown : ((s.bay r.bay).setOwn r.page 0).own r.page = 0 := (Bay.own_setOwn _ _ _ _).trans (if_pos rfl)
    cases hm : r.mover
    · simp only [Bool.false_eq_true, if_false]
      rw [State.set_bay, State.set_retiring, hbay]
      refine ⟨hret, rfl, hown, rfl, ?_⟩
      · have hlt : s.get (PART_RES_USED_pages r.part) < 2 ^ 20 := field_lt _ _ _
        rw [State.get_set_fits, hget]
        exact Nat.mod_eq_of_lt (by show s.get (PART_RES_USED_pages r.part) - 1 < 2 ^ 20; omega)
    · simp only [if_true]
      have hb2 : (u.onBay r.bay (fun y => { y with move := none })).bay r.bay = { u.bay r.bay with move := none } :=
        (State.bay_onBay _ _ _ _).trans (if_pos rfl)
      generalize hw : u.onBay r.bay (fun y => { y with move := none }) = w at hb2
      have hwr : w.retiring = u.retiring := by
        rw [← hw]
        rfl
      have hdone : ∀ {γ : Type} (g : State → γ), (∀ (t : State) a x, g (t.wr a x) = g t) →
          g ((w.set (BAY_MOVE_STAT_state r.bay) 0).done (BAY_MOVE_CTL_go r.bay)) = g w := fun g hg =>
        (State.done_same g hg _ _).trans (hg _ _ _)
      have hdb := hdone (fun t => t.bay r.bay) (fun _ _ _ => rfl)
      refine ⟨(hdone State.retiring fun _ _ _ => rfl).trans (hwr.trans hret), ?_, ?_, ?_, ?_, ?_⟩
      · rw [hdb, hb2, hbay]
      · rw [hdb, hb2, hbay]
        exact hown
      · rw [hdb, hb2, hbay]
        rfl
      · rw [hdb, hb2]
      · have hne : (BAY_MOVE_STAT_state r.bay).addr ≠ (BAY_MOVE_CTL_go r.bay).addr := by
          show BAY_MOVE_STAT r.bay ≠ BAY_MOVE_CTL r.bay
          unfold BAY_MOVE_STAT BAY_MOVE_CTL
          omega
        rw [State.done_get _ hne, State.get_set_fits]
        rfl

end Sys2Proof.Machine

/-!
ALLOC (R213 to R216, R228): the page taken, its slot, its owner and its quota.
-/

namespace Sys2Proof.Machine

section Alloc

variable {s : State} {acc page i : Nat} {r : List Nat}

/-- The entry of a page that ALLOC has taken, of no list (R213). -/
def allocEntry (b page epoch : Nat) (ro home pin : Bool) : Nat :=
  (pagesPerBay * b + page) * 2 ^ 44 + noSlot * 2 ^ 24 + epoch * 2 ^ 6 + 2 ^ 5 + b2n ro * 2 ^ 3 + b2n home * 2 ^ 2 + b2n pin * 2

theorem b2n_le (b : Bool) : b2n b ≤ 1 := by cases b <;> decide

theorem allocEntry_fields {b epoch : Nat} (ro home pin : Bool) (hb : b < 18) (hp : page < pagesPerBay) (he : epoch < 64) :
    allocEntry b page epoch ro home pin < 2 ^ 64 ∧ slotValid (allocEntry b page epoch ro home pin) = true ∧
      slotPage (allocEntry b page epoch ro home pin) = pagesPerBay * b + page ∧
      slotNext (allocEntry b page epoch ro home pin) = noSlot ∧ slotEpoch (allocEntry b page epoch ro home pin) = epoch := by
  have h1 := b2n_le ro
  have h2 := b2n_le home
  have h3 := b2n_le pin
  unfold pagesPerBay at hp
  unfold slotValid slotPage slotNext slotEpoch allocEntry noSlot pagesPerBay
  simp only [field_eq, Nat.testBit_eq_decide_div_mod_eq, decide_eq_true_eq]
  omega

/-- The state with a page of Bay `b` taken and its slot filled (R216). -/
def State.allocAt (s : State) (b i : Nat) (y : Bay) (part ent : Nat) : State :=
  let u := (s.freeSlot.2.setBay b y).setSlot i ent
  (u.set BAY_MAP_SLOTS_free (u.get BAY_MAP_SLOTS_free - 1)).set (PART_RES_USED_pages part) (u.get (PART_RES_USED_pages part) + 1)

/-- An ALLOC of a page of a named Bay, at the head of no list, that nothing refuses. -/
theorem State.alloc_ok {a : AllocArg} (hok : s.allocArgsOk a = true) (hp : a.pred = noSlot) (hb : a.bay ≠ 31)
    (hf : 0 < s.get BAY_MAP_SLOTS_free) (hr : (s.bay a.bay).returned = page :: r)
    (hq : s.get (PART_RES_USED_pages a.part) < s.get (PART_RES_QUOTA_pages a.part)) (hi : s.freeSlot.1 = some i) :
    s.alloc a = (s.allocAt a.bay i ({ s.bay a.bay with returned := r }.setOwn page (ownEntry a.part a.ro a.shared false)) a.part
      (allocEntry a.bay page (slotEpoch (s.slot i)) a.ro a.home a.pin), ⟨0, i⟩) := by
  have ht : (s.bay a.bay).takePage = some (page, { s.bay a.bay with returned := r }) := by rw [Bay.takePage, hr]
  unfold State.alloc
  rw [if_neg (by simp [hok]), if_neg (by omega), if_neg hb]
  dsimp only
  rw [ht]
  dsimp only
  rw [if_neg (by omega), hi]
  dsimp only
  rw [if_pos hp, if_pos hp]
  rfl

theorem ownEntry_part {part : Nat} (ro shared : Bool) (h : part < 64) :
    bits (ownEntry part ro shared false) 0 6 = part ∧ (ownEntry part ro shared false).getLsbD 15 = true := by
  have h1 := b2n_le ro
  have h2 := b2n_le shared
  have h3 : b2n false = 0 := rfl
  have hn : (ownEntry part ro shared false).toNat = 2 ^ 15 + b2n ro * 2 ^ 14 + b2n shared * 2 ^ 13 + part := by
    unfold ownEntry
    rw [BitVec.toNat_ofNat, h3]
    omega
  unfold bits BitVec.getLsbD
  rw [hn, field_eq, Nat.testBit_eq_decide_div_mod_eq, decide_eq_true_eq]
  omega

theorem State.freeSlot_reads (s : State) : s.freeSlot.2.ctl = s.ctl ∧ s.freeSlot.2.bays = s.bays := ⟨rfl, rfl⟩

/-- What the state after an ALLOC shows. -/
theorem State.allocAt_reads {b part ent : Nat} {y : Bay} (hi : i < noSlot) (hp : part < 64) (he : ent < 2 ^ 64)
    (hu : s.get (PART_RES_USED_pages part) + 1 < 2 ^ 20) :
    (s.allocAt b i y part ent).slot i = ent ∧ (s.allocAt b i y part ent).bay b = y ∧
      (s.allocAt b i y part ent).get BAY_MAP_SLOTS_free = s.get BAY_MAP_SLOTS_free - 1 ∧
      (s.allocAt b i y part ent).get (PART_RES_USED_pages part) = s.get (PART_RES_USED_pages part) + 1 := by
  have o1 : offMap BAY_MAP_SLOTS_free.addr := .inl (by decide)
  have o2 : offMap (PART_RES_USED_pages part).addr := .inl (by show PART_RES_USED part < _; unfold PART_RES_USED; omega)
  have hne : BAY_MAP_SLOTS_free.addr ≠ (PART_RES_USED_pages part).addr := by
    show BAY_MAP_SLOTS ≠ PART_RES_USED part
    unfold BAY_MAP_SLOTS PART_RES_USED
    omega
  have hg : ∀ f, (s.freeSlot.2.setBay b y).get f = s.get f := fun f =>
    (State.setBay_get _ _ _ _).trans (State.get_of_ctl _ s.freeSlot_reads.1 f)
  have hb : (s.freeSlot.2.setBay b y).bay b = y := (State.bay_setBay _ _ _ _).trans (if_pos rfl)
  unfold State.allocAt
  dsimp only
  generalize s.freeSlot.2.setBay b y = v at hg hb
  have hslot := v.slot_setSlot (j := i) hi he
  have hget := fun f hf => (v.setSlot_get (v := ent) hi f hf).trans (hg f)
  have hbay := (State.setSlot_same (fun t => t.bay b) (fun _ _ _ => rfl) v i ent).trans hb
  generalize v.setSlot i ent = u at hslot hget hbay
  rw [State.set_bay, State.set_bay]
  refine ⟨?_, hbay, ?_, ?_⟩
  · rw [State.slot_set _ _ _ hi o2, State.slot_set _ _ _ hi o1, hslot, if_pos rfl]
  · have hfl : s.get BAY_MAP_SLOTS_free < 2 ^ 21 := field_lt _ _ _
    rw [State.get_set_addr _ _ _ _ hne, hget _ o1]
    exact State.get_set_of_lt _ 21 (by omega)
  · rw [hget _ o2]
    exact State.get_set_of_lt _ 20 hu

theorem State.bayUsable_lt {b : Nat} (h : s.bayUsable b = true) : b < 18 := by
  unfold State.bayUsable at h
  split at h
  · exact of_decide_eq_true (Bool.and_eq_true_iff.1 h).1
  · cases h

/-- An ALLOC of a page of a named Bay, at the head of no list, that nothing refuses: what it leaves (R216). -/
theorem State.alloc_shows {b n : Nat} (ro shared home pin : Bool) (hb : s.bayUsable b = true) (hn : n < 64)
    (hen : s.on (PART_RES_CTL_enable n) = true) (hbusy : s.on (PART_RST_busy n) = false) (hpage : page < pagesPerBay)
    (hf : 0 < s.get BAY_MAP_SLOTS_free) (hr : (s.bay b).returned = page :: r)
    (hq : s.get (PART_RES_USED_pages n) < s.get (PART_RES_QUOTA_pages n)) (hi : s.freeSlot.1 = some i) (hlt : i < noSlot) :
    ∃ u, s.alloc ⟨b, n, ro, shared, home, pin, noSlot⟩ = (u, ⟨0, i⟩) ∧ u.slotLive i = true ∧ slotPage (u.slot i) = pagesPerBay * b + page ∧
      slotNext (u.slot i) = noSlot ∧ slotEpoch (u.slot i) = slotEpoch (s.slot i) ∧ (u.bay b).returned = r ∧
      bits ((u.bay b).own page) 0 6 = n ∧ ((u.bay b).own page).getLsbD 15 = true ∧
      u.get BAY_MAP_SLOTS_free = s.get BAY_MAP_SLOTS_free - 1 ∧
      u.get (PART_RES_USED_pages n) = s.get (PART_RES_USED_pages n) + 1 ∧ (u.bay b).mem = (s.bay b).mem := by
  have hb18 := State.bayUsable_lt hb
  have hok : s.allocArgsOk ⟨b, n, ro, shared, home, pin, noSlot⟩ = true := by
    unfold State.allocArgsOk
    simp [hb, hen, hbusy]
  obtain ⟨elt, evalid, epage, enext, eepoch⟩ := allocEntry_fields ro home pin hb18 hpage (show slotEpoch (s.slot i) < 64 from field_lt _ 6 6)
  refine ⟨_, State.alloc_ok hok rfl (by show b ≠ 31; omega) hf hr hq hi, ?_⟩
  dsimp only
  have hown : (({ s.bay b with returned := r } : Bay).setOwn page (ownEntry n ro shared false)).own page = ownEntry n ro shared false :=
    (Bay.own_setOwn _ _ _ _).trans (if_pos rfl)
  have hmem : (({ s.bay b with returned := r } : Bay).setOwn page (ownEntry n ro shared false)).mem = (s.bay b).mem := rfl
  have hret : (({ s.bay b with returned := r } : Bay).setOwn page (ownEntry n ro shared false)).returned = r := rfl
  generalize ({ s.bay b with returned := r } : Bay).setOwn page (ownEntry n ro shared false) = y at hown hmem hret
  generalize allocEntry b page (slotEpoch (s.slot i)) ro home pin = ent at elt evalid epage enext eepoch
  have hql : s.get (PART_RES_QUOTA_pages n) < 2 ^ 20 := field_lt _ _ _
  obtain ⟨h1, h2, h3, h4⟩ := State.allocAt_reads (s := s) (b := b) (y := y) hlt hn elt (by omega)
  generalize s.allocAt b i y n ent = u at h1 h2 h3 h4
  obtain ⟨o1, o2⟩ := ownEntry_part ro shared hn
  rw [State.slotLive, h1, h2, h3, h4, evalid, hown]
  exact ⟨by simp [hlt], epage, enext, eepoch, hret, o1, o2, rfl, rfl, hmem⟩

end Alloc

/-- Settles O23. -/
theorem allocTakesTheMostRecentPage : Obligations.AllocTakesTheMostRecentPage := by
  intro acc page i r s hacc ho a0 b n hu hen hbusy hpred hret hpage hfree hquota hslot hi
  refine runs_writeAt (congrArg Host.Outcome.next (if_pos hacc)) ho ?_
  obtain ⟨u, he, h⟩ := State.alloc_shows (a0.getLsbD 20) (a0.getLsbD 21) (a0.getLsbD 22) (a0.getLsbD 23) hu (field_lt _ 8 6) hen hbusy hpage
    hfree hret hquota hslot hi
  have hc : s.mapCmd 1 (s.rdAcc acc BAY_MAP_ARG0) (s.rdAcc acc BAY_MAP_ARG1) = (u, ⟨0, i⟩) :=
    (congrArg (fun k => s.alloc ⟨b, n, a0.getLsbD 20, a0.getLsbD 21, a0.getLsbD 22, a0.getLsbD 23, k⟩) hpred).trans he
  rw [State.mapRun_done hc, if_pos rfl]
  simp only [State.slotLive, State.wrAcc_slot, State.wrAcc_bay, State.wrAcc_get] at h ⊢
  exact ⟨State.rdAcc_wrAcc _ _ _ _, h⟩

end Sys2Proof.Machine

/-!
The page mover (R217 to R219): a switch that moves a page of a request also writes the request's index row, which may lie in the same Bay
(R333), so that the Bay's data change.
-/

namespace Sys2Proof.Machine

/-- A layout whose only PAGES list begins at slot 1. -/
def kvLayout : Layout :=
  { version := 0, stages := 0, cores := 0, total := 0, frame := [], src := 0, len := 0, secs := [], recs := [], images := [], pages := [1]
    serve := ⟨0, 0, 0, 0, 0, 0, 0, 0, 0⟩, wman := none, home := none, flows := [], spares := [], folds := [], flowSet := 0 }

/-- Request 0 of partition 0 owns the page of slot 0, page 0 of Bay 0, whose move to page 1 is copied; its index region lies in page 2 of
the same Bay, the page of slot 1. -/
def movedKvPage : State :=
  { State.reset with
    ctl := [(PART_RES_CTL 0, 0x80000000), (PART_RES_SLICE 0, 0x10000), (BAY_MOVE_STAT 0, 0x80000000), (REQ_TABLE 0 12, 1),
      (PAGE_MAP 0 0, 0xFF000030), (PAGE_MAP 0 1, 0xFFF), (PAGE_MAP 1 0, 0xFF000020), (PAGE_MAP 1 1, 0x2FFF)]
    parts := [(0, { PartSt.reset with layout := some kvLayout })]
    reqs := [(0, { ReqSt.reset with pages := true })]
    bays := [(0, { Bay.reset with owner := [(0, 0x8800), (1, 0x8800), (2, 0x8000)], move := some ⟨0, 0, 1⟩ })] }

theorem movedKvPage_writes : ((movedKvPage.moveIndexed 0 (fun t => t.moveSwitch 0)).bay 0).mem.isEmpty = false := by decide +kernel

theorem movedKvPage_empty : (movedKvPage.bay 0).mem = [] := rfl

/-- Refutes O25: the switch of `movedKvPage` writes the index row of the request whose page moves into Bay 0, whose data therefore change. -/
theorem not_moverCopiesSwitchesAndAborts : ¬ Obligations.MoverCopiesSwitchesAndAborts := by
  unfold Obligations.MoverCopiesSwitchesAndAborts
  intro h
  obtain ⟨-, -, hswitch, -⟩ := h 0 movedKvPage (by omega)
  obtain ⟨t, ht, -, -, -, -, hmem⟩ := hswitch ⟨0, 0, 1⟩ rfl (by decide +kernel) rfl (.inl (by decide +kernel)) (by decide)
  have he : t = movedKvPage.moveIndexed 0 (fun t => t.moveSwitch 0) := (Host.Outcome.next.inj ht).symm
  have hw := movedKvPage_writes
  rw [← he, hmem, movedKvPage_empty] at hw
  cases hw

end Sys2Proof.Machine

/-!
The Bays at work (R203 to R212): a packet taken up, the rows it reads or writes, and what a refusal leaves.
-/

namespace Sys2Proof.Machine

/-! ### What a route reads -/

section Routes

variable {s t : State}

/-- The words that hold a die's route tables and the bits in use of them (R192 to R194). -/
def routeWord (a : Nat) : Prop := 0x1000000 ≤ a ∧ (a % 0x10000 < 0x4010 ∨ 0x5000 ≤ a % 0x10000)

theorem routeWord_c0 (d : Nat) {bank p n : Nat} (hb : bank ≤ 1) (hp : p < 64) (hn : n < 72) : routeWord (c0Addr d bank p n) := by
  have h : c0Addr d bank p n = 0x10000 * (0x100 + d) + (0x5000 + 0x1200 * bank + 72 * p + 4 * (n / 4)) := by
    rw [c0Addr_eq]
    omega
  unfold routeWord
  rw [h, Nat.mul_add_mod, Nat.mod_eq_of_lt (by omega)]
  omega

theorem State.walk_congr {cls part node : Nat} (hrd : ∀ a, routeWord a → t.rd a = s.rd a) (hdef : t.rtDef = s.rtDef) (hinv : t.inv = s.inv)
    (hp : part < 64) : ∀ fuel d h, t.walk cls part node fuel d h = s.walk cls part node fuel d h := by
  have hdie : ∀ d, t.dieUsable d = s.dieUsable d := fun d => by
    unfold State.dieUsable
    rw [hinv]
  have hentry : ∀ d, t.entryAt cls part d node = s.entryAt cls part d node := fun d => by
    unfold State.entryAt
    split
    next hn =>
      have hb : t.c0Bank d part = s.c0Bank d part := by
        unfold State.c0Bank State.bitOn
        rw [hrd _ (by split <;> simp only [routeWord, DIE_RT_C0BANK_LO, DIE_RT_C0BANK_HI] <;> omega)]
      unfold State.c0At
      rw [hb, hrd _ (routeWord_c0 d (show s.c0Bank d part ≤ 1 from b2n_le _) hp hn.2)]
    · have hg : t.get (DIE_RT_CTL_def_bank d) = s.get (DIE_RT_CTL_def_bank d) :=
        congrArg (fun w => bits w _ _) (hrd _ (by show routeWord (DIE_RT_CTL d); unfold routeWord DIE_RT_CTL; omega))
      rw [hg]
      exact State.defAt_congr (by rw [hdef]) node
  intro fuel
  induction fuel with
  | zero => exact fun _ _ => rfl
  | succ k ih =>
    intro d h
    have hhop : t.hop (s.entryAt cls part d node) d node h = s.hop (s.entryAt cls part d node) d node h := by
      unfold State.hop
      simp only [hdie]
    unfold State.walk
    rw [hentry, hhop]
    simp only [ih]

/-- A route of a packet of a partition depends on the tables and on the inventory alone. -/
theorem State.route_congr {cls part source node core : Nat} {o : Option Nat} (hrd : ∀ a, routeWord a → t.rd a = s.rd a)
    (hdef : t.rtDef = s.rtDef) (hinv : t.inv = s.inv) (hp : part < 64) :
    t.route cls part source node core o = s.route cls part source node core o := by
  have he : t.stewardEntry node = s.stewardEntry node := by
    unfold State.stewardEntry State.dieUsable
    rw [hinv]
  unfold State.route
  rw [State.walk_congr hrd hdef hinv hp, he]

end Routes

/-! ### A packet taken up -/

section Take

variable {s u : State} {k b : Nat} {pk : Packet} {kind : Kind}

theorem length_eraseAt {α : Type} {l : List α} {k : Nat} (h : k < l.length) : (eraseAt l k).length + 1 = l.length := by
  induction l generalizing k with
  | nil => cases h
  | cons a r ih =>
    cases k with
    | zero => rfl
    | succ k => exact congrArg (· + 1) (ih (Nat.lt_of_succ_lt_succ h))

theorem firstLeast_mem {f : Nat → Nat} {l : List Nat} {n : Nat} (h : firstLeast f l = some n) : n ∈ l := by
  induction l generalizing n with
  | nil => cases h
  | cons a r ih =>
    unfold firstLeast at h
    split at h
    · cases h
      exact List.mem_cons_self
    next b hb =>
      split at h
      · cases h
        exact List.mem_cons_of_mem _ (ih hb)
      · cases h
        exact List.mem_cons_self

/-- An arbiter picks one of those that wait (R390). -/
theorem State.pick_mem {arb n : Nat} {share : Nat → Nat} {l : List Nat} (h : s.pick arb share l = some n) : n ∈ l := by
  unfold State.pick at h
  dsimp only at h
  split at h
  · unfold State.pickRotor at h
    split at h
    · exact List.mem_of_mem_head? h
    · split at h
      next m hm =>
        cases h
        exact List.mem_of_find?_eq_some hm
      · exact List.mem_of_mem_head? h
  · unfold State.pickShared at h
    have hm := firstLeast_mem h
    split at hm
    · exact List.mem_of_mem_filter hm
    · exact List.mem_of_mem_filter (List.mem_of_mem_filter hm)

theorem mem_clearOf {l before : List (Nat × Packet)} {x : Nat × Packet} (h : x ∈ clearOf before l) : x ∈ l := by
  induction l generalizing before with
  | nil => cases h
  | cons a r ih =>
    unfold clearOf at h
    rcases List.mem_append.1 h with h | h
    · split at h
      · cases h
      · rw [List.mem_singleton.1 h]
        exact List.mem_cons_self
    · exact List.mem_cons_of_mem _ (ih h)

theorem mem_insertDue {l : List (Nat × Packet)} {x y : Nat × Packet} (h : y ∈ insertDue l x) : y = x ∨ y ∈ l := by
  induction l with
  | nil => exact .inl (List.mem_singleton.1 h)
  | cons a r ih =>
    unfold insertDue at h
    split at h
    · exact List.mem_cons.1 h
    · rcases List.mem_cons.1 h with rfl | h
      · exact .inr List.mem_cons_self
      · rcases ih h with h | h
        · exact .inl h
        · exact .inr (List.mem_cons_of_mem _ h)

/-- What a Bay has queued is on its way in the network. -/
theorem State.bayQueue_mem {t : Nat} {x : Nat × Packet} (h : x ∈ s.bayQueue b t) : s.net[x.1]? = some x.2 := by
  have hq : x ∈ (((List.range s.net.length).zip s.net).filter (fun x =>
      x.2.node == 72 + b && decide (x.2.due ≤ t) && !x.2.late && s.mayPass false (bayDie b) x.2)).foldl insertDue [] :=
    List.mem_of_mem_filter h
  have key : ∀ (l m : List (Nat × Packet)), x ∈ l.foldl insertDue m → x ∈ l ∨ x ∈ m := by
    intro l
    induction l with
    | nil => exact fun m h => .inr h
    | cons a r ih =>
      intro m h
      rcases ih _ h with h | h
      · exact .inl (List.mem_cons_of_mem _ h)
      · rcases mem_insertDue h with rfl | h
        · exact .inl List.mem_cons_self
        · exact .inr h
  rcases key _ _ hq with h | h
  · exact mem_range_zip.1 (List.mem_of_mem_filter h)
  · cases h

/-- A grant moves the arbiter's turns alone (R390). -/
theorem State.granted_shape (s : State) (arb : Nat) (share : Nat → Nat) (l : List Nat) (n : Nat) :
    ∃ r t, s.granted arb share l n = { s with rotors := r, turns := t } := by
  unfold State.granted
  split
  · exact ⟨_, s.turns, rfl⟩
  · refine each_keeps (fun u => ∃ r t, u = { s with rotors := r, turns := t }) (fun m u h => ?_) _ _ ⟨s.rotors, s.turns, rfl⟩
    obtain ⟨r, t, rfl⟩ := h
    dsimp only
    split
    · exact ⟨r, _, rfl⟩
    · split
      · exact ⟨r, t, rfl⟩
      · exact ⟨r, _, rfl⟩

/-- What a Bay serves next is of a partition, and the grant moves turns alone (R203, R390). -/
theorem State.bayNext_shape {t j : Nat} {v : State} (h : s.bayNext b t = some (j, v)) :
    ∃ r y x, v = { s with rotors := r, turns := y, classTurn := x } ∧ ∀ p, s.net[j]? = some p → p.part < 64 := by
  unfold State.bayNext at h
  dsimp only at h
  split at h
  · cases h
  next n hn =>
    rw [Option.map_eq_some_iff] at h
    obtain ⟨⟨i, p⟩, hfind, heq⟩ := h
    cases heq
    obtain ⟨r, y, hg⟩ := s.granted_shape (bayArbiter b) s.bayShare
      ((List.range 64).filter fun n => (clearOf [] (s.bayQueue b t)).any fun x => x.2.part == n) n
    have hx : ∀ (w : State) key cls both, ∃ x, w.classGrant key cls both = { w with classTurn := x } := fun _ _ _ _ => ⟨_, rfl⟩
    obtain ⟨x, hx⟩ := hx { s with rotors := r, turns := y } _ _ _
    refine ⟨r, y, x, ?_, fun q hq => ?_⟩
    · rw [hg]
      exact hx
    · have hm := List.mem_of_find?_eq_some hfind
      obtain ⟨hc, hpart⟩ := List.mem_filter.1 hm
      have hnet := State.bayQueue_mem (mem_clearOf hc)
      have hn64 := List.mem_range.1 (List.mem_of_mem_filter (State.pick_mem hn))
      have hqp : q = p := Option.some.inj (hq.symm.trans hnet)
      rw [hqp]
      exact (beq_iff_eq.1 hpart).symm ▸ hn64

/-- What a Bay takes up: a packet of a partition that has come to it, gone from the network (R203). -/
theorem State.bayTake_shape (h : s.bayTake k kind = some (u, b, pk)) :
    (u.net = eraseAt s.net k ∧ u.ctl = s.ctl ∧ u.bays = s.bays ∧ u.reports = s.reports ∧ u.rtDef = s.rtDef ∧ u.inv = s.inv) ∧
      s.net[k]? = some pk ∧ pk.kind = kind ∧ b < 18 ∧ pk.part < 64 := by
  unfold State.bayTake at h
  split at h
  · cases h
  next p hp =>
    dsimp only at h
    split at h
    next hif =>
      simp only [Bool.and_eq_true, beq_iff_eq, decide_eq_true_eq] at hif
      obtain ⟨⟨⟨hkind, hnode⟩, -⟩, -⟩ := hif
      split at h
      next j v hn =>
        split at h
        next hj =>
          cases h
          obtain ⟨r, t, x, hv, hpart⟩ := State.bayNext_shape hn
          rw [hj] at hpart
          refine ⟨?_, hp, hkind, by omega, hpart _ hp⟩
          rw [hv]
          exact ⟨rfl, rfl, rfl, rfl, rfl, rfl⟩
        · cases h
      · cases h
    · cases h

end Take

end Sys2Proof.Machine

/-!
The Bays at work, continued: budgets and counts of their ports, the rows stored and the refusals (R189, R190, R203 to R212).
-/

namespace Sys2Proof.Machine

/-! ### Ports -/

section Ports

variable {γ : Type} {g : State → γ} {s : State}

/-- The words in which a die counts the rows and the held cycles of its ports (R199). -/
def portWord (a : Nat) : Prop := 0x1000000 ≤ a ∧ 0x4300 ≤ a % 0x10000 ∧ a % 0x10000 < 0x4330

theorem portWord_not_route {a : Nat} (h : routeWord a) : ¬ portWord a := by
  unfold routeWord at h
  unfold portWord
  omega

theorem portWord_not_low {a : Nat} (h : a < 0x1000000) : ¬ portWord a := fun hp => by
  unfold portWord at hp
  omega

/-- What neither the credits of the ports nor their counts have a part in. -/
structure Portless (g : State → γ) : Prop where
  wr : ∀ (t : State) a w, portWord a → g (t.wr a w) = g t
  strike : ∀ (t : State) a f, g (t.strike a f) = g t
  credits : ∀ (t : State) l, g { t with credits := l } = g t
  overAt : ∀ (t : State) l, g { t with overAt := l } = g t

theorem Portless.bump (h : Portless g) (t : State) {f : FieldRef} (n : Nat) (hf : portWord f.addr) : g (t.bump f n) = g t :=
  (h.strike _ _ _).trans (h.wr _ _ _ hf)

theorem Portless.portRows (h : Portless g) (t : State) (link : Bool) (d n : Nat) : g (t.portRows link d n) = g t := by
  refine h.bump t n ?_
  cases link
  · show portWord (DIE_EDGE_ROWS_BAY d)
    unfold portWord DIE_EDGE_ROWS_BAY
    omega
  · show portWord (DIE_EDGE_ROWS_LINK d)
    unfold portWord DIE_EDGE_ROWS_LINK
    omega

theorem Portless.countPort (h : Portless g) (t : State) (port : Nat) : g (t.countPort port) = g t := by
  unfold State.countPort
  dsimp only
  rw [h.overAt]
  split
  · refine h.bump t _ ?_
    split
    · show portWord (DIE_EDGE_BP_BAY port)
      unfold portWord DIE_EDGE_BP_BAY
      omega
    · show portWord (DIE_EDGE_BP_LINK (port - 72))
      unfold portWord DIE_EDGE_BP_LINK
      omega
  · rfl

theorem portWord_overReg (link : Bool) (d part : Nat) : portWord (overReg link d part) := by
  unfold overReg
  split
  · split
    · unfold portWord DIE_EDGE_OVER_LINK_LO
      omega
    · unfold portWord DIE_EDGE_OVER_LINK_HI
      omega
  · split
    · unfold portWord DIE_EDGE_OVER_BAY_LO
      omega
    · unfold portWord DIE_EDGE_OVER_BAY_HI
      omega

theorem Portless.setCredit (h : Portless g) (t : State) (port part : Nat) (c : Int) : g (t.setCredit port part c) = g t := by
  unfold State.setCredit
  dsimp only
  rw [h.countPort]
  split
  · exact (h.strike _ _ _).trans ((h.wr _ _ _ (portWord_overReg _ _ _)).trans (h.credits _ _))
  · exact h.credits _ _

theorem Portless.bayCharge (h : Portless g) (t : State) (b n : Nat) (pk : Packet) : g (t.bayCharge b n pk) = g t := by
  unfold State.bayCharge
  split
  · rfl
  · exact h.setCredit _ _ _ _

theorem portless_rd {a : Nat} (ha : ¬ portWord a) : Portless (fun t => t.rd a) where
  wr t b w hb := (t.rd_wr b w a).trans (if_neg (by rintro rfl; exact ha hb))
  strike _ _ _ := rfl
  credits _ _ := rfl
  overAt _ _ := rfl

/-- The state but for its control words, its credits and its packets. -/
theorem portless_rest : Portless (fun t => (t.bays, t.reports, t.net, t.rtDef, t.inv)) where
  wr _ _ _ _ := rfl
  strike _ _ _ := rfl
  credits _ _ := rfl
  overAt _ _ := rfl

end Ports

/-! ### Packets injected -/

section Inject

variable {γ : Type} {s : State}

/-- What an injected packet, on its way or lost, has no part in. -/
theorem State.inject_same {g : State → γ} (hnet : ∀ (t : State) m l, g { t with lanes := m, net := l } = g t)
    (hrep : ∀ (t : State) r, g (t.report r) = g t) (hreg : ∀ (t u : State) d, t.onlyRegs u (dropWords d) → g u = g t)
    (s : State) (p : Packet) (t : Nat) : g (s.inject p t) = g s := by
  cases h : s.route p.cls p.part p.source p.node p.core p.enter with
  | ok dies =>
    obtain ⟨m, path, seqs, he⟩ := State.inject_ok (t := t) h
    rw [he]
    exact hnet _ _ _
  | lost d =>
    have he : s.inject p t = s.netDrop d 3 p := by
      unfold State.inject
      rw [h]
    obtain ⟨u, r, hd, hu, -⟩ := s.netDrop_eq (d := d) (k := 3) (by omega) p
    rw [he, hd, hrep]
    exact hreg _ _ _ hu

theorem State.inject_bays (s : State) (p : Packet) (t : Nat) : (s.inject p t).bays = s.bays :=
  State.inject_same (g := State.bays) (fun _ _ _ => rfl) (fun _ _ => rfl) (fun _ _ _ h => by rw [h.1]) s p t

theorem State.inject_rd (s : State) (p : Packet) (t : Nat) {a : Nat} (h : ∀ e, a ∉ dropWords e) : (s.inject p t).rd a = s.rd a :=
  State.inject_same (g := fun u => u.rd a) (fun _ _ _ => rfl) (fun _ _ => rfl) (fun _ _ d hu => hu.2 a (h d)) s p t

/-- A lost packet may add a report of its own. -/
theorem State.inject_reports (s : State) (p : Packet) (t : Nat) : ∃ l, (s.inject p t).reports = s.reports ++ l := by
  cases h : s.route p.cls p.part p.source p.node p.core p.enter with
  | ok dies =>
    obtain ⟨m, path, seqs, he⟩ := State.inject_ok (t := t) h
    exact ⟨[], by rw [he, List.append_nil]⟩
  | lost d =>
    have he : s.inject p t = s.netDrop d 3 p := by
      unfold State.inject
      rw [h]
    obtain ⟨u, r, hd, hu, -⟩ := s.netDrop_eq (d := d) (k := 3) (by omega) p
    have hr : u.reports = s.reports := by rw [hu.1]
    exact ⟨[r], by rw [he, hd, State.report_reports, hr]⟩

/-- A refusal at a Bay: counted and recorded with `y`, reported as `r`, and a notice on its way where a core sent the packet (R212). -/
theorem State.bayRefuse_shape (s : State) (b cause : Nat) (pk : Packet) (write : Bool) :
    ∃ (y : Nat) (r : Report), r.cls = 8 ∧ r.unit = b ∧ r.detail = 8 + cause ∧
      (s.bayRefuse b cause pk write = ((s.bump (BAY_REFUSE_count b) 1).recordFirst (BAY_REFUSE_LAST b) y).report r ∨
        ∃ n, s.bayRefuse b cause pk write = (((s.bump (BAY_REFUSE_count b) 1).recordFirst (BAY_REFUSE_LAST b) y).report r).inject n s.cycle) := by
  unfold State.bayRefuse
  dsimp only
  generalize cause * 2 ^ 28 + pk.part * 2 ^ 22 + b2n write * 2 ^ 21 + pk.page % 2 ^ 16 = y
  generalize decide (pk.source ≠ 0x3FFF) = core
  generalize s.logicalOf pk.part pk.source = l
  refine ⟨y, ⟨8, s.tick, some pk.part, none, b, if core then l else none, 8 + cause, pk.page, false⟩, rfl, rfl, rfl, ?_⟩
  cases hc : core
  · exact .inl (if_neg Bool.false_ne_true)
  · exact .inr ⟨_, if_pos rfl⟩

/-- A refusal at a Bay: reported, counted, and nothing of the Bays changed (R212). -/
theorem State.bayRefuse_shows (s : State) (b cause : Nat) (pk : Packet) (write : Bool) :
    (∃ r l, (s.bayRefuse b cause pk write).reports = s.reports ++ r :: l ∧ r.cls = 8 ∧ r.unit = b ∧ r.detail = 8 + cause) ∧
      (s.bayRefuse b cause pk write).bays = s.bays ∧
      (b < 18 → (s.bayRefuse b cause pk write).get (BAY_REFUSE_count b) = satAdd 32 (s.get (BAY_REFUSE_count b)) 1) := by
  obtain ⟨y, r, h8, hunit, hdet, he⟩ := s.bayRefuse_shape b cause pk write
  have hreg : s.onlyRegs ((s.bump (BAY_REFUSE_count b) 1).recordFirst (BAY_REFUSE_LAST b) y) [BAY_REFUSE b, BAY_REFUSE_LAST b] :=
    ((s.onlyRegs_refl _).bump).recordFirst (.tail _ (.head _))
  have hget : ((s.bump (BAY_REFUSE_count b) 1).recordFirst (BAY_REFUSE_LAST b) y).get (BAY_REFUSE_count b) =
      satAdd 32 (s.get (BAY_REFUSE_count b)) 1 := by
    have h1 := (((s.bump (BAY_REFUSE_count b) 1).onlyRegs_refl [BAY_REFUSE_LAST b]).recordFirst (v := y)).2 (BAY_REFUSE b)
      (by simp [BAY_REFUSE, BAY_REFUSE_LAST])
    exact (congrArg (fun w => bits w _ _) h1).trans (s.get_bump 1)
  generalize (s.bump (BAY_REFUSE_count b) 1).recordFirst (BAY_REFUSE_LAST b) y = u at hreg hget he
  have hr : u.reports = s.reports := by rw [hreg.1]
  have hb : u.bays = s.bays := by rw [hreg.1]
  rcases he with he | ⟨n, he⟩ <;> rw [he]
  · exact ⟨⟨r, [], by rw [State.report_reports, hr], h8, hunit, hdet⟩, (State.report_bays _ _).trans hb, fun _ => (State.report_get _ _ _).trans hget⟩
  · refine ⟨?_, (State.inject_bays _ _ _).trans ((State.report_bays _ _).trans hb), fun h18 => ?_⟩
    · obtain ⟨l, hl⟩ := State.inject_reports (u.report r) n s.cycle
      refine ⟨r, l, ?_, h8, hunit, hdet⟩
      rw [hl, State.report_reports, hr, List.append_assoc]
      rfl
    · have hrd := State.inject_rd (u.report r) n s.cycle (not_mem_dropWords (a := BAY_REFUSE b) (by unfold BAY_REFUSE; omega))
      exact (congrArg (fun w => bits w _ _) hrd).trans ((State.report_get _ _ _).trans hget)

end Inject

end Sys2Proof.Machine

namespace Sys2Proof.Machine

/-! ### Rows of a Bay written and read back -/

section BayRows

theorem byteAt_succ (n i : Nat) : byteAt n (i + 1) = byteAt (n / 256) i := by
  unfold byteAt field
  rw [Nat.shiftRight_eq_div_pow, Nat.shiftRight_eq_div_pow, Nat.div_div_eq_div_mul, Nat.mul_add, Nat.pow_add, Nat.mul_comm]

/-- The bytes of a number, put together again. -/
theorem ofBytes_byteAt (k n : Nat) : ofBytes ((List.range k).map fun i => BitVec.ofNat 8 (byteAt n i)) = n % 2 ^ (8 * k) := by
  induction k generalizing n with
  | zero => exact (Nat.mod_one n).symm
  | succ k ih =>
    have htail : ((List.range k).map fun i => BitVec.ofNat 8 (byteAt n (i + 1))) =
        (List.range k).map fun i => BitVec.ofNat 8 (byteAt (n / 256) i) := by
      simp only [byteAt_succ]
    have hhead : (BitVec.ofNat 8 (byteAt n 0)).toNat = n % 256 := by
      unfold byteAt field
      exact (BitVec.toNat_ofNat _ _).trans (Nat.mod_mod _ _)
    rw [List.range_succ_eq_map, List.map_cons, List.map_map, ofBytes, hhead]
    show n % 256 + 256 * ofBytes ((List.range k).map fun i => BitVec.ofNat 8 (byteAt n (i + 1))) = _
    rw [htail, ih, Nat.mul_succ, Nat.add_comm (8 * k) 8, Nat.pow_add, Nat.mod_mul]

theorem ofNat_ofBytes (k n : Nat) : BitVec.ofNat (8 * k) (ofBytes ((List.range k).map fun i => BitVec.ofNat 8 (byteAt n i))) = BitVec.ofNat (8 * k) n := by
  rw [ofBytes_byteAt]
  exact BitVec.eq_of_toNat_eq (by rw [BitVec.toNat_ofNat, BitVec.toNat_ofNat, Nat.mod_mod])

/-- A row of a Bay reads as it was written, the other rows as before (R203). -/
theorem bayRow_setRow (y : Bay) (page row p r : Nat) (d : Row) (hrow : row < 32768) (hr : r < 32768) :
    bayRow (y.setRow page row d) p r = if p = page ∧ r = row then d else bayRow y p r := by
  unfold bayRow
  split
  next h =>
    rw [h.1, h.2]
    have hbytes : ((List.range 64).map fun i => padByte (y.setRow page row d).mem (2097152 * page + 64 * row + i)) =
        (List.range 64).map fun i => BitVec.ofNat 8 (byteAt d.toNat i) := by
      refine List.map_congr_left fun i hi => ?_
      have := List.mem_range.1 hi
      rw [Bay.padByte_setRow, if_pos (by omega), Nat.add_sub_cancel_left]
    rw [hbytes]
    exact (ofNat_ofBytes 64 d.toNat).trans ((BitVec.ofNat_toNat _ _).trans (BitVec.setWidth_eq d))
  next h =>
    have hbytes : ((List.range 64).map fun i => padByte (y.setRow page row d).mem (2097152 * p + 64 * r + i)) =
        (List.range 64).map fun i => padByte y.mem (2097152 * p + 64 * r + i) := by
      refine List.map_congr_left fun i hi => ?_
      have := List.mem_range.1 hi
      rw [Bay.padByte_setRow, if_neg (by omega)]
    rw [hbytes]

end BayRows

/-! ### Requests served -/

section Serve

variable {s u : State} {k b : Nat} {pk : Packet}

theorem State.bayEcc_unmarked (h : (s.bay b).marks = []) (page row : Nat) (patrol : Bool) (o : Option Nat) :
    s.bayEcc b page row patrol o = s := by
  unfold State.bayEcc
  dsimp only
  rw [h]
  rfl

theorem State.bayRows_unmarked (h : (s.bay b).marks = []) (page : Nat) (rows : List Nat) (o : Option Nat) :
    s.bayRows b page rows o = (s.bump (BAY_ROWS_RD_count b) rows.length).portRows false (bayDie b) rows.length := by
  have he : each (fun r (t : State) => t.bayEcc b page r false o) rows s = s := by
    induction rows with
    | nil => rfl
    | cons a r ih =>
      unfold each
      rw [State.bayEcc_unmarked h]
      exact ih
  unfold State.bayRows
  rw [he]

theorem State.bay_of_bays {v : State} (h : v.bays = s.bays) (b : Nat) : v.bay b = s.bay b := by
  unfold State.bay
  rw [h]

/-- Rows counted at a Bay and at its port (R199, R226). -/
theorem State.countRows_shape (v : State) {b : Nat} (hb : b < 18) (n : Nat) :
    ∃ w : State, (v.bump (BAY_ROWS_RD_count b) n).portRows false (bayDie b) n = w ∧
      (w.bays = v.bays ∧ w.net = v.net ∧ w.rtDef = v.rtDef ∧ w.inv = v.inv) ∧
      (∀ a, a ≠ BAY_ROWS_RD b → ¬ portWord a → w.rd a = v.rd a) ∧
      w.get (BAY_ROWS_RD_count b) = satAdd (BAY_ROWS_RD_count b).len (v.get (BAY_ROWS_RD_count b)) n := by
  have hreg := (v.onlyRegs_refl [BAY_ROWS_RD b]).bump (f := BAY_ROWS_RD_count b) (n := n)
  have hget := v.get_bump (f := BAY_ROWS_RD_count b) n
  generalize v.bump (BAY_ROWS_RD_count b) n = u at hreg hget
  have hport := portless_rest.portRows u false (bayDie b) n
  have hrd : ∀ a, ¬ portWord a → (u.portRows false (bayDie b) n).rd a = u.rd a := fun a ha => (portless_rd ha).portRows _ _ _ _
  generalize u.portRows false (bayDie b) n = w at hport hrd
  obtain ⟨ebays, -, enet, edef, einv⟩ := by simpa only [Prod.mk.injEq] using hport
  obtain ⟨hu, hkeep⟩ := hreg
  have hrow : ¬ portWord (BAY_ROWS_RD b) := portWord_not_low (by unfold BAY_ROWS_RD; omega)
  exact ⟨w, rfl, ⟨ebays.trans (by rw [hu]), enet.trans (by rw [hu]), edef.trans (by rw [hu]), einv.trans (by rw [hu])⟩,
    fun a ha hp => (hrd a hp).trans (hkeep a (by simpa using ha)), (congrArg (fun y => bits y _ _) (hrd _ hrow)).trans hget⟩

/-- What charges a partition for a packet leaves of the rest (R189, R190). -/
theorem State.bayTake_charged {kind : Kind} {n : Nat} (htake : s.bayTake k kind = some (u, b, pk)) :
    ∃ v : State, u.bayCharge b n pk = v ∧ (v.bays = s.bays ∧ v.reports = s.reports ∧ v.net = eraseAt s.net k ∧ v.rtDef = s.rtDef ∧ v.inv = s.inv) ∧
      ∀ a, ¬ portWord a → v.rd a = s.rd a := by
  obtain ⟨⟨hnet, hctl, hbays, hrep, hdef, hinv⟩, -⟩ := State.bayTake_shape htake
  have hrest := portless_rest.bayCharge u b n pk
  have hrd : ∀ a, ¬ portWord a → (u.bayCharge b n pk).rd a = u.rd a := fun a ha => (portless_rd ha).bayCharge _ _ _ _
  generalize u.bayCharge b n pk = v at hrest hrd
  obtain ⟨ebays, erep, enet, edef, einv⟩ := by simpa only [Prod.mk.injEq] using hrest
  refine ⟨v, rfl, ⟨ebays.trans hbays, erep.trans hrep, enet.trans hnet, edef.trans hdef, einv.trans hinv⟩, fun a ha => (hrd a ha).trans ?_⟩
  unfold State.rd
  rw [hctl]

/-- A request that a Bay takes and does not refuse, nothing being marked: counted, and its rows answered (R203, R204). -/
theorem State.bayRead_served (htake : s.bayTake k .readReq = some (u, b, pk)) (href : (s.bay b).refuses pk false = none)
    (hm : (s.bay b).marks = []) :
    ∃ v : State, s.bayRead k [] = v.reply pk 0x3FFF (some (bayDie b)) (pk.pageRows.map fun r => some (bayRow (s.bay b) pk.page r)) v.cycle ∧
      (v.bays = s.bays ∧ v.net = eraseAt s.net k ∧ v.rtDef = s.rtDef ∧ v.inv = s.inv) ∧
      (∀ a, a ≠ BAY_ROWS_RD b → ¬ portWord a → v.rd a = s.rd a) ∧
      v.get (BAY_ROWS_RD_count b) = satAdd (BAY_ROWS_RD_count b).len (s.get (BAY_ROWS_RD_count b)) pk.pageRows.length := by
  obtain ⟨-, -, -, hb, -⟩ := State.bayTake_shape htake
  obtain ⟨v, hv, ⟨ebays, -, enet, edef, einv⟩, hrd⟩ := State.bayTake_charged (n := pk.rows + 1) htake
  have hbay : v.bay b = s.bay b := State.bay_of_bays ebays b
  have he : s.bayRead k [] = ((v.bump (BAY_ROWS_RD_count b) pk.pageRows.length).portRows false (bayDie b) pk.pageRows.length).reply pk 0x3FFF
      (some (bayDie b)) (pk.pageRows.map fun r => some (bayRow (s.bay b) pk.page r))
      ((v.bump (BAY_ROWS_RD_count b) pk.pageRows.length).portRows false (bayDie b) pk.pageRows.length).cycle := by
    unfold State.bayRead
    rw [htake]
    dsimp only
    rw [hv, hbay, href]
    dsimp only
    rw [State.bayUpset, if_pos rfl, State.bayRows_unmarked (by rw [hbay]; exact hm), hbay]
  obtain ⟨w, hw, ⟨wbays, wnet, wdef, winv⟩, wrd, wget⟩ := State.countRows_shape v hb pk.pageRows.length
  rw [hw] at he
  have hs : v.get (BAY_ROWS_RD_count b) = s.get (BAY_ROWS_RD_count b) :=
    congrArg (fun y => bits y _ _) (hrd _ (portWord_not_low (by show BAY_ROWS_RD b < _; unfold BAY_ROWS_RD; omega)))
  exact ⟨w, he, ⟨wbays.trans ebays, wnet.trans enet, wdef.trans edef, winv.trans einv⟩,
    fun a ha hp => (wrd a ha hp).trans (hrd a hp), by rw [wget, hs]⟩

/-- The rows of a reply, put into the network where the route back is whole (R204). -/
theorem State.reply_ok {source : Nat} {enter : Option Nat} {dies : List Nat} {rows : List (Option Row)} {t : Nat}
    (h : s.route pk.cls pk.part source (nodeOf pk.source) pk.source enter = .ok dies) :
    ∃ m new, s.reply pk source enter rows t = { s with lanes := m, net := s.net ++ new } ∧ new.length = rows.length ∧
      ∀ j (hj : j < rows.length), ∃ q ∈ new, q.kind = .readReply ∧ q.core = pk.source ∧ q.rows = rows.length - 1 - j ∧ q.data = (rows[j]).getD 0 := by
  obtain ⟨m, new, he, hlen, hmem⟩ := State.injects_ok (dies := dies) (hc := clusterHops source (nodeOf pk.source) pk.source)
    (fun x : Nat × Option Row =>
      { pk with
        kind := .readReply, source := source, node := nodeOf pk.source, core := pk.source, row := 0
        rows := rows.length - 1 - x.1, total := rows.length, data := x.2.getD 0, late := x.2.isNone, enter := enter })
    (fun x => t + 2 * x.1) ((List.range rows.length).zip rows) s fun _ _ => ⟨h, Kind.noConfusion, rfl⟩
  refine ⟨m, new, he, by simpa using hlen, fun j hj => ?_⟩
  obtain ⟨path, seqs, hq⟩ := hmem (j, rows[j]) (mem_range_zip.2 (List.getElem?_eq_getElem hj))
  exact ⟨_, hq, rfl, rfl, rfl, rfl⟩

end Serve

/-! ### Rows written -/

section Write

variable {s u : State} {k b : Nat} {pk : Packet}

/-- What the rows that an SWB reads late wait for is done by the accesses of a core. -/
theorem State.fresh_same {γ : Type} {g : State → γ} (h : ∀ (v : State) p t, g (v.settle p t) = g v) (n : Nat) (s : State) :
    g (State.fresh k n s) = g s := by
  induction n generalizing s with
  | zero => rfl
  | succ n ih =>
    unfold State.fresh
    split
    · split
      · exact (ih _).trans (h _ _ _)
      · rfl
    · rfl

theorem State.freshDue_same {γ : Type} {g : State → γ} (h : ∀ (v : State) p t, g (v.settle p t) = g v) (s : State) (k : Nat) :
    g (s.freshDue k) = g s := by
  unfold State.freshDue
  split
  · split
    · exact State.fresh_same h _ _
    · rfl
  · rfl

theorem State.freshDue_bays (s : State) (k : Nat) : (s.freshDue k).bays = s.bays :=
  State.freshDue_same (fun _ _ t => (Accessed.refl.settle t).bays) s k

theorem State.freshDue_rd (s : State) (k : Nat) {a : Nat} (hs : ∀ p, a ≠ DIE_CORE_SAT p) (he : a ≠ SAGE_EVT) :
    (s.freshDue k).rd a = s.rd a :=
  State.freshDue_same (g := fun v => v.rd a) (fun _ p t => (Accessed.refl.settle t).rd (hs p) he) s k

theorem State.bay_onBay_field {γ : Type} (f : Bay → γ) (v : State) (b : Nat) (h : Bay → Bay) (hf : f (h (v.bay b)) = f (v.bay b)) (c : Nat) :
    f ((v.onBay b h).bay c) = f (v.bay c) := by
  rw [State.bay_onBay]
  split
  next hc => rw [hc, hf]
  · rfl

/-- A row taken up by a Bay and charged: what decides about it (R204, R212). -/
theorem State.bayWrite_taken (htake : (s.freshDue k).bayTake k .bayWrite = some (u, b, pk)) :
    ∃ v : State, (u.bayCharge b 1 pk).portRows false (bayDie b) 1 = v ∧ v.bays = s.bays ∧ v.reports = (s.freshDue k).reports ∧
      v.get (BAY_REFUSE_count b) = s.get (BAY_REFUSE_count b) ∧ b < 18 := by
  obtain ⟨-, -, -, hb, -⟩ := State.bayTake_shape htake
  obtain ⟨v, hv, ⟨ebays, erep, -⟩, hrd⟩ := State.bayTake_charged (n := 1) htake
  have hlow : ¬ portWord (BAY_REFUSE b) := portWord_not_low (by unfold BAY_REFUSE; omega)
  have hport := portless_rest.portRows v false (bayDie b) 1
  have hprd := (portless_rd hlow).portRows v false (bayDie b) 1
  rw [hv]
  generalize v.portRows false (bayDie b) 1 = w at hport hprd
  obtain ⟨wbays, wrep, -⟩ := by simpa only [Prod.mk.injEq] using hport
  have hs := s.freshDue_rd k (a := BAY_REFUSE b) (fun p => by unfold BAY_REFUSE DIE_CORE_SAT; omega) (by unfold BAY_REFUSE SAGE_EVT; omega)
  refine ⟨w, rfl, wbays.trans (ebays.trans (s.freshDue_bays k)), wrep.trans erep, ?_, hb⟩
  exact congrArg (fun y => bits y _ _) (hprd.trans ((hrd _ hlow).trans hs))

theorem State.bayWrite_dead (htake : (s.freshDue k).bayTake k .bayWrite = some (u, b, pk)) (hdead : lookup? (s.bay b).dead pk.opKey ≠ none) :
    (s.bayWrite k).reports = (s.freshDue k).reports ∧ ∀ c, ((s.bayWrite k).bay c).mem = (s.bay c).mem := by
  obtain ⟨v, hv, vbays, vrep, -, -⟩ := State.bayWrite_taken htake
  obtain ⟨left, hleft⟩ := Option.ne_none_iff_exists'.1 hdead
  unfold State.bayWrite
  rw [htake]
  dsimp only
  rw [hv, State.bay_of_bays vbays, hleft]
  exact ⟨vrep, fun c => (State.bay_onBay_field Bay.mem _ _ _ rfl c).trans (by rw [State.bay_of_bays vbays])⟩

theorem State.bayWrite_refused {cause : Nat} (htake : (s.freshDue k).bayTake k .bayWrite = some (u, b, pk))
    (hdead : lookup? (s.bay b).dead pk.opKey = none) (href : (s.bay b).refuses pk true = some cause) :
    (∃ r l, (s.bayWrite k).reports = (s.freshDue k).reports ++ r :: l ∧ r.cls = 8 ∧ r.unit = b ∧ r.detail = 8 + cause) ∧
      (s.bayWrite k).get (BAY_REFUSE_count b) = satAdd 32 (s.get (BAY_REFUSE_count b)) 1 ∧
      ∀ c, ((s.bayWrite k).bay c).mem = (s.bay c).mem := by
  obtain ⟨v, hv, vbays, vrep, vget, hb⟩ := State.bayWrite_taken htake
  obtain ⟨f, hf, he⟩ : ∃ f : Bay → Bay, (f (v.bay b)).mem = (v.bay b).mem ∧ s.bayWrite k = (v.onBay b f).bayRefuse b cause pk true := by
    unfold State.bayWrite
    rw [htake]
    dsimp only
    rw [hv, State.bay_of_bays vbays, hdead]
    dsimp only
    rw [href]
    exact ⟨_, rfl, rfl⟩
  obtain ⟨⟨r, l, hr, hdet⟩, hbays, hget⟩ := (v.onBay b f).bayRefuse_shows b cause pk true
  have hor : (v.onBay b f).reports = v.reports := rfl
  have hog : (v.onBay b f).get (BAY_REFUSE_count b) = v.get (BAY_REFUSE_count b) := rfl
  rw [he]
  refine ⟨⟨r, l, by rw [hr, hor, vrep], hdet⟩, by rw [hget hb, hog, vget], fun c => ?_⟩
  rw [State.bay_of_bays hbays, State.bay_onBay_field Bay.mem _ _ _ hf, State.bay_of_bays vbays]

theorem State.bayStore_plain (hm : (s.bay b).move = none) (page row : Nat) (d : Row) (c : Nat) :
    ((s.bayStore b page row d).bay c).mem = if c = b then ((s.bay b).setRow page row d).mem else (s.bay c).mem := by
  have he : ((s.bayStore b page row d)).bays = (s.setBay b ((s.bay b).setRow page row d)).bays := by
    unfold State.bayStore
    dsimp only
    rw [hm]
    rfl
  rw [State.bay_of_bays he, State.bay_setBay]
  split <;> rfl

theorem State.bayWrite_stored (htake : (s.freshDue k).bayTake k .bayWrite = some (u, b, pk))
    (hdead : lookup? (s.bay b).dead pk.opKey = none) (href : (s.bay b).refuses pk true = none) (hmove : (s.bay b).move = none) (c : Nat) :
    ((s.bayWrite k).bay c).mem = if c = b then ((s.bay b).setRow pk.page (pk.row % 32768) pk.data).mem else (s.bay c).mem := by
  obtain ⟨v, hv, vbays, -, -, -⟩ := State.bayWrite_taken htake
  have hbay : ∀ c, v.bay c = s.bay c := State.bay_of_bays vbays
  have hst := State.bayStore_plain (s := v) (b := b) (by rw [hbay]; exact hmove) pk.page (pk.row % 32768) pk.data c
  rw [hbay, hbay] at hst
  rw [← hst]
  unfold State.bayWrite
  rw [htake]
  dsimp only
  rw [hv, hbay, hdead]
  dsimp only
  rw [href]
  dsimp only
  split
  · exact State.bay_onBay_field Bay.mem _ _ _ rfl c
  · rw [State.bay_of_bays (State.inject_bays _ _ _)]
    exact State.bay_onBay_field Bay.mem _ _ _ rfl c

theorem bayRow_mem {y z : Bay} (h : y.mem = z.mem) (page row : Nat) : bayRow y page row = bayRow z page row := by
  unfold bayRow
  rw [h]

end Write

/-- Settles O22. -/
theorem bayServesOrRefusesARow : Obligations.BayServesOrRefusesARow := by
  intro k b pk u s
  refine ⟨fun hops htake href hm hroute => runs_next rfl ?_, fun htake => ⟨fun hdead href hmove => runs_next rfl ?_,
    fun cause hdead href => runs_next rfl ?_, fun hdead => runs_next rfl (State.bayWrite_dead htake hdead)⟩⟩
  · obtain ⟨v, hv, ⟨vbays, vnet, vdef, vinv⟩, hrd, hget⟩ := State.bayRead_served htake href hm
    obtain ⟨⟨hnet, -⟩, hk, hkind, hb, hpart⟩ := State.bayTake_shape htake
    have hroute' : v.route pk.cls pk.part 0x3FFF (nodeOf pk.source) pk.source (some (bayDie b)) = .ok hops := by
      rw [State.route_congr (s := s) (fun a ha => hrd a (fun e => ?_) (portWord_not_route ha)) vdef vinv hpart]
      · exact hroute
      · rw [e] at ha
        unfold routeWord BAY_ROWS_RD at ha
        omega
    have hrows : pk.pageRows = (List.range (pk.rows + 1)).map fun j => (pk.row + j) % 32768 := if_pos hkind
    have hlen : pk.pageRows.length = pk.rows + 1 := by rw [hrows, List.length_map, List.length_range]
    obtain ⟨m, new, hrep, hnew, hmem⟩ := State.reply_ok (rows := pk.pageRows.map fun r => some (bayRow (s.bay b) pk.page r)) (t := v.cycle) hroute'
    have hcount : (s.bayRead k []).net = eraseAt s.net k ++ new ∧ (s.bayRead k []).bays = s.bays ∧
        (s.bayRead k []).get (BAY_ROWS_RD_count b) = v.get (BAY_ROWS_RD_count b) := by
      rw [hv, hrep]
      exact ⟨congrArg (· ++ new) vnet, vbays, rfl⟩
    obtain ⟨tnet, tbays, tget⟩ := hcount
    rw [List.length_map] at hnew
    refine ⟨?_, fun j hj => ?_, by rw [State.bay_of_bays tbays], by rw [tget, hget, hlen]⟩
    · have := length_eraseAt (List.getElem?_eq_some_iff.1 hk).1
      rw [tnet, List.length_append, hnew, hlen]
      omega
    · obtain ⟨q, hq, h1, h2, h3, h4⟩ := hmem j (by rw [List.length_map, hlen]; omega)
      refine ⟨q, tnet ▸ List.mem_append_right _ hq, h1, h2, h3.trans ?_, h4.trans ?_⟩
      · rw [List.length_map, hlen]
        omega
      · simp only [hrows, List.getElem_map, List.getElem_range, Option.getD_some]
  · have hmem := State.bayWrite_stored htake hdead href hmove
    have hrow := hmem b
    rw [if_pos rfl] at hrow
    have hlt : pk.row % 32768 < 32768 := Nat.mod_lt _ (by decide)
    refine ⟨?_, fun page row hne hr => ?_, fun c hc => (hmem c).trans (if_neg hc)⟩
    · rw [bayRow_mem hrow, bayRow_setRow _ _ _ _ _ _ hlt hlt, if_pos ⟨rfl, rfl⟩]
    · rw [bayRow_mem hrow, bayRow_setRow _ _ _ _ _ _ hlt hr, if_neg (by omega)]
  · obtain ⟨⟨r, l, hr, hdet⟩, hget, hmem⟩ := State.bayWrite_refused htake hdead href
    refine ⟨⟨r, ?_, hdet⟩, hget, hmem⟩
    rw [hr, List.take_append]
    simp

end Sys2Proof.Machine

/-!
Recipe requests, written means and the parts that reach the watch unit (R128 to R141).
-/

namespace Sys2Proof.Machine

section Watch

variable {s : State} {n st : Nat}

theorem State.at_of_le {t : Nat} (h : t ≤ s.cycle) : s.at t = s := by
  unfold State.at
  rw [if_neg (Nat.not_lt.2 h)]

theorem State.lt_tickEnd {t : Nat} (h : t ≤ s.cycle) : t < s.tickEnd := by
  unfold State.tickEnd
  omega

theorem State.set_shape (s : State) (f : FieldRef) (v : Nat) : ∃ c, s.set f v = { s with ctl := c } := ⟨_, rfl⟩

/-- A request of a recipe is in the stage's word and in the partition's list of ticks (R128). -/
theorem State.recipeRequest_shows {sel : Nat} (hsel : sel < 8) (t : State) (ht : s.recipeRequest n st sel = t) :
    t.get (PART_STG_REC_sel n st) = sel ∧ t.get (PART_STG_REC_req n st) = 1 ∧ lookupD 0 (t.part n).recReq st = s.tick ∧
      s.keeps t [PART_STG_REC n st] ∧ t = { s with ctl := t.ctl, parts := t.parts } := by
  have hkeep : s.keeps ((s.set (PART_STG_REC_sel n st) sel).setOn (PART_STG_REC_req n st) true) [PART_STG_REC n st] :=
    ((s.keeps_refl _).set).setOn
  have hreq := (s.set (PART_STG_REC_sel n st) sel).get_setOn (f := PART_STG_REC_req n st) true
  have hsel' := ((s.set (PART_STG_REC_sel n st) sel).get_setOn_apart (f := PART_STG_REC_req n st) (g := PART_STG_REC_sel n st) true).trans
    (s.get_set_of_lt (f := PART_STG_REC_sel n st) 3 hsel)
  obtain ⟨c, hc⟩ := s.set_shape (PART_STG_REC_sel n st) sel
  obtain ⟨c', hc'⟩ := State.set_shape { s with ctl := c } (PART_STG_REC_req n st) (b2n true)
  unfold State.recipeRequest at ht
  unfold State.setOn at hkeep hreq hsel' ht
  rw [hc, hc'] at hkeep hreq hsel' ht
  subst ht
  refine ⟨hsel', hreq, ?_, hkeep.same rfl, rfl⟩
  rw [State.part_onPart, if_pos rfl]
  exact (lookupD_put _ _ _ _ _).trans (if_pos rfl)

/-- A part that arrives: counted, and kept where it is still awaited (R130). -/
theorem State.partArrives_shows (q : Part130) (keep : Bool)
    (hkeep : (match (s.part q.part).stepOf q.beat with
      | some step => s.on (PART_NW_CTL_enable q.part) && decide ((s.part q.part).evaluated < q.beat) &&
          (s.occupied q.part step q.stage).testBit q.slot
      | none => false) = keep) :
    (s.partArrives q).watch = s.watch ∧
      (s.partArrives q).get (PART_STG_CLAMP_count q.part q.stage) =
        satAdd (PART_STG_CLAMP_count q.part q.stage).len (s.get (PART_STG_CLAMP_count q.part q.stage)) q.tally ∧
      (s.partArrives q).kept = (if keep then s.kept ++ [q] else s.kept) ∧ s.keeps (s.partArrives q) [PART_STG_CLAMP q.part q.stage] := by
  have hbump := s.get_bump (f := PART_STG_CLAMP_count q.part q.stage) q.tally
  have hreg : s.onlyRegs (s.bump (PART_STG_CLAMP_count q.part q.stage) q.tally) [PART_STG_CLAMP q.part q.stage] := (s.onlyRegs_refl _).bump
  unfold State.partArrives
  dsimp only
  obtain ⟨v, hv⟩ : ∃ v, s.bump (PART_STG_CLAMP_count q.part q.stage) q.tally = v := ⟨_, rfl⟩
  rw [hv] at hbump hreg ⊢
  obtain ⟨hshape, hk⟩ := hreg
  have hwatch : v.watch = s.watch := by rw [hshape]
  have hkept : v.kept = s.kept := by rw [hshape]
  cases hs : (s.part q.part).stepOf q.beat with
  | some step =>
    rw [hs] at hkeep
    dsimp only at hkeep ⊢
    rw [hkeep]
    split
    · exact ⟨hwatch, hbump, congrArg (· ++ [q]) hkept, hk⟩
    · exact ⟨hwatch, hbump, hkept, hk⟩
  | none =>
    rw [hs] at hkeep
    rw [if_neg (ne_true_of_eq_false hkeep.symm)]
    exact ⟨hwatch, hbump, hkept, hk⟩

end Watch

/-- Settles O34. -/
theorem recipesMeansAndPartsAreTaken : Obligations.RecipesMeansAndPartsAreTaken := by
  refine ⟨fun n st sel s hn hst hsel ho => runs_writeAt (congrArg Host.Outcome.next (if_pos ⟨hn, hst, hsel⟩)) ho
      (State.recipeRequest_shows hsel _ rfl),
    fun n st v s hn hst ho hbusy => runs_writeAt (congrArg Host.Outcome.next (if_pos ⟨hn, hst⟩)) ho ?_,
    fun k q s hq hdue hpart hstage => runs_next rfl ?_⟩
  · unfold State.writeMean
    rw [hbusy, if_neg Bool.false_ne_true]
    split
    · refine ⟨?_, rfl⟩
      rw [State.part_onPart, if_pos rfl]
      rfl
    · exact ⟨(s.rd_wr _ _ _).trans (if_pos rfl), (s.onlyRegs_refl _).wr⟩
  · unfold State.nwArrive
    rw [hq]
    dsimp only
    rw [if_pos (State.lt_tickEnd hdue), State.at_of_le hdue]
    exact State.partArrives_shows (s := { s with watch := eraseAt s.watch k }) q _ rfl

end Sys2Proof.Machine

/-!
Frames on their way out: what a port that sends leaves of the rest (R390, R433, R437).
-/

namespace Sys2Proof.Machine

/-- The state `t` differs from `s` in its ports, its connections, what it has sent and the turns of its arbiters alone. -/
def State.onlyLinks (s t : State) : Prop :=
  t = { s with ports := t.ports, conns := t.conns, outbox := t.outbox, rotors := t.rotors, turns := t.turns, classTurn := t.classTurn }

namespace State.onlyLinks

variable {s t u : State}

theorem refl (s : State) : s.onlyLinks s := rfl

theorem trans (h : s.onlyLinks t) (h' : t.onlyLinks u) : s.onlyLinks u := by
  unfold State.onlyLinks at *
  rw [h', h]

theorem same {γ : Type} {g : State → γ} (h : s.onlyLinks t)
    (hg : ∀ P C O R T X, g { s with ports := P, conns := C, outbox := O, rotors := R, turns := T, classTurn := X } = g s) : g t = g s := by
  rw [h]
  exact hg _ _ _ _ _ _

theorem rd (h : s.onlyLinks t) (a : Nat) : t.rd a = s.rd a := h.same (g := fun v => v.rd a) fun _ _ _ _ _ _ => rfl

theorem port (h : s.onlyLinks t) (p : Nat) (x : Port) : s.onlyLinks (t.setPort p x) := h.trans rfl

theorem conn (h : s.onlyLinks t) (p m : Nat) (c : Conn) : s.onlyLinks (t.setConn p m c) := h.trans rfl

theorem emit (h : s.onlyLinks t) (e : Emission) : s.onlyLinks (t.emit e) := h.trans rfl

theorem granted (h : s.onlyLinks t) (arb : Nat) (share : Nat → Nat) (l : List Nat) (n : Nat) : s.onlyLinks (t.granted arb share l n) := by
  obtain ⟨r, y, he⟩ := t.granted_shape arb share l n
  rw [he]
  exact h.trans rfl

theorem classGrant (h : s.onlyLinks t) (key cls : Nat) (both : Bool) : s.onlyLinks (t.classGrant key cls both) := h.trans rfl

theorem nextFrame {p i : Nat} {v : State} (h : s.onlyLinks t) (hn : t.nextFrame p = some (i, v)) : s.onlyLinks v := by
  unfold State.nextFrame at hn
  dsimp only at hn
  split at hn
  · cases hn
    exact h
  · split at hn
    · cases hn
    · rw [Option.map_eq_some_iff] at hn
      obtain ⟨x, -, he⟩ := hn
      cases he
      split
      · exact h.granted _ _ _ _
      · exact (h.granted _ _ _ _).classGrant _ _ _

theorem depart (h : s.onlyLinks t) (p : Nat) (q : Queued) : s.onlyLinks (t.depart p q) := by
  unfold State.depart
  split
  · exact h.emit _
  · split
    · exact h
    · split
      · exact h.conn _ _ _
      · exact (h.conn _ _ _).emit _

theorem drain (p fuel : Nat) (h : s.onlyLinks t) : s.onlyLinks (State.drain p fuel t) := by
  induction fuel generalizing t with
  | zero => exact h
  | succ n ih =>
    unfold State.drain
    split
    · exact h
    next i v hn =>
      split
      · exact h.nextFrame hn
      · exact ih (((h.nextFrame hn).port _ _).depart _ _)

theorem send (h : s.onlyLinks t) (p : Nat) (q : Queued) : s.onlyLinks (t.send p q) := (h.port p _).drain p _

theorem wire (h : s.onlyLinks t) (p : Nat) (f : Frame) : s.onlyLinks (t.wire p f) := h.send _ _

theorem sendSeq (h : s.onlyLinks t) (p m : Nat) (f : Frame) : s.onlyLinks (t.sendSeq p m f) := by
  unfold State.sendSeq
  split
  · exact h
  · exact h.send _ _

theorem sendAck (h : s.onlyLinks t) (p m : Nat) (nak : Bool) : s.onlyLinks (t.sendAck p m nak) := by
  unfold State.sendAck
  split
  · exact h
  · exact (h.conn _ _ _).wire _ _

theorem sendTo (h : s.onlyLinks t) (m kind part word : Nat) (payload : List Byte) : s.onlyLinks (t.sendTo m kind part word payload).1 := by
  unfold State.sendTo
  split
  · exact h
  · exact h.sendSeq _ _ _

theorem sendHello (h : s.onlyLinks t) (p : Nat) : s.onlyLinks (t.sendHello p) := h.wire _ _

theorem sendHeld (h : s.onlyLinks t) (p m fuel : Nat) : s.onlyLinks (t.sendHeld p m fuel) := by
  induction fuel generalizing t with
  | zero => exact h
  | succ n ih =>
    unfold State.sendHeld
    split
    · exact h
    · split
      · split
        · exact h
        · exact ih ((h.conn _ _ _).send _ _)
      · exact h

end State.onlyLinks

end Sys2Proof.Machine

/-!
Virtual functions and their resets (R398 to R401).
-/

namespace Sys2Proof.Machine

section Resets

variable (s : State) (n : Nat) (hard : Bool)

theorem State.bitOn_of_rd {s t : State} {a : Nat} (h : t.rd a = s.rd a) (i : Nat) : t.bitOn a i = s.bitOn a i :=
  congrArg (fun w => w.getLsbD i) h

theorem State.on_of_rd {s t : State} {f : FieldRef} (h : t.rd f.addr = s.rd f.addr) : t.on f = s.on f :=
  congrArg (fun w => bits w f.lo f.len != 0) h

theorem State.get_of_rd {s t : State} {f : FieldRef} (h : t.rd f.addr = s.rd f.addr) : t.get f = s.get f :=
  congrArg (fun w => bits w f.lo f.len) h

theorem State.on_of_get {s : State} {f : FieldRef} (h : s.get f = 1) : s.on f = true := by
  unfold State.on
  rw [h]
  rfl

/-- A reset asked for touches the reset's own words alone (R392, R393). -/
theorem State.askReset_onlyRegs : s.onlyRegs (s.askReset n hard) [PART_RST n, PART_RST_TICK n, PART_RST_CNT n] := by
  have h := s.onlyRegs_refl [PART_RST n, PART_RST_TICK n, PART_RST_CNT n]
  have hh : s.onlyRegs (s.setOn (PART_RST_hard n) true) [PART_RST n, PART_RST_TICK n, PART_RST_CNT n] := h.setOn
  unfold State.askReset
  dsimp only
  split
  · split
    · split
      · exact hh.bump (.tail _ (.tail _ (.head _)))
      · split
        · exact hh
        · exact hh.bump (.tail _ (.tail _ (.head _)))
    · exact h
  · refine State.onlyRegs.set ?_ (.tail _ (.head _))
    split
    · exact (h.setOn (f := PART_RST_busy n)).setOn (f := PART_RST_hard n)
    · exact (h.setOn (f := PART_RST_busy n)).setOn (f := PART_RST_soft n)

/-- A reset that is asked for is busy. -/
theorem State.askReset_busy : (s.askReset n hard).on (PART_RST_busy n) = true := by
  have hcnt : ∀ (t : State) (f : FieldRef) v, f.addr = PART_RST_CNT n → (t.bump f v).on (PART_RST_busy n) = t.on (PART_RST_busy n) := fun t f v hf =>
    State.on_of_rd (((t.onlyRegs_refl [f.addr]).bump (f := f)).2 _ (by
      rw [hf]
      show PART_RST n ∉ _
      unfold PART_RST PART_RST_CNT
      simp))
  have hhard : ∀ (t : State), (t.setOn (PART_RST_hard n) true).on (PART_RST_busy n) = t.on (PART_RST_busy n) := fun t =>
    congrArg (· != 0) (t.get_setOn_apart (f := PART_RST_hard n) (g := PART_RST_busy n) true)
  have hsoft : ∀ (t : State), (t.setOn (PART_RST_soft n) true).on (PART_RST_busy n) = t.on (PART_RST_busy n) := fun t =>
    congrArg (· != 0) (t.get_setOn_apart (f := PART_RST_soft n) (g := PART_RST_busy n) true)
  have htick : ∀ (t : State) v, (t.set (PART_RST_TICK_tick n) v).on (PART_RST_busy n) = t.on (PART_RST_busy n) := fun t v =>
    State.on_of_rd (((t.keeps_refl [PART_RST_TICK n]).set (f := PART_RST_TICK_tick n)) _ (by
      show PART_RST n ∉ _
      unfold PART_RST PART_RST_TICK
      simp))
  unfold State.askReset
  dsimp only
  split
  next h =>
    split
    · split
      · rw [hcnt _ _ _ rfl, hhard, h]
      · split
        · rw [hhard, h]
        · rw [hcnt _ _ _ rfl, hhard, h]
    · exact h
  · rw [htick]
    have hb := State.on_of_get (s.get_setOn (f := PART_RST_busy n) true)
    cases hard
    · exact (hsoft _).trans hb
    · exact (hhard _).trans hb

end Resets

section Flr

variable {s : State} {v : Nat}

theorem State.clrBit_rd (s : State) (a i b : Nat) : (s.clrBit a i).rd b = if b = a then setBits (s.rd a) i 1 0 else s.rd b := s.rd_wr _ _ _

theorem State.clrBit_bitOn_same (s : State) (a : Nat) {i : Nat} (hi : i < 32) : (s.clrBit a i).bitOn a i = false := by
  have h := s.get_set_fits (f := ⟨a, i, 1⟩) 0 (by unfold FieldRef.fits; exact Nat.ble_eq_true_of_le hi)
  rw [← State.on_eq_bitOn]
  exact congrArg (· != 0) h

/-- What a function's reset does first: its own state at reset, its bit set (R400). -/
theorem State.flrStart_shape (s : State) (v a i : Nat) (u : State) (hu : (s.setFn v PciFn.reset).setBit a (i % 32) = u) :
    u.pciFn v = PciFn.reset ∧ u.bitOn a (i % 32) = true ∧ u.cores = s.cores ∧ u.bays = s.bays ∧ ∀ b, b ≠ a → u.rd b = s.rd b := by
  subst hu
  refine ⟨(lookupD_put _ _ _ _ _).trans (if_pos rfl), State.setBit_bitOn_same _ _ (Nat.mod_lt _ (by decide)), rfl, rfl, fun b hb => ?_⟩
  exact ((s.setFn v PciFn.reset).setBit_rd _ _ _).trans (if_neg hb)

/-- A function-level reset: the function's own state, its bit, and the reset of its partition asked for (R400). -/
theorem State.vfFlr_shows (h1 : 1 ≤ v) (h2 : v ≤ 256) (hb : s.isBridge = true) (hbit : s.bitOn (PART_VF_FLR ((v - 1) / 32)) ((v - 1) % 32) = false) :
    (s.vfFlr v).pciFn v = PciFn.reset ∧ (s.vfFlr v).bitOn (PART_VF_FLR ((v - 1) / 32)) ((v - 1) % 32) = true ∧
      (s.on (PART_VF_MAP_valid (v - 1)) = false → (v - 1) ∈ (s.vfFlr v).hb.flrDone) ∧
      (s.on (PART_VF_MAP_valid (v - 1)) = true → s.get (PART_VF_MAP_module (v - 1)) = s.ownAddr →
        (s.vfFlr v).on (PART_RST_busy (s.get (PART_VF_MAP_partition (v - 1)))) = true) ∧
      (s.vfFlr v).cores = s.cores ∧ (s.vfFlr v).bays = s.bays := by
  obtain ⟨i, hi⟩ : ∃ i, v - 1 = i := ⟨_, rfl⟩
  have hlt : i < 256 := by omega
  rw [hi] at hbit ⊢
  obtain ⟨u, hu⟩ : ∃ u, (s.setFn v PciFn.reset).setBit (PART_VF_FLR (i / 32)) (i % 32) = u := ⟨_, rfl⟩
  obtain ⟨hpci, hset, hcores, hbays, hrd⟩ := State.flrStart_shape s v _ i u hu
  have hmap : u.rd (PART_VF_MAP i) = s.rd (PART_VF_MAP i) := hrd _ (by unfold PART_VF_MAP PART_VF_FLR; omega)
  have hvalid : u.on (PART_VF_MAP_valid i) = s.on (PART_VF_MAP_valid i) := State.on_of_rd hmap
  have hmod : u.get (PART_VF_MAP_module i) = s.get (PART_VF_MAP_module i) := State.get_of_rd hmap
  have hpart : u.get (PART_VF_MAP_partition i) = s.get (PART_VF_MAP_partition i) := State.get_of_rd hmap
  have hown : u.ownAddr = s.ownAddr := State.get_of_rd (hrd _ (by show LINK_TLT_ADDR ≠ _; unfold LINK_TLT_ADDR PART_VF_FLR; omega))
  have he : s.vfFlr v = if s.on (PART_VF_MAP_valid i) = false then { u with hb := { u.hb with flrDone := u.hb.flrDone ++ [i] } }
      else if s.get (PART_VF_MAP_module i) = s.ownAddr then u.askReset (s.get (PART_VF_MAP_partition i)) true
      else (u.sendTo (s.get (PART_VF_MAP_module i)) 8 (s.get (PART_VF_MAP_partition i)) 0 []).1 := by
    unfold State.vfFlr
    dsimp only
    rw [hi, if_neg (by simp only [hb, hbit]; simp; omega), hu, hvalid, hmod, hown, hpart]
    cases s.on (PART_VF_MAP_valid i) <;> rfl
  rw [he]
  split
  next hv =>
    exact ⟨hpci, hset, fun _ => List.mem_append_right _ List.mem_cons_self, (by rw [hv]; intro h; cases h), hcores, hbays⟩
  next hv =>
    split
    next hm =>
      obtain ⟨hshape, hkeep⟩ := u.askReset_onlyRegs (s.get (PART_VF_MAP_partition i)) true
      have hbusy := u.askReset_busy (s.get (PART_VF_MAP_partition i)) true
      obtain ⟨t, ht⟩ : ∃ t, u.askReset (s.get (PART_VF_MAP_partition i)) true = t := ⟨_, rfl⟩
      rw [ht] at hshape hkeep hbusy ⊢
      refine ⟨?_, ?_, fun h => absurd h hv, fun _ _ => hbusy, ?_, ?_⟩
      · rw [hshape]
        exact hpci
      · refine (State.bitOn_of_rd (hkeep _ ?_) _).trans hset
        unfold PART_VF_FLR PART_RST PART_RST_TICK PART_RST_CNT
        simp only [List.mem_cons, List.not_mem_nil, or_false]
        omega
      · rw [hshape]
        exact hcores
      · rw [hshape]
        exact hbays
    next hm =>
      have hl := (State.onlyLinks.refl u).sendTo (s.get (PART_VF_MAP_module i)) 8 (s.get (PART_VF_MAP_partition i)) 0 []
      exact ⟨(hl.same (g := fun w => w.pciFn v) fun _ _ _ _ _ _ => rfl).trans hpci, (State.bitOn_of_rd (hl.rd _) _).trans hset, fun h => absurd h hv,
        fun _ h => absurd h hm, (hl.same fun _ _ _ _ _ _ => rfl).trans hcores, (hl.same fun _ _ _ _ _ _ => rfl).trans hbays⟩

/-- A function reset that has ended shows no longer (R401). -/
theorem State.vfFlrDone_shows (h1 : 1 ≤ v) (hd : s.hb.flrDone.contains (v - 1) = true) :
    (s.vfFlrDone v).bitOn (PART_VF_FLR ((v - 1) / 32)) ((v - 1) % 32) = false ∧ (s.vfFlrDone v).hb.flrDone.contains (v - 1) = false ∧
      s.keeps (s.vfFlrDone v) [PART_VF_FLR ((v - 1) / 32)] ∧ (s.vfFlrDone v).parts = s.parts := by
  have he : s.vfFlrDone v = { s with hb := { s.hb with flrDone := s.hb.flrDone.filter (· != v - 1) } }.clrBit
      (PART_VF_FLR ((v - 1) / 32)) ((v - 1) % 32) := if_pos ⟨by omega, hd⟩
  rw [he]
  refine ⟨State.clrBit_bitOn_same _ _ (Nat.mod_lt _ (by decide)), ?_, (s.keeps_refl _).same rfl |>.wr, rfl⟩
  rw [State.clrBit_hb]
  simp

/-- A function reset that takes too long: the entry is no longer valid, and the bridge's event is raised (R401). -/
theorem State.vfFlrTimeout_shows (h1 : 1 ≤ v) (h2 : v ≤ 256) (hbit : s.bitOn (PART_VF_FLR ((v - 1) / 32)) ((v - 1) % 32) = true)
    (hd : s.hb.flrDone.contains (v - 1) = false) :
    (s.vfFlrTimeout v).bitOn (PART_VF_FLR ((v - 1) / 32)) ((v - 1) % 32) = false ∧ (s.vfFlrTimeout v).get (PART_VF_MAP_valid (v - 1)) = 0 ∧
      (s.vfFlrTimeout v).bitOn EVC_DEV_LATCH 1 = true ∧
      s.onlyRegs (s.vfFlrTimeout v) [PART_VF_FLR ((v - 1) / 32), PART_VF_MAP (v - 1), EVC_DEV_LATCH] := by
  have he : s.vfFlrTimeout v = ((s.setOn (PART_VF_MAP_valid (v - 1)) false).clrBit (PART_VF_FLR ((v - 1) / 32)) ((v - 1) % 32)).devLatch 1 :=
    if_pos ⟨by omega, h2, hbit, by rw [hd]; rfl⟩
  obtain ⟨i, hi⟩ : ∃ i, v - 1 = i := ⟨_, rfl⟩
  have hlt : i < 256 := by omega
  have hne : PART_VF_FLR (i / 32) ≠ EVC_DEV_LATCH ∧ PART_VF_MAP i ≠ EVC_DEV_LATCH ∧ PART_VF_MAP i ≠ PART_VF_FLR (i / 32) := by
    unfold PART_VF_FLR PART_VF_MAP EVC_DEV_LATCH
    omega
  rw [he, hi]
  have hlatch : ∀ (t : State) a, a ≠ EVC_DEV_LATCH → (t.devLatch 1).rd a = t.rd a := fun t a ha => (t.setBit_rd _ _ _).trans (if_neg ha)
  refine ⟨(State.bitOn_of_rd (hlatch _ _ hne.1) _).trans (State.clrBit_bitOn_same _ _ (Nat.mod_lt _ (by decide))), ?_,
    State.setBit_bitOn_same _ _ (by decide), ?_⟩
  · have h := State.get_of_rd (f := PART_VF_MAP_valid i) ((hlatch _ _ hne.2.1).trans (((s.setOn (PART_VF_MAP_valid i) false).clrBit_rd _ (i % 32) _).trans (if_neg hne.2.2)))
    exact h.trans (s.get_setOn false)
  · exact ((((s.onlyRegs_refl _).setOn (f := PART_VF_MAP_valid i) (.tail _ (.head _))).wr (a := PART_VF_FLR (i / 32))).setBit (.tail _ (.tail _ (.head _))))

end Flr

/-- Settles O37. -/
theorem functionResetsRunToTheirEnd : Obligations.FunctionResetsRunToTheirEnd := by
  intro v s h1 h2
  have hi : v - 1 < 256 := by omega
  refine ⟨fun acc x hacc ho hvf hbit => runs_writeAt (congrArg Host.Outcome.next (if_pos ⟨hacc, hi⟩)) ho ?_, fun acc x hbit ho => ?_,
    fun hb hbit => runs_next (congrArg Host.Outcome.next (if_pos ⟨h1, h2⟩)) (State.vfFlr_shows h1 h2 hb hbit),
    fun hd => runs_next (congrArg Host.Outcome.next (if_pos ⟨h1, h2⟩)) (State.vfFlrDone_shows h1 hd),
    fun hbit hd => runs_next (congrArg Host.Outcome.next (if_pos ⟨h1, h2⟩)) (State.vfFlrTimeout_shows h1 h2 hbit hd)⟩
  · unfold State.writeVfMap
    rw [if_neg (by rw [hvf, hbit]; simp; omega)]
    exact ⟨(s.rd_wr _ _ _).trans (if_pos rfl), (s.onlyRegs_refl _).wr⟩
  · have hw : s.writeVfMap acc (v - 1) x = s := if_pos (.inr (.inr hbit))
    have hx : (if acc < accessors ∧ v - 1 < 256 then s.writeAt (PART_VF_MAP (v - 1)) fun s => s.writeVfMap acc (v - 1) x else s) = s := by
      rw [State.writeAt_of_opens ho, hw]
      split <;> rfl
    exact congrArg Host.Outcome.next hx

end Sys2Proof.Machine

/-!
The event controller and the external event pins (R408 to R426).
-/

namespace Sys2Proof.Machine

/-! ### What an event that goes to the host leaves -/

section Host

variable {γ : Type} {g : State → γ} {s : State}

/-- What neither the host's functions, the events on their way to it, their drops nor the links have a part in. -/
structure HostFree (g : State → γ) : Prop where
  sent : ∀ (t : State) n, g (t.onEvc fun e => { e with hostSent := n }) = g t
  hb : ∀ (t : State) x, g { t with hb := x } = g t
  drop : ∀ (t : State) w, g (t.wr EVC_HOST_DROP w) = g t
  strike : ∀ (t : State) a f, g (t.strike a f) = g t
  links : ∀ t u : State, t.onlyLinks u → g u = g t

theorem HostFree.msixFlush (h : HostFree g) (t : State) (f v : Nat) : g (t.msixFlush f v) = g t := by
  unfold State.msixFlush
  dsimp only
  split
  · exact (h.links _ _ ((State.onlyLinks.refl _).emit _)).trans (h.hb _ _)
  · rfl

theorem HostFree.msixRaise (h : HostFree g) (t : State) (f v src : Nat) : g (t.msixRaise f v src) = g t :=
  (h.msixFlush _ _ _).trans (h.hb _ _)

theorem HostFree.hostEvent (h : HostFree g) (t : State) (m src vec : Nat) : g (t.hostEvent m src vec) = g t := by
  unfold State.hostEvent
  dsimp only
  split
  · exact h.msixRaise _ _ _ _
  · split
    · exact (h.strike _ _ _).trans (h.drop _ _)
    · split
      · rfl
      · exact h.msixRaise _ _ _ _

theorem HostFree.hostSend (h : HostFree g) (t : State) (n : Nat) : g (t.hostSend n) = g t := by
  unfold State.hostSend
  dsimp only
  split
  · rfl
  · split
    · exact h.hostEvent _ _ _ _
    · exact h.links _ _ ((State.onlyLinks.refl _).sendTo _ _ _ _ _)

theorem HostFree.hostCheck (h : HostFree g) (t : State) (n : Nat) : g (t.hostCheck n) = g t := by
  unfold State.hostCheck
  dsimp only
  split
  · rfl
  · split
    · exact (h.hostSend _ _).trans (h.sent _ _)
    · exact h.sent _ _

/-- The event controller but for the record of what the host has been sent. -/
theorem hostFree_evc : HostFree fun t => { t.evc with hostSent := 0 } where
  sent _ _ := rfl
  hb _ _ := rfl
  drop _ _ := rfl
  strike _ _ _ := rfl
  links _ _ h := by rw [h]

theorem hostFree_rd {a : Nat} (ha : a ≠ EVC_HOST_DROP) : HostFree fun t => t.rd a where
  sent _ _ := rfl
  hb _ _ := rfl
  drop t w := (t.rd_wr _ w a).trans (if_neg ha)
  strike _ _ _ := rfl
  links _ _ h := h.rd a

theorem State.hostCheck_evc (s : State) (n : Nat) : { (s.hostCheck n).evc with hostSent := 0 } = { s.evc with hostSent := 0 } :=
  hostFree_evc.hostCheck s n

theorem State.hostCheck_keeps {as : List Nat} (s : State) (n : Nat) (h : EVC_HOST_DROP ∈ as := by exact .head _) : s.keeps (s.hostCheck n) as := fun a ha =>
  (hostFree_rd (by rintro rfl; exact ha h)).hostCheck s n

/-- The EVC's view at the start of the cycle apart, nothing is kept for it. -/
theorem State.keepEvc_shape (s : State) : ∃ w, s.keepEvc = { s with evc := { s.evc with was := w } } := by
  unfold State.keepEvc
  split
  · exact ⟨s.evc.was, rfl⟩
  · exact ⟨_, rfl⟩

end Host

/-! ### Levels -/

section Levels

variable {s : State}

theorem Evc.fields_of {e f : Evc} (h : { e with hostSent := 0 } = { f with hostSent := 0 }) :
    e.seen = f.seen ∧ e.stks = f.stks ∧ e.reentry = f.reentry ∧ e.eois = f.eois := by
  injection h with h1 _ h2 h3 h4
  exact ⟨h1, h2, h3, h4⟩

/-- A level is seen, and nothing else of the controller but what the host has been sent (R411). -/
theorem State.seeLevel_shows {n : Nat} (hn : srcExists n = true) :
    (s.seeLevel n).evc.seen = setField s.evc.seen n 1 (b2n (s.srcLevel n)) ∧ (s.seeLevel n).evc.stks = s.evc.stks ∧
      (s.seeLevel n).evc.eois = s.evc.eois ∧ s.keeps (s.seeLevel n) [EVC_HOST_DROP] := by
  obtain ⟨w, hw⟩ := s.keepEvc_shape
  have he : s.seeLevel n = State.hostCheck { s with evc := { s.evc with seen := setField s.evc.seen n 1 (b2n (s.srcLevel n)), was := w } } n := by
    unfold State.seeLevel
    rw [if_pos hn, hw]
    rfl
  obtain ⟨h1, h2, -, h4⟩ := Evc.fields_of (State.hostCheck_evc { s with evc := { s.evc with seen := setField s.evc.seen n 1 (b2n (s.srcLevel n)), was := w } } n)
  rw [he]
  exact ⟨h1, h2, h4, State.hostCheck_keeps { s with evc := { s.evc with seen := setField s.evc.seen n 1 (b2n (s.srcLevel n)), was := w } } n⟩

theorem State.seeLevel_rest (s : State) (n : Nat) :
    (s.seeLevel n).evc.stks = s.evc.stks ∧ (s.seeLevel n).evc.eois = s.evc.eois := by
  by_cases hn : srcExists n = true
  · obtain ⟨-, h2, h3, -⟩ := State.seeLevel_shows (s := s) hn
    exact ⟨h2, h3⟩
  · have he : s.seeLevel n = s := if_neg hn
    rw [he]
    exact ⟨rfl, rfl⟩

theorem State.seeAll_rest (s : State) : s.seeAll.evc.stks = s.evc.stks ∧ s.seeAll.evc.eois = s.evc.eois := by
  unfold State.seeAll
  refine each_keeps (fun t : State => t.evc.stks = s.evc.stks ∧ t.evc.eois = s.evc.eois) (fun n t h => ?_) _ s ⟨rfl, rfl⟩
  obtain ⟨h1, h2⟩ := t.seeLevel_rest n
  exact ⟨h1.trans h.1, h2.trans h.2⟩

end Levels

/-! ### Claims and ends of interrupts -/

section Claims

variable {s : State} {c n : Nat}

theorem State.stack_of_stks {t : State} (h : t.evc.stks = s.evc.stks) (c : Nat) : t.stack c = s.stack c := by
  unfold State.stack
  rw [h]

theorem State.setStack_shape (s : State) (c : Nat) (l : List StackEnt) :
    ∃ w, s.setStack c l = { s with evc := { s.evc with stks := put s.evc.stks c l, was := w } } := by
  obtain ⟨w, hw⟩ := s.keepEvc_shape
  refine ⟨w, ?_⟩
  unfold State.setStack
  rw [hw]
  rfl

theorem State.setStack_stack (s : State) (c : Nat) (l : List StackEnt) (d : Nat) : (s.setStack c l).stack d = if d = c then l else s.stack d := by
  obtain ⟨w, hw⟩ := s.setStack_shape c l
  rw [hw]
  exact lookupD_put _ _ _ _ _

/-- A claim answers with the best offer and puts it on the core's stack (R412 to R415). -/
theorem State.claim_shows (hc : c < 8) (hs : s.evc.stopped.contains c = false) :
    (s.claim c).outbox = s.outbox ++ [.readData c (EVC_CC_CLAIM c) (s.claimWord c)] ∧
      (s.claim c).stack c = (s.bestOffer c).elim (s.stack c) (fun o => ⟨o.1, o.2, false⟩ :: s.stack c) ∧
      (∀ d, d ≠ c → (s.claim c).stack d = s.stack d) ∧ (s.claim c).ctl = s.ctl := by
  unfold State.claim
  dsimp only
  rw [if_neg (by rw [hs]; simp; omega)]
  cases s.bestOffer c with
  | none => exact ⟨rfl, rfl, fun _ _ => rfl, rfl⟩
  | some o =>
    obtain ⟨n, k⟩ := o
    have hstack := (s.emit (.readData c (EVC_CC_CLAIM c) (s.claimWord c))).setStack_stack c (⟨n, k, false⟩ :: s.stack c)
    obtain ⟨w, hw⟩ := (s.emit (.readData c (EVC_CC_CLAIM c) (s.claimWord c))).setStack_shape c (⟨n, k, false⟩ :: s.stack c)
    dsimp only
    refine ⟨?_, (hstack c).trans (if_pos rfl), fun d hd => (hstack d).trans (if_neg hd), ?_⟩
    · rw [hw]
      rfl
    · rw [hw]
      rfl

theorem State.raise_evc (s : State) (f : FieldRef) : (s.raise f).evc = s.evc := rfl

theorem State.raise_rd (s : State) (f : FieldRef) {a : Nat} (h : a ≠ f.addr) : (s.raise f).rd a = s.rd a :=
  ((s.onlyRegs_refl [f.addr]).raise).2 a (by simpa using h)

/-- A re-entry leaves the stacks and the ends of interrupts that wait, and all words but those of the masking (R417). -/
theorem State.reenter_rest (s : State) (n : Nat) :
    (s.reenter n).evc.stks = s.evc.stks ∧ (s.reenter n).evc.eois = s.evc.eois ∧
      s.keeps (s.reenter n) [EVC_HOST_DROP, EVC_SRC_CFG n, EVC_DEV_LATCH] := by
  obtain ⟨u, hu, hevc⟩ : ∃ u : State, (s.onEvc fun e => { e with reentry := put e.reentry n (lookupD 0 s.evc.reentry n + 1) }) = u ∧
      u = { s with evc := { s.evc with reentry := put s.evc.reentry n (lookupD 0 s.evc.reentry n + 1) } } := ⟨_, rfl, rfl⟩
  unfold State.reenter
  dsimp only
  rw [hu]
  split
  · obtain ⟨w, hw⟩ := u.keepEvc_shape
    have hstuck : ∀ a, a ≠ EVC_SRC_CFG n → (u.keepEvc.raise (EVC_SRC_CFG_stuck n)).rd a = s.rd a := fun a ha =>
      (State.raise_rd _ _ ha).trans (by rw [hw, hevc]; rfl)
    have hsevc : (u.keepEvc.raise (EVC_SRC_CFG_stuck n)).evc.stks = s.evc.stks ∧ (u.keepEvc.raise (EVC_SRC_CFG_stuck n)).evc.eois = s.evc.eois := by
      rw [State.raise_evc, hw, hevc]
      exact ⟨rfl, rfl⟩
    obtain ⟨v, hv⟩ : ∃ v, u.keepEvc.raise (EVC_SRC_CFG_stuck n) = v := ⟨_, rfl⟩
    rw [hv] at hstuck hsevc ⊢
    obtain ⟨x, hx, hxevc, hxrd⟩ : ∃ x, (if n = 213 then v else v.devLatch 3) = x ∧ x.evc = v.evc ∧ ∀ a, a ≠ EVC_DEV_LATCH → x.rd a = v.rd a := by
      split
      · exact ⟨v, rfl, rfl, fun _ _ => rfl⟩
      · exact ⟨_, rfl, rfl, fun a ha => (v.setBit_rd _ _ _).trans (if_neg ha)⟩
    rw [hx]
    obtain ⟨-, h2, -, h4⟩ := Evc.fields_of (x.hostCheck_evc n)
    refine ⟨h2.trans (hxevc ▸ hsevc.1), h4.trans (hxevc ▸ hsevc.2), fun a ha => ?_⟩
    simp only [List.mem_cons, List.not_mem_nil, or_false, not_or] at ha
    exact (x.hostCheck_keeps (as := [EVC_HOST_DROP]) n (.head _) a (by simpa using ha.1)).trans ((hxrd a ha.2.2).trans (hstuck a ha.2.1))
  · rw [hevc]
    exact ⟨rfl, rfl, fun _ _ => rfl⟩

/-- The end of an interrupt that waits first: gone, and the levels of earlier writes seen (R416). -/
theorem State.eoiSeen_shape {src : Nat} (u : State) (hu : (s.onEvc fun e => { e with eois := e.eois.erase (c, src) }).seeAll = u) :
    (∀ d, u.stack d = s.stack d) ∧ u.evc.eois = s.evc.eois.erase (c, src) := by
  obtain ⟨h1, h2⟩ := (s.onEvc fun e => { e with eois := e.eois.erase (c, src) }).seeAll_rest
  rw [hu] at h1 h2
  exact ⟨State.stack_of_stks h1, h2⟩

theorem srcExists_lt {n : Nat} (h : srcExists n = true) : n < 1024 := by
  have := of_decide_eq_true h
  omega

/-- A pop takes the top entry, and shows where it was another source's (R416, R417). -/
theorem State.eoiPop_top {src : Nat} {top : StackEnt} {below : List StackEnt} (hc : c < 8)
    (hf : s.evc.eois.find? (fun e => e.1 == c) = some (c, src)) (hs : s.stack c = top :: below) :
    (s.eoiPop c).stack c = below ∧ (s.eoiPop c).evc.eois = s.evc.eois.erase (c, src) ∧
      (top.source ≠ src → (s.eoiPop c).get (EVC_CC_STAT_eoi_mismatch c) = 1) := by
  obtain ⟨u, hu⟩ : ∃ u, (s.onEvc fun e => { e with eois := e.eois.erase (c, src) }).seeAll = u := ⟨_, rfl⟩
  obtain ⟨hstack, heois⟩ := State.eoiSeen_shape u hu
  have hpop := (u.setStack_stack c below c).trans (if_pos rfl)
  have hpe : (u.setStack c below).evc.eois = u.evc.eois := by
    obtain ⟨w, hw⟩ := u.setStack_shape c below
    rw [hw]
  obtain ⟨x, hx, hxevc, hmis⟩ : ∃ x : State, (if top.source = src then u.setStack c below else (u.setStack c below).raise (EVC_CC_STAT_eoi_mismatch c)) = x ∧
      x.evc = (u.setStack c below).evc ∧ (top.source ≠ src → x.get (EVC_CC_STAT_eoi_mismatch c) = 1) := by
    split
    next h => exact ⟨_, rfl, rfl, fun hne => absurd h hne⟩
    · exact ⟨_, rfl, rfl, fun _ => State.get_raise _⟩
  have he : s.eoiPop c = if x.asserted top.source && !top.gone then x.reenter top.source else x := by
    unfold State.eoiPop
    dsimp only
    rw [hf]
    dsimp only
    rw [hu, hstack, hs]
    dsimp only
    rw [hx]
  have hxs : x.stack c = below := (State.stack_of_stks (congrArg Evc.stks hxevc) c).trans hpop
  have hxe : x.evc.eois = s.evc.eois.erase (c, src) := (congrArg Evc.eois hxevc).trans (hpe.trans heois)
  rw [he]
  split
  next h =>
    obtain ⟨h2, h4, hk⟩ := x.reenter_rest top.source
    refine ⟨(State.stack_of_stks h2 c).trans hxs, h4.trans hxe, fun hne => (State.get_of_rd (hk _ ?_)).trans (hmis hne)⟩
    have hsrc := srcExists_lt (Bool.and_eq_true_iff.1 (Bool.and_eq_true_iff.1 h).1).1
    show EVC_CC_STAT c ∉ _
    unfold EVC_CC_STAT EVC_HOST_DROP EVC_SRC_CFG EVC_DEV_LATCH
    simp only [List.mem_cons, List.not_mem_nil, or_false]
    omega
  · exact ⟨hxs, hxe, hmis⟩

/-- A pop from an empty stack shows as one (R416). -/
theorem State.eoiPop_empty {src : Nat} (hf : s.evc.eois.find? (fun e => e.1 == c) = some (c, src)) (hs : s.stack c = []) :
    (s.eoiPop c).stack c = [] ∧ (s.eoiPop c).get (EVC_CC_STAT_eoi_empty c) = 1 := by
  obtain ⟨u, hu⟩ : ∃ u, (s.onEvc fun e => { e with eois := e.eois.erase (c, src) }).seeAll = u := ⟨_, rfl⟩
  obtain ⟨hstack, heois⟩ := State.eoiSeen_shape u hu
  have he : s.eoiPop c = u.raise (EVC_CC_STAT_eoi_empty c) := by
    unfold State.eoiPop
    dsimp only
    rw [hf]
    dsimp only
    rw [hu, hstack, hs]
  rw [he]
  exact ⟨(hstack c).trans hs, u.get_raise⟩

/-- A stuck bit cleared, with the source's count (R417). -/
theorem State.unstick_shows (hn : srcExists n = true) (hb : bits (s.struck (EVC_SRC_CFG n)) 29 1 = 0) :
    (s.unstick n).get (EVC_SRC_CFG_stuck n) = 0 ∧ lookup? (s.unstick n).evc.reentry n = none ∧ (s.unstick n).evc.stks = s.evc.stks ∧
      s.keeps (s.unstick n) [EVC_SRC_CFG n, EVC_HOST_DROP] := by
  obtain ⟨w, hw⟩ := s.keepEvc_shape
  obtain ⟨v, hv⟩ : ∃ v, s.keepEvc.setOn (EVC_SRC_CFG_stuck n) false = v := ⟨_, rfl⟩
  have hvget : v.get (EVC_SRC_CFG_stuck n) = 0 := hv ▸ s.keepEvc.get_setOn false
  have hvevc : v.evc = s.keepEvc.evc := hv ▸ State.setOn_evc _ _ _
  have hvkeep : s.keeps v [EVC_SRC_CFG n, EVC_HOST_DROP] := by
    rw [← hv]
    exact ((s.keeps_refl _).same (u := s.keepEvc) (by rw [hw])).setOn
  obtain ⟨u, hu, hevc, hctl⟩ : ∃ u : State, (v.onEvc fun e => { e with reentry := del e.reentry n }) = u ∧
      u.evc = { v.evc with reentry := del v.evc.reentry n } ∧ u.ctl = v.ctl := ⟨_, rfl, rfl, rfl⟩
  have hget : u.get (EVC_SRC_CFG_stuck n) = 0 := (State.get_of_ctl _ hctl _).trans hvget
  have hkeep : s.keeps u [EVC_SRC_CFG n, EVC_HOST_DROP] := hvkeep.same hctl
  have he : s.unstick n = u.hostCheck n := by
    unfold State.unstick
    rw [if_pos ⟨hn, hb⟩, hv, hu]
  obtain ⟨-, h2, h3, -⟩ := Evc.fields_of (u.hostCheck_evc n)
  have hne : EVC_SRC_CFG n ≠ EVC_HOST_DROP := by
    have := srcExists_lt hn
    unfold EVC_SRC_CFG EVC_HOST_DROP
    omega
  rw [he]
  refine ⟨(State.get_of_rd ((hostFree_rd hne).hostCheck u n)).trans hget, ?_, ?_, hkeep.trans (u.hostCheck_keeps n (.tail _ (.head _)))⟩
  · rw [h3, hevc]
    exact lookup?_del_self _ _
  · rw [h2, hevc, hvevc, hw]

end Claims

/-! ### Pins -/

section Pins

variable {s : State} {k : Nat}

theorem testBit_setField_one (w i b j : Nat) : (setField w i 1 b).testBit j = if j = i then b.testBit 0 else w.testBit j := by
  rw [testBit_setField]
  by_cases h : j = i
  · subst h
    rw [if_neg (Nat.lt_irrefl _), if_pos (Nat.lt_succ_self _), Nat.sub_self, if_pos rfl]
  · rw [if_neg h]
    split
    · rfl
    · rw [if_neg (by omega)]

theorem testBit_b2n (b : Bool) : (b2n b).testBit 0 = b := by cases b <;> rfl

/-- A change of a pin's input starts its filter, or ends it where the input has returned (R426). -/
theorem State.pinChange_shows {level : Bool} (hk : k < 8) (hl : s.evc.pinIn.testBit k ≠ level) :
    (s.pinChange k level).evc.pinIn.testBit k = level ∧
      ((level != (s.get EVC_PIN_CFG_polarity).testBit k) ≠ s.evc.pinFilt.testBit k →
        (s.pinChange k level).evc.pinRuns.testBit k = true ∧ (s.pinChange k level).ctl = s.ctl) ∧
      (s.pinChange k level).evc.pinFilt = s.evc.pinFilt ∧ s.keeps (s.pinChange k level) [EVC_PIN_STAT, EVC_PIN_SHORT k] := by
  obtain ⟨u, hu⟩ : ∃ u : State, (s.onEvc fun e => { e with pinIn := setField e.pinIn k 1 (b2n level) }) = u := ⟨_, rfl⟩
  have hshape : u = { s with evc := { s.evc with pinIn := setField s.evc.pinIn k 1 (b2n level) } } := hu.symm
  have hin : u.evc.pinIn.testBit k = level := by
    rw [hshape]
    exact (testBit_setField_one _ _ _ _).trans ((if_pos rfl).trans (testBit_b2n _))
  have hraw : u.pinRaw k = (level != (s.get EVC_PIN_CFG_polarity).testBit k) := by
    unfold State.pinRaw
    rw [hin, hshape]
    rfl
  have hctl : u.ctl = s.ctl := by rw [hshape]
  have hfilt : u.evc.pinFilt = s.evc.pinFilt := by rw [hshape]
  have hkeep : s.keeps u [EVC_PIN_STAT, EVC_PIN_SHORT k] := (s.keeps_refl _).same hctl
  unfold State.pinChange
  dsimp only
  rw [if_neg (not_or.2 ⟨by omega, hl⟩), hu, hraw, hfilt]
  split
  next h =>
    exact ⟨hin, fun _ => ⟨(testBit_setField_one _ _ _ _).trans (if_pos rfl), hctl⟩, hfilt, hkeep.same rfl⟩
  next h =>
    have hno : ¬ (level != (s.get EVC_PIN_CFG_polarity).testBit k) ≠ s.evc.pinFilt.testBit k := fun hne => h (bne_iff_ne.2 hne)
    split
    · obtain ⟨v, hv⟩ : ∃ v : State, (u.onEvc fun e => { e with pinRuns := setField e.pinRuns k 1 0 }) = v := ⟨_, rfl⟩
      have hvevc : v.evc.pinIn = u.evc.pinIn ∧ v.evc.pinFilt = u.evc.pinFilt := by
        rw [← hv]
        exact ⟨rfl, rfl⟩
      have hvk : s.keeps v [EVC_PIN_STAT, EVC_PIN_SHORT k] := hkeep.same (by rw [← hv]; rfl)
      rw [hv]
      split
      · exact ⟨hvevc.1 ▸ hin, fun hne => absurd hne hno, hvevc.2.trans hfilt, hvk⟩
      · refine ⟨hvevc.1 ▸ hin, fun hne => absurd hne hno, hvevc.2.trans hfilt, hvk.trans ?_⟩
        exact (((v.onlyRegs_refl _).setBit).bump (f := EVC_PIN_SHORT_count k) (.tail _ (.head _))).2
    · exact ⟨hin, fun hne => absurd hne hno, hfilt, hkeep⟩

/-- A level held for the filter's time is the filtered one (R426). -/
theorem State.pinFilter_shows (hk : k < 8) (hr : s.evc.pinRuns.testBit k = true) :
    (s.pinFilter k).evc.pinFilt.testBit k = s.pinRaw k ∧ (s.pinFilter k).evc.pinRuns.testBit k = false ∧
      (s.pinRaw k = true → (s.pinFilter k).bitOn EVC_PIN_STAT k = true) ∧ (s.pinRaw k = false → (s.pinFilter k).ctl = s.ctl) ∧
      s.keeps (s.pinFilter k) [EVC_PIN_STAT] := by
  obtain ⟨u, hu⟩ : ∃ u : State, (s.onEvc fun e =>
      { e with pinRuns := setField e.pinRuns k 1 0, pinFilt := setField e.pinFilt k 1 (b2n (s.pinRaw k)) }) = u := ⟨_, rfl⟩
  have hfilt : u.evc.pinFilt.testBit k = s.pinRaw k := by
    rw [← hu]
    exact (testBit_setField_one _ _ _ _).trans ((if_pos rfl).trans (testBit_b2n _))
  have hruns : u.evc.pinRuns.testBit k = false := by
    rw [← hu]
    exact (testBit_setField_one _ _ _ _).trans (if_pos rfl)
  have hctl : u.ctl = s.ctl := by
    rw [← hu]
    rfl
  have hkeep : s.keeps u [EVC_PIN_STAT] := (s.keeps_refl _).same hctl
  unfold State.pinFilter
  dsimp only
  rw [if_pos ⟨hk, hr⟩, hu]
  split
  next h =>
    exact ⟨hfilt, hruns, fun _ => State.setBit_bitOn_same _ _ (by omega), fun h' => absurd (h.symm.trans h') Bool.true_eq_false_eq_False,
      hkeep.trans ((u.onlyRegs_refl _).setBit).2⟩
  next h => exact ⟨hfilt, hruns, fun h' => absurd h' h, fun _ => hctl, hkeep⟩

/-- A pin's filter restarts where the polarity written, `v`, changes its bit of `was` (R426). -/
def State.restartPin (was v k : Nat) (t : State) : State :=
  if was.testBit k = v.testBit k then t
  else t.onEvc fun e => { e with pinRuns := setField e.pinRuns k 1 0, pinFilt := setField e.pinFilt k 1 (b2n (t.pinRaw k)) }

theorem State.pinPolarity_eq {v : Nat} (hv : v < 256) :
    s.pinPolarity v = each (State.restartPin (s.get EVC_PIN_CFG_polarity) v) (List.range 8) (s.set EVC_PIN_CFG_polarity v) := by
  unfold State.pinPolarity
  dsimp only
  rw [Nat.mod_eq_of_lt hv]
  rfl

theorem State.restartPin_rest (was v k : Nat) (t : State) :
    (State.restartPin was v k t).ctl = t.ctl ∧ (State.restartPin was v k t).evc.pinIn = t.evc.pinIn := by
  unfold State.restartPin
  split <;> exact ⟨rfl, rfl⟩

theorem State.pinRaw_congr {t u : State} (h : u.ctl = t.ctl ∧ u.evc.pinIn = t.evc.pinIn) (k : Nat) : u.pinRaw k = t.pinRaw k := by
  unfold State.pinRaw
  rw [h.2, State.get_of_ctl _ h.1]

theorem State.restartPin_bits (was v k j : Nat) (t : State) :
    (State.restartPin was v k t).evc.pinRuns.testBit j = (if j = k ∧ was.testBit k ≠ v.testBit k then false else t.evc.pinRuns.testBit j) ∧
      (State.restartPin was v k t).evc.pinFilt.testBit j =
        (if j = k ∧ was.testBit k ≠ v.testBit k then t.pinRaw k else t.evc.pinFilt.testBit j) := by
  unfold State.restartPin
  by_cases h : was.testBit k = v.testBit k
  · rw [if_pos h, if_neg (fun h' => h'.2 h), if_neg (fun h' => h'.2 h)]
    exact ⟨rfl, rfl⟩
  · rw [if_neg h]
    simp only [h, ne_eq, not_false_eq_true, and_true]
    exact ⟨testBit_setField_one _ _ _ _, (testBit_setField_one _ _ _ _).trans (by rw [testBit_b2n])⟩

theorem State.restartPins_rest (was v : Nat) (l : List Nat) (t : State) :
    (each (State.restartPin was v) l t).ctl = t.ctl ∧ (each (State.restartPin was v) l t).evc.pinIn = t.evc.pinIn :=
  each_keeps (fun u : State => u.ctl = t.ctl ∧ u.evc.pinIn = t.evc.pinIn) (fun k u h => by
    obtain ⟨h1, h2⟩ := State.restartPin_rest was v k u
    exact ⟨h1.trans h.1, h2.trans h.2⟩) l t ⟨rfl, rfl⟩

/-- A pin whose polarity changes, among those that restart or restarted before, has its present level filtered. -/
theorem State.restartPins_bits {was v j : Nat} (hne : was.testBit j ≠ v.testBit j) (l : List Nat) :
    ∀ t : State, j ∈ l ∨ t.evc.pinRuns.testBit j = false ∧ t.evc.pinFilt.testBit j = t.pinRaw j →
      (each (State.restartPin was v) l t).evc.pinRuns.testBit j = false ∧
        (each (State.restartPin was v) l t).evc.pinFilt.testBit j = (each (State.restartPin was v) l t).pinRaw j := by
  induction l with
  | nil => exact fun t h => h.resolve_left List.not_mem_nil
  | cons a r ih =>
    intro t h
    obtain ⟨h1, h2⟩ := State.restartPin_bits was v a j t
    refine ih (State.restartPin was v a t) ?_
    rw [h1, h2, State.pinRaw_congr (State.restartPin_rest was v a t)]
    by_cases hj : j = a
    · subst hj
      rw [if_pos ⟨rfl, hne⟩, if_pos ⟨rfl, hne⟩]
      exact .inr ⟨rfl, rfl⟩
    · rw [if_neg (fun h' => hj h'.1), if_neg (fun h' => hj h'.1)]
      exact h.imp_left fun hm => (List.mem_cons.1 hm).resolve_left hj

/-- A written polarity restarts the filters of the pins it changes (R426). -/
theorem State.pinPolarity_shows {v : Nat} (hv : v < 256) :
    (s.pinPolarity v).get EVC_PIN_CFG_polarity = v ∧ s.keeps (s.pinPolarity v) [EVC_PIN_CFG] ∧ (s.pinPolarity v).evc.pinIn = s.evc.pinIn ∧
      ∀ k, k < 8 → (s.get EVC_PIN_CFG_polarity).testBit k ≠ v.testBit k →
        (s.pinPolarity v).evc.pinRuns.testBit k = false ∧ (s.pinPolarity v).evc.pinFilt.testBit k = (s.pinPolarity v).pinRaw k := by
  obtain ⟨u, hu⟩ : ∃ u, s.set EVC_PIN_CFG_polarity v = u := ⟨_, rfl⟩
  have huget : u.get EVC_PIN_CFG_polarity = v := hu ▸ s.get_set_of_lt 8 hv
  have hukeep : s.keeps u [EVC_PIN_CFG] := by
    rw [← hu]
    exact (s.keeps_refl _).set
  have huin : u.evc.pinIn = s.evc.pinIn := hu ▸ congrArg Evc.pinIn (State.set_evc _ _ _)
  obtain ⟨hc, hi⟩ := State.restartPins_rest (s.get EVC_PIN_CFG_polarity) v (List.range 8) u
  rw [State.pinPolarity_eq hv, hu]
  exact ⟨(State.get_of_ctl _ hc _).trans huget, hukeep.same hc, hi.trans huin,
    fun k hk hne => State.restartPins_bits hne _ u (.inl (List.mem_range.2 hk))⟩

end Pins

theorem exec_evcClaim {c : Nat} (hc : c < 8) (s : State) : exec (.evcClaim c) s = .next (s.claim c) :=
  congrArg Host.Outcome.next (if_pos hc)

theorem exec_evcEoiPop {c : Nat} (hc : c < 8) (s : State) : exec (.evcEoiPop c) s = .next (s.eoiPop c) :=
  congrArg Host.Outcome.next (if_pos hc)

theorem exec_evcStuckClear {n : Nat} (hn : n < 1024) (s : State) : exec (.evcStuckClear n) s = .next (s.unstick n) :=
  congrArg Host.Outcome.next (if_pos hn)

/-- Settles O38. -/
theorem eventsAreClaimedAndPinsFiltered : Obligations.EventsAreClaimedAndPinsFiltered := by
  refine ⟨fun s => ⟨fun n hn hx => runs_next (congrArg Host.Outcome.next (if_pos hn)) ?_,
      fun c hc hs => ⟨runs_next (exec_evcClaim hc s) ?_, fun src hsrc => ?_,
        fun src top below hf hst => runs_next (exec_evcEoiPop hc s) (State.eoiPop_top hc hf hst),
        fun src hf hst => runs_next (exec_evcEoiPop hc s) (State.eoiPop_empty hf hst)⟩,
      fun n hn hx hb => runs_next (exec_evcStuckClear hn s) (State.unstick_shows hx hb)⟩,
    fun k level s hk hl => runs_next (congrArg Host.Outcome.next (if_pos hk)) (State.pinChange_shows hk hl),
    fun k s hk hr => runs_next (congrArg Host.Outcome.next (if_pos hk)) (State.pinFilter_shows hk hr),
    fun v s hv => runs_next (congrArg Host.Outcome.next (if_pos hv)) (State.pinPolarity_shows hv)⟩
  · obtain ⟨h1, h2, -, h4⟩ := State.seeLevel_shows (s := s) hx
    refine ⟨?_, fun m hm => ?_, h2, h4⟩
    · rw [h1, testBit_setField_one, if_pos rfl, testBit_b2n]
    · rw [h1, testBit_setField_one, if_neg hm]
  · obtain ⟨h1, h2, h3, h4⟩ := State.claim_shows hc hs
    refine ⟨h1, h2.trans ?_, h3, h4⟩
    cases s.bestOffer c <;> rfl
  · have he : s.eoi c src = s.onEvc fun e => { e with eois := e.eois ++ [(c, src)] } := by
      unfold State.eoi
      rw [if_neg (not_or.2 ⟨by omega, ne_true_of_eq_false hs⟩), Nat.mod_eq_of_lt hsrc]
    exact runs_next (congrArg Host.Outcome.next ((if_pos ⟨hc, hsrc⟩).trans he)) ⟨rfl, rfl, rfl⟩

end Sys2Proof.Machine

/-!
Rows that the units write in Bay pages and pages that they free: what these leave of the rest (R203 to R216).
-/

namespace Sys2Proof.Machine

section Units

variable {γ : Type} {g : State → γ}

/-- The words of the Bays and of the dies' ports. -/
def unitWord (a : Nat) : Prop := 0x700000 ≤ a ∧ a < 0x2000000

/-- What neither rows written by a unit nor pages freed have a part in: words of the Bays, of the dies' ports and of the page map, Bays, credits, reports,
pages that retire and rows excused. -/
structure BayFree (g : State → γ) : Prop where
  wr : ∀ (t : State) a w, unitWord a → g (t.wr a w) = g t
  slot : ∀ (t : State) i v, i < noSlot → g (t.setSlot i v) = g t
  strike : ∀ (t : State) a f, g (t.strike a f) = g t
  credits : ∀ (t : State) l, g { t with credits := l } = g t
  overAt : ∀ (t : State) l, g { t with overAt := l } = g t
  bays : ∀ (t : State) l, g { t with bays := l } = g t
  report : ∀ (t : State) r, g (t.report r) = g t
  retiring : ∀ (t : State) l, g { t with retiring := l } = g t
  excused : ∀ (t : State) b page, g (t.unexcuse b page) = g t

namespace BayFree

theorem set (h : BayFree g) (t : State) {f : FieldRef} (n : Nat) (hf : unitWord f.addr) : g (t.set f n) = g t := h.wr _ _ _ hf

theorem bump (h : BayFree g) (t : State) {f : FieldRef} (n : Nat) (hf : unitWord f.addr) : g (t.bump f n) = g t :=
  (h.strike _ _ _).trans (h.wr _ _ _ hf)

theorem setBay (h : BayFree g) (t : State) (b : Nat) (y : Bay) : g (t.setBay b y) = g t := h.bays _ _

theorem onBay (h : BayFree g) (t : State) (b : Nat) (f : Bay → Bay) : g (t.onBay b f) = g t := h.bays _ _

theorem recordFirst (h : BayFree g) (t : State) {a : Nat} (v : Nat) (ha : unitWord a) : g (t.recordFirst a v) = g t := by
  unfold State.recordFirst
  split
  · rfl
  · exact (h.strike _ _ _).trans (h.wr _ _ _ ha)

theorem countPort (h : BayFree g) (t : State) {port : Nat} (hp : port < 128) : g (t.countPort port) = g t := by
  unfold State.countPort
  dsimp only
  rw [h.overAt]
  split
  · refine h.bump t _ ?_
    split
    · show unitWord (DIE_EDGE_BP_BAY port)
      unfold unitWord DIE_EDGE_BP_BAY
      omega
    · show unitWord (DIE_EDGE_BP_LINK (port - 72))
      unfold unitWord DIE_EDGE_BP_LINK
      omega
  · rfl

theorem overReg_lt (link : Bool) {d : Nat} (hd : d < 128) (part : Nat) : unitWord (overReg link d part) := by
  unfold unitWord overReg DIE_EDGE_OVER_LINK_LO DIE_EDGE_OVER_LINK_HI DIE_EDGE_OVER_BAY_LO DIE_EDGE_OVER_BAY_HI
  split <;> split <;> omega

theorem setCredit (h : BayFree g) (t : State) {port : Nat} (part : Nat) (c : Int) (hp : port < 128) : g (t.setCredit port part c) = g t := by
  unfold State.setCredit
  dsimp only
  rw [h.countPort _ hp]
  split
  · exact (h.strike _ _ _).trans ((h.wr _ _ _ (overReg_lt _ (by omega) _)).trans (h.credits _ _))
  · exact h.credits _ _

theorem bayDie_lt {b : Nat} (hb : b < 23) : bayDie b < 128 := by
  unfold bayDie
  split <;> omega

theorem bayCharge (h : BayFree g) (t : State) {b : Nat} (n : Nat) (pk : Packet) (hb : b < 23) : g (t.bayCharge b n pk) = g t := by
  unfold State.bayCharge
  split
  · rfl
  · exact h.setCredit _ _ _ (bayDie_lt hb)

theorem unitCharge (h : BayFree g) (t : State) (u : UnitUse) {b : Nat} (pk : Packet) (hb : b < 23) : g (t.unitCharge u b pk) = g t := by
  unfold State.unitCharge
  split
  · rfl
  · exact h.bayCharge _ _ _ hb

theorem portRows (h : BayFree g) (t : State) (link : Bool) {d : Nat} (n : Nat) (hd : d < 128) : g (t.portRows link d n) = g t := by
  refine h.bump t n ?_
  cases link
  · show unitWord (DIE_EDGE_ROWS_BAY d)
    unfold unitWord DIE_EDGE_ROWS_BAY
    omega
  · show unitWord (DIE_EDGE_ROWS_LINK d)
    unfold unitWord DIE_EDGE_ROWS_LINK
    omega

/-- A refusal of a unit's row: counted and reported, with no notice (R212). -/
theorem bayRefuse (h : BayFree g) (t : State) {b : Nat} (cause : Nat) {pk : Packet} (write : Bool) (hb : b < 23) (hs : pk.source = 0x3FFF) :
    g (t.bayRefuse b cause pk write) = g t := by
  unfold State.bayRefuse
  dsimp only
  rw [hs, if_neg (by decide)]
  refine (h.report _ _).trans ((h.recordFirst _ _ ?_).trans (h.bump _ _ ?_))
  · unfold unitWord BAY_REFUSE_LAST
    omega
  · show unitWord (BAY_REFUSE b)
    unfold unitWord BAY_REFUSE
    omega

theorem bayStore (h : BayFree g) (t : State) {b : Nat} (page row : Nat) (d : Row) (hb : b < 23) : g (t.bayStore b page row d) = g t := by
  refine (h.bump _ _ ?_).trans (h.setBay _ _ _)
  show unitWord (BAY_ROWS_WR b)
  unfold unitWord BAY_ROWS_WR
  omega

theorem unitWrite (h : BayFree g) (t : State) (u : UnitUse) {b : Nat} (page row : Nat) (d : Row) (hb : b < 23) :
    g (t.unitWrite u b page row d) = g t := by
  have hc : g ((t.unitCharge u b (t.unitPacket u b page row true)).portRows false (bayDie b) 1) = g t :=
    (h.portRows _ _ _ (bayDie_lt hb)).trans (h.unitCharge _ _ _ hb)
  unfold State.unitWrite
  dsimp only
  split
  · exact (h.bayRefuse _ _ _ hb rfl).trans hc
  · exact (h.bayStore _ _ _ _ hb).trans hc

theorem listPage_lt {t : State} {slots : List Nat} {x p : Nat} (hp : t.listPage slots x = some p) : p / pagesPerBay < 23 := by
  unfold State.listPage at hp
  rw [Option.map_eq_some_iff] at hp
  obtain ⟨i, -, rfl⟩ := hp
  have : slotPage (t.slot i) < 2 ^ 20 := field_lt _ 44 20
  unfold pagesPerBay
  omega

theorem listPutRow (h : BayFree g) (t : State) (u : UnitUse) (slots : List Nat) (r : Nat) (d : Row) : g (t.listPutRow u slots r d) = g t := by
  unfold State.listPutRow State.atRow
  split
  next p hp => exact h.unitWrite _ _ _ _ _ (listPage_lt hp)
  · rfl

theorem listStore (h : BayFree g) (t : State) (slots : List Nat) (r d : Nat) : g (t.listStore slots r d) = g t := h.listPutRow _ _ _ _ _

theorem writeIndex (h : BayFree g) (t : State) (n e : Nat) (valid : Bool) : g (t.writeIndex n e valid) = g t :=
  each_eq g (fun _ _ => h.listStore _ _ _ _) _ _

theorem done (h : BayFree g) (t : State) {f : FieldRef} (hf : unitWord f.addr) : g (t.done f) = g t := by
  unfold State.done
  split
  · rfl
  · exact h.set _ _ hf

theorem endMove (h : BayFree g) (t : State) {b : Nat} (result : Nat) (hb : b < 23) (hm : ∀ m, (t.bay b).move = some m → m.slot < noSlot) :
    g (t.endMove b result) = g t := by
  have hstat : unitWord (BAY_MOVE_STAT b) ∧ unitWord (BAY_MOVE_CTL b) := by
    unfold unitWord BAY_MOVE_STAT BAY_MOVE_CTL
    omega
  unfold State.endMove
  split
  · rfl
  next m hmove =>
    dsimp only
    split
    · exact (h.done _ hstat.2).trans ((h.set _ _ hstat.1).trans ((h.set _ _ hstat.1).trans ((h.slot _ _ _ (hm m hmove)).trans (h.onBay _ _ _))))
    · rfl

theorem freeSlotOp (h : BayFree g) (t : State) (i : Nat) : g (t.freeSlotOp i).1 = g t := by
  unfold State.freeSlotOp
  split
  · rfl
  next hl =>
    have hi : i < noSlot := State.slotLive_lt (by simpa using hl)
    have hb : slotPage (t.slot i) / pagesPerBay < 23 := by
      have : slotPage (t.slot i) < 2 ^ 20 := field_lt _ 44 20
      unfold pagesPerBay
      omega
    dsimp only
    refine (h.set _ _ ⟨by decide, by decide⟩).trans ((h.retiring _ _).trans ((h.excused _ _ _).trans ((h.onBay _ _ _).trans ((h.slot _ _ _ hi).trans ?_))))
    split
    next m hm =>
      split
      next hs =>
        have hlt : m.slot < noSlot := hs ▸ hi
        exact h.endMove _ _ hb fun m' hm' => Option.some.inj (hm.symm.trans hm') ▸ hlt
      · rfl
    · rfl

theorem freeSlots (h : BayFree g) (t : State) (l : List Nat) : g (each (fun i (u : State) => (u.freeSlotOp i).1) l t) = g t :=
  each_eq g (fun i u => h.freeSlotOp u i) l t

theorem freeList (h : BayFree g) (t : State) (head : Nat) : g (t.freeList head) = g t := h.freeSlots _ _

end BayFree

/-- A word that is neither a Bay's, a port's nor the page map's. -/
theorem bayFree_rd {a : Nat} (h1 : ¬ unitWord a) (h2 : offMap a) : BayFree fun t => t.rd a where
  wr t b w hb := (t.rd_wr b w a).trans (if_neg (by rintro rfl; exact h1 hb))
  slot t _ _ hi := t.setSlot_rd hi h2
  strike _ _ _ := rfl
  credits _ _ := rfl
  overAt _ _ := rfl
  bays _ _ := rfl
  report _ _ := rfl
  retiring _ _ := rfl
  excused _ _ _ := rfl

/-- A part of the state that holds no words. -/
theorem bayFree_of {g : State → γ} (wr : ∀ (t : State) a w, g (t.wr a w) = g t) (strike : ∀ (t : State) a f, g (t.strike a f) = g t)
    (credits : ∀ (t : State) l, g { t with credits := l } = g t) (overAt : ∀ (t : State) l, g { t with overAt := l } = g t)
    (bays : ∀ (t : State) l, g { t with bays := l } = g t) (report : ∀ (t : State) r, g (t.report r) = g t)
    (retiring : ∀ (t : State) l, g { t with retiring := l } = g t) (parts : ∀ (t : State) l, g { t with parts := l } = g t) : BayFree g where
  wr t a w _ := wr t a w
  slot t i v _ := State.setSlot_same g wr t i v
  strike := strike
  credits := credits
  overAt := overAt
  bays := bays
  report := report
  retiring := retiring
  excused t _ _ := parts t _

end Units

end Sys2Proof.Machine

/-!
Request commands (R297 to R299, R322), and the way of a request out of the live states (R295).
-/

namespace Sys2Proof.Machine

/-! ### The request table -/

section Table

variable {s : State} {e n : Nat}

theorem State.sliceOwner_lt (h : s.sliceOwner e = some n) : n < 64 := by
  have := firstFrom_lt h
  omega

/-- A word of an entry is neither a Bay's nor the page map's. -/
theorem REQ_TABLE_bounds (he : e < 131072) {j : Nat} (hj : j < 32) : ¬ unitWord (REQ_TABLE e j) ∧ offMap (REQ_TABLE e j) := by
  unfold REQ_TABLE unitWord offMap
  omega

theorem REQ_TABLE_ne {j k : Nat} (h : j ≠ k) : REQ_TABLE e j ≠ REQ_TABLE e k := by
  unfold REQ_TABLE
  omega

theorem State.partEvt_onlyRegs (s : State) (n i : Nat) : s.onlyRegs (s.partEvt n i) [PART_EVT n] := by
  unfold State.partEvt
  split
  · exact s.onlyRegs_refl _
  · exact (s.onlyRegs_refl _).setBit

theorem BayFree.freeOwn {γ : Type} {g : State → γ} (h : BayFree g) (hreq : ∀ (t : State) l, g { t with reqs := l } = g t) (t : State) (n e : Nat) :
    g (t.freeOwn n e) = g t := by
  unfold State.freeOwn
  split
  · exact (hreq _ _).trans ((h.writeIndex _ _ _ _).trans (h.freeSlots _ _))
  · rfl

theorem BayFree.settleReq {γ : Type} {g : State → γ} (h : BayFree g) (hreq : ∀ (t : State) l, g { t with reqs := l } = g t) (t : State) (n e : Nat) :
    g (t.settleReq n e) = g t := by
  unfold State.settleReq
  split
  · exact h.freeOwn hreq _ _ _
  · rfl

/-- A live request that leaves has the state and the reason named (R295). -/
theorem State.leave_state (he : e < 131072) {code reason : Nat} (hc : code < 16) (hr : reason < 256)
    (hl : isLive (s.get (rqState e)) = true) :
    (s.leave n e code reason).get (rqState e) = code ∧ (s.leave n e code reason).get (rqReason e) = reason := by
  obtain ⟨u, hu⟩ : ∃ u, ((s.unadmit e).abortShip e (decide (s.get (rqState e) = 7 ∧ reason ≠ 8 ∧ reason ≠ 9))).lapse n e = u := ⟨_, rfl⟩
  have hset : ((u.set (rqState e) code).set (rqReason e) reason).get (rqState e) = code :=
    ((u.set (rqState e) code).get_set_apart (f := rqReason e) (g := rqState e) reason).trans (u.get_set_of_lt 4 hc)
  have hreason : ((u.set (rqState e) code).set (rqReason e) reason).get (rqReason e) = reason := State.get_set_of_lt _ 8 hr
  obtain ⟨v, hv⟩ : ∃ v, (u.set (rqState e) code).set (rqReason e) reason = v := ⟨_, rfl⟩
  rw [hv] at hset hreason
  have he' : s.leave n e code reason = ((v.onReq e fun q => { q with outcome := 0 }).partEvt n 0).settleReq n e := by
    unfold State.leave
    dsimp only
    rw [if_pos hl, hu, hv]
  obtain ⟨hb1, hb2⟩ := REQ_TABLE_bounds he (j := 0) (by omega)
  have hrd : (s.leave n e code reason).rd (REQ_TABLE e 0) = v.rd (REQ_TABLE e 0) := by
    rw [he', (bayFree_rd hb1 hb2).settleReq (fun _ _ => rfl)]
    refine ((v.onReq e fun q => { q with outcome := 0 }).partEvt_onlyRegs n 0).2 _ ?_
    unfold PART_EVT REQ_TABLE
    simp only [List.mem_singleton]
    omega
  exact ⟨(State.get_of_rd (f := rqState e) hrd).trans hset, (State.get_of_rd (f := rqReason e) hrd).trans hreason⟩

end Table

/-! ### Pairs of words -/

section Pairs

variable {s : State}

theorem State.setPair_rd (s : State) (lo hi v a : Nat) :
    (s.setPair lo hi v).rd a = if a = hi then BitVec.ofNat 32 (v >>> 32) else if a = lo then BitVec.ofNat 32 v else s.rd a := by
  unfold State.setPair
  rw [State.rd_wr, State.rd_wr]

theorem State.pair_setPair (s : State) {lo hi : Nat} (v : Nat) (h : lo ≠ hi) : (s.setPair lo hi v).pair lo hi = v % 2 ^ 64 := by
  unfold State.pair
  rw [State.setPair_rd, State.setPair_rd, if_neg h, if_pos rfl, if_pos rfl, BitVec.toNat_ofNat, BitVec.toNat_ofNat, Nat.shiftRight_eq_div_pow]
  omega

theorem State.pair_of_rd {t : State} {lo hi : Nat} (h1 : t.rd lo = s.rd lo) (h2 : t.rd hi = s.rd hi) : t.pair lo hi = s.pair lo hi := by
  unfold State.pair
  rw [h1, h2]

/-- Words set to zero one after another leave the others. -/
theorem State.each_wr_rd (f : Nat → Nat) (v : Word) {a : Nat} (l : List Nat) (h : ∀ w ∈ l, f w ≠ a) (s : State) :
    (each (fun w (t : State) => t.wr (f w) v) l s).rd a = s.rd a := by
  induction l generalizing s with
  | nil => rfl
  | cons w r ih =>
    refine (ih (fun x hx => h x (List.mem_cons_of_mem _ hx)) _).trans ((s.rd_wr _ _ _).trans (if_neg ?_))
    exact (h w List.mem_cons_self).symm

theorem State.each_wr_same {γ : Type} (g : State → γ) (hg : ∀ (t : State) a w, g (t.wr a w) = g t) (f : Nat → Nat) (v : Word) (l : List Nat) (s : State) :
    g (each (fun w (t : State) => t.wr (f w) v) l s) = g s := each_eq g (fun _ _ => hg _ _ _) l s

end Pairs

/-! ### Commands -/

section Commands

variable {s u : State} {acc e n op arg : Nat}

/-- What a request command answers with a status and a field. -/
theorem State.reqRun_eq {st f : Nat}
    (h : s.reqCmd op e ((s.rdAcc acc REQ_CMD_ARG_LO).toNat + 2 ^ 32 * (s.rdAcc acc REQ_CMD_ARG_HI).toNat) = (u, st, f)) (he : e < 131072) :
    s.reqRun acc op e = u.wrAcc acc REQ_CMD_RES (BitVec.ofNat 32 (st * 2 ^ 28 + f * 2 ^ 24 + e)) := by
  unfold State.reqRun
  dsimp only
  rw [h, Nat.mod_eq_of_lt (by omega : e < 2 ^ 17)]

/-- What a request command answers with status 0. -/
theorem State.reqRun_done (he : e < 131072)
    (h : s.reqCmd op e ((s.rdAcc acc REQ_CMD_ARG_LO).toNat + 2 ^ 32 * (s.rdAcc acc REQ_CMD_ARG_HI).toNat) = (u, 0, 0)) :
    s.reqRun acc op e = u.wrAcc acc REQ_CMD_RES (BitVec.ofNat 32 e) := by
  rw [State.reqRun_eq h he]
  exact congrArg (fun w => u.wrAcc acc REQ_CMD_RES (BitVec.ofNat 32 w)) (by omega)

theorem State.reqCmd_submit (ho : s.sliceOwner e = some n) (hb : s.on (PART_RST_busy n) = false) (hl : (s.part n).layout.isSome = true)
    (hc : s.get (rqState e) = 0) (hf : s.submitField n e = none) : s.reqCmd 1 e arg = (s.submit e, 0, 0) := by
  unfold State.reqCmd
  simp [ho, hb, Option.isSome_iff_ne_none.1 hl, hc, hf]

theorem State.reqCmd_refused {f : Nat} (ho : s.sliceOwner e = some n) (hb : s.on (PART_RST_busy n) = false) (hl : (s.part n).layout.isSome = true)
    (hc : s.get (rqState e) = 0) (hf : s.submitField n e = some f) : s.reqCmd 1 e arg = (s, 3, f) := by
  unfold State.reqCmd
  simp [ho, hb, Option.isSome_iff_ne_none.1 hl, hc, hf]

theorem State.reqCmd_cancel (ho : s.sliceOwner e = some n) (hb : s.on (PART_RST_busy n) = false) (hl : isLive (s.get (rqState e)) = true) :
    s.reqCmd 2 e arg = (s.leave n e 10 1, 0, 0) := by
  unfold State.reqCmd
  simp [ho, hb, hl]

theorem State.reqCmd_pause (ho : s.sliceOwner e = some n) (hb : s.on (PART_RST_busy n) = false)
    (hc : s.get (rqState e) = 2 ∨ s.get (rqState e) = 3 ∨ s.get (rqState e) = 4) :
    s.reqCmd 3 e arg = (((s.set (rqPausedFrom e) (s.get (rqState e))).set (rqState e) 5).lapse n e, 0, 0) := by
  unfold State.reqCmd
  simp only [ho, hb, if_pos hc]
  rfl

theorem State.reqCmd_resume (ho : s.sliceOwner e = some n) (hb : s.on (PART_RST_busy n) = false) (hc : s.get (rqState e) = 5) :
    s.reqCmd 4 e arg = (s.set (rqState e) (s.get (rqPausedFrom e)), 0, 0) := by
  unfold State.reqCmd
  simp [ho, hb, hc]

theorem State.reqCmd_release (ho : s.sliceOwner e = some n) (hb : s.on (PART_RST_busy n) = false) (hc : isTerminal (s.get (rqState e)) = true)
    (hs : s.settled n e = true) : s.reqCmd 5 e arg = (s.set (rqState e) 0, 0, 0) := by
  unfold State.reqCmd
  simp [ho, hb, hc, hs]

theorem State.reqCmd_deadline (ho : s.sliceOwner e = some n) (hb : s.on (PART_RST_busy n) = false) (hl : isLive (s.get (rqState e)) = true) :
    s.reqCmd 6 e arg = (s.setReqPair e 2 arg, 0, 0) := by
  unfold State.reqCmd
  simp [ho, hb, hl]

theorem State.onPfx_same {γ : Type} {g : State → γ} (h : ∀ (t : State) l, g { t with pfxs := l } = g t) (t : State) (k : Nat) (f : Pfx → Pfx) :
    g (t.onPfx k f) = g t := by
  unfold State.onPfx
  split
  · exact h _ _
  · rfl

/-- The words that a submission sets to zero (R291). -/
def submitZero : List Nat := [5, 6, 12, 13, 16, 17, 18, 19, 20, 22, 23] ++ (List.range 8).map (24 + ·)

/-- The engine's fields as a submission leaves them, before its words are set to zero. -/
def State.submitFields (s : State) (e : Nat) : State :=
  (((((s.set (rqState e) 1).set (rqReason e) 0).set (rqPriority e) (min (bits (s.ten (s.get (rqTenant e)) 0) 20 4) (s.get (rqPriority e)))).set
    (rqAdapterEpoch e) 0).wr (REQ_TABLE e 8) (BitVec.ofNat 32 noSlot)).setReqPair e 14 s.tick

theorem State.submit_same {γ : Type} {g : State → γ} (hp : ∀ (t : State) l, g { t with pfxs := l } = g t)
    (hr : ∀ (t : State) l, g { t with reqs := l } = g t) (s : State) (e : Nat) :
    g (s.submit e) = g (each (fun w (t : State) => t.wr (REQ_TABLE e w) 0) submitZero (s.submitFields e)) := by
  unfold State.submit
  dsimp only
  split
  · exact (State.onPfx_same hp _ _ _).trans (hr _ _)
  · exact hr _ _

theorem State.submit_rd (s : State) (e : Nat) {j : Nat} (hj : j ∉ submitZero) : (s.submit e).rd (REQ_TABLE e j) = (s.submitFields e).rd (REQ_TABLE e j) := by
  refine (State.submit_same (g := fun t => t.rd (REQ_TABLE e j)) (fun _ _ => rfl) (fun _ _ => rfl) s e).trans ?_
  refine State.each_wr_rd (REQ_TABLE e) 0 submitZero (fun w hw => REQ_TABLE_ne ?_) _
  rintro rfl
  exact hj hw

/-- What a submission leaves of the state but for the control words. -/
theorem State.submit_frame {γ : Type} {g : State → γ} (hp : ∀ (t : State) l, g { t with pfxs := l } = g t)
    (hr : ∀ (t : State) l, g { t with reqs := l } = g t) (hw : ∀ (t : State) a w, g (t.wr a w) = g t) (s : State) (e : Nat) : g (s.submit e) = g s := by
  refine (State.submit_same hp hr s e).trans ((State.each_wr_same g hw _ _ _ _).trans ?_)
  exact (hw _ _ _).trans ((hw _ _ _).trans ((hw _ _ _).trans ((hw _ _ _).trans ((hw _ _ _).trans ((hw _ _ _).trans (hw _ _ _))))))

/-- A request that is submitted is queued, its fields at the values R291 gives. -/
theorem State.submit_shows (s : State) (e : Nat) :
    (s.submit e).get (rqState e) = 1 ∧ (s.submit e).get (rqReason e) = 0 ∧
      (s.submit e).get (rqPriority e) = min (bits (s.ten (s.get (rqTenant e)) 0) 20 4) (s.get (rqPriority e)) ∧
      (s.submit e).get (rqKvHead e) = noSlot ∧ (s.submit e).reqPair e 14 = s.tick % 2 ^ 64 := by
  obtain ⟨p, hp⟩ : ∃ p, min (bits (s.ten (s.get (rqTenant e)) 0) 20 4) (s.get (rqPriority e)) = p := ⟨_, rfl⟩
  have hp16 : p < 2 ^ 4 := by
    have : s.get (rqPriority e) < 2 ^ 4 := field_lt _ 24 4
    omega
  have h0 : (s.submit e).rd (REQ_TABLE e 0) = (((s.set (rqState e) 1).set (rqReason e) 0).set (rqPriority e) p).rd (REQ_TABLE e 0) := by
    rw [State.submit_rd _ _ (by decide), State.submitFields, hp, State.setReqPair, State.setPair_rd, if_neg (REQ_TABLE_ne (by decide)),
      if_neg (REQ_TABLE_ne (by decide)), State.rd_wr, if_neg (REQ_TABLE_ne (by decide)), State.set_rd_ne _ _ _ _ (REQ_TABLE_ne (by decide))]
  have h8 : (s.submit e).rd (REQ_TABLE e 8) = BitVec.ofNat 32 noSlot := by
    rw [State.submit_rd _ _ (by decide), State.submitFields, State.setReqPair, State.setPair_rd, if_neg (REQ_TABLE_ne (by decide)),
      if_neg (REQ_TABLE_ne (by decide)), State.rd_wr, if_pos rfl]
  have h14 : (s.submit e).reqPair e 14 = (s.submitFields e).reqPair e 14 :=
    State.pair_of_rd (State.submit_rd _ _ (by decide)) (State.submit_rd _ _ (by decide))
  rw [hp]
  refine ⟨(State.get_of_rd (f := rqState e) h0).trans ?_, (State.get_of_rd (f := rqReason e) h0).trans ?_,
    (State.get_of_rd (f := rqPriority e) h0).trans (State.get_set_of_lt _ 4 hp16), ?_, h14.trans (State.pair_setPair _ _ (REQ_TABLE_ne (by decide)))⟩
  · rw [State.get_set_apart (f := rqPriority e), State.get_set_apart (f := rqReason e), State.get_set_of_lt (f := rqState e) _ 4 (by decide)]
  · rw [State.get_set_apart (f := rqPriority e), State.get_set_of_lt (f := rqReason e) _ 8 (by decide)]
  · show bits ((s.submit e).rd (REQ_TABLE e 8)) 0 20 = _
    rw [h8]
    decide

end Commands

theorem exec_reqCmd {acc e : Nat} {s : State} (ha : acc < accessors) (he : e < 131072) :
    exec (.reqSubmit acc e) s = .next (s.writeAt REQ_CMD fun s => s.reqRun acc 1 e) ∧
      exec (.reqCancel acc e) s = .next (s.writeAt REQ_CMD fun s => s.reqRun acc 2 e) ∧
      exec (.reqPause acc e) s = .next (s.writeAt REQ_CMD fun s => s.reqRun acc 3 e) ∧
      exec (.reqResume acc e) s = .next (s.writeAt REQ_CMD fun s => s.reqRun acc 4 e) ∧
      exec (.reqRelease acc e) s = .next (s.writeAt REQ_CMD fun s => s.reqRun acc 5 e) ∧
      exec (.reqDeadline acc e) s = .next (s.writeAt REQ_CMD fun s => s.reqRun acc 6 e) :=
  ⟨congrArg Host.Outcome.next (if_pos ⟨ha, he⟩), congrArg Host.Outcome.next (if_pos ⟨ha, he⟩), congrArg Host.Outcome.next (if_pos ⟨ha, he⟩),
    congrArg Host.Outcome.next (if_pos ⟨ha, he⟩), congrArg Host.Outcome.next (if_pos ⟨ha, he⟩), congrArg Host.Outcome.next (if_pos ⟨ha, he⟩)⟩

theorem State.wrAcc_keeps {s t : State} {as : List Nat} (h : s.keeps t as) (acc a : Nat) (v : Word) : s.keeps (t.wrAcc acc a v) as :=
  h.same (State.wrAcc_same State.ctl (fun _ _ => rfl) _ _ _ _)

theorem State.wrAcc_shape (s : State) (acc a : Nat) (v : Word) : ∃ l, s.wrAcc acc a v = { s with banked := l } := ⟨_, rfl⟩

theorem State.setReqPair_shape (s : State) (e w v : Nat) : ∃ c, s.setReqPair e w v = { s with ctl := c } := ⟨_, rfl⟩

/-- Settles O31. -/
theorem requestCommandsAnswerAndAct : Obligations.RequestCommandsAnswerAndAct := by
  intro acc e n s hacc he hopen ho hb
  obtain ⟨x1, x2, x3, x4, x5, x6⟩ := exec_reqCmd (s := s) hacc he
  have hn := State.sliceOwner_lt ho
  refine ⟨fun hl hc hf => runs_writeAt x1 hopen ?_, fun hl hc f hf => runs_writeAt x1 hopen ?_,
    fun hl => ⟨runs_writeAt x2 hopen ?_, runs_writeAt x6 hopen ?_⟩, fun hc => runs_writeAt x3 hopen ?_, fun hc => runs_writeAt x4 hopen ?_,
    fun hc hs => runs_writeAt x5 hopen ?_, fun hop => runs_writeAt (congrArg Host.Outcome.next (if_pos hn)) hop ?_⟩
  · obtain ⟨h1, h2, h3, h4, h5⟩ := s.submit_shows e
    rw [State.reqRun_done he (State.reqCmd_submit ho hb hl hc hf)]
    exact ⟨(State.wrAcc_get _ _ _ _ _).trans h1, (State.wrAcc_get _ _ _ _ _).trans h2, State.rdAcc_wrAcc _ _ _ _, (State.wrAcc_get _ _ _ _ _).trans h3,
      (State.wrAcc_get _ _ _ _ _).trans h4, (State.wrAcc_same (fun t => t.reqPair e 14) (fun _ _ => rfl) _ _ _ _).trans h5,
      (State.wrAcc_same State.cores (fun _ _ => rfl) _ _ _ _).trans (State.submit_frame (fun _ _ => rfl) (fun _ _ => rfl) (fun _ _ _ => rfl) s e),
      (State.wrAcc_bays _ _ _ _).trans (State.submit_frame (fun _ _ => rfl) (fun _ _ => rfl) (fun _ _ _ => rfl) s e)⟩
  · rw [State.reqRun_eq (State.reqCmd_refused ho hb hl hc hf) he]
    obtain ⟨l, hw⟩ := s.wrAcc_shape acc REQ_CMD_RES (BitVec.ofNat 32 (3 * 2 ^ 28 + f * 2 ^ 24 + e))
    exact ⟨State.rdAcc_wrAcc _ _ _ _, by rw [hw]⟩
  · obtain ⟨h1, h2⟩ := State.leave_state (n := n) he (code := 10) (reason := 1) (by decide) (by decide) hl
    rw [State.reqRun_done he (State.reqCmd_cancel ho hb hl)]
    exact ⟨(State.wrAcc_get _ _ _ _ _).trans h1, (State.wrAcc_get _ _ _ _ _).trans h2, State.rdAcc_wrAcc _ _ _ _⟩
  · rw [State.reqRun_done he (State.reqCmd_deadline ho hb hl)]
    obtain ⟨arg, harg⟩ : ∃ arg, (s.rdAcc acc REQ_CMD_ARG_LO).toNat + 2 ^ 32 * (s.rdAcc acc REQ_CMD_ARG_HI).toNat = arg := ⟨_, rfl⟩
    have hlt : arg < 2 ^ 64 := by
      have h1 := (s.rdAcc acc REQ_CMD_ARG_LO).isLt
      have h2 := (s.rdAcc acc REQ_CMD_ARG_HI).isLt
      omega
    rw [harg]
    obtain ⟨c, hv⟩ := s.setReqPair_shape e 2 arg
    obtain ⟨l, hw⟩ := (s.setReqPair e 2 arg).wrAcc_shape acc REQ_CMD_RES (BitVec.ofNat 32 e)
    refine ⟨?_, State.rdAcc_wrAcc _ _ _ _, State.wrAcc_keeps ?_ _ _ _, by rw [hw, hv]⟩
    · refine (State.wrAcc_same (fun t => t.deadline e) (fun _ _ => rfl) _ _ _ _).trans ?_
      exact (s.pair_setPair arg (REQ_TABLE_ne (by decide))).trans (Nat.mod_eq_of_lt hlt)
    · exact ((s.keeps_refl _).wr).wr (.tail _ (.head _))
  · rw [State.reqRun_done he (State.reqCmd_pause ho hb hc)]
    have hc8 : s.get (rqState e) < 2 ^ 8 := by omega
    have hstate := (s.set (rqPausedFrom e) (s.get (rqState e))).get_set_of_lt (f := rqState e) 4 (show 5 < 2 ^ 4 by decide)
    have hfrom := ((s.set (rqPausedFrom e) (s.get (rqState e))).get_set_addr (rqState e) (rqPausedFrom e) 5 (REQ_TABLE_ne (by decide))).trans
      (s.get_set_of_lt (f := rqPausedFrom e) 8 hc8)
    have hkeep : s.keeps ((s.set (rqPausedFrom e) (s.get (rqState e))).set (rqState e) 5) [REQ_TABLE e 0, REQ_TABLE e 22] :=
      ((s.keeps_refl _).set (f := rqPausedFrom e) (.tail _ (.head _))).set
    obtain ⟨v, hv⟩ : ∃ v, (s.set (rqPausedFrom e) (s.get (rqState e))).set (rqState e) 5 = v := ⟨_, rfl⟩
    rw [hv] at hstate hfrom hkeep ⊢
    refine ⟨(State.wrAcc_get _ _ _ _ _).trans hstate, (State.wrAcc_get _ _ _ _ _).trans hfrom, State.rdAcc_wrAcc _ _ _ _, fun r hr => ?_,
      State.wrAcc_keeps (hkeep.same rfl) acc REQ_CMD_RES (BitVec.ofNat 32 e)⟩
    have hpart : (((v.lapse n e).wrAcc acc REQ_CMD_RES (BitVec.ofNat 32 e)).part n).resvs = (v.part n).resvs.filter (fun r => r.req != e) := by
      have h1 : ((v.lapse n e).wrAcc acc REQ_CMD_RES (BitVec.ofNat 32 e)).part n = (v.lapse n e).part n := State.wrAcc_same (fun t => t.part n) (fun _ _ => rfl) _ _ _ _
      rw [h1, State.lapse, State.part_onPart, if_pos rfl]
    rw [hpart] at hr
    simpa using (List.mem_filter.1 hr).2
  · rw [State.reqRun_done he (State.reqCmd_resume ho hb hc)]
    obtain ⟨c, hv⟩ := s.set_shape (rqState e) (s.get (rqPausedFrom e))
    obtain ⟨l, hw⟩ := (s.set (rqState e) (s.get (rqPausedFrom e))).wrAcc_shape acc REQ_CMD_RES (BitVec.ofNat 32 e)
    refine ⟨(State.wrAcc_get _ _ _ _ _).trans (s.get_set_fits (f := rqState e) _), State.rdAcc_wrAcc _ _ _ _,
      State.wrAcc_keeps (s.keeps_refl _).set _ _ _, ?_⟩
    rw [hw, hv]
  · rw [State.reqRun_done he (State.reqCmd_release ho hb hc hs)]
    obtain ⟨c, hv⟩ := s.set_shape (rqState e) 0
    obtain ⟨l, hw⟩ := (s.set (rqState e) 0).wrAcc_shape acc REQ_CMD_RES (BitVec.ofNat 32 e)
    refine ⟨(State.wrAcc_get _ _ _ _ _).trans (s.get_set_of_lt (f := rqState e) 4 (by decide)), State.rdAcc_wrAcc _ _ _ _,
      State.wrAcc_keeps (s.keeps_refl _).set _ _ _, ?_⟩
    rw [hw, hv]
  · exact ⟨State.get_setOn _ true, ((s.onlyRegs_refl _).askFor _).setOn⟩

end Sys2Proof.Machine

/-!
Prefixes and adapters: their commands, and the pages that a handle gives back (R338, R341, R352, R375, R382).
-/

namespace Sys2Proof.Machine

section Events

variable {s : State} {n : Nat}

/-- An event of a partition that no reset holds is raised (R396). -/
theorem State.partEvt_raised {i : Nat} (hi : i < 32) (h : s.evtHeld n = false) : (s.partEvt n i).bitOn (PART_EVT n) i = true := by
  unfold State.partEvt
  rw [h, if_neg Bool.false_ne_true]
  exact State.setBit_bitOn_same _ _ hi

theorem State.evtHeld_of_busy (h : s.on (PART_RST_busy n) = false) : s.evtHeld n = false := by
  unfold State.evtHeld
  rw [h]
  rfl

theorem State.partEvt_same {γ : Type} {g : State → γ} (hw : ∀ (t : State) a w, g (t.wr a w) = g t) (hs : ∀ (t : State) a f, g (t.strike a f) = g t)
    (t : State) (n i : Nat) : g (t.partEvt n i) = g t := by
  unfold State.partEvt
  split
  · rfl
  · exact (hs _ _ _).trans (hw _ _ _)

end Events

section Prefixes

variable {s u : State} {acc n op h st r : Nat}

theorem State.pfxRun_eq (hb : s.on (PART_RST_busy n) = false)
    (hc : s.pfxCmd n op ((List.range 4).map (fun i => (s.rdAcc acc (PART_PFX_ARG n i)).toNat)) = (u, 0, r)) :
    s.pfxRun acc n op = u.wrAcc acc (PART_PFX_RES n) (BitVec.ofNat 32 r) := by
  unfold State.pfxRun
  dsimp only
  rw [hb, if_neg Bool.false_ne_true, hc, Nat.zero_mul]
  exact congrArg (fun w => u.wrAcc acc (PART_PFX_RES n) (BitVec.ofNat 32 w)) (Nat.zero_add r)

/-- CREATE takes the lowest free handle for a list that suits (R338). -/
theorem State.pfxCreate_done {y : Layout} {l : List Nat} {head positions key : Nat} (hy : (s.part n).layout = some y) (h0 : positions ≠ 0)
    (h64 : positions % 64 = 0) (hlt : positions < 2 ^ 24) (hl : s.roPinned n head = some l)
    (hlen : ceilDiv (positions * y.serve.kvRows) 32768 ≤ l.length) (hf : firstFrom (fun h => (s.pfx h).isNone) 0 1024 = some h) :
    ∃ p : Pfx, s.pfxCreate n head positions key = ({ s with pfxs := put s.pfxs h p }, 0, h) ∧ p.owner = n ∧ p.destroying = false ∧
      p.positions = positions ∧ p.head = head ∧ p.pages = l.length ∧ p.key = key ∧ p.queued = 0 ∧ p.refs = 0 := by
  unfold State.pfxCreate
  rw [hy]
  dsimp only
  rw [if_neg (by omega), hl]
  dsimp only
  rw [if_neg (by omega), hf]
  exact ⟨_, rfl, rfl, rfl, rfl, rfl, rfl, rfl, rfl, rfl⟩

theorem State.pfx_put (s : State) (h : Nat) (p : Pfx) (g : Nat) : ({ s with pfxs := put s.pfxs h p } : State).pfx g = if g = h then some p else s.pfx g :=
  lookup?_put _ _ _ _

/-- A prefix that nobody uses gives up its handle and its pages (R341). -/
theorem State.prefixFree_shows {p : Pfx} (hn : n < 64) (hp : s.pfx h = some p) (ho : p.owner = n) (hd : p.destroying = true) (hq : p.queued = 0)
    (hr : p.refs = 0) (hb : s.on (PART_RST_busy n) = false) (hc : s.cycle % 256 = 0)
    (ha : s.on (BEAT_PLAN_CTL_active n) = false ∨ s.atBoundary n = true) :
    (s.prefixFree h).pfx h = none ∧ (∀ g, g ≠ h → (s.prefixFree h).pfx g = s.pfx g) ∧
      (s.prefixFree h).bitOn (PART_EVT n) 5 = true ∧ (s.prefixFree h).cores = s.cores := by
  obtain ⟨v, hv⟩ : ∃ v, each (fun i (t : State) => (t.freeSlotOp i).1) (s.listFrom p.pages p.head) { s with pfxs := del s.pfxs h } = v := ⟨_, rfl⟩
  have he : s.prefixFree h = v.partEvt n 5 := by
    unfold State.prefixFree
    rw [hp]
    dsimp only
    rw [ho, if_pos ⟨hc, by simpa using ha⟩]
    unfold State.freePfx
    rw [hp]
    dsimp only
    rw [if_pos ⟨hd, hq, hr⟩, hv, ho]
  have hfree : ∀ {γ : Type} (g : State → γ), BayFree g → g v = g { s with pfxs := del s.pfxs h } := fun g hg => hv ▸ hg.freeSlots _ _
  have hpfx : v.pfxs = del s.pfxs h := hfree State.pfxs (bayFree_of (fun _ _ _ => rfl) (fun _ _ _ => rfl) (fun _ _ => rfl) (fun _ _ => rfl)
    (fun _ _ => rfl) (fun _ _ => rfl) (fun _ _ => rfl) (fun _ _ => rfl))
  have hcores : v.cores = s.cores := hfree State.cores (bayFree_of (fun _ _ _ => rfl) (fun _ _ _ => rfl) (fun _ _ => rfl) (fun _ _ => rfl)
    (fun _ _ => rfl) (fun _ _ => rfl) (fun _ _ => rfl) (fun _ _ => rfl))
  have hbusy : v.on (PART_RST_busy n) = false := (State.on_of_rd (f := PART_RST_busy n)
    (hfree _ (bayFree_rd (a := PART_RST n) (by unfold unitWord PART_RST; omega) (by unfold offMap PART_RST; omega)))).trans hb
  have hevt : ∀ {γ : Type} (g : State → γ), (∀ (t : State) a w, g (t.wr a w) = g t) → (∀ (t : State) a f, g (t.strike a f) = g t) → g (v.partEvt n 5) = g v :=
    fun g hw hs => State.partEvt_same hw hs v n 5
  have hpfx' : (v.partEvt n 5).pfxs = del s.pfxs h := (hevt State.pfxs (fun _ _ _ => rfl) fun _ _ _ => rfl).trans hpfx
  rw [he]
  refine ⟨?_, fun g hg => ?_, State.partEvt_raised (by decide) (State.evtHeld_of_busy hbusy),
    (hevt State.cores (fun _ _ _ => rfl) fun _ _ _ => rfl).trans hcores⟩
  · rw [State.pfx, hpfx']
    exact lookup?_del_self _ _
  · rw [State.pfx, hpfx']
    exact (lookup?_del _ _ _).trans (if_neg hg)

theorem State.pfxDestroy_done {p : Pfx} (hp : s.pfx h = some p) (ho : p.owner = n) (hd : p.destroying = false) :
    s.pfxDestroy n h = ({ s with pfxs := put s.pfxs h { p with destroying := true } }, 0, h) := by
  unfold State.pfxDestroy
  rw [hp]
  dsimp only
  rw [if_pos ⟨ho, by rw [hd]; rfl⟩, State.onPfx, hp]

end Prefixes

/-! ### Adapters -/

section Adapters

variable {s u : State} {acc n op h r ep : Nat} {arg : List Nat}

theorem State.adpRun_eq (hb : s.on (PART_RST_busy n) = false)
    (hc : s.adpCmd n op ((List.range 4).map (fun i => (s.rdAcc acc (PART_ADP_ARG n i)).toNat)) = (u, 0, ep, r)) :
    s.adpRun acc n op = u.wrAcc acc (PART_ADP_RES n) (BitVec.ofNat 32 (ep * 2 ^ 20 + r)) := by
  unfold State.adpRun
  dsimp only
  rw [hb, if_neg Bool.false_ne_true, hc, Nat.zero_mul]
  exact congrArg (fun w => u.wrAcc acc (PART_ADP_RES n) (BitVec.ofNat 32 (w + r))) (Nat.zero_add _)

theorem State.adp_put (s : State) (h : Nat) (p : Adp) (g : Nat) : ({ s with adps := put s.adps h p } : State).adp g = if g = h then some p else s.adp g :=
  lookup?_put _ _ _ _

/-- ADD takes the lowest free handle (R375). -/
theorem State.adpAdd_done {k : Nat} {a : Adp} (hd : s.dirReady n = true) (h1 : 1 ≤ arg.getD 1 0 % 2 ^ 7) (h64 : arg.getD 1 0 % 2 ^ 7 ≤ 64)
    (hm : field (arg.getD 1 0) 16 16 = s.modelOf n) (hl : s.adpList n (arg.getD 0 0 % 2 ^ 20) (arg.getD 2 0 % 2 ^ 9) = true)
    (hf : firstFrom (fun k => (s.adp k).isNone) 0 4096 = some k)
    (ha : a = ⟨n, field (arg.getD 1 0) 16 16, false, false, 0, some ⟨0, arg.getD 0 0 % 2 ^ 20, arg.getD 2 0 % 2 ^ 9, arg.getD 1 0 % 2 ^ 7, 0, false⟩, none⟩) :
    s.adpCmd n 1 arg = ({ s with adps := put s.adps k a }, 0, 0, k) := by
  have hno : ¬((arg.getD 1 0 % 2 ^ 7 = 0 ∨ 64 < arg.getD 1 0 % 2 ^ 7) ∨ field (arg.getD 1 0) 16 16 ≠ s.modelOf n) := by
    rintro (h | h)
    · omega
    · exact h hm
  simp only [State.adpCmd, hd, hl, hf, if_neg hno, ha, Bool.not_true, Bool.false_eq_true, if_false]

/-- REPLACE gives the handle its next epoch (R375). -/
theorem State.adpReplace_done {x : Adp} (hd : s.dirReady n = true) (hx : s.adp (arg.getD 3 0 % 2 ^ 12) = some x) (ho : x.owner = n)
    (hr : x.removing = false) (hs : (if (x.cur + 1) % 256 % 2 = 0 then x.slot0 else x.slot1) = none) (h1 : 1 ≤ arg.getD 1 0 % 2 ^ 7)
    (h64 : arg.getD 1 0 % 2 ^ 7 ≤ 64) (hm : field (arg.getD 1 0) 16 16 = x.model)
    (hl : s.adpList n (arg.getD 0 0 % 2 ^ 20) (arg.getD 2 0 % 2 ^ 9) = true) :
    ∃ y : Adp, s.adpCmd n 2 arg = ({ s with adps := put s.adps (arg.getD 3 0 % 2 ^ 12) y }, 0, (x.cur + 1) % 256, arg.getD 3 0 % 2 ^ 12) ∧
      y.cur = (x.cur + 1) % 256 ∧ y.owner = n ∧
      y.slot y.cur = some ⟨y.cur, arg.getD 0 0 % 2 ^ 20, arg.getD 2 0 % 2 ^ 9, arg.getD 1 0 % 2 ^ 7, 0, false⟩ := by
  have hbusy : (if (x.cur + 1) % 256 % 2 = 0 then x.slot0.isSome else x.slot1.isSome) = false := by
    rw [← apply_ite Option.isSome, hs]
    rfl
  have hown : ¬(x.owner ≠ n ∨ x.removing = true ∨ (if (x.cur + 1) % 256 % 2 = 0 then x.slot0.isSome else x.slot1.isSome) = true) := by
    rw [hr, hbusy]
    simp [ho]
  have hno : ¬((arg.getD 1 0 % 2 ^ 7 = 0 ∨ 64 < arg.getD 1 0 % 2 ^ 7) ∨ field (arg.getD 1 0) 16 16 ≠ x.model) := by
    rintro (h | h)
    · omega
    · exact h hm
  simp only [State.adpCmd, hd, hx, hl, if_neg hown, if_neg hno, Bool.not_true, Bool.false_eq_true, if_false]
  refine ⟨_, rfl, ?_, ?_, ?_⟩
  · split <;> rfl
  · split <;> exact ho
  · unfold Adp.slot
    split
    · simp
    · simp

theorem State.adpRemove_done {x : Adp} {v : State} (hx : s.adp (arg.getD 3 0 % 2 ^ 12) = some x) (ho : x.owner = n) (hr : x.removing = false)
    (hf : arg.getD 0 0 % 2 = 0) (hv : v = { s with adps := put s.adps (arg.getD 3 0 % 2 ^ 12) { x with removing := true, force := false } }) :
    s.adpCmd n 3 arg = (if v.adpNames n (arg.getD 3 0 % 2 ^ 12) liveCodes = [] then v.freeAdp (arg.getD 3 0 % 2 ^ 12) else v, 0, x.cur,
        arg.getD 3 0 % 2 ^ 12) := by
  have hno : ¬(x.owner ≠ n ∨ x.removing = true ∨ ((0 == 1) = true ∧ s.adpNames n (arg.getD 3 0 % 2 ^ 12) [1, 5] ≠ [])) := by
    simp [ho, hr]
  have hfb : (0 == 1) = false := rfl
  simp only [State.adpCmd, hx, hf, if_neg hno]
  rw [hfb, ← hv]

theorem State.freeEpoch_adps (s : State) (n : Nat) (x : AdpEpoch) : (s.freeEpoch n x).adps = s.adps :=
  (State.partEvt_same (g := State.adps) (fun _ _ _ => rfl) (fun _ _ _ => rfl) _ _ _).trans
    ((bayFree_of (g := State.adps) (fun _ _ _ => rfl) (fun _ _ _ => rfl) (fun _ _ => rfl) (fun _ _ => rfl)
      (fun _ _ => rfl) (fun _ _ => rfl) (fun _ _ => rfl) (fun _ _ => rfl)).freeSlots _ _)

theorem State.freeAdp_adps {x : Adp} (hx : s.adp h = some x) : (s.freeAdp h).adps = del s.adps h := by
  unfold State.freeAdp
  rw [hx]
  dsimp only
  exact each_eq State.adps (fun y t => t.freeEpoch_adps x.owner y) _ _

end Adapters

/-- What a command's answer leaves of the prefixes and of the adapters. -/
theorem State.wrAcc_handles (s : State) (acc a : Nat) (v : Word) (g : Nat) :
    (s.wrAcc acc a v).pfx g = s.pfx g ∧ (s.wrAcc acc a v).adp g = s.adp g :=
  ⟨State.wrAcc_same (fun t => t.pfx g) (fun _ _ => rfl) _ _ _ _, State.wrAcc_same (fun t => t.adp g) (fun _ _ => rfl) _ _ _ _⟩

/-- A prefix stored, and the command answered. -/
theorem State.pfxStored_shows {s : State} {acc h a : Nat} {p : Pfx} {v : Word} (t : State) (ht : ({ s with pfxs := put s.pfxs h p } : State).wrAcc acc a v = t) :
    t.pfx h = some p ∧ t.rdAcc acc a = v ∧ (∀ g, g ≠ h → t.pfx g = s.pfx g) ∧ t = { s with pfxs := t.pfxs, banked := t.banked } := by
  obtain ⟨b, hw⟩ := State.wrAcc_shape { s with pfxs := put s.pfxs h p } acc a v
  have hans := State.rdAcc_wrAcc { s with pfxs := put s.pfxs h p } acc a v
  rw [ht] at hw hans
  have hp : ∀ g, t.pfx g = if g = h then some p else s.pfx g := fun g => by
    rw [← ht, (State.wrAcc_handles _ _ _ _ _).1, State.pfx_put]
  exact ⟨(hp h).trans (if_pos rfl), hans, fun g hg => (hp g).trans (if_neg hg), by rw [hw]⟩

/-- An adapter stored, and the command answered. -/
theorem State.adpStored_shows {s : State} {acc h a : Nat} {p : Adp} {v : Word} (t : State) (ht : ({ s with adps := put s.adps h p } : State).wrAcc acc a v = t) :
    t.adp h = some p ∧ t.rdAcc acc a = v ∧ (∀ g, g ≠ h → t.adp g = s.adp g) ∧ t = { s with adps := t.adps, banked := t.banked } := by
  obtain ⟨b, hw⟩ := State.wrAcc_shape { s with adps := put s.adps h p } acc a v
  have hans := State.rdAcc_wrAcc { s with adps := put s.adps h p } acc a v
  rw [ht] at hw hans
  have hp : ∀ g, t.adp g = if g = h then some p else s.adp g := fun g => by
    rw [← ht, (State.wrAcc_handles _ _ _ _ _).2, State.adp_put]
  exact ⟨(hp h).trans (if_pos rfl), hans, fun g hg => (hp g).trans (if_neg hg), by rw [hw]⟩

/-- Settles O32. -/
theorem prefixAndAdapterCommandsAnswer : Obligations.PrefixAndAdapterCommandsAnswer := by
  intro acc n s hacc hn hb
  refine ⟨fun hop => ⟨fun y l h hy h0 h64 hl hlen hf => ?_, fun p hp ho hd => ?_⟩,
    fun h p hh hp ho hd hq hr hc ha => runs_next (congrArg Host.Outcome.next (if_pos hh)) ?_,
    fun hop => ⟨fun k hd h1 h64 hm hl hf => ?_, fun x hd hx ho hr hs h1 h64 hm hl => ?_, fun x hx ho hr hf => ?_⟩⟩
  · refine runs_writeAt (congrArg Host.Outcome.next (if_pos ⟨hacc, hn⟩)) hop ?_
    obtain ⟨p, he, h1, h2, h3, h4, h5, h6, h7, h8⟩ := State.pfxCreate_done
      (key := (s.rdAcc acc (PART_PFX_ARG n 2)).toNat + 2 ^ 32 * (s.rdAcc acc (PART_PFX_ARG n 3)).toNat)
      hy h0 (by omega) (Nat.mod_lt _ (by decide)) hl hlen hf
    rw [State.pfxRun_eq (op := 1) hb he]
    obtain ⟨t1, t2, t3, t4⟩ := State.pfxStored_shows (p := p) _ rfl
    exact ⟨⟨p, t1, h1, h2, h3, h4, h5, h6, h7, h8⟩, t2, t3, t4⟩
  · refine runs_writeAt (congrArg Host.Outcome.next (if_pos ⟨hacc, hn⟩)) hop ?_
    rw [State.pfxRun_eq (op := 2) hb (State.pfxDestroy_done hp ho hd)]
    obtain ⟨t1, t2, -, t4⟩ := State.pfxStored_shows (p := { p with destroying := true }) _ rfl
    exact ⟨t1, t2, t4⟩
  · obtain ⟨h1, h2, h3, h4⟩ := State.prefixFree_shows hn hp ho hd hq hr hb hc ha
    exact ⟨h1, h2, fun _ => h3, h4⟩
  · refine runs_writeAt (congrArg Host.Outcome.next (if_pos ⟨hacc, hn⟩)) hop ?_
    rw [State.adpRun_eq (op := 1) hb (State.adpAdd_done hd h1 h64 hm hl hf rfl), Nat.zero_mul, Nat.zero_add]
    exact State.adpStored_shows _ rfl
  · refine runs_writeAt (congrArg Host.Outcome.next (if_pos ⟨hacc, hn⟩)) hop ?_
    obtain ⟨y, he, y1, y2, y3⟩ := State.adpReplace_done
      (arg := (List.range 4).map fun i => (s.rdAcc acc (PART_ADP_ARG n i)).toNat) hd hx ho hr hs h1 h64 hm hl
    rw [State.adpRun_eq hb he]
    obtain ⟨t1, t2, -, t4⟩ := State.adpStored_shows (p := y) _ rfl
    exact ⟨⟨y, t1, y1, y2, y3⟩, t2, t4⟩
  · refine runs_writeAt (congrArg Host.Outcome.next (if_pos ⟨hacc, hn⟩)) hop ?_
    obtain ⟨h, hh⟩ : ∃ h, (s.rdAcc acc (PART_ADP_ARG n 3)).toNat % 2 ^ 12 = h := ⟨_, rfl⟩
    obtain ⟨v, hv⟩ : ∃ v : State, v = { s with adps := put s.adps h { x with removing := true, force := false } } := ⟨_, rfl⟩
    have he := State.adpRemove_done (arg := (List.range 4).map fun i => (s.rdAcc acc (PART_ADP_ARG n i)).toNat) (v := v) hx ho hr hf (hh ▸ hv)
    have hnames : v.adpNames n h liveCodes = s.adpNames n h liveCodes := by
      rw [hv]
      rfl
    have hva : ∀ g, v.adp g = if g = h then some { x with removing := true, force := false } else s.adp g := fun g => by
      rw [hv, State.adp_put]
    have hh' : ((List.range 4).map fun i => (s.rdAcc acc (PART_ADP_ARG n i)).toNat).getD 3 0 % 2 ^ 12 = h := hh
    rw [hh', hnames] at he
    rw [State.adpRun_eq hb he, hh]
    obtain ⟨u, hu, huadp⟩ : ∃ u : State, (if s.adpNames n h liveCodes = [] then v.freeAdp h else v) = u ∧
        ∀ g, u.adp g = if g = h then (if s.adpNames n h liveCodes = [] then none else some { x with removing := true, force := false }) else s.adp g := by
      split
      · refine ⟨_, rfl, fun g => ?_⟩
        rw [State.adp, State.freeAdp_adps ((hva h).trans (if_pos rfl)), lookup?_del]
        by_cases hg : g = h
        · rw [if_pos hg, if_pos hg]
        · rw [if_neg hg, if_neg hg]
          exact (hva g).trans (if_neg hg)
      · exact ⟨v, rfl, hva⟩
    rw [hu]
    exact ⟨(State.wrAcc_handles _ _ _ _ _).2.trans ((huadp h).trans (if_pos rfl)),
      fun g hg => (State.wrAcc_handles _ _ _ _ _).2.trans ((huadp g).trans (if_neg hg)), State.rdAcc_wrAcc _ _ _ _⟩

end Sys2Proof.Machine

/-!
Received frames, rows that the units read, and the versions of connections (R207, R433, R435).
-/

namespace Sys2Proof.Machine

/-! ### Rows that a unit reads -/

section Reads

variable {γ : Type} {g : State → γ}

/-- What rows read by a unit have no part in: no word, no credit, no report, no home and no mark of a Bay (R207, R208). -/
structure ReadFree (g : State → γ) : Prop where
  wr : ∀ (t : State) a w, g (t.wr a w) = g t
  strike : ∀ (t : State) a f, g (t.strike a f) = g t
  credits : ∀ (t : State) l, g { t with credits := l } = g t
  overAt : ∀ (t : State) l, g { t with overAt := l } = g t
  report : ∀ (t : State) r, g (t.report r) = g t
  homes : ∀ (t : State) l, g { t with homes := l } = g t
  marks : ∀ (t : State) b m, g (t.setBay b { t.bay b with marks := m }) = g t

namespace ReadFree

theorem bump (h : ReadFree g) (t : State) (f : FieldRef) (n : Nat) : g (t.bump f n) = g t := (h.strike _ _ _).trans (h.wr _ _ _)

theorem recordFirst (h : ReadFree g) (t : State) (a v : Nat) : g (t.recordFirst a v) = g t := by
  unfold State.recordFirst
  split
  · rfl
  · exact (h.strike _ _ _).trans (h.wr _ _ _)

theorem countPort (h : ReadFree g) (t : State) (port : Nat) : g (t.countPort port) = g t := by
  unfold State.countPort
  dsimp only
  rw [h.overAt]
  split
  · exact h.bump _ _ _
  · rfl

theorem setCredit (h : ReadFree g) (t : State) (port part : Nat) (c : Int) : g (t.setCredit port part c) = g t := by
  unfold State.setCredit
  dsimp only
  rw [h.countPort]
  split
  · exact (h.strike _ _ _).trans ((h.wr _ _ _).trans (h.credits _ _))
  · exact h.credits _ _

theorem bayCharge (h : ReadFree g) (t : State) (b n : Nat) (pk : Packet) : g (t.bayCharge b n pk) = g t := by
  unfold State.bayCharge
  split
  · rfl
  · exact h.setCredit _ _ _ _

theorem bayEcc (h : ReadFree g) (t : State) (b page row : Nat) (patrol : Bool) (o : Option Nat) : g (t.bayEcc b page row patrol o) = g t :=
  State.bayEcc_same g (fun v m => h.marks v b m) h.wr h.strike h.report h.homes t page row patrol o

theorem bayRows (h : ReadFree g) (t : State) (b page : Nat) (rows : List Nat) (o : Option Nat) : g (t.bayRows b page rows o) = g t :=
  (h.bump _ _ _).trans ((h.bump _ _ _).trans (each_eq g (fun _ _ => h.bayEcc _ _ _ _ _ _) _ _))

/-- A refusal of a unit's row, which has no notice (R212). -/
theorem bayRefuse (h : ReadFree g) (t : State) (b cause : Nat) {pk : Packet} (write : Bool) (hs : pk.source = 0x3FFF) :
    g (t.bayRefuse b cause pk write) = g t := by
  unfold State.bayRefuse
  dsimp only
  rw [hs, if_neg (by decide)]
  exact (h.report _ _).trans ((h.recordFirst _ _ _).trans (h.bump _ _ _))

theorem unitRead (h : ReadFree g) (t : State) (u : UnitUse) (b page row : Nat) : g (t.unitRead u b page row) = g t := by
  have hc : g (t.unitCharge u b (t.unitPacket u b page row false)) = g t := by
    unfold State.unitCharge
    split
    · rfl
    · exact h.bayCharge _ _ _ _
  unfold State.unitRead
  dsimp only
  split
  · exact (h.bayRefuse _ _ _ _ rfl).trans hc
  · exact (h.bayRows _ _ _ _ _).trans hc

theorem listRead (h : ReadFree g) (t : State) (u : UnitUse) (slots : List Nat) (r n : Nat) : g (t.listRead u slots r n) = g t :=
  each_eq g (fun j v => by
    unfold State.atRow
    split
    · exact h.unitRead _ _ _ _ _
    · rfl) _ _

theorem groupRead (h : ReadFree g) (t : State) (slots : List Nat) (pages k : Nat) (lost : List Nat) : g (t.groupRead slots pages k lost) = g t :=
  each_eq g (fun j v => by
    split
    · rfl
    · exact h.listRead _ _ _ _ _) _ _

end ReadFree

/-- The data of a Bay. -/
theorem readFree_mem (b : Nat) : ReadFree fun t => (t.bay b).mem where
  wr _ _ _ := rfl
  strike _ _ _ := rfl
  credits _ _ := rfl
  overAt _ _ := rfl
  report _ _ := rfl
  homes _ _ := rfl
  marks t c m := by
    rw [State.bay_setBay]
    split
    next h => rw [h]
    · rfl

end Reads

/-! ### Received frames -/

section Received

variable {s u : State} {k : Nat}

/-- The state `t` differs from `s` in its ports, what it has sent and the words of the ports alone. -/
def State.onlyPorts (s t : State) : Prop :=
  t = { s with ports := t.ports, outbox := t.outbox, ctl := t.ctl, now := t.now } ∧ ∀ a, a < 0x600000 → t.rd a = s.rd a

theorem State.onlyPorts.refl (s : State) : s.onlyPorts s := ⟨rfl, fun _ _ => rfl⟩

/-- A bump of a port's count beside a change of the port and a frame sent. -/
theorem State.onlyPorts.bumped {p n : Nat} {x : Port} {e : Emission} {f : FieldRef} (hf : 0x600000 ≤ f.addr) :
    s.onlyPorts (((s.setPort p x).bump f n).emit e) := by
  obtain ⟨h1, h2⟩ := ((s.setPort p x).onlyRegs_refl [f.addr]).bump (f := f) (n := n)
  obtain ⟨v, hv⟩ : ∃ v, (s.setPort p x).bump f n = v := ⟨_, rfl⟩
  rw [hv] at h1 h2 ⊢
  refine ⟨?_, fun a ha => (h2 a (by simp only [List.mem_singleton]; omega))⟩
  rw [h1]
  rfl

theorem State.flowControl_onlyPorts (s : State) (p prio : Nat) : s.onlyPorts (s.flowControl p prio) := by
  have hf : 0x600000 ≤ (LINK_P_PFC_TX_count p).addr := by
    show 0x600000 ≤ LINK_P_PFC_TX p
    unfold LINK_P_PFC_TX
    omega
  unfold State.flowControl
  dsimp only
  split
  · exact .bumped hf
  · split
    · exact .bumped hf
    · exact .refl s

/-- A frame that is done with has left its buffer. -/
theorem State.rxDone_onlyPorts {r : Rx} (h : s.rx[k]? = some r) : State.onlyPorts { s with rx := eraseAt s.rx k } (s.rxDone k) := by
  unfold State.rxDone
  rw [h]
  exact State.flowControl_onlyPorts _ _ _

theorem State.rxFrame_some {kind : Nat} {r : Rx} (h : s.rxFrame k kind = some r) : s.rx[k]? = some r ∧ r.frame.kind = kind := by
  unfold State.rxFrame at h
  split at h
  next x hx =>
    split at h
    next hk =>
      cases h
      exact ⟨hx, hk⟩
    · cases h
  · cases h

end Received

/-! ### Versions -/

section Versions

variable {s t u : State}

/-- The connections are the same, with the same versions and the same numbers expected. -/
def State.sameVersions (s t : State) : Prop :=
  ∀ p m, (t.conn p m).map (fun c => (c.version, c.nextRx)) = (s.conn p m).map (fun c => (c.version, c.nextRx))

namespace State.sameVersions

theorem refl (s : State) : s.sameVersions s := fun _ _ => rfl

theorem of_conns (h : s.sameVersions t) (hc : u.conns = t.conns) : s.sameVersions u := fun p m => by
  unfold State.conn
  rw [hc]
  exact h p m

theorem setConn (h : s.sameVersions t) {p m : Nat} {c d : Conn} (hc : t.conn p m = some c) (hv : d.version = c.version ∧ d.nextRx = c.nextRx) :
    s.sameVersions (t.setConn p m d) := fun q k => by
  refine Eq.trans ?_ (h q k)
  unfold State.conn at hc ⊢
  unfold State.setConn
  dsimp only
  rw [lookup?_put]
  split
  next he => rw [he, hc, Option.map_some, Option.map_some, hv.1, hv.2]
  · rfl

theorem depart (h : s.sameVersions t) (p : Nat) (q : Queued) : s.sameVersions (t.depart p q) := by
  unfold State.depart
  split
  · exact h.of_conns rfl
  · split
    · exact h
    next c hc =>
      split
      · exact h.setConn hc ⟨rfl, rfl⟩
      · refine State.sameVersions.of_conns (h.setConn hc ?_) rfl
        exact ⟨rfl, rfl⟩

theorem nextFrame {p i : Nat} {v : State} (h : s.sameVersions t) (hn : t.nextFrame p = some (i, v)) : s.sameVersions v := by
  refine h.of_conns ?_
  unfold State.nextFrame at hn
  dsimp only at hn
  split at hn
  · cases hn
    rfl
  · split at hn
    · cases hn
    next n _ =>
      rw [Option.map_eq_some_iff] at hn
      obtain ⟨x, -, he⟩ := hn
      cases he
      obtain ⟨r, y, hg⟩ := t.granted_shape (linkArbiter p) t.linkShare ((List.range 64).filter fun n =>
        (((List.range (t.port p).egress.length).zip (t.port p).egress).filter fun x => t.mayLeave p x.2.frame.prio).any fun x =>
          x.2.owner.getD 0 == n) n
      rw [hg]
      split <;> rfl

theorem drain (p fuel : Nat) (h : s.sameVersions t) : s.sameVersions (State.drain p fuel t) := by
  induction fuel generalizing t with
  | zero => exact h
  | succ n ih =>
    unfold State.drain
    split
    · exact h
    next i v hn =>
      split
      · exact h.nextFrame hn
      · refine ih (State.sameVersions.depart ?_ _ _)
        exact State.sameVersions.of_conns (t := v) (h.nextFrame hn) rfl

theorem send (h : s.sameVersions t) (p : Nat) (q : Queued) : s.sameVersions (t.send p q) := drain p _ (h.of_conns rfl)

theorem sendTo (h : s.sameVersions t) (m kind part word : Nat) (payload : List Byte) : s.sameVersions (t.sendTo m kind part word payload).1 := by
  unfold State.sendTo
  split
  · exact h
  · unfold State.sendSeq
    split
    · exact h
    · exact h.send _ _

/-- Whether a connection's version lets a kind pass is the same. -/
theorem tooOld (h : s.sameVersions t) (m kind : Nat) : t.tooOld m kind = s.tooOld m kind := by
  have h1 : ∀ p, (t.conn p m).isSome = (s.conn p m).isSome := fun p => by
    have := congrArg Option.isSome (h p m)
    simpa using this
  have h2 : ∀ p (f : Nat → Bool), (t.conn p m).any (fun c => f c.version) = (s.conn p m).any (fun c => f c.version) := fun p f => by
    have := congrArg (fun o => o.any fun x => f x.1) (h p m)
    rwa [Option.any_map, Option.any_map] at this
  unfold State.tooOld State.portTo State.portFor
  rw [firstFrom_congr h1, firstFrom_congr fun p => h2 p fun v => decide (kindVersion kind ≤ v)]

end State.sameVersions

end Versions

end Sys2Proof.Machine

/-!
Shipments: their messages, the answers to them and what ends them (R342 to R357).
-/

namespace Sys2Proof.Machine

/-! ### Requests that leave with their shipments -/

section Leaving

variable {s : State} {e n : Nat}

theorem State.ship_onlyLinks (s : State) (m : Nat) (msg : List Byte) : s.onlyLinks (s.ship m msg).1 := (State.onlyLinks.refl s).sendTo _ _ _ _ _

theorem State.onlyLinks.each {α : Type} {f : α → State → State} {t : State} (hf : ∀ a u, s.onlyLinks u → s.onlyLinks (f a u)) (l : List α)
    (h : s.onlyLinks t) : s.onlyLinks (each f l t) := each_keeps s.onlyLinks hf l t h

/-- The messages that end shipments are sent once the shipments are gone (R350). -/
theorem State.abortShip_onlyLinks (s : State) (e : Nat) (named : Bool) : (s.dropShips e).onlyLinks (s.abortShip e named) :=
  State.onlyLinks.each (fun _ u h => h.trans (u.ship_onlyLinks _ _)) _ (.refl _)

theorem State.dropShips_gone (s : State) (e : Nat) : lookup? (s.dropShips e).shipOut e = none ∧ lookup? (s.dropShips e).shipIn e = none :=
  ⟨lookup?_del_self _ _, lookup?_del_self _ _⟩

/-- Fields that hold no word, no handle and no request's own state. -/
structure ReqFree {γ : Type} (g : State → γ) : Prop where
  wr : ∀ (t : State) a w, g (t.wr a w) = g t
  strike : ∀ (t : State) a f, g (t.strike a f) = g t
  credits : ∀ (t : State) l, g { t with credits := l } = g t
  overAt : ∀ (t : State) l, g { t with overAt := l } = g t
  bays : ∀ (t : State) l, g { t with bays := l } = g t
  report : ∀ (t : State) r, g (t.report r) = g t
  retiring : ∀ (t : State) l, g { t with retiring := l } = g t
  parts : ∀ (t : State) l, g { t with parts := l } = g t
  reqs : ∀ (t : State) l, g { t with reqs := l } = g t

theorem ReqFree.bayFree {γ : Type} {g : State → γ} (h : ReqFree g) : BayFree g :=
  bayFree_of h.wr h.strike h.credits h.overAt h.bays h.report h.retiring h.parts

/-- What a live request that leaves does after it has ended its shipments. -/
theorem State.leave_eq {code reason : Nat} (hl : isLive (s.get (rqState e)) = true) :
    ∃ named, s.leave n e code reason = (((((((s.unadmit e).abortShip e named).lapse n e).set (rqState e) code).set (rqReason e) reason).onReq e
      (fun q => { q with outcome := 0 })).partEvt n 0).settleReq n e := by
  unfold State.leave
  dsimp only
  rw [if_pos hl]
  exact ⟨_, rfl⟩

theorem ReqFree.leave_live {γ : Type} {g : State → γ} (h : ReqFree g) {code reason : Nat} (hl : isLive (s.get (rqState e)) = true) :
    ∃ named, g (s.leave n e code reason) = g ((s.unadmit e).abortShip e named) := by
  obtain ⟨named, he⟩ := State.leave_eq (n := n) (code := code) (reason := reason) hl
  refine ⟨named, ?_⟩
  rw [he, h.bayFree.settleReq h.reqs, State.partEvt_same h.wr h.strike, State.onReq, h.reqs, State.set, h.wr, State.set, h.wr]
  exact h.parts _ _

/-- A record of shipments that `abortShip` ends is gone when the request has left, where it was gone before or the request was live. -/
theorem ReqFree.leave_none {α : Type} {g : State → Option α} (h : ReqFree g) (hd : ∀ (v : State) b, g (v.abortShip e b) = none)
    {code reason : Nat} (hs : g s = none) : g (s.leave n e code reason) = none := by
  by_cases hl : isLive (s.get (rqState e)) = true
  · obtain ⟨b, hb⟩ := h.leave_live (n := n) (code := code) (reason := reason) hl
    exact hb.trans (hd _ b)
  · have he : s.leave n e code reason = s := if_neg hl
    rw [he]
    exact hs

/-- Words that the failure of a shipment touches beside its request's (R349). -/
theorem State.shipFail_rd (s : State) {a : Nat} (h1 : a ≠ PART_SHIP_FAILED n) (h2 : a ≠ PART_EVT n) :
    (s.shipFail n e).rd a = (s.leave n e 11 8).rd a := by
  unfold State.shipFail
  refine ((State.partEvt_onlyRegs _ n 4).2 a (by simpa using h2)).trans ?_
  exact (((s.leave n e 11 8).onlyRegs_refl [PART_SHIP_FAILED n]).bump (f := PART_SHIP_FAILED_count n)).2 a (by simpa using h1)

/-- A shipment that fails takes its request to FAULTED with reason 8 (R349). -/
theorem State.shipFail_state (he : e < 131072) (hl : isLive (s.get (rqState e)) = true) :
    (s.shipFail n e).get (rqState e) = 11 ∧ (s.shipFail n e).get (rqReason e) = 8 := by
  obtain ⟨h1, h2⟩ := State.leave_state (n := n) he (code := 11) (reason := 8) (by decide) (by decide) hl
  have hrd : (s.shipFail n e).rd (REQ_TABLE e 0) = (s.leave n e 11 8).rd (REQ_TABLE e 0) :=
    s.shipFail_rd (by unfold REQ_TABLE PART_SHIP_FAILED; omega) (by unfold REQ_TABLE PART_EVT; omega)
  exact ⟨(State.get_of_rd (f := rqState e) hrd).trans h1, (State.get_of_rd (f := rqReason e) hrd).trans h2⟩

theorem State.shipFail_same {γ : Type} {g : State → γ} (wr : ∀ (t : State) a w, g (t.wr a w) = g t)
    (strike : ∀ (t : State) a f, g (t.strike a f) = g t) (s : State) (n e : Nat) : g (s.shipFail n e) = g (s.leave n e 11 8) :=
  (State.partEvt_same wr strike _ _ _).trans ((strike _ _ _).trans (wr _ _ _))

theorem ReqFree.shipFail_none {α : Type} {g : State → Option α} (h : ReqFree g) (hd : ∀ (v : State) b, g (v.abortShip e b) = none)
    (hs : g s = none) : g (s.shipFail n e) = none :=
  (State.shipFail_same h.wr h.strike s n e).trans (h.leave_none hd hs)

theorem reqFree_out (e : Nat) : ReqFree fun t => lookup? t.shipOut e :=
  ⟨fun _ _ _ => rfl, fun _ _ _ => rfl, fun _ _ => rfl, fun _ _ => rfl, fun _ _ => rfl, fun _ _ => rfl, fun _ _ => rfl, fun _ _ => rfl, fun _ _ => rfl⟩

theorem reqFree_in (e : Nat) : ReqFree fun t => lookup? t.shipIn e :=
  ⟨fun _ _ _ => rfl, fun _ _ _ => rfl, fun _ _ => rfl, fun _ _ => rfl, fun _ _ => rfl, fun _ _ => rfl, fun _ _ => rfl, fun _ _ => rfl, fun _ _ => rfl⟩

theorem State.abortShip_out (s : State) (e : Nat) (b : Bool) : lookup? (s.abortShip e b).shipOut e = none :=
  ((s.abortShip_onlyLinks e b).same (g := fun t => lookup? t.shipOut e) fun _ _ _ _ _ _ => rfl).trans (s.dropShips_gone e).1

theorem State.abortShip_in (s : State) (e : Nat) (b : Bool) : lookup? (s.abortShip e b).shipIn e = none :=
  ((s.abortShip_onlyLinks e b).same (g := fun t => lookup? t.shipIn e) fun _ _ _ _ _ _ => rfl).trans (s.dropShips_gone e).2

theorem State.shipFail_out (h : lookup? s.shipOut e = none) : lookup? (s.shipFail n e).shipOut e = none :=
  (reqFree_out e).shipFail_none (fun v b => v.abortShip_out e b) h

theorem State.shipFail_in (h : lookup? s.shipIn e = none) : lookup? (s.shipFail n e).shipIn e = none :=
  (reqFree_in e).shipFail_none (fun v b => v.abortShip_in e b) h

end Leaving

/-! ### Messages received -/

section Received

variable {s : State} {k n e module : Nat} {m : List Byte}

/-- A message received leaves its buffer, and nothing but its port sees that. -/
theorem State.shipRx_onlyPorts {type : Nat} (h : s.shipRx k type = some (module, m)) :
    State.onlyPorts { s with rx := eraseAt s.rx k } (s.rxDone k) := by
  unfold State.shipRx at h
  split at h
  next r hr => exact State.rxDone_onlyPorts (State.rxFrame_some hr).1
  · cases h

/-- What the ports have no part in is the same once a message has left its buffer. -/
theorem State.rxDone_same {γ : Type} {g : State → γ} {type : Nat} (h : s.shipRx k type = some (module, m))
    (hg : ∀ P O C N, g { s with rx := eraseAt s.rx k, ports := P, outbox := O, ctl := C, now := N } = g { s with rx := eraseAt s.rx k }) :
    g (s.rxDone k) = g { s with rx := eraseAt s.rx k } :=
  (congrArg g (State.shipRx_onlyPorts h).1).trans (hg _ _ _ _)

theorem State.inOf_some {i : ShipIn} (h : s.inOf module m = some (n, e, i)) :
    lookup? s.shipIn e = some i ∧ s.sliceOwner e = some n ∧ e < 131072 := by
  unfold State.inOf at h
  dsimp only at h
  split at h
  next i' n' h1 h2 =>
    split at h
    · cases h
      exact ⟨h1, h2, Nat.mod_lt _ (by decide)⟩
    · cases h
  · cases h

theorem State.outOf_some {o : ShipOut} (h : s.outOf module m = some (n, e, o)) :
    lookup? s.shipOut e = some o ∧ s.sliceOwner e = some n ∧ e < 131072 := by
  unfold State.outOf at h
  dsimp only at h
  split at h
  next o' n' h1 h2 =>
    split at h
    · cases h
      exact ⟨h1, h2, Nat.mod_lt _ (by decide)⟩
    · cases h
  · cases h

theorem State.answer_onlyLinks (s : State) (e : Nat) (p : ShipPeer) (group status : Nat) : s.onlyLinks (s.answer e p group status) :=
  s.ship_onlyLinks _ _

/-- An OPEN accepted is a shipment with its parity slot, at its first group (R346). -/
theorem State.acceptOpen_shows (s : State) (e module x : Nat) (m : List Byte) :
    ∃ i, lookup? (s.acceptOpen e module x m).shipIn e = some i ∧ i.parity = x ∧ i.module = module ∧ i.group = 0 ∧ i.done = false ∧
      (s.acceptOpen e module x m).shipWait = s.shipWait := by
  obtain ⟨i, hi⟩ : ∃ i : ShipIn, i = ⟨msgNum m 0x0C 4, module, msgNum m 4 4, msgNum m 44 4, x, 0, [], none, 0, false, m.drop 32⟩ := ⟨_, rfl⟩
  have hl : ({ s with shipIn := put s.shipIn e i }.onReq e (fun q => { q with since := s.mark, outcome := 0 })).onlyLinks
      (s.acceptOpen e module x m) := by
    rw [hi]
    exact State.answer_onlyLinks _ _ _ _ _
  refine ⟨i, ?_, by rw [hi], by rw [hi], by rw [hi], by rw [hi], hl.same (g := State.shipWait) fun _ _ _ _ _ _ => rfl⟩
  exact (hl.same (g := fun t => lookup? t.shipIn e) fun _ _ _ _ _ _ => rfl).trans (by
    show lookup? (put s.shipIn e i) e = _
    rw [lookup?_put, if_pos rfl])

theorem State.listFrom_shipWait (s : State) (l : List ShipWait) :
    ∀ fuel i, State.listFrom { s with shipWait := l } fuel i = s.listFrom fuel i
  | 0, _ => rfl
  | fuel + 1, i => by
    have h1 : State.slotLive { s with shipWait := l } i = s.slotLive i := rfl
    have h2 : State.slot { s with shipWait := l } i = s.slot i := rfl
    rw [State.listFrom, State.listFrom, State.listFrom_shipWait, h1, h2]

/-- Parity slots are free whatever waits for them. -/
theorem State.freeParity_shipWait (s : State) (l : List ShipWait) (n : Nat) : State.freeParity { s with shipWait := l } n = s.freeParity n := by
  have h1 : State.shipsOf { s with shipWait := l } n = s.shipsOf n := rfl
  have h2 : ∀ r, State.pagesRec { s with shipWait := l } n r = s.pagesRec n r := fun r => by
    unfold State.pagesRec
    simp only [State.listFrom_shipWait]
    rfl
  have h3 : State.get { s with shipWait := l } (PART_SHIP_BUF_rec n) = s.get (PART_SHIP_BUF_rec n) := s.get_of_ctl rfl _
  unfold State.freeParity State.paritySlots
  rw [h1, h2, h3]

/-- An OPEN that R346 accepts is placed. -/
theorem State.shipOpen_placed (h : s.shipRx k 1 = some (module, m)) (hh : headOk m = true)
    (ho : (s.rxDone k).sliceOwner (msgNum m 8 4 % 2 ^ 17) = some n) (h2 : (s.rxDone k).openTwice (msgNum m 8 4 % 2 ^ 17) module m = false)
    (hk : (s.rxDone k).openOk n (msgNum m 8 4 % 2 ^ 17) module m = true) :
    s.shipOpen k = (s.rxDone k).placeOpen n (msgNum m 8 4 % 2 ^ 17) module m := by
  simp only [State.shipOpen, h, hh, h2, ho, hk, Bool.not_true, Bool.or_self, Bool.false_eq_true, if_false, if_true]

/-- The same OPEN of a request that has a shipment takes its parity slot; a first one takes a free one (R346, log entry 60). -/
theorem State.placeOpen_taken {x : Nat} (h : (lookup? s.shipIn e).map (·.parity) = some x ∨
      lookup? s.shipIn e = none ∧ s.freeParity n = some x ∧ (∀ w ∈ s.shipWait, w.part = n → w.req = e)) :
    ∃ u : State, s.placeOpen n e module m = u.acceptOpen e module x m := by
  refine ⟨{ s with shipWait := s.shipWait.filter (fun w => w.req != e) }, ?_⟩
  unfold State.placeOpen
  dsimp only
  obtain h | ⟨hn, hf, hw⟩ := h
  · obtain ⟨i, hi, hx⟩ := Option.map_eq_some_iff.1 h
    rw [hi, ← hx]
  · have hany : (s.shipWait.filter (fun w => w.req != e)).any (fun w => w.part == n) = false := by
      simp only [List.any_eq_false, List.mem_filter, bne_iff_ne, beq_iff_eq]
      exact fun w ⟨hm, hne⟩ hp => hne (hw w hm hp)
    rw [hn, hany, State.freeParity_shipWait, hf]

/-- An OPEN waits where no parity slot is free, or another of its partition waits (R346). -/
theorem State.placeOpen_waits (hn : lookup? s.shipIn e = none) (h : s.freeParity n = none ∨ ∃ w ∈ s.shipWait, w.part = n ∧ w.req ≠ e) :
    s.placeOpen n e module m = { s with shipWait := s.shipWait.filter (fun w => w.req != e) ++ [⟨n, e, module, m⟩] } := by
  unfold State.placeOpen
  dsimp only
  rw [hn]
  dsimp only
  obtain hf | ⟨w, hw, hp, hne⟩ := h
  · rw [State.freeParity_shipWait, hf]
  · have hany : (s.shipWait.filter (fun w => w.req != e)).any (fun w => w.part == n) = true :=
      List.any_eq_true.2 ⟨w, List.mem_filter.2 ⟨hw, bne_iff_ne.2 hne⟩, beq_iff_eq.2 hp⟩
    rw [hany]
    cases State.freeParity { s with shipWait := s.shipWait.filter (fun w => w.req != e) } n <;> rfl

end Received

/-! ### Groups received -/

section Groups

variable {s : State} {k n e module : Nat} {m : List Byte} {i : ShipIn}

theorem BayFree.shipRow {γ : Type} {g : State → γ} (h : BayFree g) (t : State) (n e : Nat) (i : ShipIn) (shard r : Nat) (d : Row) :
    g (t.shipRow n e i shard r d) = g t := by
  unfold State.shipRow
  split <;> exact h.listPutRow _ _ _ _ _

/-- A field that the Bays, words and reports have no part in stays as rows of shards are written. -/
theorem bayFree_rx : BayFree State.rx :=
  bayFree_of (fun _ _ _ => rfl) (fun _ _ _ => rfl) (fun _ _ => rfl) (fun _ _ => rfl) (fun _ _ => rfl) (fun _ _ => rfl) (fun _ _ => rfl) (fun _ _ => rfl)

/-- DATA of the group under way is kept and leaves its buffer (R347). -/
theorem State.shipData_kept (hr : s.shipRx k 2 = some (module, m)) (hin : (s.rxDone k).inOf module m = some (n, e, i)) (hd : i.done = false)
    (hg : msgNum m 0x10 2 = i.group) (hgot : i.got.contains (2048 * msgNum m 0x12 1 + msgNum m 0x14 4 / 128) = false)
    (ho : msgNum m 0x14 4 < shardRows i.pages i.group (msgNum m 0x12 1)) (hs : msgNum m 0x12 1 ≤ 17) :
    lookup? (s.shipData k).shipIn e = some { i with
        got := (2048 * msgNum m 0x12 1 + msgNum m 0x14 4 / 128) :: i.got, first := some (i.first.getD s.tick) } ∧
      (s.shipData k).rx = eraseAt s.rx k := by
  obtain ⟨j, hj⟩ : ∃ j : ShipIn, j = { i with
    got := (2048 * msgNum m 0x12 1 + msgNum m 0x14 4 / 128) :: i.got, first := some (i.first.getD s.tick) } := ⟨_, rfl⟩
  have he : s.shipData k = ((each (fun j (t : State) => t.shipRow n e i (msgNum m 0x12 1) (msgNum m 0x14 4 + j) (byteRow (m.drop 32) j))
      (List.range 128) (s.rxDone k)).setIn e j).onReq e (fun q => { q with since := s.mark }) := by
    simp only [State.shipData, hr, hin]
    rw [if_neg (by simp only [hd, hg, hgot]; simp; omega), hj]
  have hx : (each (fun j (t : State) => t.shipRow n e i (msgNum m 0x12 1) (msgNum m 0x14 4 + j) (byteRow (m.drop 32) j))
      (List.range 128) (s.rxDone k)).rx = eraseAt s.rx k :=
    (each_eq State.rx (fun j t => bayFree_rx.shipRow t n e i _ _ _) _ _).trans (State.rxDone_same (g := State.rx) hr fun _ _ _ _ => rfl)
  rw [he, ← hj]
  obtain ⟨v, hv⟩ : ∃ v, each (fun j (t : State) => t.shipRow n e i (msgNum m 0x12 1) (msgNum m 0x14 4 + j) (byteRow (m.drop 32) j))
      (List.range 128) (s.rxDone k) = v := ⟨_, rfl⟩
  rw [hv] at hx ⊢
  exact ⟨(lookup?_put v.shipIn e j e).trans (if_pos rfl), hx⟩

/-- Changes that alter nothing leave the state as it is. -/
theorem each_idle {σ α : Type} {f : α → σ → σ} (l : List α) (hf : ∀ a ∈ l, ∀ s, f a s = s) (s : σ) : each f l s = s := by
  induction l with
  | nil => rfl
  | cons a r ih =>
    show each f r (f a s) = s
    rw [hf a (.head _), ih fun b hb => hf b (.tail _ hb)]

theorem ShipIn.lost_nil (h : ∀ q, q < shardRows i.pages i.group 0 / 128 → i.lacking q = []) :
    (List.range 18).filter (fun k => (List.range (shardRows i.pages i.group 0 / 128)).any (fun u => (i.lacking u).contains k)) = [] := by
  refine List.filter_eq_nil_iff.2 fun k _ hk => ?_
  obtain ⟨u, hu, hc⟩ := List.any_eq_true.1 hk
  rw [h u (List.mem_range.1 hu)] at hc
  simp at hc

theorem State.setIn_outcome (v : State) (e : Nat) (j : ShipIn) :
    (((v.setIn e j).onReq e (fun q => { q with outcome := 1 })).req e).outcome = 1 := by
  unfold State.onReq State.req
  dsimp only
  rw [lookupD_put, if_pos rfl]

/-- A whole group is done with: the next is begun, and after the last the request has its outcome (R347). -/
theorem State.shipEval_whole (h : ∀ q, q < shardRows i.pages i.group 0 / 128 → i.lacking q = []) :
    lookup? (s.shipEval n e i).shipIn e = some { i with
        group := i.group + 1, got := [], first := none, nacks := 0, done := decide (i.pages ≤ 128 * (i.group + 1)) } ∧
      (i.pages ≤ 128 * (i.group + 1) → ((s.shipEval n e i).req e).outcome = 1) ∧ (s.shipEval n e i).bays = s.bays := by
  obtain ⟨j, hj⟩ : ∃ j : ShipIn, j = { i with
    group := i.group + 1, got := [], first := none, nacks := 0, done := decide (i.pages ≤ 128 * (i.group + 1)) } := ⟨_, rfl⟩
  have hall : (List.range (shardRows i.pages i.group 0 / 128)).all (fun u => decide ((i.lacking u).length ≤ 2)) = true :=
    List.all_eq_true.2 fun u hu => by rw [h u (List.mem_range.1 hu)]; rfl
  have hlost := ShipIn.lost_nil h
  have he : s.shipEval n e i = (fun v : State => if decide (i.pages ≤ 128 * (i.group + 1)) then (v.setIn e j).onReq e (fun q => { q with outcome := 1 })
      else v.setIn e j) ((s.bump (PART_SHIP_REBUILT_count n) 0).answer e ⟨i.module, i.sreq, i.ship⟩ i.group 4) := by
    unfold State.shipEval
    dsimp only
    rw [if_pos hall, hlost, if_pos rfl, each_idle _ fun u hu t => by rw [h u (List.mem_range.1 hu)]; rfl, hj]
    rfl
  have hbump : (s.bump (PART_SHIP_REBUILT_count n) 0).bays = s.bays := State.bump_bays ..
  obtain ⟨u, hu⟩ : ∃ u, s.bump (PART_SHIP_REBUILT_count n) 0 = u := ⟨_, rfl⟩
  rw [hu] at hbump he
  have hb : (u.answer e ⟨i.module, i.sreq, i.ship⟩ i.group 4).bays = s.bays :=
    ((u.answer_onlyLinks _ _ _ _).same (g := State.bays) fun _ _ _ _ _ _ => rfl).trans hbump
  obtain ⟨v, hv⟩ : ∃ v, u.answer e ⟨i.module, i.sreq, i.ship⟩ i.group 4 = v := ⟨_, rfl⟩
  rw [hv] at hb
  rw [he, hv, ← hj]
  dsimp only
  split
  next hc => exact ⟨(lookup?_put v.shipIn e j e).trans (if_pos rfl), fun _ => v.setIn_outcome e j, hb⟩
  next hc => exact ⟨(lookup?_put v.shipIn e j e).trans (if_pos rfl), fun h => absurd (decide_eq_true h) hc, hb⟩

/-- END of the group under way evaluates it (R347). -/
theorem State.shipEnd_eq (hr : s.shipRx k 3 = some (module, m)) (hin : (s.rxDone k).inOf module m = some (n, e, i)) (hd : i.done = false)
    (hg : msgNum m 0x10 2 = i.group) : s.shipEnd k = ((s.rxDone k).onReq e (fun q => { q with since := s.mark })).shipEval n e i := by
  simp only [State.shipEnd, hr, hin]
  rw [if_neg (by simp [hd, hg])]

/-- The wait for a group that is not done yet evaluates it once it has run out (log entry 60). -/
theorem State.shipWaitEnd_eq {t0 : Nat} (hi : lookup? s.shipIn e = some i) (ho : s.sliceOwner e = some n) (hf : i.first = some t0) (hd : i.done = false) :
    s.shipWaitEnd e = if t0 + s.get (PART_SHIP_WAIT_ticks n) ≤ s.tick then s.shipEval n e { i with first := some s.tick } else s := by
  simp only [State.shipWaitEnd, hi, ho, hf, hd, Option.any_some, Bool.not_false, Bool.and_true, decide_eq_true_eq]

end Groups

/-! ### Groups sent and their answers -/

section Sent

variable {s : State} {k n e module : Nat} {m : List Byte} {o : ShipOut}

/-- Messages of a group go out over the links once the rows lost have been read. -/
theorem State.sendShards_links (s : State) (e : Nat) (o : ShipOut) (shards : List Nat) :
    ∃ l, (s.groupRead (s.ownSlots e) (s.ownSlots e).length o.group l).onlyLinks (s.sendShards e o shards) ∧
      (s.groupRead (s.ownSlots e) (s.ownSlots e).length o.group l).sameVersions (s.sendShards e o shards) := by
  refine ⟨if shards.any (16 ≤ ·) then [] else (List.range 16).filter (fun k => !shards.contains k), ?_, ?_⟩
  · exact (State.onlyLinks.each (fun _ _ h => .each (fun _ _ h => h.sendTo _ _ _ _ _) _ h) shards (.refl _)).sendTo _ _ _ _ _
  · exact (each_keeps (State.sameVersions _) (fun _ _ h => each_keeps (State.sameVersions _) (fun _ _ h => h.sendTo _ _ _ _ _) _ _ h) shards _
      (.refl _)).sendTo _ _ _ _ _

/-- What the rows read for a group and the messages of it leave as it was. -/
theorem State.sendShards_same {γ : Type} {g : State → γ} (h : ReadFree g)
    (hg : ∀ t : State, ∀ P C O R T X, g { t with ports := P, conns := C, outbox := O, rotors := R, turns := T, classTurn := X } = g t)
    (s : State) (e : Nat) (o : ShipOut) (shards : List Nat) : g (s.sendShards e o shards) = g s := by
  obtain ⟨l, hl, -⟩ := s.sendShards_links e o shards
  exact (hl.same (hg _)).trans (h.groupRead _ _ _ _ _)

theorem readFree_conns : ReadFree State.conns :=
  ⟨fun _ _ _ => rfl, fun _ _ _ => rfl, fun _ _ => rfl, fun _ _ => rfl, fun _ _ => rfl, fun _ _ => rfl, fun _ _ _ => rfl⟩

theorem readFree_shipOut : ReadFree State.shipOut :=
  ⟨fun _ _ _ => rfl, fun _ _ _ => rfl, fun _ _ => rfl, fun _ _ => rfl, fun _ _ => rfl, fun _ _ => rfl, fun _ _ _ => rfl⟩

theorem readFree_rx : ReadFree State.rx :=
  ⟨fun _ _ _ => rfl, fun _ _ _ => rfl, fun _ _ => rfl, fun _ _ => rfl, fun _ _ => rfl, fun _ _ => rfl, fun _ _ _ => rfl⟩

/-- A shipment that its connection carries goes on after its messages (R435). -/
theorem State.sendShards_carried (shards : List Nat) (hv : s.tooOld module 12 = false) :
    (s.sendShards e o shards).shipTooOld n e module = s.sendShards e o shards := by
  obtain ⟨l, -, hs⟩ := s.sendShards_links e o shards
  have hc : s.sameVersions (s.sendShards e o shards) := fun p q =>
    (hs p q).trans ((State.sameVersions.refl s).of_conns (readFree_conns.groupRead s _ _ _ _) p q)
  refine if_neg ?_
  rw [hc.tooOld, hv]
  exact Bool.false_ne_true

/-- After the answer to its OPEN a shipment sends its first group (R343). -/
theorem State.shipAck_ready (hr : s.shipRx k 4 = some (module, m)) (ho : (s.rxDone k).outOf module m = some (n, e, o)) (h0 : msgNum m 0x13 1 = 0)
    (hop : o.opened = true) (hv : (s.rxDone k).tooOld module 12 = false) :
    lookup? (s.shipAck k).shipOut e = some { o with since := s.mark, opened := false } := by
  obtain ⟨p, hp⟩ : ∃ p : ShipOut, p = { o with since := s.mark, opened := false } := ⟨_, rfl⟩
  have he : s.shipAck k = ((s.rxDone k).setOut e p).sendShards e p (List.range 18) := by
    have hv' : ((s.rxDone k).setOut e p).tooOld module 12 = false := hv
    rw [← State.sendShards_carried (n := n) _ hv']
    simp only [State.shipAck, hr, ho, h0, hop, if_true, hp]
  rw [he, ← hp, State.sendShards_same (g := State.shipOut) readFree_shipOut fun _ _ _ _ _ _ _ => rfl]
  exact (lookup?_put _ e p e).trans (if_pos rfl)

/-- The shards that the receiver names go out again (R345). -/
theorem State.shipNack_again (hr : s.shipRx k 5 = some (module, m)) (ho : (s.rxDone k).outOf module m = some (n, e, o)) (hop : o.opened = false)
    (hg : msgNum m 0x10 2 = o.group) (hv : (s.rxDone k).tooOld module 12 = false) :
    lookup? (s.shipNack k).shipOut e = some { o with since := s.mark } ∧ (s.shipNack k).rx = eraseAt s.rx k ∧
      ∀ b, ((s.shipNack k).bay b).mem = (s.bay b).mem := by
  obtain ⟨p, hp⟩ : ∃ p : ShipOut, p = { o with since := s.mark } := ⟨_, rfl⟩
  obtain ⟨l, hl⟩ : ∃ l, s.shipNack k = ((s.rxDone k).setOut e p).sendShards e p l := by
    have hv' : ((s.rxDone k).setOut e p).tooOld module 12 = false := hv
    refine ⟨(List.range 18).filter (fun i => (msgNum m 0x14 4).testBit i), ?_⟩
    rw [← State.sendShards_carried (n := n) _ hv']
    simp only [State.shipNack, hr, ho, hg, hop, Bool.not_false, and_self, if_true, hp]
  rw [hl, ← hp]
  refine ⟨?_, ?_, fun b => ?_⟩
  · rw [State.sendShards_same (g := State.shipOut) readFree_shipOut fun _ _ _ _ _ _ _ => rfl]
    exact (lookup?_put _ e p e).trans (if_pos rfl)
  · rw [State.sendShards_same (g := State.rx) readFree_rx fun _ _ _ _ _ _ _ => rfl]
    exact State.rxDone_same (g := State.rx) hr fun _ _ _ _ => rfl
  · rw [State.sendShards_same (g := fun t => (t.bay b).mem) (readFree_mem b) fun _ _ _ _ _ _ _ => rfl]
    exact State.rxDone_same (g := fun t => (t.bay b).mem) hr fun _ _ _ _ => rfl

/-- A shipment whose request decodes elsewhere is done with (R344). -/
theorem State.shipAck_complete (hr : s.shipRx k 4 = some (module, m)) (ho : (s.rxDone k).outOf module m = some (n, e, o)) (h1 : msgNum m 0x13 1 = 1) :
    lookup? (s.shipAck k).shipOut e = none ∧ (isLive ((s.rxDone k).get (rqState e)) = true → (s.shipAck k).get (rqState e) = 8) := by
  obtain ⟨-, hn, he⟩ := State.outOf_some ho
  obtain ⟨u, hu⟩ : ∃ u : State, u = { s.rxDone k with shipOut := del (s.rxDone k).shipOut e } := ⟨_, rfl⟩
  have heq : s.shipAck k = (u.leave n e 8 0).bump (PART_SHIP_SENT_count n) 1 := by
    simp only [State.shipAck, hr, ho, h1, hu]
  have hlive : u.get (rqState e) = (s.rxDone k).get (rqState e) := by
    rw [hu]
    exact State.get_of_ctl _ rfl _
  have hgone : lookup? u.shipOut e = none := by
    rw [hu]
    exact lookup?_del_self _ _
  have hrd : ((u.leave n e 8 0).bump (PART_SHIP_SENT_count n) 1).rd (REQ_TABLE e 0) = (u.leave n e 8 0).rd (REQ_TABLE e 0) :=
    (((u.leave n e 8 0).onlyRegs_refl [PART_SHIP_SENT n]).bump (f := PART_SHIP_SENT_count n)).2 _ (by
      have := State.sliceOwner_lt hn
      simp only [List.mem_singleton]
      unfold REQ_TABLE PART_SHIP_SENT
      omega)
  rw [heq, ← hlive]
  refine ⟨?_, fun hl => (State.get_of_rd (f := rqState e) hrd).trans (State.leave_state he (by decide) (by decide) hl).1⟩
  exact ((reqFree_out e).strike _ _ _).trans (((reqFree_out e).wr _ _ _).trans ((reqFree_out e).leave_none (fun v b => v.abortShip_out e b) hgone))

end Sent

/-! ### Shipments that end -/

section Ends

variable {s : State} {k n e module : Nat} {m : List Byte}

/-- The word of a partition's shipping control stands below the words of the ports. -/
theorem PART_SHIP_CTL_lt (h : n < 64) : PART_SHIP_CTL n < 0x600000 := by
  unfold PART_SHIP_CTL
  omega

/-- A shipment that fails at the receiver is gone; its request falls back where its partition allows that, and faults otherwise (R349). -/
theorem State.shipFailure_shows {ab : Bool} (he : e < 131072) (h7 : s.get (rqState e) = 7) (h2 : (s.req e).outcome ≠ 2) :
    lookup? (s.shipFailure n e none ab).shipIn e = none ∧
      (if s.on (PART_SHIP_CTL_fallback n) && s.promptOk n e then ((s.shipFailure n e none ab).req e).outcome = 2
       else (s.shipFailure n e none ab).get (rqState e) = 11 ∧ (s.shipFailure n e none ab).get (rqReason e) = 8) := by
  unfold State.shipFailure
  rw [if_neg (by simp [h7, h2])]
  dsimp only
  split
  next hf =>
    have hl : ∀ l : List ShipPeer, (s.dropShips e).onlyLinks (each (fun p (t : State) => t.answer e p 0 2) l (s.dropShips e)) := fun l =>
      .each (fun _ u h => h.trans (u.answer_onlyLinks _ _ _ _)) _ (.refl _)
    obtain ⟨v, hv, hw⟩ : ∃ v, each (fun p (t : State) => t.answer e p 0 2) _ (s.dropShips e) = v ∧ (s.dropShips e).onlyLinks v := ⟨_, rfl, hl _⟩
    rw [hv]
    have hin : lookup? v.shipIn e = none := (hw.same (g := fun t => lookup? t.shipIn e) fun _ _ _ _ _ _ => rfl).trans (s.dropShips_gone e).2
    refine ⟨?_, ?_⟩
    · exact ((State.partEvt_same (g := fun t => lookup? t.shipIn e) (reqFree_in e).wr (reqFree_in e).strike _ _ _).trans
        (((reqFree_in e).strike _ _ _).trans ((reqFree_in e).wr _ _ _))).trans hin
    · refine (State.partEvt_same (g := fun t => (t.req e).outcome) (fun _ _ _ => rfl) (fun _ _ _ => rfl) _ _ _).trans ?_
      refine (?_ : _ = ((v.onReq e fun q => { q with outcome := 2 }).req e).outcome).trans ?_
      · exact congrArg (fun l => (lookupD ReqSt.reset l e).outcome) (State.bump_reqs ..)
      · unfold State.onReq State.req
        dsimp only
        rw [lookupD_put, if_pos rfl]
  next hf =>
    have hl : ∀ l : List ShipPeer, (s.dropShips e).onlyLinks (each (fun p (t : State) => t.sendAbort e p) l (s.dropShips e)) := fun l =>
      .each (fun _ u h => h.trans (u.ship_onlyLinks _ _)) _ (.refl _)
    obtain ⟨v, hv, hw⟩ : ∃ v, each (fun p (t : State) => t.sendAbort e p) _ (s.dropShips e) = v ∧ (s.dropShips e).onlyLinks v := ⟨_, rfl, hl _⟩
    rw [hv]
    have hin : lookup? v.shipIn e = none := (hw.same (g := fun t => lookup? t.shipIn e) fun _ _ _ _ _ _ => rfl).trans (s.dropShips_gone e).2
    have hst : v.get (rqState e) = 7 := (State.get_of_rd (hw.rd _)).trans h7
    exact ⟨State.shipFail_in hin, State.shipFail_state he (by rw [hst]; rfl)⟩

/-- A shipment that fails at the sender is gone, and its live request faults (R349). -/
theorem State.shipFail_shows (he : e < 131072) (ho : lookup? s.shipOut e = none) :
    lookup? (s.shipFail n e).shipOut e = none ∧
      (isLive (s.get (rqState e)) = true → (s.shipFail n e).get (rqState e) = 11 ∧ (s.shipFail n e).get (rqReason e) = 8) :=
  ⟨State.shipFail_out ho, State.shipFail_state he⟩

theorem State.shipAbort_sender {o : ShipOut} (hr : s.shipRx k 6 = some (module, m)) (hi : (s.rxDone k).inOf module m = none)
    (ho : (s.rxDone k).outOf module m = some (n, e, o)) :
    lookup? (s.shipAbort k).shipOut e = none ∧
      (isLive ((s.rxDone k).get (rqState e)) = true → (s.shipAbort k).get (rqState e) = 11 ∧ (s.shipAbort k).get (rqReason e) = 8) := by
  obtain ⟨u, hu⟩ : ∃ u : State, u = { s.rxDone k with shipOut := del (s.rxDone k).shipOut e } := ⟨_, rfl⟩
  have hlive : u.get (rqState e) = (s.rxDone k).get (rqState e) := by
    rw [hu]
    exact State.get_of_ctl _ rfl _
  have hgone : lookup? u.shipOut e = none := by
    rw [hu]
    exact lookup?_del_self _ _
  have heq : s.shipAbort k = u.shipFail n e := by simp only [State.shipAbort, hr, hi, ho, hu]
  rw [heq, ← hlive]
  exact State.shipFail_shows (State.outOf_some ho).2.2 hgone

theorem State.shipAbort_receiver {i : ShipIn} (hr : s.shipRx k 6 = some (module, m)) (hi : (s.rxDone k).inOf module m = some (n, e, i)) :
    s.shipAbort k = (s.rxDone k).shipFailure n e none true := by
  simp only [State.shipAbort, hr, hi]

/-- An answer that does not come within the limit ends the shipment (R343). -/
theorem State.shipLimit_eq {o : ShipOut} (hn : s.sliceOwner e = some n) (ho : lookup? s.shipOut e = some o) :
    s.shipLimit e = if o.since + s.get (PART_SHIP_CTL_limit n) ≤ s.mark then (s.abortShip e false).shipFail n e else s := by
  simp only [State.shipLimit, hn, ho]

/-- The peer word of a free entry is stored (R342). -/
theorem State.writePeer_stored {acc : Nat} {v : Word} (hi : s.inSlice n (bits (s.rdAcc acc (PART_SHIP_SEL n)) 0 17) = true)
    (h0 : s.get (rqState (bits (s.rdAcc acc (PART_SHIP_SEL n)) 0 17)) = 0) (hb : s.on (PART_RST_busy n) = false) :
    s.writePeer acc n v = { s with peers := put s.peers (bits (s.rdAcc acc (PART_SHIP_SEL n)) 0 17) v } := by
  unfold State.writePeer
  dsimp only
  rw [hi, h0, hb]
  rfl

end Ends

/-- Settles O33: an OPEN is placed, a message moves the shipment it names, and what ends a shipment ends its request with it. -/
theorem shipmentsFollowTheirMessages : Obligations.ShipmentsFollowTheirMessages := by
  unfold Obligations.ShipmentsFollowTheirMessages
  refine ⟨fun acc n v s hacc hn hopen => ?_, fun k s => ?_, fun n w x s hn hw hx => ?_, fun e n i t0 s he hi ho hf hd => ?_,
    fun e n o s he hn ho => ?_⟩
  · have hex : exec (.shipPeerWrite acc n v) s = .next (s.writeAt (PART_SHIP_PEER n) fun s => s.writePeer acc n v) :=
      congrArg Host.Outcome.next (if_pos ⟨hacc, hn⟩)
    dsimp only
    refine ⟨fun hi h0 hb => runs_writeAt hex hopen ?_, fun h0 => hex.trans (congrArg Host.Outcome.next ?_)⟩
    · rw [State.writePeer_stored hi h0 hb]
      exact ⟨(lookupD_put ..).trans (if_pos rfl), rfl⟩
    · rw [State.writeAt_of_opens hopen]
      unfold State.writePeer
      dsimp only
      rw [if_neg (by simp [h0])]
  · dsimp only
    refine ⟨fun module m n hr hh ho h2 hk => ⟨fun x hx => ?_, fun hn hw => ?_⟩, fun module m n e i hr hi hd hg hgot hoff hsh => ?_,
      fun module m n e i hr hi hd hg hl => ?_, fun module m n e o hr ho => ⟨fun h0 hop hv => ?_, fun h1 => ?_⟩,
      fun module m n e o hr ho hop hg hv => ?_, fun module m hr => ⟨fun n e o hi ho => ?_, fun n e i hi h7 h2 => ?_⟩⟩
    · refine runs_next (u := s.shipOpen k) rfl ?_
      obtain ⟨v, hv⟩ := State.placeOpen_taken (m := m) (module := module) hx
      obtain ⟨i, h1, hp, h3, h4, h5, -⟩ := v.acceptOpen_shows (msgNum m 8 4 % 2 ^ 17) module x m
      rw [State.shipOpen_placed hr hh ho h2 hk, hv]
      exact ⟨i, h1, hp, h3, h4, h5⟩
    · refine runs_next (u := s.shipOpen k) rfl ?_
      rw [State.shipOpen_placed hr hh ho h2 hk, State.placeOpen_waits hn hw]
      have h1 : (s.rxDone k).shipWait = s.shipWait := State.rxDone_same hr fun _ _ _ _ => rfl
      have h2 : (s.rxDone k).shipIn = s.shipIn := State.rxDone_same hr fun _ _ _ _ => rfl
      refine ⟨?_, h2⟩
      rw [← h1]
    · exact runs_next (u := s.shipData k) rfl (State.shipData_kept hr hi hd hg hgot hoff hsh)
    · refine runs_next (u := s.shipEnd k) rfl ?_
      rw [State.shipEnd_eq hr hi hd hg]
      obtain ⟨h1, h2, h3⟩ := State.shipEval_whole (s := (s.rxDone k).onReq e (fun q => { q with since := s.mark })) (n := n) (e := e) hl
      exact ⟨h1, h2, h3.trans (State.rxDone_same (g := State.bays) hr fun _ _ _ _ => rfl)⟩
    · exact runs_next (u := s.shipAck k) rfl (State.shipAck_ready hr ho h0 hop hv)
    · exact runs_next (u := s.shipAck k) rfl (State.shipAck_complete hr ho h1)
    · exact runs_next (u := s.shipNack k) rfl (State.shipNack_again hr ho hop hg hv)
    · exact runs_next (u := s.shipAbort k) rfl (State.shipAbort_sender hr hi ho)
    · refine runs_next (u := s.shipAbort k) rfl ?_
      obtain ⟨-, hn, he⟩ := State.inOf_some hi
      have hon : s.on (PART_SHIP_CTL_fallback n) = (s.rxDone k).on (PART_SHIP_CTL_fallback n) :=
        (State.on_of_rd ((State.shipRx_onlyPorts hr).2 _ (PART_SHIP_CTL_lt (State.sliceOwner_lt hn)))).symm
      rw [State.shipAbort_receiver hr hi, hon]
      exact State.shipFailure_shows he h7 h2
  · have hex : exec (.shipOpenDequeue n) s = .next (s.shipDequeue n) := congrArg Host.Outcome.next (if_pos hn)
    obtain ⟨i, hi, hp, hm, -, -, hwait⟩ := State.acceptOpen_shows { s with shipWait := s.shipWait.filter (fun y => y.req != w.req) } w.req w.module x w.message
    refine runs_next hex ?_
    unfold State.shipDequeue
    rw [hw, hx]
    exact ⟨hwait, i, hi, hp, hm⟩
  · have hex : exec (.shipGroupWaitExpire e) s = .next (s.shipWaitEnd e) := congrArg Host.Outcome.next (if_pos he)
    rw [State.shipWaitEnd_eq hi ho hf hd] at hex
    refine ⟨fun h => hex.trans (by rw [if_neg (by omega)]), fun h hl => runs_next hex ?_⟩
    rw [if_pos h]
    obtain ⟨h1, -, h3⟩ := State.shipEval_whole (s := s) (n := n) (e := e) (i := { i with first := some s.tick }) hl
    exact ⟨h1, h3⟩
  · have hex : exec (.shipLimitExpire e) s = .next (s.shipLimit e) := congrArg Host.Outcome.next (if_pos he)
    rw [State.shipLimit_eq hn ho] at hex
    refine ⟨fun h => hex.trans (by rw [if_neg (by omega)]), fun h => runs_next hex ?_⟩
    rw [if_pos h]
    have hst : (s.abortShip e false).get (rqState e) = s.get (rqState e) := State.get_of_rd ((s.abortShip_onlyLinks e false).rd _)
    rw [← hst]
    exact State.shipFail_shows he (s.abortShip_out e false)
end Sys2Proof.Machine

/-!
Register accesses of the control space and of the control pages (R8, R9, R30, R38, R59, R164).
-/

namespace Sys2Proof.Machine

/-! ### Registers by their address -/

section Registers

theorem findReg_BAY_MAP_ARG0 : ∃ d, findReg BAY_MAP_ARG0 = some (d, []) ∧ d.reg = .BAY_MAP_ARG0 ∧ d.fields = [⟨31, 0, .rw, 0⟩] := ⟨_, rfl, rfl, rfl⟩

theorem findReg_BEAT_TICK_LO : ∃ d, findReg BEAT_TICK_LO = some (d, []) ∧ d.reg = .BEAT_TICK_LO := ⟨_, rfl, rfl⟩

theorem findReg_BEAT_TICK_HI : ∃ d, findReg BEAT_TICK_HI = some (d, []) ∧ d.reg = .BEAT_TICK_HI := ⟨_, rfl, rfl⟩

theorem findCp_SPC_WIN_BASE {w : Nat} (hw : w < 8) : ∃ d, findCp (SPC_WIN_BASE w) = some (d, [w]) ∧ d.reg = .SPC_WIN_BASE := by
  interval_cases w <;> exact ⟨_, rfl, rfl⟩

variable {s : State} {acc a : Nat} {v : Word}

/-- A write with some byte enables only is counted and does nothing (R38). -/
theorem State.spaceWrite_partial {en : Nat} (h : en % 16 ≠ 15) : s.spaceWrite acc a v en = s.bump IDENT_ACC_ERR_partial_writes 1 := if_pos (.inl h)

/-- A write that finds no register is counted and does nothing (R8). -/
theorem State.spaceWrite_reserved (ha : a % 4 = 0) (h : findReg a = none) : s.spaceWrite acc a v 15 = s.bump IDENT_ACC_ERR_reserved_hits 1 := by
  unfold State.spaceWrite
  rw [if_neg (by simp [ha]), h]

/-- A count changes its field by one and nothing but its register. -/
theorem State.bump_counts (s : State) (f : FieldRef) (h : f.fits = true := by exact rfl) :
    (s.bump f 1).get f = satAdd f.len (s.get f) 1 ∧ s.onlyRegs (s.bump f 1) [f.addr] :=
  ⟨s.get_bump 1 h, (s.onlyRegs_refl [f.addr]).bump⟩

theorem setField_whole {w n : Nat} (hw : w < 2 ^ 32) (hn : n < 2 ^ 32) : setField w 0 32 (field n 0 32) = n := by
  have h1 : field n 0 32 = n := by
    rw [field_eq, Nat.pow_zero, Nat.div_one, Nat.mod_eq_of_lt hn]
  rw [setField, h1, Nat.pow_zero, Nat.mod_one, Nat.mod_eq_of_lt hn, Nat.shiftRight_eq_div_pow, Nat.div_eq_of_lt hw, Nat.zero_mul, Nat.mul_one,
    Nat.zero_add, Nat.add_zero]

/-- A field that is the whole word takes the whole word written. -/
theorem writeFields_whole {f : FieldDesc} (hlo : f.lo = 0) (hhi : f.hi = 31) (hacc : f.acc = .rw) (v now w : Word) :
    BitVec.ofNat 32 (writeFields [f] false v.toNat now.toNat w.toNat) = v := by
  have h : f.write false v.toNat now.toNat w.toNat = setField w.toNat 0 32 (field v.toNat 0 32) := by
    simp only [FieldDesc.write, hacc, hlo, hhi]
  rw [writeFields, List.foldl_cons, List.foldl_nil, h, setField_whole w.isLt v.isLt, BitVec.ofNat_toNat, BitVec.setWidth_eq]

/-- Copies that other accessors have of a register stay as they were (R32). -/
theorem State.rdAcc_wrAcc_ne (s : State) {b : Nat} (h : b ≠ acc) (a : Nat) (v : Word) : (s.wrAcc acc a v).rdAcc b a = s.rdAcc b a := by
  refine (rdAt_wrAt _ _ _ _ _).trans (if_neg fun hk => h ?_)
  unfold bankKey at hk
  omega

theorem State.wrAcc_banked (s : State) (acc a : Nat) (v : Word) : s.wrAcc acc a v = { s with banked := (s.wrAcc acc a v).banked } := rfl

/-- Every accessor has its own copy of the map argument (R215). -/
theorem State.spaceWrite_mapArg (h : s.opens BAY_MAP_ARG0 = true) : s.spaceWrite acc BAY_MAP_ARG0 v 15 = s.wrAcc acc BAY_MAP_ARG0 v := by
  obtain ⟨d, hd, hr, hf⟩ := findReg_BAY_MAP_ARG0
  have hset : hasW1s d = false := by
    unfold hasW1s
    rw [hf]
    rfl
  unfold State.spaceWrite
  rw [if_neg (by decide), hd]
  dsimp only
  rw [State.writeAt_of_opens h, hset, if_neg Bool.false_ne_true, State.settleAt_of_no_core _ (by decide)]
  simp only [State.writeReg, hr, State.store, perAcc, if_true, hf, writeFields_whole (f := ⟨31, 0, .rw, 0⟩) rfl rfl rfl]

theorem SPC_WIN_BASE_fits (w : Nat) : (SPC_WIN_BASE_base w).lo + (SPC_WIN_BASE_base w).len ≤ 32 := by
  show 0 + 17 ≤ 32
  decide

theorem State.setCore_cores (s : State) (p : Nat) (c : Core) : s.setCore p c = { s with cores := (s.setCore p c).cores } := rfl

theorem SPC_WIN_BASE_len (w : Nat) : (SPC_WIN_BASE_base w).len = 17 := rfl

/-- A base of a window that is open stays; that of a closed one is written (R164). -/
theorem State.pageWrite_base {p w : Nat} (hw : w < 8) :
    s.pageWrite p (SPC_WIN_BASE w) v = if ((s.settle p s.cycle).core p).cpOn (SPC_WIN_CTL_open w) then s.settle p s.cycle
      else (s.settle p s.cycle).setCore p (((s.settle p s.cycle).core p).cpSet (SPC_WIN_BASE_base w) (bits v 0 17)) := by
  obtain ⟨d, hd, hr⟩ := findCp_SPC_WIN_BASE hw
  simp only [State.pageWrite, hd, hr]
  rfl

/-- A read of the low word of the tick returns it and latches the high word (R59). -/
theorem State.spaceRead_tickLo (hp : s.powered = true) :
    s.spaceRead acc BEAT_TICK_LO = (BitVec.ofNat 32 s.tick, s.latch acc BEAT_TICK_HI (BitVec.ofNat 32 (s.tick / 2 ^ 32))) := by
  obtain ⟨d, hd, hr⟩ := findReg_BEAT_TICK_LO
  obtain ⟨d2, hd2, hr2⟩ := findReg_BEAT_TICK_HI
  have hh : s.hidden BEAT_TICK_LO = false := rfl
  have hd3 : findReg (BEAT_TICK_LO + 4) = some (d2, []) := hd2
  unfold State.spaceRead
  rw [State.settleAt_of_no_core _ (by decide), hd]
  dsimp only
  rw [hp, hh, Bool.not_true, Bool.and_false, if_neg Bool.false_ne_true, if_neg Bool.false_ne_true]
  simp only [hr, hd3, State.regWord, hr2, perAcc, ofStage, throughLatch, latchedBy, latchesNext]
  rfl

/-- A read of the high word of the tick returns what was latched for its accessor (R59). -/
theorem State.spaceRead_tickHi {h : Word} (hp : s.powered = true) (hl : lookup? s.latches (bankKey acc BEAT_TICK_HI) = some h) :
    s.spaceRead acc BEAT_TICK_HI = (h, s) := by
  obtain ⟨d, hd, hr⟩ := findReg_BEAT_TICK_HI
  have hh : s.hidden BEAT_TICK_HI = false := rfl
  unfold State.spaceRead
  rw [State.settleAt_of_no_core _ (by decide), hd]
  dsimp only
  rw [hp, hh, Bool.not_true, Bool.and_false, if_neg Bool.false_ne_true, if_neg Bool.false_ne_true]
  simp only [hr, throughLatch, latchedBy, latchesNext, hl]
  rfl

end Registers

theorem exec_latchingRead_space {acc a : Nat} {s : State} (h : acc < accessors) (ha : a < 2 ^ 26) :
    exec (.latchingRead acc ⟨none, a⟩) s = .next (s.readBy acc a) := congrArg Host.Outcome.next (if_pos ⟨h, ha⟩)

/-- A read that is no claim sends its word back to its accessor. -/
theorem State.readBy_of_read {acc a : Nat} {s u : State} {w : Word} (ha : a / 4 * 4 = a) (hc : a < 0x20000) (h : s.spaceRead acc a = (w, u)) :
    s.readBy acc a = u.emit (.readData acc a w) := by
  unfold State.readBy
  dsimp only
  rw [ha, h, if_neg (by unfold EVC_CC_CLAIM; omega)]

/-- Settles O45: each access is its rule of the register space, for the accessor that makes it. -/
theorem registerAccessesFollowTheirCodes : Obligations.RegisterAccessesFollowTheirCodes := by
  unfold Obligations.RegisterAccessesFollowTheirCodes
  intro acc v s
  refine ⟨fun a en he => ?_, fun a ha hf => ?_, fun ho => ?_, fun p w hacc hp hw hpow => ?_, fun p a hacc hp ha hpow => ?_,
    fun hacc hpow => ⟨?_, fun h hl => ?_⟩⟩
  · refine runs_next (exec_registerWrite_space ..) ?_
    rw [State.spaceWrite_partial he]
    exact s.bump_counts _
  · refine runs_next (exec_registerWrite_space ..) ?_
    rw [State.spaceWrite_reserved ha hf]
    exact s.bump_counts _
  · refine runs_next (exec_registerWrite_space ..) ?_
    rw [State.spaceWrite_mapArg ho]
    exact ⟨s.rdAcc_wrAcc _ _ _, fun b hb => s.rdAcc_wrAcc_ne hb _ _, s.wrAcc_banked _ _ _⟩
  · have hex : exec (.registerWrite acc (some p) (SPC_WIN_BASE w) v 15) s = .next (s.pageWrite p (SPC_WIN_BASE w) v) :=
      congrArg Host.Outcome.next (if_pos ⟨hacc, hp, rfl, by unfold SPC_WIN_BASE; omega, hpow⟩)
    dsimp only
    refine runs_next hex ?_
    rw [State.pageWrite_base hw]
    obtain ⟨u, hu⟩ : ∃ u, s.settle p s.cycle = u := ⟨_, rfl⟩
    rw [hu]
    split
    next h => exact ⟨rfl, rfl, rfl⟩
    next h =>
      rw [State.core_setCore, if_pos rfl]
      have hb : bits v 0 17 < 2 ^ 17 := field_lt _ _ _
      rw [Core.cpGet_cpSet _ _ _ (SPC_WIN_BASE_fits w), SPC_WIN_BASE_len, Nat.mod_eq_of_lt hb]
      exact ⟨rfl, Core.cpSet_pad _ _ _, u.setCore_cores _ _⟩
  · have hex : exec (.latchingRead acc ⟨some p, a⟩) s = .next (s.pageRead acc p a) :=
      congrArg Host.Outcome.next (if_pos ⟨hacc, hp, ha, hpow⟩)
    exact runs_next hex rfl
  · refine runs_next (exec_latchingRead_space hacc (by decide)) ?_
    rw [State.readBy_of_read (by decide) (by decide) (State.spaceRead_tickLo hpow)]
    exact ⟨rfl, (lookup?_put ..).trans (if_pos rfl), rfl⟩
  · refine runs_next (exec_latchingRead_space hacc (by decide)) ?_
    rw [State.readBy_of_read (by decide) (by decide) (State.spaceRead_tickHi hpow hl)]
    rfl
end Sys2Proof.Machine

/-!
The PCIe endpoint, command records and delivery records (R445, R447, R453 to R455, R516, R519).
-/

namespace Sys2Proof.Machine

/-! ### The endpoint's functions -/

section Endpoint

variable {s : State} {f : Nat}

@[simp] theorem State.pciFn_setFn (s : State) (f : Nat) (x : PciFn) (g : Nat) : (s.setFn f x).pciFn g = if g = f then x else s.pciFn g :=
  lookupD_put ..

/-- The command bits of the functions, and all words, are as in `s`. -/
def State.sameCommand (s t : State) : Prop :=
  (∀ g, (t.pciFn g).memEn = (s.pciFn g).memEn ∧ (t.pciFn g).master = (s.pciFn g).master) ∧ t.ctl = s.ctl

/-- A message that goes out from a table leaves the command bits as they were. -/
theorem State.sameCommand.msixFlush {t : State} (h : s.sameCommand t) (f v : Nat) : s.sameCommand (t.msixFlush f v) := by
  unfold State.msixFlush
  dsimp only
  split
  · refine ⟨fun g => ?_, h.2⟩
    obtain ⟨h1, h2⟩ := h.1 g
    rw [← h1, ← h2]
    show ((State.setFn _ _ _).pciFn g).memEn = _ ∧ ((State.setFn _ _ _).pciFn g).master = _
    rw [State.pciFn_setFn]
    split
    next hg => rw [hg]; exact ⟨rfl, rfl⟩
    next => exact ⟨rfl, rfl⟩
  · exact h

theorem State.sameCommand.msixFlushAll (f : Nat) : s.sameCommand (s.msixFlushAll f) :=
  each_keeps s.sameCommand (fun e _ h => h.msixFlush f e.1) _ _ ⟨fun _ => ⟨rfl, rfl⟩, rfl⟩

/-- Before phase 2 a configuration request is answered with a retry (R516). -/
theorem State.configAccess_retry (r : CfgReq) (hf : f < 257) (hb : s.isBridge = true) (hs : s.hostServed = false) :
    s.configAccess f r = { s with outbox := s.outbox ++ [.config f true] } := by
  unfold State.configAccess
  rw [if_neg (by simp [hb]; omega), if_pos (by simp [hs])]
  rfl

/-- A write of the command register is stored and answered (R445). -/
theorem State.configAccess_command (mem master : Bool) (hf : f < 257) (hb : s.isBridge = true) (hs : s.hostServed = true) :
    s.configAccess f (.command mem master) =
      ((s.setFn f { s.pciFn f with memEn := mem, master := master }).msixFlushAll f).emit (.config f false) := by
  unfold State.configAccess
  rw [if_neg (by simp [hb]; omega), if_neg (by simp [hs])]

/-- A fundamental reset clears the functions, the aperture's entries and the words of the link (R519). -/
theorem State.pcieReset_shows (hb : s.isBridge = true) :
    s.pcieReset.get LINK_HB_CTL_num_vfs = 0 ∧ s.pcieReset.get LINK_HB_CTL_linkup = 0 ∧ s.pcieReset.get IDENT_RST_CAUSE_perst = 1 ∧
      s.pcieReset.hb.aper = [] ∧ s.pcieReset.hb.fns = [] ∧ s.pcieReset.hb.fwds = [] ∧ s.keeps s.pcieReset [LINK_HB_CTL, IDENT_RST_CAUSE] ∧
      s.pcieReset = { s with ctl := s.pcieReset.ctl, hb := s.pcieReset.hb, now := s.pcieReset.now } := by
  obtain ⟨u, hu⟩ : ∃ u, ((s.set LINK_HB_CTL_num_vfs 0).setOn LINK_HB_CTL_linkup false).raise IDENT_RST_CAUSE_perst = u := ⟨_, rfl⟩
  have he : s.pcieReset = { u with hb := { u.hb with aper := [], fns := [], fwds := [], vfMem := false } } := by
    unfold State.pcieReset
    rw [if_neg (by simp [hb]), hu]
  have hreg : s.onlyRegs u [LINK_HB_CTL, IDENT_RST_CAUSE] := by
    rw [← hu]
    exact (((s.onlyRegs_refl _).set).setOn).raise (by simp [IDENT_RST_CAUSE_perst])
  have hraise : ∀ {v : State} (a : Nat), a ≠ IDENT_RST_CAUSE → (v.raise IDENT_RST_CAUSE_perst).rd a = v.rd a := fun {v} a ha =>
    (((v.onlyRegs_refl [IDENT_RST_CAUSE]).raise (f := IDENT_RST_CAUSE_perst)).2 a (by simpa using ha))
  have hl : u.get LINK_HB_CTL_linkup = 0 := by
    rw [← hu, State.get_of_rd (f := LINK_HB_CTL_linkup) (hraise _ (by decide))]
    exact State.get_setOn ..
  have hn : u.get LINK_HB_CTL_num_vfs = 0 := by
    rw [← hu, State.get_of_rd (f := LINK_HB_CTL_num_vfs) (hraise _ (by decide)), State.get_setOn_apart]
    exact State.get_set_fits ..
  have hp : u.get IDENT_RST_CAUSE_perst = 1 := by
    rw [← hu]
    exact State.get_raise ..
  obtain ⟨hshape, hkeep⟩ := hreg
  rw [he]
  exact ⟨hn, hl, hp, rfl, rfl, rfl, hkeep, congrArg (fun v : State => { v with hb := { u.hb with aper := [], fns := [], fwds := [], vfMem := false } }) hshape⟩

/-- A read without an answer returns all ones and is counted (R447). -/
theorem State.readTimeout_shows {tag : Nat} {w : Fwd} (h : s.hb.fwds.find? (fun w => w.tag == tag && !w.write) = some w) :
    (s.readTimeout tag).hb.fwds = s.hb.fwds.erase w ∧
      (s.readTimeout tag).get LINK_HB_TIMEOUT_count = satAdd LINK_HB_TIMEOUT_count.len (s.get LINK_HB_TIMEOUT_count) 1 ∧
      (s.readTimeout tag).outbox = s.outbox ++ [if w.page then .pageData w.acc (List.replicate w.bytes 0xFF) else .readData w.acc w.addr 0xFFFFFFFF] ∧
      s.keeps (s.readTimeout tag) [LINK_HB_TIMEOUT] := by
  obtain ⟨u, hu⟩ : ∃ u : State, { s with hb := { s.hb with fwds := s.hb.fwds.erase w } } = u := ⟨_, rfl⟩
  have he : s.readTimeout tag = (u.bump LINK_HB_TIMEOUT_count 1).emit
      (if w.page then .pageData w.acc (List.replicate w.bytes 0xFF) else .readData w.acc w.addr ones) := by
    unfold State.readTimeout
    rw [h]
    dsimp only
    rw [hu]
  obtain ⟨hcount, hshape, hkeep⟩ := u.bump_counts LINK_HB_TIMEOUT_count
  have hget : u.get LINK_HB_TIMEOUT_count = s.get LINK_HB_TIMEOUT_count := by
    rw [← hu]
    exact s.get_of_ctl rfl _
  have hhb : (u.bump LINK_HB_TIMEOUT_count 1).hb.fwds = s.hb.fwds.erase w := by rw [State.bump_hb, ← hu]
  have hout : (u.bump LINK_HB_TIMEOUT_count 1).outbox = s.outbox := by rw [State.bump_outbox, ← hu]
  have hrd : ∀ a, u.rd a = s.rd a := fun a => by
    rw [← hu]
    rfl
  rw [hget] at hcount
  obtain ⟨x, hx⟩ : ∃ x, u.bump LINK_HB_TIMEOUT_count 1 = x := ⟨_, rfl⟩
  rw [hx] at hhb hout hcount hkeep he
  rw [he]
  exact ⟨hhb, hcount, congrArg (· ++ _) hout, fun a ha => (hkeep a ha).trans (hrd a)⟩

end Endpoint

/-! ### Command records -/

section Records

variable {w s : State} {f : Nat}

/-- What the taking of a record does to the state of its function, before it is run (R453). -/
def PciFn.takeRow (x : PciFn) : PciFn :=
  { x with
    bytes := x.bytes.filter (fun e => e.1 / 64 != x.taken % 256), counted := x.counted.erase (x.taken % 256), taken := x.taken + 1
    busy := some (x.row (x.taken % 256)) }

theorem lookup?_eq_none {β : Type} {k : Nat} : ∀ {l : List (Nat × β)}, (∀ e ∈ l, e.1 ≠ k) → lookup? l k = none
  | [], _ => rfl
  | (i, v) :: _, h => (if_neg (h (i, v) (.head _))).trans (lookup?_eq_none fun e he => h e (.tail _ he))

theorem PciFn.takeRow_bytes (x : PciFn) {j : Nat} (hj : j < 64) : lookup? x.takeRow.bytes (64 * (x.taken % 256) + j) = none := by
  refine lookup?_eq_none fun e he h => ?_
  have h2 := (List.mem_filter.1 he).2
  rw [bne_iff_ne, h] at h2
  omega

/-- The state in which a function takes its next record: the writes that have come are counted (R453). -/
structure Takes (w s : State) (f : Nat) : Prop where
  counted : w.pageAcks.countRows f = s
  fn : f < 257
  bridge : s.isBridge = true
  unpaused : s.fw.paused = false
  ring : (s.pciFn f).cqSet = true
  idle : (s.pciFn f).busy = none
  row : (s.pciFn f).counted.contains ((s.pciFn f).taken % 256) = true

namespace Takes

/-- The branches of a record that is taken (R453, R454). -/
theorem eq (h : Takes w s f) : w.takeRecord f =
    (let rec_ := (s.pciFn f).row ((s.pciFn f).taken % 256)
     let s1 := s.setFn f (s.pciFn f).takeRow
     if malformed rec_ then s1.complete f ⟨0x10, 0, 0⟩
     else if f ≠ 0 ∧ hnum rec_ 0 1 = 4 then s1.complete f ⟨0x11, 0, 0⟩
     else match s1.recordTarget f rec_ with
      | (none, _) => s1.complete f ⟨0x12, 0, 0⟩
      | (some m, bytes) =>
        if m = s1.ownAddr then
          let q := s1.runRecord bytes (f != 0)
          q.1.complete f q.2
        else
          let q := s1.sendTo m 11 (hnum bytes 3 1 % 64) f bytes
          if q.2 then q.1 else s1.complete f ⟨0x12, 0, 0⟩) := by
  have hf := h.fn
  unfold State.takeRecord
  rw [h.counted]
  dsimp only
  rw [if_neg (by simp [h.bridge, h.unpaused, h.ring]; omega), h.idle]
  dsimp only
  rw [if_neg (by simp only [h.row]; decide)]
  rfl

theorem malformed (h : Takes w s f) (hm : malformed ((s.pciFn f).row ((s.pciFn f).taken % 256)) = true) :
    w.takeRecord f = (s.setFn f (s.pciFn f).takeRow).complete f ⟨0x10, 0, 0⟩ := by
  rw [h.eq]
  exact if_pos hm

theorem mapCommand (h : Takes w s f) (hm : Machine.malformed ((s.pciFn f).row ((s.pciFn f).taken % 256)) = false) (hf : f ≠ 0)
    (hc : hnum ((s.pciFn f).row ((s.pciFn f).taken % 256)) 0 1 = 4) :
    w.takeRecord f = (s.setFn f (s.pciFn f).takeRow).complete f ⟨0x11, 0, 0⟩ := by
  rw [h.eq]
  dsimp only
  rw [if_neg (by simp [hm]), if_pos ⟨hf, hc⟩]

theorem runs (h : Takes w s f) (hm : Machine.malformed ((s.pciFn f).row ((s.pciFn f).taken % 256)) = false)
    (hc : f = 0 ∨ hnum ((s.pciFn f).row ((s.pciFn f).taken % 256)) 0 1 ≠ 4) {m : Nat} {bytes : List Byte}
    (ht : (s.setFn f (s.pciFn f).takeRow).recordTarget f ((s.pciFn f).row ((s.pciFn f).taken % 256)) = (some m, bytes))
    (ho : m = (s.setFn f (s.pciFn f).takeRow).ownAddr) :
    w.takeRecord f = ((s.setFn f (s.pciFn f).takeRow).runRecord bytes (f != 0)).1.complete f
      ((s.setFn f (s.pciFn f).takeRow).runRecord bytes (f != 0)).2 := by
  rw [h.eq]
  dsimp only
  rw [if_neg (by simp [hm]), if_neg (by rintro ⟨h1, h2⟩; exact hc.elim h1 fun h => h h2), ht]
  exact if_pos ho

theorem unreachable (h : Takes w s f) (hm : Machine.malformed ((s.pciFn f).row ((s.pciFn f).taken % 256)) = false)
    (hc : f = 0 ∨ hnum ((s.pciFn f).row ((s.pciFn f).taken % 256)) 0 1 ≠ 4) {bytes : List Byte}
    (ht : (s.setFn f (s.pciFn f).takeRow).recordTarget f ((s.pciFn f).row ((s.pciFn f).taken % 256)) = (none, bytes)) :
    w.takeRecord f = (s.setFn f (s.pciFn f).takeRow).complete f ⟨0x12, 0, 0⟩ := by
  rw [h.eq]
  dsimp only
  rw [if_neg (by simp [hm]), if_neg (by rintro ⟨h1, h2⟩; exact hc.elim h1 fun h => h h2), ht]

end Takes

/-- The completion of a record frees its function for the next and goes to the ring (R454). -/
theorem State.complete_shows {rec_ : List Byte} (h : (s.pciFn f).busy = some rec_) (r : CmdRes) :
    (s.complete f r).pciFn f = { s.pciFn f with busy := none } ∧ (s.complete f r).outbox.length = s.outbox.length + 1 ∧
      (s.complete f r).ctl = s.ctl ∧ (s.complete f r).cores = s.cores := by
  unfold State.complete
  dsimp only
  rw [h]
  exact ⟨(State.pciFn_setFn ..).trans (if_pos rfl), List.length_append.trans rfl, rfl, rfl⟩

end Records

/-! ### Delivery records -/

section Delivery

variable {s : State} {n : Nat}

/-- A record to host memory goes out, or is counted as dropped. -/
theorem State.hostRecord_same {γ : Type} {g : State → γ}
    (hg : ∀ t : State, ∀ P C O R T X, g { t with ports := P, conns := C, outbox := O, rotors := R, turns := T, classTurn := X } = g t)
    (hb : ∀ (t : State) l, g { t with banked := l } = g t) (hs : ∀ (t : State) a f, g (t.strike a f) = g t) (s : State) (n addr : Nat)
    (bytes : List Byte) : g (s.hostRecord n addr bytes) = g s := by
  have hd : g (s.owDrop n 1) = g s := by
    unfold State.owDrop State.counts
    exact (hs _ _ _).trans (hb _ _)
  unfold State.hostRecord
  split
  · exact hd
  next m _ =>
    split
    · exact ((State.onlyLinks.refl s).emit _).same (hg s)
    · dsimp only
      split
      · exact ((State.onlyLinks.refl s).sendTo m 9 n addr bytes).same (hg s)
      · exact hd

theorem State.window_setWindow (s : State) (n w : Nat) (x : Window) : (s.setWindow n w x).window n w = x := (lookupD_put ..).trans (if_pos rfl)

/-- The record that is written takes the next place of its window (R455, R456). -/
theorem State.writeOut_shows (s : State) (n : Nat) (r : OutRec) :
    ((s.writeOut n r).window n r.window).prod = (s.window n r.window).prod + 1 ∧ (s.writeOut n r).parts = s.parts ∧
      (s.writeOut n r).ctl = s.ctl ∧ (s.writeOut n r).cores = s.cores := by
  unfold State.writeOut
  dsimp only
  refine ⟨?_, ?_, ?_, ?_⟩
  · rw [State.hostRecord_same (g := fun t => (t.window n r.window).prod) (fun _ _ _ _ _ _ _ => rfl) (fun _ _ => rfl) fun _ _ _ => rfl,
      State.window_setWindow]
  · exact State.hostRecord_same (g := State.parts) (fun _ _ _ _ _ _ _ => rfl) (fun _ _ => rfl) (fun _ _ _ => rfl) _ _ _ _
  · exact State.hostRecord_same (g := State.ctl) (fun _ _ _ _ _ _ _ => rfl) (fun _ _ => rfl) (fun _ _ _ => rfl) _ _ _ _
  · exact State.hostRecord_same (g := State.cores) (fun _ _ _ _ _ _ _ => rfl) (fun _ _ => rfl) (fun _ _ _ => rfl) _ _ _ _

/-- The oldest queued record is written once its window has room for it (R455). -/
theorem State.drainOut_shows {cons : Nat} {r : OutRec} {rest : List OutRec} (hq : (s.part n).outq = r :: rest)
    (hroom : (s.window n r.window).prod < (if (s.window n r.window).full then cons else (s.window n r.window).cons) + (s.window n r.window).records) :
    ((s.drainOut n cons).part n).outq = rest ∧ ((s.drainOut n cons).window n r.window).prod = (s.window n r.window).prod + 1 ∧
      (s.drainOut n cons).ctl = s.ctl ∧ (s.drainOut n cons).cores = s.cores := by
  obtain ⟨v, hv⟩ : ∃ v, (if (s.window n r.window).full then s.setWindow n r.window { s.window n r.window with cons := cons } else s) = v := ⟨_, rfl⟩
  have hprod : (v.window n r.window).prod = (s.window n r.window).prod ∧ (v.window n r.window).full = false ∧ v.ctl = s.ctl ∧ v.cores = s.cores := by
    rw [← hv]
    split
    next hf =>
      rw [if_pos hf] at hroom
      rw [State.window_setWindow]
      exact ⟨rfl, decide_eq_false (by unfold Window.records at hroom ⊢; dsimp only; omega), rfl, rfl⟩
    next hf => exact ⟨rfl, Bool.eq_false_iff.2 hf, rfl, rfl⟩
  obtain ⟨hp, hfull, hctl, hcores⟩ := hprod
  have he : s.drainOut n cons = (v.onPart n (fun p => { p with outq := rest })).writeOut n r := by
    unfold State.drainOut
    rw [hq]
    dsimp only
    rw [hv, hfull]
    exact if_neg Bool.false_ne_true
  obtain ⟨h1, h2, h3, h4⟩ := (v.onPart n (fun p => { p with outq := rest })).writeOut_shows n r
  rw [he]
  refine ⟨?_, h1.trans ((congrArg (· + 1) ?_).trans (congrArg (· + 1) hp)), h3.trans hctl, h4.trans hcores⟩
  · unfold State.part
    rw [h2]
    exact (congrArg PartSt.outq (lookupD_put ..)).trans (by rw [if_pos rfl])
  · rfl

end Delivery

/-- Settles O43: the endpoint answers by its phase, and records are taken and written in the order of their rings. -/
theorem endpointAnswersAndTakesRecordsInOrder : Obligations.EndpointAnswersAndTakesRecordsInOrder := by
  unfold Obligations.EndpointAnswersAndTakesRecordsInOrder
  refine ⟨fun s => ⟨fun f r hf hb hs => ?_, fun f mem master hf hb hs => ?_, fun hb => ⟨?_, ?_⟩, fun tag w hw => ?_⟩, fun f w hf => ?_,
    fun n cons r rest s hn hq hroom => ?_, fun n cons s hn hq => ?_⟩
  · exact runs_next (congrArg Host.Outcome.next (if_pos hf)) (State.configAccess_retry r hf hb hs)
  · refine runs_next (congrArg Host.Outcome.next (if_pos hf)) ?_
    obtain ⟨x, hx⟩ : ∃ x : PciFn, x = { s.pciFn f with memEn := mem, master := master } := ⟨_, rfl⟩
    have hfn : (s.setFn f x).pciFn f = x := (State.pciFn_setFn ..).trans (if_pos rfl)
    obtain ⟨hcmd, hctl⟩ := State.sameCommand.msixFlushAll (s := s.setFn f x) f
    rw [State.configAccess_command mem master hf hb hs, ← hx]
    obtain ⟨h1, h2⟩ := hcmd f
    rw [hfn] at h1 h2
    exact ⟨h1.trans (by rw [hx]), h2.trans (by rw [hx]), List.getLast?_concat .., hctl⟩
  · have he : s.pcieUp = s.setOn LINK_HB_CTL_linkup true := if_pos hb
    refine runs_next (u := s.pcieUp) rfl ?_
    rw [he]
    exact ⟨State.get_setOn .., (s.onlyRegs_refl [LINK_HB_CTL]).setOn⟩
  · exact runs_next (u := s.pcieReset) rfl (State.pcieReset_shows hb)
  · exact runs_next (u := s.readTimeout tag) rfl (State.readTimeout_shows hw)
  · obtain ⟨s, hs⟩ : ∃ s, w.pageAcks.countRows f = s := ⟨_, rfl⟩
    rw [hs]
    dsimp only
    intro hb hp hr hi hc
    have ht : Takes w s f := ⟨hs, hf, hb, hp, hr, hi, hc⟩
    have hex : exec (.cmdRecordTake f) w = .next (w.takeRecord f) := congrArg Host.Outcome.next (if_pos hf)
    refine ⟨fun hm => runs_next hex ?_, fun hm hcls => ⟨fun m bytes hto ho => runs_next hex ?_, fun bytes hto => runs_next hex ?_⟩,
      fun hm h0 hcls => runs_next hex ?_⟩
    · obtain ⟨x, hx⟩ : ∃ x, (s.pciFn f).takeRow = x := ⟨_, rfl⟩
      have hfn : (s.setFn f x).pciFn f = x := (State.pciFn_setFn ..).trans (if_pos rfl)
      obtain ⟨h1, h2, h3, h4⟩ := State.complete_shows (s := s.setFn f x) (f := f) (by rw [hfn, ← hx]; rfl) ⟨0x10, 0, 0⟩
      rw [ht.malformed hm, hx, h1, hfn]
      refine ⟨by rw [← hx]; rfl, by rw [← hx]; rfl, fun j hj => ?_, rfl, h2, h3, h4⟩
      rw [← hx]
      exact (s.pciFn f).takeRow_bytes hj
    · exact ht.runs hm hcls hto ho
    · exact ht.unreachable hm hcls hto
    · exact ht.mapCommand hm h0 hcls
  · exact runs_next (congrArg Host.Outcome.next (if_pos hn)) (State.drainOut_shows hq hroom)
  · have he : s.drainOut n cons = s := by
      unfold State.drainOut
      rw [hq]
    exact (congrArg Host.Outcome.next (if_pos hn)).trans (congrArg Host.Outcome.next he)
end Sys2Proof.Machine

/-!
Firmware, settings and quotes (R530 to R549).
-/

namespace Sys2Proof.Machine

/-! ### The service port -/

section ServicePort

variable {s : State}

/-- An OFFER while a bouquet is provisional is refused with code 0x0B, whatever its header is (R530). -/
theorem State.svcOffer_provisional (h : s.get FWU_STAT_state = 6) (hd : List Byte) :
    (s.svcOffer hd).outbox = s.outbox ++ [.service 0x0B []] := by
  unfold State.svcOffer
  rw [if_pos h]
  exact congrArg (· ++ _) ((State.set_outbox ..).trans (State.setBit_outbox ..))

/-- A state that is provisional by its register, with no bank named provisional and nothing under way. -/
def offerWitness : State := State.fwState { State.reset with fw := { Fw.reset with conn := true } } 6

theorem offerWitness_provisional : offerWitness.get FWU_STAT_state = 6 := State.get_set_of_lt _ 4 (by decide)

theorem offerWitness_idle : offerWitness.fw.conn = true ∧ offerWitness.flash.provisional = none ∧ offerWitness.fw.transfer = none ∧
    offerWitness.fw.act = none := by
  unfold offerWitness State.fwState
  rw [State.set_fw, State.set_flash]
  exact ⟨rfl, rfl, rfl, rfl⟩

end ServicePort

/-- Refutes O52: the answer to an OFFER is not its header's code while FWU_STAT shows a provisional bouquet, and the hypotheses do not
exclude that. -/
theorem not_servicePortTransfersABouquet : ¬ Obligations.ServicePortTransfersABouquet := by
  unfold Obligations.ServicePortTransfersABouquet
  intro h
  obtain ⟨hconn, hprov, htr, hact⟩ := offerWitness_idle
  obtain ⟨-, -, hsvc⟩ := h offerWitness
  obtain ⟨-, -, -, hoffer, -⟩ := hsvc hconn
  obtain ⟨t, hex, -, -, hout, -⟩ := hoffer [] hprov htr hact
  have hopen : offerWitness.svc (·.svcOffer []) = offerWitness.svcOffer [] := if_pos hconn
  have ht : offerWitness.svcOffer [] = t := hopen.symm.trans (Host.Outcome.next.inj hex)
  rw [← ht, State.svcOffer_provisional offerWitness_provisional] at hout
  have hcode : offerWitness.headerCode [] = 1 := if_pos (.inl (by decide))
  rw [hcode] at hout
  have hlast := List.append_cancel_left hout
  simp at hlast

/-! ### Settings -/

section Settings

variable {s : State} {k n : Nat}

theorem ofBytes_bytesOf : ∀ k n : Nat, ofBytes (bytesOf k n) = n % 2 ^ (8 * k)
  | 0, _ => (Nat.mod_one _).symm
  | k + 1, n => by
    have h := ofBytes_bytesOf k (n >>> 8)
    rw [Nat.shiftRight_eq_div_pow] at h
    have hk : 2 ^ (8 * (k + 1)) = 2 ^ 8 * 2 ^ (8 * k) := by rw [← Nat.pow_add, Nat.add_comm, Nat.mul_add]
    rw [hk, Nat.mod_mul, ← h]
    simp [bytesOf, ofBytes, Nat.shiftRight_eq_div_pow]

theorem bytesOf_length : ∀ k n : Nat, (bytesOf k n).length = k
  | 0, _ => rfl
  | k + 1, _ => congrArg (· + 1) (bytesOf_length k _)

theorem SetRec.get_put (r : SetRec) (k : Nat) (v : List Byte) (j : Nat) : (r.put k v).get j = if j = k then ofBytes v else r.get j := by
  unfold SetRec.get SetRec.put
  dsimp only
  rw [lookup?_put]
  by_cases hj : j = k
  · rw [if_pos hj, if_pos hj]
  · rw [if_neg hj, if_neg hj]

/-- Copies of other registers stay as an accessor's own register is written (R32). -/
theorem State.rdAcc_wrAcc_apart (s : State) {a b : Nat} (h : b ≠ a) (acc : Nat) (v : Word) : (s.wrAcc acc a v).rdAcc acc b = s.rdAcc acc b := by
  refine (rdAt_wrAt _ _ _ _ _).trans (if_neg fun hk => h ?_)
  unfold bankKey at hk
  omega

theorem State.wrAcc_of_banked {u : State} (h : u = { s with banked := u.banked }) (acc a : Nat) (v : Word) :
    u.wrAcc acc a v = { s with banked := (u.wrAcc acc a v).banked } :=
  congrArg (fun t : State => { t with banked := (u.wrAcc acc a v).banked }) h

/-- What no key of the settings has a part in stays as a setting takes effect (R539). -/
theorem State.settingEffect_same {γ : Type} {g : State → γ} (hwr : ∀ (t : State) a w, g (t.wr a w) = g t)
    (hcap : ∀ (t : State) c, g { t with fw := { t.fw with capDue := c } } = g t) (s : State) (k : Nat) : g (s.settingEffect k) = g s := by
  have hset : ∀ (t : State) f v, g (t.set f v) = g t := fun _ _ _ => hwr _ _ _
  have hlink : ∀ (t : State) r k, g (t.linkSetting r k) = g t := fun t r k => by
    unfold State.linkSetting
    dsimp only
    split
    · exact hset _ _ _
    · exact hset _ _ _
    · exact hset _ _ _
    · exact (hset _ _ _).trans ((hset _ _ _).trans (hset _ _ _))
    · rfl
  have hsage : ∀ (t : State) v, g (t.writeSageCtl v) = g t := fun t v => by
    unfold State.writeSageCtl
    dsimp only
    split <;> split
    · rfl
    · exact hset _ _ _
    · exact hset _ _ _
    · exact (hset _ _ _).trans (hset _ _ _)
  unfold State.settingEffect
  dsimp only
  split
  · exact hcap _ _
  · exact hsage _ _
  · rfl
  · split
    · exact hlink _ _ _
    · rfl

/-- The settings in memory are stored in flash, or wait there (R540). -/
theorem State.storeSettings_same {γ : Type} {g : State → γ} (hwr : ∀ (t : State) a w, g (t.wr a w) = g t)
    (hflash : ∀ (t : State) x, g { t with flash := x } = g t) (s : State) : g s.storeSettings = g s := by
  unfold State.storeSettings
  split
  · exact hwr _ _ _
  · exact hflash _ _

theorem State.storeSettings_free (h : s.pwr.inhibit = false) : s.storeSettings.flash.settings = s.fw.settings := by
  unfold State.storeSettings
  rw [if_neg (by simp [h])]
  rfl

theorem State.storeSettings_inhibited (h : s.pwr.inhibit = true) : s.storeSettings.flash = s.flash := by
  unfold State.storeSettings
  rw [if_pos h]
  exact State.setOn_flash ..

/-- A key of the schema is written to memory, and to flash unless writes are inhibited (R538, R540). -/
theorem State.setPut_shows (hk : settingKeys.contains k = true) :
    (s.setPut k (bytesOf 4 n)).2 = 0 ∧ (s.setPut k (bytesOf 4 n)).1.banked = s.banked ∧
      (s.setPut k (bytesOf 4 n)).1.fw.settings = s.fw.settings.put k (bytesOf 4 n) ∧
      (s.pwr.inhibit = false → (s.setPut k (bytesOf 4 n)).1.flash.settings = (s.setPut k (bytesOf 4 n)).1.fw.settings) ∧
      (s.pwr.inhibit = true → (s.setPut k (bytesOf 4 n)).1.flash = s.flash) := by
  obtain ⟨u, hu⟩ : ∃ u : State, s.setFw (fun f => { f with settings := f.settings.put k (bytesOf 4 n) }) = u := ⟨_, rfl⟩
  have hb : u.banked = s.banked ∧ u.fw.settings = s.fw.settings.put k (bytesOf 4 n) ∧ u.flash = s.flash ∧ u.pwr = s.pwr := by
    rw [← hu]
    exact ⟨rfl, rfl, rfl, rfl⟩
  obtain ⟨hbank, hset, hfl, hpwr⟩ := hb
  have he : s.setPut k (bytesOf 4 n) = (u.storeSettings.settingEffect k, 0) := by
    unfold State.setPut
    rw [if_neg (by
      rintro (h | h)
      · rw [hk] at h
        cases h
      · exact h (bytesOf_length 4 n))]
    dsimp only
    rw [hu]
  have hsettings : (u.storeSettings.settingEffect k).fw.settings = u.fw.settings :=
    (State.settingEffect_same (g := fun t => t.fw.settings) (fun _ _ _ => rfl) (fun _ _ => rfl) _ _).trans
      (State.storeSettings_same (g := fun t => t.fw.settings) (fun _ _ _ => rfl) (fun _ _ => rfl) _)
  have hflash : (u.storeSettings.settingEffect k).flash = u.storeSettings.flash :=
    State.settingEffect_same (fun _ _ _ => rfl) (fun _ _ => rfl) _ _
  rw [he]
  refine ⟨rfl, ?_, hsettings.trans hset, fun hi => ?_, fun hi => ?_⟩
  · exact ((State.settingEffect_same (g := State.banked) (fun _ _ _ => rfl) (fun _ _ => rfl) _ _).trans
      (State.storeSettings_same (g := State.banked) (fun _ _ _ => rfl) (fun _ _ => rfl) _)).trans hbank
  · rw [hsettings, hflash, State.storeSettings_free (by rw [hpwr]; exact hi)]
  · rw [hflash, State.storeSettings_inhibited (by rw [hpwr]; exact hi), hfl]

/-- A key that no schema has is refused with 0x0E (R540, R546). -/
theorem State.setPut_refused (hk : settingKeys.contains k = false) (v : List Byte) : s.setPut k v = (s.set FWU_STAT_code 0x0E, 0x0E) := by
  unfold State.setPut
  exact if_pos (.inl (by rw [hk]; rfl))

theorem State.settingsPut_acc (s : State) (a key : Nat) (v : List Byte) :
    s.settingsPut (some a) key v = (s.setPut (bits (s.rdAcc a FWU_SET_SEL) 0 16) (bytesOf 4 (s.rdAcc a FWU_SET_DATA).toNat)).1.wrAcc a FWU_SET_RES
      (BitVec.ofNat 32 (s.setPut (bits (s.rdAcc a FWU_SET_SEL) 0 16) (bytesOf 4 (s.rdAcc a FWU_SET_DATA).toNat)).2) := rfl

theorem State.wrAcc_refused {r : State × Nat} {u : State} {k : Nat} (h : r = (u, k)) (acc a : Nat) :
    r.1.wrAcc acc a (BitVec.ofNat 32 r.2) = u.wrAcc acc a (BitVec.ofNat 32 k) := by rw [h]

/-- An accessor reads a key of the schema (R546). -/
theorem State.settingsGet_key {a key : Nat} (hk : settingKeys.contains (bits (s.rdAcc a FWU_SET_SEL) 0 16) = true) :
    s.settingsGet (some a) key = (s.wrAcc a FWU_SET_DATA (BitVec.ofNat 32 (s.fw.settings.get (bits (s.rdAcc a FWU_SET_SEL) 0 16)))).wrAcc a FWU_SET_RES 0 :=
  if_pos hk

theorem State.settingsGet_other {a key : Nat} (hk : settingKeys.contains (bits (s.rdAcc a FWU_SET_SEL) 0 16) = false) :
    s.settingsGet (some a) key = (s.set FWU_STAT_code 0x0E).wrAcc a FWU_SET_RES 0x0E :=
  if_neg (by rw [hk]; decide)

end Settings

/-! ### Quotes -/

section Quotes

variable {s : State} {svc : Bool} {nonce : List Byte}

/-- A waiting quote begins to be signed while an index is reserved for it (R542). -/
theorem State.quoteBegin_reserved (q : List Byte × Bool) (h1 : s.fw.index < s.get TRUST_RESV_end) (h2 : s.fw.index < 1048576) :
    (∃ b, (s.quoteBegin [q]).fw.signing = some (b, q.2)) ∧ (s.quoteBegin [q]).get TRUST_CTL_busy = 1 ∧ (s.quoteBegin [q]).fw.index = s.fw.index ∧
      (s.quoteBegin [q]).flash = s.flash := by
  have he : s.quoteBegin [q] =
      (s.setFw (fun f => { f with quotes := [], signing := some (s.quoteBody q.1, q.2) })).setOn TRUST_CTL_busy true := by
    rw [State.quoteBegin]
    dsimp only
    rw [if_neg (by omega), if_pos h1]
  rw [he]
  refine ⟨⟨s.quoteBody q.1, ?_⟩, State.get_setOn .., ?_, State.setOn_flash ..⟩
  · rw [State.setOn_fw]
    rfl
  · rw [State.setOn_fw]
    rfl

/-- With none waiting the signer is idle. -/
theorem State.quoteBegin_none : (s.quoteBegin []).fw.signing = none ∧ (s.quoteBegin []).fw.index = s.fw.index ∧ (s.quoteBegin []).fw.quote = s.fw.quote ∧
    (s.quoteBegin []).get TRUST_CTL_busy = 0 ∧ (s.quoteBegin []).flash = s.flash ∧ ∀ a, a ≠ TRUST_CTL → (s.quoteBegin []).rd a = s.rd a := by
  have he : s.quoteBegin [] = (s.setFw (fun f => { f with quotes := [], signing := none })).setOn TRUST_CTL_busy false := by rw [State.quoteBegin]
  obtain ⟨u, hu⟩ : ∃ u : State, s.setFw (fun f => { f with quotes := [], signing := none }) = u := ⟨_, rfl⟩
  have hfw : u.fw.signing = none ∧ u.fw.index = s.fw.index ∧ u.fw.quote = s.fw.quote ∧ u.flash = s.flash ∧ ∀ a, u.rd a = s.rd a := by
    rw [← hu]
    exact ⟨rfl, rfl, rfl, rfl, fun _ => rfl⟩
  obtain ⟨h1, h2, h3, h4, h5⟩ := hfw
  rw [he, hu, State.setOn_fw]
  exact ⟨h1, h2, h3, State.get_setOn .., (State.setOn_flash ..).trans h4,
    fun a ha => (((u.onlyRegs_refl [TRUST_CTL]).setOn (f := TRUST_CTL_busy)).2 a (by simpa using ha)).trans (h5 a)⟩

theorem State.askFor_same (s : State) (f : FieldRef) : (s.askFor f).fw = s.fw ∧ (s.askFor f).flash = s.flash ∧ ∀ a, (s.askFor f).rd a = s.rd a :=
  ⟨rfl, rfl, fun _ => rfl⟩

theorem exec_quoteRequest (svc : Bool) (nonce : List Byte) (s : State) :
    ∃ u : State, exec (.quoteRequest svc nonce) s = .next (u.quoteRequest svc nonce) ∧ u.fw = s.fw ∧ u.flash = s.flash ∧ ∀ a, u.rd a = s.rd a := by
  cases svc with
  | true => exact ⟨s, congrArg Host.Outcome.next (if_pos rfl), rfl, rfl, fun _ => rfl⟩
  | false => exact ⟨s.askFor TRUST_CTL_go, congrArg Host.Outcome.next (if_neg Bool.false_ne_true), s.askFor_same _⟩

/-- A quote asked for while none is signed is begun (R541). -/
theorem State.quoteRequest_begins (hc : svc = true → s.fw.conn = true) (hs : s.fw.signing = none) :
    s.quoteRequest svc nonce = (if svc then s else s.setOn TRUST_CTL_go true).quoteBegin [(if svc then nonce else s.nonce, svc)] := by
  unfold State.quoteRequest
  rw [if_neg (by cases svc <;> simp_all), if_neg (by simp [hs])]

/-- A change that hardware makes to a word is no action that software asks for (R10). -/
theorem State.asked_strike (s : State) (a : Nat) (g : Word → Word) (f : FieldRef) : (s.strike a g).asked f = s.asked f := by
  have h : (s.strike a g).present.asked = s.present.asked := by
    unfold State.strike State.present
    dsimp only
    split <;> simp
  unfold State.asked State.askedWord
  rw [h]

theorem State.asked_set (s : State) (f : FieldRef) (v : Nat) (g : FieldRef) : (s.set f v).asked g = s.asked g :=
  s.asked_congr (State.set_now ..) (State.set_cycle ..) g

theorem State.asked_setBit (s : State) (a i : Nat) (f : FieldRef) : (s.setBit a i).asked f = s.asked f :=
  (State.asked_strike _ _ _ _).trans (s.asked_congr rfl rfl f)

/-- The quote that is signed is stored with its signature and the certificate of its key (R543, R545). -/
def State.signedQuote (s : State) (b : List Byte × Bool) : List Byte :=
  b.1 ++ signature (1 + s.get TRUST_KEY_key) s.fw.index b.1 2820 ++ s.certBytes

/-- The state in which a signed quote is shown. -/
def State.quoteSigned (s : State) (b : List Byte × Bool) : State :=
  ((s.setFw (fun f => { f with quote := s.signedQuote b, index := s.fw.index + 1, newKey := f.newKey || decide (s.fw.index + 1 = 983040) })).set
    TRUST_KEY_next (s.fw.index + 1)).fwEvt 3

theorem State.quoteSigned_shows (s : State) (b : List Byte × Bool) :
    (s.quoteSigned b).fw.index = s.fw.index + 1 ∧ (s.quoteSigned b).fw.quote = s.signedQuote b ∧ (s.quoteSigned b).fw.quotes = s.fw.quotes ∧
      (s.quoteSigned b).flash = s.flash ∧ (s.quoteSigned b).bitOn FWU_EVT 3 = true ∧ ∀ f, (s.quoteSigned b).asked f = s.asked f := by
  obtain ⟨u, hu⟩ : ∃ u : State, s.setFw (fun f => { f with
    quote := s.signedQuote b, index := s.fw.index + 1, newKey := f.newKey || decide (s.fw.index + 1 = 983040) }) = u := ⟨_, rfl⟩
  have hfw : u.fw.index = s.fw.index + 1 ∧ u.fw.quote = s.signedQuote b ∧ u.fw.quotes = s.fw.quotes ∧ u.flash = s.flash ∧
      ∀ f, u.asked f = s.asked f := by
    rw [← hu]
    exact ⟨rfl, rfl, rfl, rfl, fun f => s.asked_congr rfl rfl f⟩
  obtain ⟨h1, h2, h3, h4, h5⟩ := hfw
  have hkeep : (s.quoteSigned b).fw = u.fw ∧ (s.quoteSigned b).flash = u.flash := by
    unfold State.quoteSigned State.fwEvt
    rw [hu]
    exact ⟨(State.setBit_fw ..).trans (State.set_fw ..), (State.setBit_flash ..).trans (State.set_flash ..)⟩
  obtain ⟨hf, hfl⟩ := hkeep
  rw [hf, hfl]
  refine ⟨h1, h2, h3, h4, State.setBit_bitOn_same _ _ (by decide), fun f => ?_⟩
  unfold State.quoteSigned State.fwEvt
  rw [hu, State.asked_setBit, State.asked_set, h5]

/-- A quote that is done is stored, and with none waiting the signer is idle (R543). -/
theorem State.quoteComplete_last {b : List Byte × Bool} (hs : s.fw.signing = some b) (hq : s.fw.quotes = [])
    (ha : b.2 = true ∨ s.asked TRUST_CTL_go = false) :
    ∃ u : State, s.quoteComplete = u.quoteBegin [] ∧ u.fw = (s.quoteSigned b).fw ∧ u.flash = (s.quoteSigned b).flash ∧
      u.rd FWU_EVT = (s.quoteSigned b).rd FWU_EVT := by
  obtain ⟨h1, h2, h3, h4, h5, h6⟩ := s.quoteSigned_shows b
  have he : s.quoteComplete = if b.2 then ((s.quoteSigned b).result 0 (s.signedQuote b)).quoteBegin (s.quoteSigned b).fw.quotes
      else ((s.quoteSigned b).set TRUST_CTL_result 0 |>.done TRUST_CTL_go).quoteBegin
        (((s.quoteSigned b).set TRUST_CTL_result 0 |>.done TRUST_CTL_go).fw.quotes ++
          (if ((s.quoteSigned b).set TRUST_CTL_result 0 |>.done TRUST_CTL_go).asked TRUST_CTL_go
            then [(((s.quoteSigned b).set TRUST_CTL_result 0 |>.done TRUST_CTL_go).nonce, false)] else [])) := by
    unfold State.quoteComplete
    rw [hs]
    have hfold : ((s.setFw (fun f => { f with quote := s.signedQuote b, index := s.fw.index + 1, newKey := f.newKey || decide (s.fw.index + 1 = 983040) })).set
      TRUST_KEY_next (s.fw.index + 1)).fwEvt 3 = s.quoteSigned b := rfl
    have hfold2 : b.1 ++ signature (1 + s.get TRUST_KEY_key) s.fw.index b.1 2820 ++ s.certBytes = s.signedQuote b := rfl
    dsimp only
    rw [hfold2, hfold]
  cases hb : b.2 with
  | true =>
    obtain ⟨u, hu⟩ : ∃ u : State, s.quoteSigned b = u := ⟨_, rfl⟩
    rw [hu] at he h3 ⊢
    refine ⟨u.result 0 (s.signedQuote b), ?_, rfl, rfl, rfl⟩
    rw [he, hb, if_pos rfl, h3, hq]
  | false =>
    have hask : s.asked TRUST_CTL_go = false := ha.resolve_left (by simp [hb])
    obtain ⟨u, hu⟩ : ∃ u : State, s.quoteSigned b = u := ⟨_, rfl⟩
    rw [hu] at he h3 h6 ⊢
    have hdone : (u.set TRUST_CTL_result 0).done TRUST_CTL_go = (u.set TRUST_CTL_result 0).setOn TRUST_CTL_go false :=
      State.done_of_quiet (by rw [State.asked_set, h6, hask])
    obtain ⟨v, hv⟩ : ∃ v : State, (u.set TRUST_CTL_result 0).setOn TRUST_CTL_go false = v := ⟨_, rfl⟩
    have hfw : v.fw = u.fw := by rw [← hv, State.setOn_fw, State.set_fw]
    have hfl : v.flash = u.flash := by rw [← hv, State.setOn_flash, State.set_flash]
    have hrd : v.rd FWU_EVT = u.rd FWU_EVT := by
      rw [← hv]
      exact (((u.onlyRegs_refl [TRUST_CTL]).set (f := TRUST_CTL_result)).setOn (f := TRUST_CTL_go)).2 _ (by decide)
    have hv2 : v.asked TRUST_CTL_go = false := by
      rw [← hv]
      exact (State.asked_set _ _ _ _).trans ((State.asked_set _ _ _ _).trans ((h6 _).trans hask))
    refine ⟨v, ?_, hfw, hfl, hrd⟩
    rw [he, hb, hdone, hv, hfw, h3, hq, hv2]
    rfl

end Quotes

/-! ### The attestation key -/

section Key

variable {s : State}

/-- A new key is certified with the next identity index and becomes the current one (R545). -/
theorem State.keyRotate_shows (hn : s.fw.newKey = true) (hs : s.fw.signing = none) (hi : s.pwr.inhibit = false) (hx : s.get TRUST_ID_next < 1024) :
    s.keyRotate.flash.keyNo = s.get TRUST_KEY_key + 1 ∧ s.keyRotate.fw.index = 0 ∧ s.keyRotate.fw.newKey = false ∧
      s.keyRotate.get TRUST_ID_next = s.get TRUST_ID_next + 1 ∧ s.keyRotate.get TRUST_KEY_next = 0 ∧ s.keyRotate.bitOn FWU_EVT 3 = true := by
  obtain ⟨fl, hfl⟩ : ∃ fl : Flash → Flash, ∀ f, fl f = { f with
    idEnd := s.get TRUST_ID_next + 1, keyNo := s.get TRUST_KEY_key + 1, keyEnd := 0
    cert := (bytesOf 4 (s.get TRUST_KEY_key + 1) ++ (List.range 68).map (Config.attestKey (s.get TRUST_KEY_key + 1)) ++
      bytesOf 8 ((s.inv.map (·.serial.toNat)).getD 0) ++ bytesOf 8 s.tick ++ bytesOf 40 0) ++
      signature 0 (s.get TRUST_ID_next) (bytesOf 4 (s.get TRUST_KEY_key + 1) ++ (List.range 68).map (Config.attestKey (s.get TRUST_KEY_key + 1)) ++
      bytesOf 8 ((s.inv.map (·.serial.toNat)).getD 0) ++ bytesOf 8 s.tick ++ bytesOf 40 0) 2500 } := ⟨_, fun _ => rfl⟩
  obtain ⟨u, hu⟩ : ∃ u : State, (s.setFlash fl).setFw (fun f => { f with newKey := false, index := 0 }) = u := ⟨_, rfl⟩
  have he : s.keyRotate = ((((u.set TRUST_ID_next (s.get TRUST_ID_next + 1)).set TRUST_KEY_key (s.get TRUST_KEY_key + 1)).set TRUST_KEY_next 0).set
      TRUST_RESV_end 0).fwEvt 3 := by
    unfold State.keyRotate
    dsimp only
    rw [if_neg (by simp [hn, hs, hi]), if_neg (by omega), ← hu, funext hfl]
  have hufl : u.flash.keyNo = s.get TRUST_KEY_key + 1 ∧ u.fw.index = 0 ∧ u.fw.newKey = false := by
    rw [← hu]
    exact ⟨congrArg Flash.keyNo (hfl s.flash), rfl, rfl⟩
  obtain ⟨h1, h2, h3⟩ := hufl
  obtain ⟨v, hv⟩ : ∃ v : State, u.set TRUST_ID_next (s.get TRUST_ID_next + 1) = v := ⟨_, rfl⟩
  have hvid : v.get TRUST_ID_next = s.get TRUST_ID_next + 1 := by
    rw [← hv]
    exact State.get_set_of_lt _ 11 (by omega)
  have hvfw : v.fw = u.fw ∧ v.flash = u.flash := by
    rw [← hv]
    exact ⟨State.set_fw .., State.set_flash ..⟩
  obtain ⟨w, hw⟩ : ∃ w : State, (v.set TRUST_KEY_key (s.get TRUST_KEY_key + 1)).set TRUST_KEY_next 0 = w := ⟨_, rfl⟩
  have hwnext : w.get TRUST_KEY_next = 0 := by
    rw [← hw]
    exact State.get_set_fits ..
  have hwkeep : v.onlyRegs w [TRUST_KEY] := by
    rw [← hw]
    exact ((v.onlyRegs_refl _).set).set
  have hwfw : w.fw = v.fw ∧ w.flash = v.flash := by
    rw [← hw]
    exact ⟨(State.set_fw ..).trans (State.set_fw ..), (State.set_flash ..).trans (State.set_flash ..)⟩
  have hend : w.onlyRegs ((w.set TRUST_RESV_end 0).fwEvt 3) [TRUST_RESV, FWU_EVT] := ((w.onlyRegs_refl _).set).setBit (.tail _ (.head _))
  have hendfw : ((w.set TRUST_RESV_end 0).fwEvt 3).fw = w.fw ∧ ((w.set TRUST_RESV_end 0).fwEvt 3).flash = w.flash :=
    ⟨(State.setBit_fw ..).trans (State.set_fw ..), (State.setBit_flash ..).trans (State.set_flash ..)⟩
  have hbit : ((w.set TRUST_RESV_end 0).fwEvt 3).bitOn FWU_EVT 3 = true := State.setBit_bitOn_same _ _ (by decide)
  rw [he, hv, hw]
  obtain ⟨z, hz⟩ : ∃ z : State, (w.set TRUST_RESV_end 0).fwEvt 3 = z := ⟨_, rfl⟩
  rw [hz] at hend hendfw hbit ⊢
  obtain ⟨hzfw, hzfl⟩ := hendfw
  rw [hzfw, hzfl, hwfw.1, hwfw.2, hvfw.1, hvfw.2]
  refine ⟨h1, h2, h3, ?_, ?_, hbit⟩
  · rw [State.get_of_rd (f := TRUST_ID_next) (hend.2 TRUST_ID (by decide)), State.get_of_rd (f := TRUST_ID_next) (hwkeep.2 TRUST_ID (by decide)), hvid]
  · rw [State.get_of_rd (f := TRUST_KEY_next) (hend.2 TRUST_KEY (by decide)), hwnext]

end Key

/-- Settles O54: settings go through the accessor's registers, and quotes and keys through the signer. -/
theorem settingsAndQuotesAreKept : Obligations.SettingsAndQuotesAreKept := by
  unfold Obligations.SettingsAndQuotesAreKept
  refine fun s => ⟨fun a key => ?_, fun svc nonce hc hs h1 h2 => ?_, fun b hs hq ha => ?_, fun hn hs hi hx => ?_⟩
  · dsimp only
    refine ⟨fun hk => ⟨?_, fun v => ?_⟩, fun hk v => ?_⟩
    · refine runs_next (u := s.settingsGet (some a) key) rfl ?_
      rw [State.settingsGet_key hk]
      obtain ⟨u, hu⟩ : ∃ u, s.wrAcc a FWU_SET_DATA (BitVec.ofNat 32 (s.fw.settings.get (bits (s.rdAcc a FWU_SET_SEL) 0 16))) = u := ⟨_, rfl⟩
      have hdata : u.rdAcc a FWU_SET_DATA = BitVec.ofNat 32 (s.fw.settings.get (bits (s.rdAcc a FWU_SET_SEL) 0 16)) := by
        rw [← hu]
        exact State.rdAcc_wrAcc ..
      have hshape : u = { s with banked := u.banked } := by
        rw [← hu]
        exact State.wrAcc_banked ..
      rw [hu]
      exact ⟨(u.rdAcc_wrAcc_apart (by decide) _ _).trans hdata, State.rdAcc_wrAcc .., State.wrAcc_of_banked hshape _ _ _⟩
    · refine runs_next (u := s.settingsPut (some a) key v) rfl ?_
      obtain ⟨h0, hb, hset, hfree, hinh⟩ := State.setPut_shows (s := s) (n := (s.rdAcc a FWU_SET_DATA).toNat) hk
      rw [State.settingsPut_acc]
      obtain ⟨r, hr⟩ : ∃ r, s.setPut (bits (s.rdAcc a FWU_SET_SEL) 0 16) (bytesOf 4 (s.rdAcc a FWU_SET_DATA).toNat) = r := ⟨_, rfl⟩
      rw [hr] at h0 hb hset hfree hinh ⊢
      have hfw : (r.1.wrAcc a FWU_SET_RES (BitVec.ofNat 32 r.2)).fw = r.1.fw ∧ (r.1.wrAcc a FWU_SET_RES (BitVec.ofNat 32 r.2)).flash = r.1.flash :=
        ⟨State.wrAcc_same State.fw (fun _ _ => rfl) .., State.wrAcc_same State.flash (fun _ _ => rfl) ..⟩
      have hres : (r.1.wrAcc a FWU_SET_RES (BitVec.ofNat 32 r.2)).rdAcc a FWU_SET_RES = 0 := by
        rw [State.rdAcc_wrAcc, h0]
        rfl
      rw [hfw.1, hfw.2, hset]
      have hlt := (s.rdAcc a FWU_SET_DATA).isLt
      refine ⟨?_, hres, fun j hj => ?_, fun hi => (hfree hi).trans hset, hinh⟩
      · rw [SetRec.get_put, if_pos rfl, ofBytes_bytesOf, Nat.mod_eq_of_lt hlt]
      · rw [SetRec.get_put, if_neg hj]
    · have hget : ∀ u : State, u = (s.set FWU_STAT_code 0x0E).wrAcc a FWU_SET_RES 0x0E →
          u.rdAcc a FWU_SET_RES = 0x0E ∧ u.get FWU_STAT_code = 0x0E ∧ u.fw = s.fw ∧ u.flash = s.flash := by
        rintro u rfl
        refine ⟨State.rdAcc_wrAcc .., (State.wrAcc_get ..).trans (State.get_set_of_lt _ 8 (by decide)), ?_, ?_⟩
        · exact (State.wrAcc_same State.fw (fun _ _ => rfl) ..).trans (State.set_fw ..)
        · exact (State.wrAcc_same State.flash (fun _ _ => rfl) ..).trans (State.set_flash ..)
      rw [List.forall_mem_cons, List.forall_mem_singleton]
      exact ⟨runs_next (u := s.settingsGet (some a) key) rfl (hget _ (State.settingsGet_other hk)),
        runs_next (u := s.settingsPut (some a) key v) rfl (hget _ ((State.settingsPut_acc ..).trans (State.wrAcc_refused (State.setPut_refused hk _) _ _)))⟩
  · obtain ⟨u, hex, hfw, hfl, hrd⟩ := exec_quoteRequest svc nonce s
    obtain ⟨v, hv⟩ : ∃ v, (if svc then u else u.setOn TRUST_CTL_go true) = v := ⟨_, rfl⟩
    have hsame2 : v.fw = u.fw ∧ v.flash = u.flash ∧ v.rd TRUST_RESV = u.rd TRUST_RESV := by
      rw [← hv]
      split
      · exact ⟨rfl, rfl, rfl⟩
      · exact ⟨State.setOn_fw .., State.setOn_flash .., ((u.onlyRegs_refl [TRUST_CTL]).setOn (f := TRUST_CTL_go)).2 _ (by decide)⟩
    obtain ⟨hvfw, hvfl, hvrd⟩ := hsame2
    have hend : v.get TRUST_RESV_end = s.get TRUST_RESV_end := State.get_of_rd (f := TRUST_RESV_end) (hvrd.trans (hrd _))
    obtain ⟨g1, g2, g3, g4⟩ := State.quoteBegin_reserved (s := v) (if svc then nonce else u.nonce, svc) (by rw [hvfw, hfw, hend]; exact h1)
      (by rw [hvfw, hfw]; exact h2)
    refine runs_next hex ?_
    rw [State.quoteRequest_begins (by rw [hfw]; exact hc) (by rw [hfw]; exact hs), hv]
    exact ⟨g1, g2, g3.trans (by rw [hvfw, hfw]), g4.trans (hvfl.trans hfl)⟩
  · refine runs_next (u := s.quoteComplete) rfl ?_
    obtain ⟨u, he, hfw, hfl, hrd⟩ := State.quoteComplete_last hs hq ha
    obtain ⟨h1, h2, h3, h4, h5, h6⟩ := State.quoteBegin_none (s := u)
    obtain ⟨g1, g2, -, g4, g5, -⟩ := s.quoteSigned_shows b
    rw [he]
    refine ⟨h1, h2.trans (by rw [hfw, g1]), ?_, h4, ?_, h5.trans (hfl.trans g4)⟩
    · rw [h3, hfw, g2]
      unfold State.signedQuote
      rw [List.append_assoc, List.take_left]
    · exact (State.bitOn_of_rd ((h6 _ (by decide)).trans hrd) 3).trans g5
  · exact runs_next (u := s.keyRotate) rfl (State.keyRotate_shows hn hs hi hx)
end Sys2Proof.Machine

/-!
Frames between the bridge and the modules of its bed (R399, R401, R435, R447 to R454).
-/

namespace Sys2Proof.Machine

/-! ### Messages of a function's table -/

section Msix

variable {s : State} {f v src : Nat}

theorem PciFn.ent_put (x : PciFn) (v : Nat) (e : MsixEnt) : PciFn.ent { x with msix := put x.msix v e } v = e := (lookupD_put ..).trans (if_pos rfl)

/-- A function with an event that waits in its table. -/
def PciFn.pending (x : PciFn) (v src : Nat) : PciFn := { x with msix := put x.msix v { x.ent v with pend := some src } }

theorem PciFn.pending_ent (x : PciFn) (v src : Nat) : (x.pending v src).ent v = { x.ent v with pend := some src } := x.ent_put v _

theorem State.msixRaise_eq (s : State) (f v src : Nat) : s.msixRaise f v src = (s.setFn f ((s.pciFn f).pending v src)).msixFlush f v := rfl

/-- An event whose entry is masked waits there (R450). -/
theorem State.msixRaise_masked (h : ((s.pciFn f).ent v).masked = true) :
    (s.msixRaise f v src).outbox = s.outbox ∧ (((s.msixRaise f v src).pciFn f).ent v).pend = some src := by
  have hfn : (s.setFn f ((s.pciFn f).pending v src)).pciFn f = (s.pciFn f).pending v src := (State.pciFn_setFn ..).trans (if_pos rfl)
  have he : s.msixRaise f v src = s.setFn f ((s.pciFn f).pending v src) := by
    rw [State.msixRaise_eq]
    unfold State.msixFlush
    dsimp only
    rw [hfn, PciFn.pending_ent, if_neg (by simp [h])]
  rw [he, hfn, PciFn.pending_ent]
  exact ⟨rfl, rfl⟩

/-- An event whose entry is open goes to the host (R450). -/
theorem State.msixRaise_open (he : (s.pciFn f).msixEn = true) (hm : (s.pciFn f).msixMask = false) (hb : (s.pciFn f).master = true)
    (h : ((s.pciFn f).ent v).masked = false) :
    (s.msixRaise f v src).outbox = s.outbox ++ [.msix f v ((s.pciFn f).ent v).addr ((s.pciFn f).ent v).data] := by
  have hfn : (s.setFn f ((s.pciFn f).pending v src)).pciFn f = (s.pciFn f).pending v src := (State.pciFn_setFn ..).trans (if_pos rfl)
  rw [State.msixRaise_eq]
  unfold State.msixFlush
  dsimp only
  rw [hfn, PciFn.pending_ent, if_pos ⟨rfl, he, by rw [show ((s.pciFn f).pending v src).msixMask = false from hm]; rfl, hb, by rw [h]; rfl⟩]
  rfl

end Msix

/-! ### Frames received -/

section Frames

variable {s : State} {k : Nat} {r : Rx}

/-- What the ports have no part in is the same once a frame has left its buffer. -/
theorem State.rxDone_of_frame {γ : Type} {g : State → γ} {kind : Nat} (h : s.rxFrame k kind = some r)
    (hg : ∀ P O C N, g { s with rx := eraseAt s.rx k, ports := P, outbox := O, ctl := C, now := N } = g { s with rx := eraseAt s.rx k }) :
    g (s.rxDone k) = g { s with rx := eraseAt s.rx k } :=
  (congrArg g (State.rxDone_onlyPorts (State.rxFrame_some h).1).1).trans (hg _ _ _ _)

theorem State.rxDone_rx {kind : Nat} (h : s.rxFrame k kind = some r) : (s.rxDone k).rx = eraseAt s.rx k :=
  State.rxDone_of_frame (g := State.rx) h fun _ _ _ _ => rfl

theorem State.rxDone_hb {kind : Nat} (h : s.rxFrame k kind = some r) : (s.rxDone k).hb = s.hb :=
  State.rxDone_of_frame (g := State.hb) h fun _ _ _ _ => rfl

theorem State.ctrlReceive_write (h : s.rxFrame k 4 = some r) (hw : field r.frame.word 31 1 = 1) (hm : field r.frame.word 26 2 = 0) :
    s.ctrlReceive k = ((s.rxDone k).heardBridge r.frame.source).spaceWrite (265 + r.frame.source) (field r.frame.word 0 26)
      (BitVec.ofNat 32 (r.frame.word >>> 32)) 15 := by
  simp [State.ctrlReceive, h, hw, hm, tltAcc]

theorem State.ctrlReceive_read (h : s.rxFrame k 4 = some r) (hw : field r.frame.word 31 1 = 0) :
    s.ctrlReceive k = (let h := (s.rxDone k).heardBridge r.frame.source
      let out := field r.frame.word 26 2 == 2 && decide (0x2000000 + 128 * s.sliceSize r.frame.part ≤ field r.frame.word 0 26)
      let a := if field r.frame.word 26 2 == 2 then field r.frame.word 0 26 + 128 * s.sliceBase r.frame.part else field r.frame.word 0 26
      let q := if out then (ones, h) else h.spaceRead (265 + r.frame.source) a
      (q.2.sendTo r.frame.source 5 r.frame.part (field r.frame.word 0 26 + 2 ^ 32 * q.1.toNat) []).1) := by
  unfold State.ctrlReceive
  rw [h]
  dsimp only
  rw [if_neg (by omega)]
  rfl

/-- The reply completes the oldest read that waits for it (R447). -/
theorem State.ctrlrReceive_completes (h : s.rxFrame k 5 = some r) {w : Fwd}
    (hw : s.hb.fwds.find? (fun w => !w.page && w.module == r.frame.source && w.off % 2 ^ 26 == field r.frame.word 0 26) = some w) :
    s.ctrlrReceive k = ({ s.rxDone k with hb := { (s.rxDone k).hb with fwds := (s.rxDone k).hb.fwds.erase w } } : State).emit
      (.readData w.acc w.addr (BitVec.ofNat 32 (r.frame.word >>> 32))) := by
  unfold State.ctrlrReceive
  rw [h]
  dsimp only
  rw [State.rxDone_hb h, hw]

/-- An event of a device becomes the message of its vector (R450). -/
theorem State.eventReceive_raises (h : s.rxFrame k 6 = some r) (hb : (s.rxDone k).isBridge = true) (hs : field r.frame.word 0 10 < 512) :
    s.eventReceive k = (s.rxDone k).msixRaise 0 (field r.frame.word 16 4) (field r.frame.word 0 10) := by
  unfold State.eventReceive
  rw [h]
  dsimp only
  rw [if_pos hb]
  exact if_pos hs

theorem hostFree_rx : HostFree State.rx := ⟨fun _ _ => rfl, fun _ _ => rfl, fun _ _ => rfl, fun _ _ _ => rfl, fun _ _ h => h.same (g := State.rx) fun _ _ _ _ _ _ => rfl⟩

/-- A hard reset asked for is shown as one (R393). -/
theorem State.askReset_hard (s : State) (n : Nat) : (s.askReset n true).on (PART_RST_hard n) = true := by
  have hset : ∀ t : State, (t.setOn (PART_RST_hard n) true).on (PART_RST_hard n) = true := fun t => State.on_of_get (t.get_setOn true)
  have hcnt : ∀ (t : State) f, f.addr = PART_RST_CNT n → (t.bump f 1).on (PART_RST_hard n) = t.on (PART_RST_hard n) := fun t f hf =>
    State.on_of_rd (((t.onlyRegs_refl [f.addr]).bump (f := f)).2 _ (by
      rw [hf]
      show PART_RST n ∉ _
      unfold PART_RST PART_RST_CNT
      simp))
  unfold State.askReset
  split
  · split
    · dsimp only
      split
      · exact (hcnt _ _ rfl).trans (hset s)
      · split
        · exact hset s
        · exact (hcnt _ _ rfl).trans (hset s)
    next hh => simpa using hh
  · refine (State.on_of_rd (((State.onlyRegs_refl _ [PART_RST_TICK n]).set (f := PART_RST_TICK_tick n)).2 _ ?_)).trans (hset _)
    show PART_RST n ∉ _
    unfold PART_RST PART_RST_TICK
    simp

/-- A reset asked for over TLT is noted with its module (R401). -/
theorem State.resetReceive_asks (h : s.rxFrame k 8 = some r) (hw : r.frame.word % 2 = 0) :
    s.resetReceive k = (((s.rxDone k).heardBridge r.frame.source).askReset (r.frame.part % 64) true).onPart (r.frame.part % 64)
      (fun q => { q with rstFor := q.rstFor ++ [r.frame.source] }) := by
  unfold State.resetReceive
  rw [h]
  dsimp only
  rw [if_neg (by omega)]

theorem State.resetReceive_hears (h : s.rxFrame k 8 = some r) (hw : r.frame.word % 2 = 1) :
    s.resetReceive k = (s.rxDone k).flrHeard r.frame.source (r.frame.part % 64) := by
  unfold State.resetReceive
  rw [h]
  exact if_pos hw

theorem State.outputReceive_record (h : s.rxFrame k 9 = some r) (hb : (s.rxDone k).isBridge = true) (hw : r.frame.word % 2 = 0) :
    s.outputReceive k = (s.rxDone k).emit (.hostWrite r.frame.source ((s.rxDone k).vfOf r.frame.source r.frame.part) r.frame.word
      (wordsOfNat (r.frame.payload.length / 4) (ofBytes r.frame.payload))) := by
  unfold State.outputReceive
  rw [h]
  dsimp only
  rw [if_neg (by simp [hb]), if_neg (by omega)]

end Frames

/-! ### Pages and records forwarded -/

section Forwarded

variable {s : State} {k : Nat} {r : Rx}

theorem State.pageReceive_waits (h : s.rxFrame k 10 = some r) (h17 : r.frame.word.testBit 17 = false) (hp : (s.rxDone k).powered = true)
    (hw : ((s.rxDone k).heardBridge r.frame.source).apertureWaits (BitVec.ofNat 64 (hnum r.frame.payload 0 8)) (r.frame.word.testBit 16) = true) :
    s.pageReceive k = s := by
  have hp' : ((s.rxDone k).heardBridge r.frame.source).powered = true := hp
  unfold State.pageReceive
  rw [h]
  dsimp only
  rw [if_neg (by simp [h17]), if_pos (by rw [hp', hw]; rfl)]

theorem State.pageReceive_read (h : s.rxFrame k 10 = some r) (h17 : r.frame.word.testBit 17 = false) (h16 : r.frame.word.testBit 16 = false)
    (hp : (s.rxDone k).powered = true)
    (hw : ((s.rxDone k).heardBridge r.frame.source).apertureWaits (BitVec.ofNat 64 (hnum r.frame.payload 0 8)) false = false) :
    s.pageReceive k = (
      let q := ((s.rxDone k).heardBridge r.frame.source).apertureRead (BitVec.ofNat 64 (hnum r.frame.payload 0 8))
        (hnum r.frame.payload 8 4) (hnum r.frame.payload 12 4)
      (q.2.sendTo r.frame.source 10 r.frame.part (field r.frame.word 0 16 + 2 ^ 17 + 2 ^ 18 * b2n q.1.isNone) (q.1.getD [])).1) := by
  have hp' : ((s.rxDone k).heardBridge r.frame.source).powered = true := hp
  unfold State.pageReceive
  rw [h]
  dsimp only
  rw [if_neg (by simp [h17]), h16, if_neg (by rw [hp', hw]; decide), if_neg Bool.false_ne_true, if_pos hp']

theorem State.pageReceive_write (h : s.rxFrame k 10 = some r) (h17 : r.frame.word.testBit 17 = false) (h16 : r.frame.word.testBit 16 = true)
    (hp : (s.rxDone k).powered = true)
    (hw : ((s.rxDone k).heardBridge r.frame.source).apertureWaits (BitVec.ofNat 64 (hnum r.frame.payload 0 8)) true = false)
    (hk : bits (BitVec.ofNat 64 (hnum r.frame.payload 0 8)) 61 2 = 0) :
    s.pageReceive k = (let h := (s.rxDone k).heardBridge r.frame.source
      let q := h.apertureWrite (BitVec.ofNat 64 (hnum r.frame.payload 0 8)) (hnum r.frame.payload 8 4) (r.frame.payload.drop 16) h.hb.nextTag
      (q.2.sendTo r.frame.source 10 r.frame.part (field r.frame.word 0 16 + 2 ^ 16 + 2 ^ 17 + 2 ^ 18 * b2n (!q.1)) []).1) := by
  have hp' : ((s.rxDone k).heardBridge r.frame.source).powered = true := hp
  unfold State.pageReceive
  rw [h]
  dsimp only
  rw [if_neg (by simp [h17]), h16, if_neg (by rw [hp', hw]; decide), if_pos rfl, if_pos hp', if_neg fun hc => hc.2 hk]

theorem State.pageReceive_reply (h : s.rxFrame k 10 = some r) {w : Fwd} (h17 : r.frame.word.testBit 17 = true) (h18 : r.frame.word.testBit 18 = false)
    (hw : w.write = false)
    (hf : s.hb.fwds.find? (fun w => w.page && w.module == r.frame.source && w.tag % 65536 == field r.frame.word 0 16) = some w) :
    s.pageReceive k = ({ s.rxDone k with hb := { (s.rxDone k).hb with fwds := (s.rxDone k).hb.fwds.erase w } } : State).emit
      (.pageData w.acc r.frame.payload) := by
  unfold State.pageReceive
  rw [h]
  dsimp only
  rw [if_pos h17, h18]
  unfold State.pageReply
  rw [State.rxDone_hb h, hf]
  dsimp only
  rw [hw, if_neg Bool.false_ne_true, if_neg Bool.false_ne_true]

end Forwarded

/-- Settles O44: each frame is its rule of the bridge, once it has left its buffer. -/
theorem bridgeFramesTakeEffect : Obligations.BridgeFramesTakeEffect := by
  unfold Obligations.BridgeFramesTakeEffect
  intro k r s
  dsimp only
  refine ⟨fun h hw hm => ?_, fun h hw => ⟨fun ho => ?_, fun ho => ?_⟩, fun h w hw => ?_, fun h hb hs => ⟨fun he hm hma hk => ?_, fun hk => ?_⟩,
    fun h => ⟨fun hw => ?_, fun hw => ?_⟩, fun h hb hw => ?_, fun h => ⟨fun h17 hp hw => ?_, fun h17 h16 hp hw => ?_, fun h17 h16 hp hw hk => ?_,
      fun w h17 h18 hw hf => ?_⟩, fun h => ⟨fun hp => ?_, fun hp => ?_⟩⟩
  · refine runs_next (u := s.ctrlReceive k) rfl ?_
    rw [State.ctrlReceive_write h hw hm]
    exact exec_registerWrite_space ..
  · refine runs_next (u := s.ctrlReceive k) rfl ?_
    rw [State.ctrlReceive_read h hw]
    dsimp only
    rw [ho, if_neg Bool.false_ne_true]
    simp only [beq_iff_eq]
    rfl
  · refine runs_next (u := s.ctrlReceive k) rfl ?_
    rw [State.ctrlReceive_read h hw]
    dsimp only
    rw [ho, if_pos rfl]
    rfl
  · refine runs_next (u := s.ctrlrReceive k) rfl ?_
    rw [State.ctrlrReceive_completes h hw]
    exact ⟨congrArg (fun b : Hb => b.fwds.erase w) (State.rxDone_hb h), rfl, State.rxDone_rx h⟩
  · refine runs_next (u := s.eventReceive k) rfl ?_
    have hfn : (s.rxDone k).pciFn 0 = s.pciFn 0 := congrArg (fun b : Hb => lookupD PciFn.reset b.fns 0) (State.rxDone_hb h)
    rw [State.eventReceive_raises h hb hs, ← hfn]
    rw [← hfn] at he hm hma hk
    exact ⟨State.msixRaise_open he hm hma hk, (hostFree_rx.msixRaise ..).trans (State.rxDone_rx h)⟩
  · refine runs_next (u := s.eventReceive k) rfl ?_
    have hfn : (s.rxDone k).pciFn 0 = s.pciFn 0 := congrArg (fun b : Hb => lookupD PciFn.reset b.fns 0) (State.rxDone_hb h)
    rw [← hfn] at hk
    rw [State.eventReceive_raises h hb hs]
    exact State.msixRaise_masked hk
  · refine runs_next (u := s.resetReceive k) rfl ?_
    rw [State.resetReceive_asks h hw]
    obtain ⟨u, hu⟩ : ∃ u, ((s.rxDone k).heardBridge r.frame.source).askReset (r.frame.part % 64) true = u := ⟨_, rfl⟩
    have hbusy : u.on (PART_RST_busy (r.frame.part % 64)) = true := by
      rw [← hu]
      exact State.askReset_busy ..
    have hhard : u.on (PART_RST_hard (r.frame.part % 64)) = true := by
      rw [← hu]
      exact State.askReset_hard _ _
    have hrx : u.rx = eraseAt s.rx k := by
      rw [← hu, (State.askReset_onlyRegs ..).1]
      exact State.rxDone_rx h
    rw [hu]
    refine ⟨hbusy, hhard, ?_, hrx⟩
    unfold State.onPart State.setPart State.part
    dsimp only
    rw [lookupD_put, if_pos rfl]
    exact List.mem_append_right _ (.head _)
  · refine runs_next (u := s.resetReceive k) rfl ?_
    rw [State.resetReceive_hears h hw]
    exact ⟨congrArg (fun b : Hb => b.flrDone ++ (s.rxDone k).flrsOf r.frame.source (r.frame.part % 64)) (State.rxDone_hb h), State.rxDone_rx h,
      State.rxDone_of_frame (g := State.cores) h fun _ _ _ _ => rfl⟩
  · refine runs_next (u := s.outputReceive k) rfl ?_
    rw [State.outputReceive_record h hb hw]
    exact ⟨rfl, State.rxDone_rx h⟩
  · exact congrArg Host.Outcome.next (State.pageReceive_waits h h17 hp hw)
  · exact runs_next (u := s.pageReceive k) rfl (State.pageReceive_read h h17 h16 hp hw)
  · exact runs_next (u := s.pageReceive k) rfl (State.pageReceive_write h h17 h16 hp hw hk)
  · refine runs_next (u := s.pageReceive k) rfl ?_
    rw [State.pageReceive_reply h h17 h18 hw hf]
    exact ⟨congrArg (fun b : Hb => b.fwds.erase w) (State.rxDone_hb h), rfl, State.rxDone_rx h⟩
  · have he : s.cmdReceive k = s := by
      unfold State.cmdReceive
      rw [h]
      exact if_pos hp
    exact congrArg Host.Outcome.next he
  · refine runs_next (u := s.cmdReceive k) rfl ?_
    unfold State.cmdReceive
    rw [h]
    dsimp only
    rw [hp, if_neg Bool.false_ne_true]
    rfl
end Sys2Proof.Machine

/-!
Host accesses through the BARs (R399, R446 to R448, R453, R461).
-/

namespace Sys2Proof.Machine

/-! ### Words of an access -/

section Words

variable {s : State} {addr : Nat}

/-- An access to a whole word touches that word, with all its bytes. -/
theorem wordsOf_word (h : addr % 4 = 0) : wordsOf addr 4 = [(addr, 15)] := by
  have h1 : (addr + 4 - 1) / 4 + 1 - addr / 4 = 1 := by omega
  have h2 : 4 * (addr / 4) = addr := by omega
  unfold wordsOf
  rw [if_neg (by decide), h1]
  simp [h2, List.range_succ, b2n]

theorem hostLocal_read (acc base : Nat) (vf : Bool) (h : addr % 4 = 0) :
    s.hostLocal acc base (.read addr 4) vf = (s.spaceRead acc (base + addr)).2.emit (.readData acc addr (s.spaceRead acc (base + addr)).1) := by
  unfold State.hostLocal
  dsimp only
  rw [wordsOf_word h]
  rfl

theorem hostLocal_write (acc base : Nat) (vf : Bool) (h : addr % 4 = 0) {data : List Byte} (hd : data.length = 4) :
    s.hostLocal acc base (.write addr data) vf = if vf then s.vfWrite acc (base + addr) (hostWord addr data addr) 15
      else s.spaceWrite acc (base + addr) (hostWord addr data addr) 15 := by
  unfold State.hostLocal
  dsimp only
  rw [hd, wordsOf_word h]
  rfl

/-- A read that finds nothing returns all ones. -/
theorem noTarget_read (acc : Nat) (h : addr % 4 = 0) :
    s.noTarget acc (.read addr 4) = { s with outbox := s.outbox ++ [.readData acc addr 0xFFFFFFFF] } := by
  unfold State.noTarget State.allOnes
  dsimp only
  rw [wordsOf_word h]
  rfl

theorem bar0_taken {r : HostReq} (hu : s.hostUp = true) (hm : s.memOn 0 = true) (hr : reqAddr r + reqLen r ≤ 2 ^ 26) :
    s.bar0 r = s.hostLocal 8 0 r false := by
  unfold State.bar0
  rw [if_neg (by simp [hu]), if_neg (by simp only [hm]; simp; omega)]

theorem bar0_refused {r : HostReq} (hu : s.hostUp = true) (hm : s.memOn 0 = false) : s.bar0 r = s.noTarget 8 r := by
  unfold State.bar0
  rw [if_neg (by simp [hu]), if_pos (by simp [hm])]

theorem bar2_own {slot : Nat} (hu : s.hostUp = true) (hm : s.memOn 0 = true) (ha : addr + 4 ≤ 2 ^ 26) (hs : slot < 64)
    (ho : s.slotModule slot = some s.ownAddr) : s.bar2 (.read (2 ^ 26 * slot + addr) 4) = s.hostLocal 8 0 (.read addr 4) false := by
  have h1 : (2 ^ 26 * slot + addr) / 2 ^ 26 = slot := by omega
  have h2 : (2 ^ 26 * slot + addr) % 2 ^ 26 = addr := by omega
  unfold State.bar2
  simp only [reqAddr, reqTo, reqLen, h1, h2]
  rw [if_neg (by simp [hu]), if_neg (by simp only [hm]; simp; omega), ho]
  exact if_pos rfl

end Words

/-! ### The command window -/

section Window

variable {s : State} {x : Nat}

/-- Bytes put one after another are found at their offsets. -/
theorem lookup?_foldl_put (x : Nat) : ∀ (data : List Byte) (m : List (Nat × Byte)) (i : Nat),
    lookup? (((List.range' x data.length).zip data).foldl (fun m e => put m e.1 e.2) m) i =
      if x ≤ i ∧ i < x + data.length then data[i - x]? else lookup? m i := by
  intro data
  induction data generalizing x with
  | nil => intro m i; simp
  | cons b r ih =>
    intro m i
    simp only [List.length_cons, List.range'_succ, List.zip_cons_cons, List.foldl_cons]
    rw [ih, lookup?_put]
    by_cases h0 : i = x
    · subst h0
      rw [if_neg (by omega), if_pos rfl, if_pos (by omega), Nat.sub_self, List.getElem?_cons_zero]
    · rw [if_neg h0]
      by_cases h1 : x + 1 ≤ i ∧ i < x + 1 + r.length
      · have hi : i - x = (i - (x + 1)) + 1 := by omega
        rw [if_pos h1, if_pos (by omega), hi, List.getElem?_cons_succ]
      · rw [if_neg h1, if_neg (by omega)]

/-- The bytes of the window with those of a write in place (R452). -/
def PciFn.written (p : PciFn) (x : Nat) (data : List Byte) : List (Nat × Byte) :=
  ((List.range' x data.length).zip data).foldl (fun m e => put m e.1 e.2) p.bytes

theorem PciFn.written_byte (p : PciFn) (x : Nat) {data : List Byte} {j : Nat} (h : j < data.length) :
    lookup? (p.written x data) (x + j) = data[j]? := by
  rw [PciFn.written, lookup?_foldl_put, if_pos (by omega), Nat.add_sub_cancel_left]

/-- A write into free places of the window puts its bytes there, and the rows that are full wait to be counted (R452, R453). -/
theorem windowWrite_gathers {f : Nat} {data : List Byte} (hx : x + data.length ≤ 0x4000)
    (hfree : ∀ o, x ≤ o → o < x + data.length → lookup? (s.pciFn f).bytes o = none) :
    ∃ rows : List Nat, s.windowWrite f x data = (s.setFn f { s.pciFn f with
        bytes := (s.pciFn f).written x data, waiting := (s.pciFn f).waiting ++ rows.map (fun r => (r, s.hb.nextTag)) }).countRows f ∧
      (x % 64 = 0 → data.length = 64 → x / 64 ∈ rows) := by
  have hoffs : (List.range data.length).map (x + ·) = List.range' x data.length := List.range'_eq_map_range.symm
  refine ⟨((((List.range' x data.length).map (· / 64)).eraseDups).filter
    (fun r => (List.range 64).all (fun j => (lookup? ((s.pciFn f).written x data) (64 * r + j)).isSome))), ?_, fun h64 hl => ?_⟩
  · unfold State.windowWrite
    dsimp only
    rw [hoffs, if_neg]
    · rfl
    · simp only [List.any_eq_true, not_exists, not_and, List.mem_range'_1]
      intro o ho
      rw [hfree o ho.1 ho.2, decide_eq_false (by omega)]
      exact Bool.false_ne_true
  · refine List.mem_filter.2 ⟨List.mem_eraseDups.2 (List.mem_map.2 ⟨x, List.mem_range'_1.2 (by omega), rfl⟩), List.all_eq_true.2 fun j hj => ?_⟩
    have hj' : j < data.length := by
      rw [hl]
      exact List.mem_range.1 hj
    have hx64 : 64 * (x / 64) = x := by omega
    rw [hx64, PciFn.written_byte _ _ hj', List.getElem?_eq_getElem hj']
    rfl

/-- Counting rows leaves the bytes and the errors of a function as they were, and counts a row that no forwarded write holds back (R453). -/
theorem countRows_shows (s : State) (f : Nat) :
    ((s.countRows f).pciFn f).bytes = (s.pciFn f).bytes ∧ ((s.countRows f).pciFn f).errors = (s.pciFn f).errors ∧ (s.countRows f).ctl = s.ctl ∧
      (s.countRows f).bays = s.bays ∧ (s.hb.fwds = [] → ∀ e ∈ (s.pciFn f).waiting, e.1 ∈ ((s.countRows f).pciFn f).counted) := by
  unfold State.countRows
  dsimp only
  rw [State.pciFn_setFn, if_pos rfl]
  refine ⟨rfl, rfl, rfl, rfl, fun hn e he => List.mem_append_right _ (List.mem_map.2 ⟨e, List.mem_filter.2 ⟨he, ?_⟩, rfl⟩)⟩
  rw [hn]
  rfl

theorem bar4_window {data : List Byte} (hu : s.hostUp = true) (hm : s.memOn 0 = true) (hx : x + data.length ≤ 0x4000) :
    s.bar4 (.write x data) = s.windowWrite 0 x data := by
  have h1 : x / 2 ^ 21 = 0 := by omega
  have h2 : x % 2 ^ 21 = x := by omega
  unfold State.bar4
  simp only [reqAddr, reqTo, reqLen, h1, h2]
  rw [if_neg (by simp [hu]), if_neg (by simp [hm]), if_neg (by simp), if_pos hx]
  rfl

/-- An aperture entry of this module reads the page behind it (R448). -/
theorem bar4_aperture {k len : Nat} {bytes : List Byte} (hu : s.hostUp = true) (hm : s.memOn 0 = true) (hk : 1 ≤ k) (hk2 : k < 32768)
    (hl : len ≤ 4096) (hxl : x + len ≤ 2 ^ 21) (hx : x < 2 ^ 21) (he : s.entryModule k = some s.ownAddr)
    (hw : s.apertureWaits (s.aperture k) false = false) (hr : (s.apertureRead (s.aperture k) x len).1 = some bytes) :
    s.bar4 (.read (2 ^ 21 * k + x) len) = (s.apertureRead (s.aperture k) x len).2.emit (.pageData 8 bytes) := by
  have h1 : (2 ^ 21 * k + x) / 2 ^ 21 = k := by omega
  have h2 : (2 ^ 21 * k + x) % 2 ^ 21 = x := by omega
  obtain ⟨q, hq⟩ : ∃ q, s.apertureRead (s.aperture k) x len = q := ⟨_, rfl⟩
  rw [hq] at hr ⊢
  unfold State.bar4
  simp only [reqAddr, reqTo, h1, h2]
  rw [if_neg (by simp [hu]), if_neg (by simp [hm]; omega), if_pos (by omega)]
  unfold State.apertureAccess
  simp only [he, hw, hq]
  rw [if_neg (by omega), if_neg (by simp), if_pos trivial]
  obtain ⟨q1, q2⟩ := q
  cases hr
  rfl

end Window

/-! ### Virtual functions -/

section Vf

variable {s : State} {v x : Nat}

/-- A word of the partition view is the word of its partition's range (R399, R446). -/
theorem vfAccess_own {r : HostReq} (hu : s.hostUp = true) (h1 : 1 ≤ v) (h2 : v ≤ 256) (hm : s.memOn v = true) (hp : s.powered = true)
    (hv : s.on (PART_VF_MAP_valid (v - 1)) = true) (hb : s.bitOn (PART_VF_FLR ((v - 1) / 32)) ((v - 1) % 32) = false)
    (ho : s.get (PART_VF_MAP_module (v - 1)) = s.ownAddr) (hr : reqAddr r + reqLen r ≤ 0x10000) :
    s.vfAccess v 0 r = s.hostLocal (8 + v) (0x100000 + 0x10000 * s.get (PART_VF_MAP_partition (v - 1))) (reqTo r (reqAddr r)) true := by
  unfold State.vfAccess
  dsimp only
  rw [if_neg (by simp [hu]; omega), if_neg (by simp [hm, hp, hv, hb]), if_pos rfl, ho]
  unfold State.vfBar0
  dsimp only
  rw [if_pos hr, if_pos rfl, if_neg (by decide), Nat.sub_zero]
  rfl

/-- A write of a virtual function to its partition's record is refused with cause 5 (R399). -/
theorem vfWrite_record {acc n : Nat} {w : Word} (hp : s.powered = true) (hn : n < 64) (hx : x < 0x18) :
    s.vfWrite acc (0x100000 + 0x10000 * n + x) w 15 = s.refuse n 5 := by
  have h1 : (0x100000 + 0x10000 * n + x - 0x100000) % 0x10000 = x := by omega
  have h2 : (0x100000 + 0x10000 * n + x - 0x100000) / 0x10000 = n := by omega
  unfold State.vfWrite
  simp only [h1, h2]
  rw [if_pos ⟨by omega, by omega, hp⟩, if_pos (by simp [recordOffset, hx])]

theorem aperture_writeApHi {acc : Nat} {w : Word} (hk : bits (s.rdAcc acc LINK_HB_AP_SEL) 0 15 ≠ 0) (i : Nat) :
    (s.writeApHi acc w).aperture i = if i = bits (s.rdAcc acc LINK_HB_AP_SEL) 0 15
      then ((w &&& 0xFFFF3FFF) ++ (s.rdAcc acc LINK_HB_AP_LO &&& 0x000FFFFF) : BitVec 64) else s.aperture i := by
  unfold State.writeApHi
  dsimp only
  rw [if_neg hk]
  exact lookupD_put ..

end Vf

/-- Settles O42: each access is its rule of the bridge, on the words or the rows that it names. -/
theorem hostAccessesReachTheirTarget : Obligations.HostAccessesReachTheirTarget := by
  unfold Obligations.HostAccessesReachTheirTarget
  refine fun s hu => ⟨fun addr ha hlt hm => ⟨?_, fun data hd => ?_, fun slot hs ho => ?_⟩, fun hm addr ha => ?_, fun x data hm hx hfree => ?_,
    fun k x len bytes hm hk hk2 hl hxl hx he hw hr => ?_, fun v x h1 h2 hm hp hv hb ho hx hlt => ?_, fun acc v hacc hopen => ?_⟩
  · refine runs_next (u := s.bar0 (.read addr 4)) rfl ?_
    rw [bar0_taken (r := .read addr 4) hu hm hlt, hostLocal_read _ _ _ ha, Nat.zero_add]
  · have he : s.bar0 (.write addr data) = s.spaceWrite 8 addr (hostWord addr data addr) 15 := by
      rw [bar0_taken (r := .write addr data) hu hm (by rw [reqAddr, reqLen, hd]; exact hlt), hostLocal_write _ _ _ ha hd, if_neg Bool.false_ne_true, Nat.zero_add]
    exact ⟨(congrArg Host.Outcome.next he).trans (exec_registerWrite_space ..).symm, runs_next (u := s.bar0 (.write addr data)) rfl he⟩
  · refine runs_next (u := s.bar2 (.read (2 ^ 26 * slot + addr) 4)) rfl ?_
    rw [bar2_own hu hm hlt hs ho, hostLocal_read _ _ _ ha, Nat.zero_add]
  · refine runs_next (u := s.bar0 (.read addr 4)) rfl ?_
    rw [bar0_refused hu hm, noTarget_read _ ha]
  · refine runs_next (u := s.bar4 (.write x data)) rfl ?_
    obtain ⟨rows, he, hrow⟩ := windowWrite_gathers (s := s) (f := 0) hx hfree
    obtain ⟨p, hp⟩ : ∃ p : PciFn, p = { s.pciFn 0 with
        bytes := (s.pciFn 0).written x data, waiting := (s.pciFn 0).waiting ++ rows.map (fun r => (r, s.hb.nextTag)) } := ⟨_, rfl⟩
    rw [bar4_window hu hm hx, he, ← hp]
    have hfn : (s.setFn 0 p).pciFn 0 = p := (State.pciFn_setFn ..).trans (if_pos rfl)
    obtain ⟨h1, h2, h3, h4, h5⟩ := countRows_shows (s.setFn 0 p) 0
    rw [hfn] at h1 h2 h5
    refine ⟨fun j hj => ?_, h2.trans (by rw [hp]), h3, h4, fun h64 hlen hnone => ?_⟩
    · rw [h1, hp]
      exact (s.pciFn 0).written_byte x hj
    · refine h5 hnone (x / 64, s.hb.nextTag) ?_
      rw [hp]
      exact List.mem_append_right _ (List.mem_map.2 ⟨x / 64, hrow h64 hlen, rfl⟩)
  · refine runs_next (u := s.bar4 (.read (2 ^ 21 * k + x) len)) rfl ?_
    rw [bar4_aperture hu hm hk hk2 hl hxl hx he hw hr]
    exact List.getLast?_concat ..
  · have hex : ∀ r, exec (.hostVfAccess v 0 r) s = .next (s.vfAccess v 0 r) := fun r => congrArg Host.Outcome.next (if_pos ⟨h1, h2, by decide⟩)
    dsimp only
    refine ⟨runs_next (hex _) ?_, fun h18 data hd => runs_next (hex _) ?_⟩
    · rw [vfAccess_own hu h1 h2 hm hp hv hb ho (r := .read x 4) hlt]
      exact hostLocal_read _ _ _ hx
    · have hn : s.get (PART_VF_MAP_partition (v - 1)) < 64 := field_lt _ _ _
      rw [vfAccess_own hu h1 h2 hm hp hv hb ho (r := .write x data) (by rw [reqAddr, reqLen, hd]; exact hlt), reqTo, reqAddr,
        hostLocal_write _ _ _ hx hd, if_pos rfl, vfWrite_record hp hn h18]
      exact ⟨State.refuse_refused .., State.refuse_cause _ _ (by decide), State.refuse_onlyRegs (s.onlyRegs_refl _) _⟩
  · have hex : exec (.linkHbApHiWrite acc v) s = .next (s.writeAt LINK_HB_AP_HI fun s => s.writeApHi acc v) :=
      congrArg Host.Outcome.next (if_pos hacc)
    dsimp only
    refine ⟨fun hk => runs_writeAt hex hopen ?_, fun hk => hex.trans (congrArg Host.Outcome.next ?_)⟩
    · refine ⟨(aperture_writeApHi hk _).trans (if_pos rfl), fun i hi => (aperture_writeApHi hk i).trans (if_neg hi), ?_⟩
      unfold State.writeApHi
      dsimp only
      rw [if_neg hk]
    · rw [State.writeAt_of_opens hopen]
      exact if_pos hk
end Sys2Proof.Machine

/-!
# Channels, the bed's time and the I/O dies (O41)
-/

namespace Sys2Proof.Machine

section Channels

variable {s : State}

/-- Where no packet is late, none is settled anew. -/
theorem State.freshAll_idle (h : ∀ k ∈ s.net, k.late = false) (f : Packet → Bool) (t : Nat) : s.freshAll f t = s := by
  unfold State.freshAll
  refine foldl_keeps (fun u => u = s) (fun u k hu => ?_) _ s rfl
  subst hu
  split
  · next pk hk =>
    rw [h pk (List.mem_of_getElem? hk)]
    rfl
  · rfl

/-- A port's credit, its count of rows and its over-budget bits are all that a passage changes. -/
theorem Portless.passPort {γ : Type} {g : State → γ} (h : Portless g) (t : State) (link : Bool) (d part n : Nat) : g (t.passPort link d part n) = g t :=
  (h.portRows _ _ _ _).trans (h.setCredit _ _ _ _)

theorem Portless.passRun {γ : Type} {g : State → γ} (h : Portless g) :
    ∀ (l : List (Nat × Packet)) (t : State), g (t.passRun l).1 = g t
  | [], _ => rfl
  | x :: r, t => by
    unfold State.passRun
    split
    · exact (Portless.passRun h r _).trans (h.passPort _ _ _ _ _)
    · rfl

theorem portless_net : Portless State.net := ⟨fun _ _ _ _ => rfl, fun _ _ _ => rfl, fun _ _ => rfl, fun _ _ => rfl⟩
theorem portless_cores : Portless State.cores := ⟨fun _ _ _ _ => rfl, fun _ _ _ => rfl, fun _ _ => rfl, fun _ _ => rfl⟩
theorem portless_frameNo : Portless State.frameNo := ⟨fun _ _ _ _ => rfl, fun _ _ _ => rfl, fun _ _ => rfl, fun _ _ => rfl⟩

/-- A run whose first row may pass passes it. -/
theorem State.passRun_head {x : Nat × Packet} (h : s.mayPass true x.2.lastDie x.2 = true) (r : List (Nat × Packet)) :
    x ∈ (s.passRun (x :: r)).2 := by
  unfold State.passRun
  rw [if_pos h]
  exact List.mem_cons_self

theorem head?_filter_of_le {α : Type} {l : List α} {p q : α → Bool} {x : α} (h : (l.filter p).head? = some x) (hq : q x = true)
    (hpq : ∀ y, q y = true → p y = true) : (l.filter q).head? = some x := by
  rw [List.head?_filter] at h ⊢
  obtain ⟨hx, a, b, hl, ha⟩ := List.find?_eq_some_iff_append.1 h
  refine List.find?_eq_some_iff_append.2 ⟨hq, a, b, hl, fun y hy => ?_⟩
  have hn := ha y hy
  cases hqy : q y with
  | false => rfl
  | true => rw [hpq y hqy] at hn; cases hn

/-- The first row of a channel is the first at every later cut too. -/
theorem State.channelRows_head {ch t u i : Nat} {p : Packet} (h : (s.channelRows ch t).head? = some (i, p)) (hp : p.due ≤ u) (hu : u ≤ t) :
    (s.channelRows ch u).head? = some (i, p) := by
  have hm := List.mem_of_mem_head? h
  simp only [State.channelRows, List.mem_filter, Bool.and_eq_true, decide_eq_true_eq] at hm
  refine head?_filter_of_le h ?_ fun y hy => ?_
  · simp only [Bool.and_eq_true, decide_eq_true_eq]
    exact ⟨hm.2.1, hp⟩
  · simp only [Bool.and_eq_true, decide_eq_true_eq] at hy ⊢
    exact ⟨hy.1, hy.2.trans hu⟩

theorem State.channelRows_mem {ch t i : Nat} {p : Packet} (h : (i, p) ∈ s.channelRows ch t) : i < s.net.length ∧ p.due ≤ t := by
  simp only [State.channelRows, List.mem_filter, Bool.and_eq_true, decide_eq_true_eq] at h
  exact ⟨List.mem_range.1 (List.of_mem_zip h.1).1, h.2.2⟩

/-- Without the places named, of which it holds one, a list is shorter. -/
theorem length_dropped {α : Type} {l : List α} {idx : List Nat} {i : Nat} (hi : i ∈ idx) (hl : i < l.length) :
    ((((List.range l.length).zip l).filter (fun x => !idx.contains x.1)).map (·.2)).length < l.length := by
  rw [List.length_map]
  have hz : ((List.range l.length).zip l).length = l.length := by simp
  refine lt_of_lt_of_eq (List.length_filter_lt_length_iff_exists.2 ⟨(i, l[i]), ?_, ?_⟩) hz
  · refine List.mem_iff_getElem.2 ⟨i, by rw [hz]; exact hl, ?_⟩
    simp
  · simp [hi]

/-- What closing a frame over a run at a time does before the frame is sent: the rows pass, leave the network and the number is taken. -/
def State.framed (s : State) (ch t : Nat) (run : List (Nat × Packet)) : State :=
  { ((s.at t).passRun run).1 with
    net := (((List.range ((s.at t).passRun run).1.net.length).zip ((s.at t).passRun run).1.net).filter
      (fun x => !(run.map (·.1)).contains x.1)).map (·.2)
    frameNo := put ((s.at t).passRun run).1.frameNo ch ((lookupD 0 ((s.at t).passRun run).1.frameNo ch + 1) % 2 ^ 32) }

theorem State.framed_shows {ch t i : Nat} {run : List (Nat × Packet)} (hi : i < s.net.length) (hm : i ∈ run.map (·.1)) :
    lookupD 0 (s.framed ch t run).frameNo ch = (lookupD 0 s.frameNo ch + 1) % 2 ^ 32 ∧ (∀ q ∈ (s.framed ch t run).net, q ∈ s.net) ∧
      (s.framed ch t run).net.length < s.net.length ∧ (s.framed ch t run).cores = s.cores := by
  have hnet := portless_net.passRun run (s.at t)
  have hcores := portless_cores.passRun run (s.at t)
  have hno := portless_frameNo.passRun run (s.at t)
  unfold State.framed
  generalize ((s.at t).passRun run).1 = v at hnet hcores hno ⊢
  refine ⟨?_, fun q hq => ?_, ?_, hcores⟩
  · show lookupD 0 (put _ _ _) ch = _
    rw [lookupD_put, if_pos rfl, hno]
    rfl
  · obtain ⟨x, hx, rfl⟩ := List.mem_map.1 hq
    have := (List.of_mem_zip (List.mem_filter.1 hx).1).2
    rw [hnet] at this
    exact this
  · show (List.map _ _).length < _
    rw [hnet]
    exact length_dropped hm hi

/-- A channel with a row that may pass closes a frame with it (R439). -/
theorem State.rowsClose_framed {ch i : Nat} {p0 : Packet} (hlate : ∀ k ∈ s.net, k.late = false)
    (hh : (s.channelRows ch (s.tickEnd - 1)).head? = some (i, p0)) (hp : s.mayPass true p0.lastDie p0 = true) :
    ∃ t run, (i, p0) ∈ run ∧ (s.framed ch t run).onlyLinks (s.rowsClose ch) := by
  have hdue := (State.channelRows_mem (List.mem_of_mem_head? hh)).2
  have hhead := State.channelRows_head (u := min (s.tickEnd - 1) (p0.due + 128)) hh (by omega) (by omega)
  obtain ⟨r, hr⟩ : ∃ r, ((s.channelRows ch (min (s.tickEnd - 1) (p0.due + 128))).take
      ((rowRun p0 ((s.channelRows ch (min (s.tickEnd - 1) (p0.due + 128))).drop 1)).length + 1)).take 64 = (i, p0) :: r := by
    obtain ⟨tl, htl⟩ := List.head?_eq_some_iff.1 hhead
    rw [htl]
    exact ⟨_, rfl⟩
  unfold State.rowsClose
  rw [State.freshAll_idle hlate]
  dsimp only
  rw [hh]
  dsimp only
  rw [hp, if_neg (by decide), hr]
  obtain ⟨t, ht⟩ : ∃ t, (if decide ((s.passRun ((i, p0) :: r)).2.length = 64) = true then
    ((s.passRun ((i, p0) :: r)).2.getLast?.map (fun x => x.2.due)).getD p0.due else p0.due + 128) = t := ⟨_, rfl⟩
  rw [ht]
  refine ⟨t, _, State.passRun_head (x := (i, p0)) hp r, ?_⟩
  split
  · exact ((State.onlyLinks.refl (s.framed ch _ _)).sendSeq _ _ _).sendSeq _ _ _
  · exact (State.onlyLinks.refl (s.framed ch _ _)).sendSeq _ _ _

theorem State.rowsClose_shows {ch i : Nat} {p0 : Packet} (hlate : ∀ k ∈ s.net, k.late = false)
    (hh : (s.channelRows ch (s.tickEnd - 1)).head? = some (i, p0)) (hp : s.mayPass true p0.lastDie p0 = true) :
    lookupD 0 (s.rowsClose ch).frameNo ch = (lookupD 0 s.frameNo ch + 1) % 2 ^ 32 ∧ (∀ q ∈ (s.rowsClose ch).net, q ∈ s.net) ∧
      (s.rowsClose ch).net.length < s.net.length ∧ (s.rowsClose ch).cores = s.cores := by
  obtain ⟨t, run, hm, hl⟩ := State.rowsClose_framed hlate hh hp
  rw [hl.same (g := State.frameNo) fun _ _ _ _ _ _ => rfl, hl.same (g := State.net) fun _ _ _ _ _ _ => rfl,
    hl.same (g := State.cores) fun _ _ _ _ _ _ => rfl]
  exact State.framed_shows (State.channelRows_mem (List.mem_of_mem_head? hh)).1 (List.mem_map.2 ⟨_, hm, rfl⟩)

/-! ## Rows received -/

/-- Steps that agree under an invariant leave the same state. -/
theorem each_congr_of {σ α : Type} {I : σ → Prop} {f g : α → σ → σ} :
    ∀ (l : List α) (s : σ), (∀ a ∈ l, ∀ s, I s → f a s = g a s ∧ I (g a s)) → I s → each f l s = each g l s
  | [], _, _, _ => rfl
  | a :: l, s, h, hs => by
    unfold each
    rw [(h a List.mem_cons_self s hs).1]
    exact each_congr_of l _ (fun b hb => h b (List.mem_cons_of_mem _ hb)) (h a List.mem_cons_self s hs).2

theorem State.boundCore_of {part logical p : Nat} {l : Layout} (hl : (s.part part).layout = some l) (hp : s.physOf part logical = some p)
    (ht : logical < l.total) : s.boundCore part logical = some p := by
  unfold State.boundCore
  rw [hl]
  exact (if_neg (by omega)).trans hp

/-- The packet of a row from an I/O die. -/
def linkPacket (io part p row : Nat) (d : Row) : Packet :=
  { cls := 1, kind := .write, part := part, source := 0x3FFF, node := nodeOf p, core := p, page := 0, row := row
    counter := 0, tag := 0, rows := 0, total := 1, writer := .link, data := d, due := 0, fails := 0
    enter := some (ioEntryDie io (nodeOf p)) }

theorem State.inject_parts (s : State) (p : Packet) (t : Nat) : (s.inject p t).parts = s.parts :=
  State.inject_same (g := State.parts) (fun _ _ _ => rfl) (fun _ _ => rfl) (fun _ _ _ h => by rw [h.1]) s p t

theorem State.inject_cycle (s : State) (p : Packet) (t : Nat) : (s.inject p t).cycle = s.cycle :=
  State.inject_same (g := State.cycle) (fun _ _ _ => rfl) (fun _ _ => rfl) (fun _ _ _ h => by rw [h.1]) s p t

theorem State.rxDone_parts {k kind : Nat} {r : Rx} (h : s.rxFrame k kind = some r) : (s.rxDone k).parts = s.parts :=
  State.rxDone_of_frame (g := State.parts) h fun _ _ _ _ => rfl

/-- The rows of a frame for a core that holds the logical id are all on their way (R440). -/
theorem State.rowsReceive_rows {k p : Nat} {r : Rx} {l : Layout} (h : s.rxFrame k 3 = some r)
    (hdup : r.frame.flags.testBit 1 = false) (hl : (s.part r.frame.part).layout = some l)
    (hp : s.physOf r.frame.part r.frame.logical = some p) (ht : r.frame.logical < l.total)
    (hrow : r.frame.base + field r.frame.word 8 17 + field r.frame.word 25 6 < trapRow) :
    s.rowsReceive k = (List.range (field r.frame.word 25 6 + 1)).foldl (fun u j =>
      u.inject (linkPacket (r.port / 4) r.frame.part p (r.frame.base + field r.frame.word 8 17 + j) (byteRow r.frame.payload j)) (s.rxDone k).cycle)
        (s.rxDone k) := by
  unfold State.rowsReceive
  rw [h]
  dsimp only
  rw [if_neg (by rw [hdup]; simp), if_neg (by rw [hdup]; simp), ← each_foldl]
  refine each_congr_of (I := fun u => u.parts = s.parts ∧ u.cycle = (s.rxDone k).cycle) _ _ (fun j hj u hu => ?_)
    ⟨State.rxDone_parts h, rfl⟩
  have hb : u.boundCore r.frame.part r.frame.logical = some p := by
    refine State.boundCore_of (l := l) ?_ ?_ ht
    · unfold State.part
      rw [hu.1]
      exact hl
    · unfold State.physOf State.part
      rw [hu.1]
      exact hp
  have hj := List.mem_range.1 hj
  rw [hb]
  dsimp only
  rw [if_neg (by omega)]
  unfold State.linkRow
  dsimp only
  rw [hu.2]
  exact ⟨rfl, (State.inject_parts _ _ _).trans hu.1, (State.inject_cycle _ _ _).trans hu.2⟩

/-- Rows received for a core to which the route is whole: one packet each (R440). -/
theorem State.rowsReceive_shows {k p : Nat} {r : Rx} {l : Layout} {hd : List Nat} (h : s.rxFrame k 3 = some r)
    (hdup : r.frame.flags.testBit 1 = false) (hl : (s.part r.frame.part).layout = some l)
    (hp : s.physOf r.frame.part r.frame.logical = some p) (ht : r.frame.logical < l.total)
    (hrow : r.frame.base + field r.frame.word 8 17 + field r.frame.word 25 6 < trapRow)
    (hroute : (s.rxDone k).route 1 r.frame.part 0x3FFF (nodeOf p) p (some (ioEntryDie (r.port / 4) (nodeOf p))) = .ok hd) :
    (s.rowsReceive k).net.length = s.net.length + field r.frame.word 25 6 + 1 ∧ (s.rowsReceive k).rx = eraseAt s.rx k ∧
      (s.rowsReceive k).cores = s.cores ∧ ∀ j, j ≤ field r.frame.word 25 6 → ∃ q ∈ (s.rowsReceive k).net, q.core = p ∧
        q.row = r.frame.base + field r.frame.word 8 17 + j ∧ q.writer = .link ∧ q.data = byteRow r.frame.payload j := by
  have hnet : (s.rxDone k).net = s.net := State.rxDone_of_frame (g := State.net) h fun _ _ _ _ => rfl
  obtain ⟨m, new, he, hlen, hmem⟩ := State.injects_ok (dies := hd) (hc := clusterHops 0x3FFF (nodeOf p) p)
    (fun j => linkPacket (r.port / 4) r.frame.part p (r.frame.base + field r.frame.word 8 17 + j) (byteRow r.frame.payload j))
    (fun _ => (s.rxDone k).cycle) (List.range (field r.frame.word 25 6 + 1)) (s.rxDone k)
    (fun j _ => ⟨hroute, by simp [linkPacket], rfl⟩)
  rw [State.rowsReceive_rows h hdup hl hp ht hrow, he]
  refine ⟨?_, State.rxDone_rx h, State.rxDone_of_frame (g := State.cores) h fun _ _ _ _ => rfl, fun j hj => ?_⟩
  · show (List.append _ _).length = _
    rw [List.append_eq, List.length_append, hlen, List.length_range, hnet]
    rfl
  · obtain ⟨path, seqs, hq⟩ := hmem j (List.mem_range.2 (by omega))
    exact ⟨_, List.mem_append_right _ hq, rfl, rfl, rfl, rfl⟩

/-- A second copy of a duplicated frame is counted (R441). -/
theorem State.rowsReceive_again {k : Nat} {r : Rx} (h : s.rxFrame k 3 = some r) (hdup : r.frame.flags.testBit 1 = true)
    (hs : s.seen.contains (r.frame.source, r.frame.word % 256, r.frame.word / 2 ^ 32) = true) :
    s.rowsReceive k = (s.rxDone k).bump (LINK_P_DUP_count r.port) 1 := by
  have hseen : (s.rxDone k).seen = s.seen := State.rxDone_of_frame (g := State.seen) h fun _ _ _ _ => rfl
  unfold State.rowsReceive
  rw [h]
  dsimp only
  rw [hseen, if_pos ⟨hdup, hs⟩]

/-! ## The bed's time -/

theorem State.timeSend_shape (w : State) (p m code : Nat) : ∃ n, State.onlyLinks { w with oracle := n } (w.timeSend p m code) := by
  refine ⟨w.oracle + 1, ?_⟩
  unfold State.timeSend
  dsimp only
  split
  · exact (State.onlyLinks.refl w.draw.2).wire _ _
  · exact ((State.onlyLinks.refl w.draw.2).conn _ _ _).wire _ _

theorem State.timeSend_same {γ : Type} {g : State → γ}
    (hg : ∀ t : State, ∀ N P C O R T X, g { t with oracle := N, ports := P, conns := C, outbox := O, rotors := R, turns := T, classTurn := X } = g t)
    (w : State) (p m code : Nat) : g (w.timeSend p m code) = g w := by
  obtain ⟨n, hn⟩ := w.timeSend_shape p m code
  exact (congrArg g hn).trans (hg w _ _ _ _ _ _ _)

/-- A slave takes a sync's port and answers it (R442). -/
theorem State.timeReceive_sync {k : Nat} {r : Rx} (h : s.rxFrame k 7 = some r) (hrole : s.get LINK_TS_CTL_role = 2) :
    s.timeReceive k .sync = (({ s.rxDone k with sync := { (s.rxDone k).sync with master := some r.frame.source } } : State).set
      LINK_TS_CTL_port r.port).timeSend r.port r.frame.source 1 := by
  unfold State.timeReceive
  rw [h]
  dsimp only
  rw [if_pos hrole]

/-- What an alignment changes: its counts and control words. -/
def State.onlySync (s t : State) : Prop := t = { s with sync := t.sync, ctl := t.ctl, now := t.now }

theorem State.onlySync.trans {t u : State} (h : s.onlySync t) (h' : t.onlySync u) : s.onlySync u := by
  unfold State.onlySync at *
  rw [h', h]

theorem State.onlySync.setOn {t : State} (h : s.onlySync t) (f : FieldRef) (b : Bool) : s.onlySync (t.setOn f b) := h.trans rfl
theorem State.onlySync.setBit {t : State} (h : s.onlySync t) (a i : Nat) : s.onlySync (t.setBit a i) := h.trans rfl
theorem State.onlySync.sync {t : State} (h : s.onlySync t) (y : SyncSt) : s.onlySync { t with sync := y } := h.trans rfl

theorem State.align_onlySync (s : State) (p : Nat) (off : Int) : s.onlySync (s.align p off) := by
  have h : ∀ y, s.onlySync { s with sync := y } := fun _ => rfl
  unfold State.align
  dsimp only
  generalize (if decide (off.natAbs ≤ 20000) = true then s.sync.good + 1 else 0) = good
  generalize (if decide (off.natAbs ≤ 20000) = true then 0 else s.sync.bad + 1) = bad
  split
  · split
    · exact (((h _).setOn _ _).sync _).setOn _ _
    · exact (h _).setOn _ _
  · split
    · exact ((h _).setOn _ _).setBit _ _
    · exact h _

/-- An exchange has come, and the difference of the numberings is the one named. -/
def State.heard (t : State) (d : Int) : Prop := t.sync.diff = d ∧ t.sync.missed = 0

theorem State.heard.setOn {t : State} {d : Int} (h : t.heard d) (f : FieldRef) (b : Bool) : (t.setOn f b).heard d := h
theorem State.heard.setBit {t : State} {d : Int} (h : t.heard d) (a i : Nat) : (t.setBit a i).heard d := h
theorem State.heard.fresh {t : State} {d : Int} (h : t.heard d) (b : Bool) : State.heard { t with sync := { t.sync with fresh := b } } d := h

/-- An alignment counts the exchange, and the difference of the numberings stays (R443). -/
theorem State.align_heard (s : State) (p : Nat) (off : Int) : (s.align p off).heard s.sync.diff := by
  have h : ∀ good bad, State.heard { s with sync := { s.sync with good := good, bad := bad, missed := 0 } } s.sync.diff := fun _ _ => ⟨rfl, rfl⟩
  unfold State.align
  dsimp only
  generalize (if decide (off.natAbs ≤ 20000) = true then s.sync.good + 1 else 0) = good
  generalize (if decide (off.natAbs ≤ 20000) = true then 0 else s.sync.bad + 1) = bad
  split
  · split
    · exact (((h _ _).setOn _ _).fresh _).setOn _ _
    · exact (h _ _).setOn _ _
  · split
    · exact ((h _ _).setOn _ _).setBit _ _
    · exact h _ _

theorem State.tryNumber_same {γ : Type} {g : State → γ} (wr : ∀ (t : State) a w, g (t.wr a w) = g t)
    (strike : ∀ (t : State) a f, g (t.strike a f) = g t) (s : State) : g s.tryNumber = g s := by
  unfold State.tryNumber State.tickLoad
  split
  · split
    · exact (strike _ _ _).trans ((wr _ _ _).trans ((wr _ _ _).trans (wr _ _ _)))
    · exact (wr _ _ _).trans ((wr _ _ _).trans (wr _ _ _))
  · rfl

theorem State.toPs_shape (s : State) (x : Int) : ∃ n, (s.toPs x).2 = { s with oracle := n } := by
  unfold State.toPs
  split
  · exact ⟨s.oracle, rfl⟩
  · exact ⟨_, rfl⟩

/-- A slave takes the difference of the numberings from a response (R442, R443). -/
theorem State.timeReceive_resp {k : Nat} {r : Rx} {tick t1 t2 t3 t4 : Nat} (h : s.rxFrame k 7 = some r) (hrole : s.get LINK_TS_CTL_role = 2) :
    ∃ (v : State) (off : Int), s.timeReceive k (.delayResp tick t1 t2 t3 t4) = (v.align r.port off).tryNumber ∧
      v.sync.diff = (tick : Int) - (s.tick : Int) ∧ v.rx = (s.rxDone k).rx ∧ v.tick = (s.rxDone k).tick := by
  unfold State.timeReceive
  rw [h]
  dsimp only
  rw [if_neg (by simp [hrole])]
  refine ⟨_, _, rfl, ?_⟩
  obtain ⟨n, hn⟩ := (s.rxDone k).toPs_shape ((((t4 : Int) - t1) - ((t3 : Int) - t2)) / 2)
  rw [hn]
  obtain ⟨n', hn'⟩ := State.toPs_shape { s.rxDone k with oracle := n } (((t2 : Int) - t1) - ((((t4 : Int) - t1) - ((t3 : Int) - t2)) / 2))
  rw [hn']
  split <;> exact ⟨rfl, rfl, rfl⟩

end Channels

/-- Settles O41: channels close their frames, received rows set out, the bed's time and an I/O die's fault are followed (R439 to R444, R458). -/
theorem channelsAndTimeAreServed : Obligations.ChannelsAndTimeAreServed := by
  intro s
  refine ⟨fun ch i p0 hch hlate hh hp => runs_next (congrArg Host.Outcome.next (if_pos hch)) (State.rowsClose_shows hlate hh hp), fun k r h => ?_,
    fun k r h hrole => ⟨fun hport => ?_, fun tick t1 t2 t3 t4 => ?_⟩, fun hrole hon => ?_, fun k hk => ?_⟩
  · refine ⟨fun l p hd hdup hl hp ht hrow hroute => runs_next (u := s.rowsReceive k) rfl (State.rowsReceive_shows h hdup hl hp ht hrow hroute),
      fun hdup hs => runs_next (u := s.rowsReceive k) rfl ?_⟩
    rw [State.rowsReceive_again h hdup hs, State.bump_net, State.bump_seen]
    exact ⟨State.rxDone_of_frame (g := State.net) h fun _ _ _ _ => rfl, State.rxDone_of_frame (g := State.seen) h fun _ _ _ _ => rfl,
      State.get_bump _ 1⟩
  · refine runs_next (u := s.timeReceive k .sync) rfl ?_
    rw [State.timeReceive_sync h hrole]
    obtain ⟨v, hv⟩ : ∃ v : State, { s.rxDone k with sync := { (s.rxDone k).sync with master := some r.frame.source } } = v := ⟨_, rfl⟩
    rw [hv]
    refine ⟨(State.timeSend_same (g := fun t => t.get LINK_TS_CTL_port) (fun _ _ _ _ _ _ _ _ => rfl) _ _ _ _).trans (State.get_set_of_lt _ 5 hport), ?_⟩
    rw [State.timeSend_same (g := State.rx) (fun _ _ _ _ _ _ _ _ => rfl), State.set_rx, ← hv]
    exact State.rxDone_rx h
  · refine runs_next (u := s.timeReceive k (.delayResp tick t1 t2 t3 t4)) rfl ?_
    obtain ⟨v, off, he, hdiff, hrx, htick⟩ := State.timeReceive_resp (tick := tick) (t1 := t1) (t2 := t2) (t3 := t3) (t4 := t4) h hrole
    obtain ⟨hd, hm⟩ := v.align_heard r.port off
    have ha := v.align_onlySync r.port off
    rw [he, State.tryNumber_same (g := State.sync) (fun _ _ _ => rfl) (fun _ _ _ => rfl),
      State.tryNumber_same (g := State.rx) (fun _ _ _ => rfl) (fun _ _ _ => rfl),
      State.tryNumber_same (g := State.tick) (fun _ _ _ => rfl) (fun _ _ _ => rfl)]
    refine ⟨hd.trans hdiff, hm, (congrArg State.rx ha).trans ?_, (congrArg State.tick ha).trans ?_⟩
    exacts [ hrx.trans (State.rxDone_rx h), htick.trans (State.rxDone_of_frame (g := State.tick) h fun _ _ _ _ => rfl)]
  · refine runs_next (u := s.bedsync) rfl ?_
    unfold State.bedsync
    rw [if_pos ⟨hrole, hon⟩]
    refine ⟨rfl, State.get_setOn _ false, rfl, ?_⟩
    exact ((s.keeps_refl [LINK_TS_STAT]).same rfl).setOn
  · refine runs_next (congrArg Host.Outcome.next (if_pos hk)) ⟨State.get_raise _, ?_⟩
    exact (s.onlyRegs_refl [LINK_IO_STAT k]).raise
end Sys2Proof.Machine

/-!
# Ports and connections (O39, O40)
-/

namespace Sys2Proof.Machine

section Drain

variable {s : State} {p : Nat}

theorem State.port_onPort (s : State) (p : Nat) (f : Port → Port) (q : Nat) : (s.onPort p f).port q = if q = p then f (s.port p) else s.port q :=
  lookupD_put ..

/-- The choice of the next frame moves the scheduler on and nothing else. -/
theorem State.nextFrame_shape {i : Nat} {v : State} (h : s.nextFrame p = some (i, v)) :
    ∃ r y x, v = { s with rotors := r, turns := y, classTurn := x } := by
  unfold State.nextFrame at h
  dsimp only at h
  split at h
  · cases h
    exact ⟨_, _, _, rfl⟩
  · split at h
    · cases h
    next n _ =>
      rw [Option.map_eq_some_iff] at h
      obtain ⟨x, -, he⟩ := h
      cases he
      obtain ⟨r, y, hg⟩ := s.granted_shape (linkArbiter p) s.linkShare ((List.range 64).filter fun n =>
        (((List.range (s.port p).egress.length).zip (s.port p).egress).filter fun x => s.mayLeave p x.2.frame.prio).any fun x =>
          x.2.owner.getD 0 == n) n
      rw [hg]
      split <;> exact ⟨_, _, _, rfl⟩

/-- What the scheduler's choice and the departure of a queued frame keep, the draining of a port keeps. -/
theorem State.drain_keeps {P : State → Prop} (hnext : ∀ (t : State) r y x, P t → P { t with rotors := r, turns := y, classTurn := x })
    (hleave : ∀ (t : State) i q, P t → (t.port p).egress[i]? = some q →
      P ((t.onPort p (fun x => { x with egress := eraseAt x.egress i })).depart p q)) :
    ∀ (fuel : Nat) (t : State), P t → P (State.drain p fuel t)
  | 0, _, h => h
  | fuel + 1, t, h => by
    unfold State.drain
    split
    · exact h
    next i v hn =>
      obtain ⟨r, y, x, rfl⟩ := State.nextFrame_shape hn
      split
      · exact hnext _ _ _ _ h
      next q hq => exact State.drain_keeps hnext hleave fuel _ (hleave _ i q (hnext _ _ _ _ h) hq)

/-! ### The state of the ports -/

/-- The ports are in the same phases, with the same priorities paused. -/
def State.samePorts (s t : State) : Prop := ∀ p, (t.port p).phase = (s.port p).phase ∧ (t.port p).paused = (s.port p).paused

namespace State.samePorts

variable {t u : State}

theorem refl (s : State) : s.samePorts s := fun _ => ⟨rfl, rfl⟩

theorem of_ports (h : s.samePorts t) (hu : u.ports = t.ports) : s.samePorts u := fun p => by
  unfold State.port
  rw [hu]
  exact h p

theorem onEgress (h : s.samePorts t) (p : Nat) (f : Port → List Queued) : s.samePorts (t.onPort p (fun x => { x with egress := f x })) := fun q => by
  rw [State.port_onPort]
  split
  next he => subst he; exact h _
  · exact h q

theorem depart (h : s.samePorts t) (p : Nat) (q : Queued) : s.samePorts (t.depart p q) := h.of_ports (by
  unfold State.depart
  split
  · rfl
  · split
    · rfl
    · split <;> rfl)

theorem drain (h : s.samePorts t) (p fuel : Nat) : s.samePorts (State.drain p fuel t) :=
  State.drain_keeps (P := s.samePorts) (fun _ _ _ _ h => h.of_ports rfl) (fun _ _ _ h _ => (h.onEgress p _).depart p _) fuel t h

theorem send (h : s.samePorts t) (p : Nat) (q : Queued) : s.samePorts (t.send p q) := (h.onEgress p _).drain p _

end State.samePorts

/-! ### Frames that go at once -/

/-- A frame of the highest priority leaves a port with nothing queued at once. -/
theorem State.send_first {q : Queued} (he : (s.port p).egress = []) (hup : s.mayLeave p 7 = true) (h7 : q.frame.prio = 7) (hf : q.fresh = false) :
    ∃ P, s.send p q = State.emit { s with ports := P } (.frame p (s.wireHead p q.frame) q.frame) := by
  obtain ⟨v, hv⟩ : ∃ v, s.onPort p (fun x => { x with egress := x.egress ++ [q] }) = v := ⟨_, rfl⟩
  have hport : v.port p = { s.port p with egress := [q] } := by
    rw [← hv, State.port_onPort, if_pos rfl, he]
    rfl
  have hl : v.mayLeave p 7 = true := by
    unfold State.mayLeave State.portUp at hup ⊢
    rw [hport]
    exact hup
  have hn : v.nextFrame p = some (0, v) := by
    unfold State.nextFrame
    rw [hport]
    simp [hl, h7]
  unfold State.send State.drainEgress
  rw [hv, hport]
  show ∃ P, State.drain p 1 v = _
  unfold State.drain
  rw [hn]
  dsimp only
  rw [hport]
  dsimp only [List.getElem?_cons_zero]
  unfold State.depart
  rw [hf]
  refine ⟨(v.onPort p (fun x => { x with egress := eraseAt x.egress 0 })).ports, ?_⟩
  rw [← hv]
  rfl

/-- A HELLO that may go is on the wire at once (R436). -/
theorem State.sendHello_first (he : (s.port p).egress = []) (hup : s.mayLeave p 7 = true) :
    ∃ h f, (s.sendHello p).outbox = s.outbox ++ [.frame p h f] ∧ f.kind = 1 ∧ f.source = s.ownAddr ∧ (s.sendHello p).ctl = s.ctl ∧
      (s.sendHello p).conns = s.conns := by
  unfold State.sendHello State.wire
  obtain ⟨P, hs⟩ := State.send_first (q := ⟨s.frameOwner _, { s.blankFrame 1 0 with
    payload := bytesOf 2 (s.get LINK_TLT_VER_enabled) ++ bytesOf 2 s.ownAddr ++ bytesOf 2 (s.get LINK_TLT_ADDR_bed) ++
      bytesOf 2 0x0096 ++ bytesOf 1 p ++ bytesOf 1 (s.get IDENT_PART_stepping) ++ bytesOf 54 0 }, false⟩) he hup rfl rfl
  rw [hs]
  exact ⟨_, _, rfl, rfl, rfl, rfl, rfl⟩

/-! ### Connections -/

theorem State.conn_setConn (s : State) (p m : Nat) (c : Conn) : (s.setConn p m c).conn p m = some c := by
  unfold State.conn State.setConn
  rw [lookup?_put, if_pos rfl]

theorem hello_num (l : List Byte) {o : Nat} (h : o + 2 ≤ l.length) : msgNum l o 2 = (l.getD o 0).toNat + 256 * (l.getD (o + 1) 0).toNat := by
  unfold msgNum
  have h2 : (l.drop o).take 2 = [l.getD o 0, l.getD (o + 1) 0] := by
    refine List.ext_getElem (by simp; omega) fun i h1 h2 => ?_
    have hi : i < 2 := h2
    interval_cases i <;> simp [List.getD_eq_getElem?_getD, List.getElem?_eq_getElem (show o < l.length by omega),
      List.getElem?_eq_getElem (show o + 1 < l.length by omega)]
  rw [h2]
  simp [ofBytes]

theorem State.rxDone_conns {k kind : Nat} {r : Rx} (h : s.rxFrame k kind = some r) : (s.rxDone k).conns = s.conns :=
  State.rxDone_of_frame (g := State.conns) h fun _ _ _ _ => rfl

/-- A HELLO from another module with a common version makes or keeps the connection (R436). -/
theorem State.helloReceive_agrees {k v : Nat} {r : Rx} (h : s.rxFrame k 1 = some r) (hm : msgNum r.frame.payload 2 2 % 32768 ≠ s.ownAddr)
    (hv : bestMode (s.get LINK_TLT_VER_enabled &&& msgNum r.frame.payload 0 2) = some v) (hlen : 6 ≤ r.frame.payload.length) :
    ∃ c, s.helloReceive k = (s.rxDone k).setConn r.port (msgNum r.frame.payload 2 2 % 32768) c ∧ c.version = v ∧
      (s.conn r.port (msgNum r.frame.payload 2 2 % 32768) = none → c.nextTx = 0 ∧ c.nextRx = 0 ∧ c.unacked = [] ∧ c.held = []) ∧
      ∀ d, s.conn r.port (msgNum r.frame.payload 2 2 % 32768) = some d → c.nextTx = d.nextTx ∧ c.nextRx = d.nextRx ∧ c.unacked = d.unacked := by
  rw [hello_num _ (by omega)] at hm hv
  rw [hello_num _ (by omega)]
  have hc : (s.rxDone k).conn = s.conn := by
    unfold State.conn
    rw [State.rxDone_conns h]
  unfold State.helloReceive
  rw [h]
  dsimp only
  rw [if_neg hm, hv, hc]
  dsimp only
  cases hcon : s.conn r.port (((r.frame.payload.getD 2 0).toNat + 256 * (r.frame.payload.getD (2 + 1) 0).toNat) % 32768) with
  | none => exact ⟨_, rfl, rfl, fun _ => ⟨rfl, rfl, rfl, rfl⟩, fun _ hn => nomatch hn⟩
  | some d => exact ⟨_, rfl, rfl, (nomatch ·), fun e he => by cases he; exact ⟨rfl, rfl, rfl⟩⟩

/-- A lost connection: it is gone, its event is raised, and its frames are counted as discarded (R437). -/
theorem State.connFail_shows {m : Nat} {c : Conn} (h : s.conn p m = some c) :
    (s.connFail p m).conn p m = none ∧ (s.connFail p m).bitOn (LINK_P_EVT p) 2 = true ∧
      (s.connFail p m).get (LINK_P_RX_DROP_count p) = satAdd (LINK_P_RX_DROP_count p).len (s.get (LINK_P_RX_DROP_count p))
        (c.unacked.length + c.held.length + ((s.port p).egress.filter (fun q => q.fresh && q.frame.dest == m)).length) := by
  unfold State.connFail
  rw [h]
  dsimp only
  obtain ⟨fs, hfs⟩ : ∃ fs, c.unacked.map (·.frame) ++ c.held.map (·.frame) ++
      ((s.port p).egress.filter (fun q => q.fresh && q.frame.dest == m)).map (·.frame) = fs := ⟨_, rfl⟩
  have hlen : fs.length = c.unacked.length + c.held.length + ((s.port p).egress.filter (fun q => q.fresh && q.frame.dest == m)).length := by
    rw [← hfs]
    simp [Nat.add_assoc]
  rw [hfs, ← hlen]
  obtain ⟨v, hv⟩ : ∃ v : State, State.setPort { s with conns := del s.conns (State.connKey p m) } p
      { s.port p with egress := (s.port p).egress.filter (fun q => q.frame.dest != m || q.frame.kind == 1) } = v := ⟨_, rfl⟩
  have hctl : v.ctl = s.ctl := by rw [← hv]; rfl
  have hconn : v.conns = del s.conns (State.connKey p m) := by rw [← hv]; rfl
  rw [hv]
  obtain ⟨u, hu⟩ : ∃ u, v.bump (LINK_P_RX_DROP_count p) fs.length = u := ⟨_, rfl⟩
  have hget : u.get (LINK_P_RX_DROP_count p) = satAdd (LINK_P_RX_DROP_count p).len (s.get (LINK_P_RX_DROP_count p)) fs.length := by
    rw [← hu, State.get_bump _ fs.length, State.get_of_ctl _ hctl]
  have huc : u.conns = v.conns := by rw [← hu, State.bump_conns]
  rw [hu]
  have hsame : ∀ {γ : Type} (g : State → γ), (∀ (t : State) B N, g { t with banked := B, now := N } = g t) →
      g (each (fun (f : Frame) (t : State) => if frameRecords f = 0 then t else t.owDrop f.part (frameRecords f)) fs
        (u.setBit (LINK_P_EVT p) 2)) = g (u.setBit (LINK_P_EVT p) 2) := fun g hg => each_eq g (fun f t => by
    split
    · rfl
    · exact hg t _ _) _ _
  refine ⟨?_, ?_, ?_⟩
  · unfold State.conn
    rw [hsame State.conns fun _ _ _ => rfl, State.setBit_conns, huc, hconn, lookup?_del, if_pos rfl]
  · rw [hsame (fun t => t.bitOn (LINK_P_EVT p) 2) fun _ _ _ => rfl]
    exact State.setBit_bitOn_same u _ (by decide)
  · rw [hsame (fun t => t.get (LINK_P_RX_DROP_count p)) fun _ _ _ => rfl, ← hget]
    refine State.get_of_rd (((u.onlyRegs_refl [LINK_P_EVT p]).setBit (i := 2)).2 _ ?_)
    show LINK_P_RX_DROP p ∉ [LINK_P_EVT p]
    unfold LINK_P_RX_DROP LINK_P_EVT
    simp

theorem mem_of_mem_eraseAt {α : Type} {x : α} : ∀ {l : List α} {k : Nat}, x ∈ eraseAt l k → x ∈ l
  | _ :: _, 0, h => List.mem_cons_of_mem _ h
  | _ :: _, _ + 1, h => by
    rcases List.mem_cons.1 h with rfl | h
    · exact List.mem_cons_self
    · exact List.mem_cons_of_mem _ (mem_of_mem_eraseAt h)

/-- The connections are those named, and what is queued on the port has its number. -/
def State.resending (C : List (Nat × Conn)) (p : Nat) (t : State) : Prop := t.conns = C ∧ ∀ q ∈ (t.port p).egress, q.fresh = false

/-- A frame sent again leaves the connections as they are. -/
theorem State.resending.wire {C : List (Nat × Conn)} {t : State} (h : t.resending C p) (f : Frame) : (t.wire p f).resending C p := by
  refine State.drain_keeps (P := State.resending C p) (fun _ _ _ _ h => h) (fun t i q h hq => ?_) _ _ ⟨h.1, fun q hq => ?_⟩
  · unfold State.depart
    rw [h.2 q (List.mem_of_getElem? hq)]
    refine ⟨h.1, fun x hx => h.2 x ?_⟩
    have he : ((t.onPort p (fun x => { x with egress := eraseAt x.egress i })).port p).egress = eraseAt (t.port p).egress i := by
      rw [State.port_onPort, if_pos rfl]
    exact mem_of_mem_eraseAt (he ▸ hx)
  · rw [State.port_onPort, if_pos rfl] at hq
    rcases List.mem_append.1 hq with hq | hq
    · exact h.2 q hq
    · rw [List.mem_singleton.1 hq]

/-- Frames sent again: each has one more send, and all are counted (R437). -/
theorem State.resendFrom_again {m : Nat} {c : Conn} {fs : List Unacked} (h : s.conn p m = some c) (hs : ∀ u ∈ fs, u.sends < 8)
    (he : (s.port p).egress = []) :
    (s.resendFrom p m fs []).conn p m = some { c with unacked := fs.map (fun u => { u with sends := u.sends + 1 }) } ∧
      (s.resendFrom p m fs []).get (LINK_P_RESENT_count p) =
        satAdd (LINK_P_RESENT_count p).len (s.get (LINK_P_RESENT_count p)) fs.length ∧ s.keeps (s.resendFrom p m fs []) [LINK_P_RESENT p] := by
  unfold State.resendFrom
  rw [h]
  dsimp only
  rw [if_neg (by simpa using hs), List.nil_append, List.length_map]
  obtain ⟨v, hv⟩ : ∃ v, s.setConn p m { c with unacked := fs.map (fun u => { u with sends := u.sends + 1 }) } = v := ⟨_, rfl⟩
  have hconn : v.conn p m = some { c with unacked := fs.map (fun u => { u with sends := u.sends + 1 }) } := by
    rw [← hv]
    exact State.conn_setConn _ _ _ _
  have hport : v.ports = s.ports := by rw [← hv]; rfl
  have hctl : v.ctl = s.ctl := by rw [← hv]; rfl
  rw [hv]
  obtain ⟨u, hu⟩ : ∃ u, v.bump (LINK_P_RESENT_count p) fs.length = u := ⟨_, rfl⟩
  have hset : u.resending v.conns p := by
    rw [← hu]
    refine ⟨v.bump_conns _ _, fun q hq => ?_⟩
    unfold State.port at hq
    rw [State.bump_ports, hport] at hq
    exact absurd (he ▸ hq) List.not_mem_nil
  have hget : u.get (LINK_P_RESENT_count p) = satAdd (LINK_P_RESENT_count p).len (s.get (LINK_P_RESENT_count p)) fs.length := by
    rw [← hu, State.get_bump _ fs.length, State.get_of_ctl _ hctl]
  have hkeep : v.keeps u [LINK_P_RESENT p] := hu ▸ ((v.onlyRegs_refl [LINK_P_RESENT p]).bump (n := fs.length)).2
  rw [hu]
  have hw := each_keeps (State.resending v.conns p) (f := fun (x : Unacked) (t : State) => t.wire p { x.frame with ack := c.nextRx })
    (fun x t ht => ht.wire _) (fs.map (fun u => { u with sends := u.sends + 1 })) u hset
  have hl := State.onlyLinks.each (s := u) (f := fun (x : Unacked) (t : State) => t.wire p { x.frame with ack := c.nextRx })
    (fun x t ht => ht.wire _ _) (fs.map (fun u => { u with sends := u.sends + 1 })) (State.onlyLinks.refl u)
  refine ⟨?_, ?_, fun a ha => (hl.rd a).trans ((hkeep a ha).trans ?_)⟩
  · unfold State.conn
    rw [hw.1]
    exact hconn
  · exact (State.get_of_rd (hl.rd _)).trans hget
  · unfold State.rd
    rw [hctl]

/-- An acknowledgement on a connection with nothing held drops what is before the number it names (R437). -/
theorem State.ackTo_drops {m a : Nat} {c : Conn} (h : s.conn p m = some c) (hh : c.held = [])
    (ha : c.unacked.any (fun u => u.frame.seq == a) = true ∨ a = c.nextTx) :
    (s.ackTo p m a false).conn p m = some { c with
      unacked :=
        let left := c.unacked.dropWhile (fun u => u.frame.seq != a)
        if left.length = c.unacked.length then left else left.map (fun u => { u with sends := 0 }) } ∧ (s.ackTo p m a false).rx = s.rx := by
  unfold State.ackTo
  rw [h]
  dsimp only
  rw [if_pos ha, if_neg (by decide)]
  unfold State.sendHeld
  rw [State.conn_setConn]
  dsimp only
  rw [hh]
  exact ⟨State.conn_setConn _ _ _ _, rfl⟩

end Drain

/-- Settles O40: HELLO makes or keeps a connection, and acknowledgement, resending and loss follow R436 and R437. -/
theorem connectionsAreMadeKeptAndLost : Obligations.ConnectionsAreMadeKeptAndLost := by
  refine ⟨fun p s hp hup hrun htick hcyc h7 he => ?_, fun k v r s h => ?_, fun p m c s hp hm h => ⟨?_, fun hne he hs => ?_, fun hs => ?_⟩,
    fun k r c s h hc hh hf ha => ?_⟩
  · refine runs_next (congrArg Host.Outcome.next (if_pos hp)) ?_
    unfold State.helloTimer
    rw [hup, hrun, htick, hcyc]
    refine State.sendHello_first he ?_
    unfold State.mayLeave
    rw [hup, h7]
    rfl
  · intro m hm hv hlen
    refine runs_next (u := s.helloReceive k) rfl ?_
    obtain ⟨c, hu, hver, hnew, hold⟩ := State.helloReceive_agrees h hm hv hlen
    rw [hu]
    exact ⟨State.rxDone_rx h, c, State.conn_setConn _ _ _ _, hver, hnew, hold⟩
  · exact runs_next (congrArg Host.Outcome.next (if_pos ⟨hp, hm⟩)) (State.connFail_shows h)
  · refine runs_next (congrArg Host.Outcome.next (if_pos ⟨hp, hm⟩)) ?_
    unfold State.rtoExpire
    rw [h]
    dsimp only
    rw [if_neg hne]
    exact State.resendFrom_again h hs he
  · refine runs_next (congrArg Host.Outcome.next (if_pos ⟨hp, hm⟩)) ?_
    obtain ⟨u, hu, h8⟩ := hs
    unfold State.rtoExpire
    rw [h]
    dsimp only
    rw [if_neg (List.ne_nil_of_mem hu)]
    unfold State.resendFrom
    rw [h]
    dsimp only
    rw [if_pos (List.any_eq_true.2 ⟨u, hu, decide_eq_true h8⟩)]
    obtain ⟨h1, h2, -⟩ := State.connFail_shows h
    exact ⟨h1, h2⟩
  · refine runs_next (u := s.ackReceive k) rfl ?_
    have hconn : (s.rxDone k).conn r.port r.frame.source = some c := by
      unfold State.conn
      rw [State.rxDone_conns h]
      exact hc
    unfold State.ackReceive
    rw [h]
    dsimp only
    rw [hf]
    obtain ⟨h1, h2⟩ := State.ackTo_drops hconn hh ha
    exact ⟨h1, h2.trans (State.rxDone_rx h)⟩

/-! ## Training and lock (R428, R429) -/

section Training

variable {s : State} {p : Nat}

theorem State.onPort_port (s : State) (p : Nat) (f : Port → Port) : (s.onPort p f).port p = f (s.port p) :=
  (s.port_onPort p f p).trans (if_pos rfl)

/-- The end of a training: the best common mode, or a wait (R429). -/
theorem State.portTrain_ends {offered works : Nat} (hu : s.portUsable p = true) (he : s.on (LINK_P_CTL_enable p) = true)
    (ht : (s.port p).phase = .training) (ha : s.asked (LINK_P_CTL_retrain p) = false) :
    ∃ f : Port → Port, s.portTrain p offered works = (s.setOn (LINK_P_CTL_retrain p) false).onPort p f ∧
      ∀ x, (f x).phase = (match bestMode (s.get (LINK_P_CTL_modes p) &&& offered &&& works) with
        | some m => .trained m
        | none => .waiting) := by
  unfold State.portTrain
  rw [hu, he, ht, ha]
  dsimp only
  rw [if_pos (by decide)]
  cases bestMode (s.get (LINK_P_CTL_modes p) &&& offered &&& works) with
  | some m => exact ⟨_, rfl, fun _ => rfl⟩
  | none => exact ⟨_, rfl, fun _ => rfl⟩

/-- A trained port comes up (R429). -/
theorem State.portLinkUp_up {m : Nat} (ht : (s.port p).phase = .trained m) (hm : m < 4) :
    ((s.portLinkUp p).port p).phase = .up ∧ (s.portLinkUp p).get (LINK_P_STAT_up p) = 1 ∧ (s.portLinkUp p).get (LINK_P_STAT_mode p) = m ∧
      s.keeps (s.portLinkUp p) [LINK_P_STAT p] := by
  unfold State.portLinkUp
  rw [ht]
  dsimp only
  obtain ⟨v, hv⟩ : ∃ v, s.onPort p (fun x => { x with phase := .up }) = v := ⟨_, rfl⟩
  have hport : (v.port p).phase = .up := by rw [← hv, State.onPort_port]
  have hctl : v.ctl = s.ctl := by rw [← hv]; rfl
  rw [hv]
  obtain ⟨u, hu⟩ : ∃ u, v.setOn (LINK_P_STAT_up p) true = u := ⟨_, rfl⟩
  have hup : u.get (LINK_P_STAT_up p) = 1 := hu ▸ State.get_setOn _ true
  have hku : v.keeps u [LINK_P_STAT p] := hu ▸ (v.keeps_refl _).setOn
  have hpu : u.ports = v.ports := by rw [← hu, State.setOn_ports]
  rw [hu]
  obtain ⟨w, hw⟩ : ∃ w, u.set (LINK_P_STAT_mode p) m = w := ⟨_, rfl⟩
  have hmode : w.get (LINK_P_STAT_mode p) = m := hw ▸ State.get_set_of_lt _ 2 hm
  have hup' : w.get (LINK_P_STAT_up p) = 1 := by
    rw [← hw, State.get_set_apart]
    exact hup
  have hkw : u.keeps w [LINK_P_STAT p] := hw ▸ (u.keeps_refl _).set
  have hpw : w.ports = u.ports := by rw [← hw, State.set_ports]
  rw [hw]
  have hl : w.onlyLinks ((w.sendHello p).drainEgress p) := ((State.onlyLinks.refl w).sendHello p).drain p _
  have hs : w.samePorts ((w.sendHello p).drainEgress p) := ((State.samePorts.refl w).send p _).drain p _
  refine ⟨(hs p).1.trans ?_, (State.get_of_rd (hl.rd _)).trans hup', (State.get_of_rd (hl.rd _)).trans hmode, fun a ha => ?_⟩
  · unfold State.port at hport ⊢
    rw [hpw, hpu]
    exact hport
  · rw [hl.rd, hkw a ha, hku a ha]
    unfold State.rd
    rw [hctl]

/-- A port whose lock is lost trains again, with its event (R429). -/
theorem State.lockLoss_shows (hup : s.portUp p = true) :
    ((s.lockLoss p).port p).phase = .training ∧ (s.lockLoss p).get (LINK_P_STAT_up p) = 0 ∧ (s.lockLoss p).bitOn (LINK_P_EVT p) 0 = true ∧
      s.onlyRegs { s.lockLoss p with ports := s.ports } [LINK_P_STAT p, LINK_P_EVT p] := by
  unfold State.lockLoss State.portDown
  rw [if_pos hup]
  obtain ⟨P, v, hv, hport⟩ : ∃ P, ∃ v : State, s.onPort p (fun x => { x with phase := .training, paused := 0, xoff := 0 }) = v ∧
      v = { s with ports := P } ∧ (v.port p).phase = .training := ⟨_, _, rfl, rfl, by rw [State.onPort_port]⟩
  rw [hv]
  have h1 : v.onlyRegs (((v.setOn (LINK_P_STAT_up p) false).set (LINK_P_STAT_mode p) 0).setBit (LINK_P_EVT p) 0) [LINK_P_STAT p, LINK_P_EVT p] :=
    (((v.onlyRegs_refl _).setOn (by simp [LINK_P_STAT_up])).set (by simp [LINK_P_STAT_mode])).setBit (by simp)
  have h2 : ((v.setOn (LINK_P_STAT_up p) false).set (LINK_P_STAT_mode p) 0).get (LINK_P_STAT_up p) = 0 := by
    rw [State.get_set_apart]
    exact State.get_setOn _ false
  obtain ⟨u, hu⟩ : ∃ u, (v.setOn (LINK_P_STAT_up p) false).set (LINK_P_STAT_mode p) 0 = u := ⟨_, rfl⟩
  rw [hu] at h1 h2 ⊢
  have hk : u.onlyRegs (u.setBit (LINK_P_EVT p) 0) [LINK_P_EVT p] := (u.onlyRegs_refl _).setBit
  have hb := State.setBit_bitOn_same u (LINK_P_EVT p) (i := 0) (by decide)
  obtain ⟨w, hw⟩ : ∃ w, u.setBit (LINK_P_EVT p) 0 = w := ⟨_, rfl⟩
  rw [hw] at h1 hk hb ⊢
  refine ⟨?_, (State.get_of_rd (hk.2 _ ?_)).trans h2, hb, ?_, fun a ha => (h1.2 a ha).trans ?_⟩
  · rw [h1.1]
    exact hport.2
  · show LINK_P_STAT p ∉ [LINK_P_EVT p]
    unfold LINK_P_STAT LINK_P_EVT
    simp
  · rw [h1.1, hport.1]
  · rw [hport.1]
    rfl

/-- The bit of a priority after a PFC frame. -/
theorem testBit_paused {prio x : Nat} {pause : Bool} (h : prio < 8) :
    (if pause then x ||| 2 ^ prio else x &&& (255 - 2 ^ prio)).testBit prio = pause := by
  cases pause with
  | true => rw [if_pos rfl, Nat.testBit_or, Nat.testBit_two_pow_self, Bool.or_true]
  | false =>
    have h0 : ∀ k < 8, (255 - 2 ^ k).testBit k = false := by decide
    rw [if_neg (by decide), Nat.testBit_and, h0 prio h, Bool.and_false]

/-- A PFC frame pauses its priority or lets it go on (R433). -/
theorem State.pfcReceive_shows {prio : Nat} {pause : Bool} (hup : s.portUp p = true) (hprio : prio < 8) :
    ((s.pfcReceive p prio pause).port p).paused.testBit prio = (if 4 ≤ prio then pause else (s.port p).paused.testBit prio) ∧
      (s.pfcReceive p prio pause).get (LINK_P_PFC_RX_count p) = satAdd (LINK_P_PFC_RX_count p).len (s.get (LINK_P_PFC_RX_count p)) 1 ∧
      s.keeps (s.pfcReceive p prio pause) [LINK_P_PFC_RX p] := by
  unfold State.pfcReceive
  rw [hup]
  dsimp only
  rw [if_neg (by decide)]
  obtain ⟨m, hm⟩ : ∃ m, (if 4 ≤ prio ∧ prio < 8 then if pause = true then (s.port p).paused ||| 2 ^ prio else (s.port p).paused &&& (255 - 2 ^ prio)
    else (s.port p).paused) = m := ⟨_, rfl⟩
  have hbit : m.testBit prio = if 4 ≤ prio then pause else (s.port p).paused.testBit prio := by
    rw [← hm]
    by_cases h4 : 4 ≤ prio
    · rw [if_pos ⟨h4, hprio⟩, if_pos h4]
      exact testBit_paused hprio
    · rw [if_neg fun h => h4 h.1, if_neg h4]
  rw [hm]
  obtain ⟨v, hv⟩ : ∃ v, s.setPort p { s.port p with paused := m } = v := ⟨_, rfl⟩
  have hport : (v.port p).paused = m := by
    rw [← hv]
    exact congrArg Port.paused ((lookupD_put ..).trans (if_pos rfl))
  have hctl : v.ctl = s.ctl := by rw [← hv]; rfl
  rw [hv]
  obtain ⟨u, hu⟩ : ∃ u, v.bump (LINK_P_PFC_RX_count p) 1 = u := ⟨_, rfl⟩
  have hget : u.get (LINK_P_PFC_RX_count p) = satAdd (LINK_P_PFC_RX_count p).len (s.get (LINK_P_PFC_RX_count p)) 1 := by
    rw [← hu, State.get_bump _ 1, State.get_of_ctl _ hctl]
  have hkeep : v.keeps u [LINK_P_PFC_RX p] := hu ▸ ((v.onlyRegs_refl _).bump).2
  have hpu : u.ports = v.ports := by rw [← hu, State.bump_ports]
  rw [hu]
  have hl : u.onlyLinks (u.drainEgress p) := (State.onlyLinks.refl u).drain p _
  have hs : u.samePorts (u.drainEgress p) := (State.samePorts.refl u).drain p _
  refine ⟨?_, (State.get_of_rd (hl.rd _)).trans hget, fun a ha => (hl.rd a).trans ((hkeep a ha).trans ?_)⟩
  · rw [(hs p).2, ← hbit, ← hport]
    unfold State.port
    rw [hpu]
  · unfold State.rd
    rw [hctl]

/-! ## Frames received (R432, R437) -/

/-- The state once the codewords of an arrival are counted (R432). -/
def State.decoded (s : State) (p : Nat) (a : Arrival) : State :=
  if a.uncorrectable = 0 then (s.bump (LINK_P_FEC_CORR_count p) a.corrected).bump (LINK_P_FEC_UNC_count p) a.uncorrectable
  else ((s.bump (LINK_P_FEC_CORR_count p) a.corrected).bump (LINK_P_FEC_UNC_count p) a.uncorrectable).setBit (LINK_P_EVT p) 1

theorem State.decoded_onlyRegs (s : State) (p : Nat) (a : Arrival) :
    s.onlyRegs (s.decoded p a) [LINK_P_FEC_CORR p, LINK_P_FEC_UNC p, LINK_P_EVT p] := by
  have h : s.onlyRegs ((s.bump (LINK_P_FEC_CORR_count p) a.corrected).bump (LINK_P_FEC_UNC_count p) a.uncorrectable)
      [LINK_P_FEC_CORR p, LINK_P_FEC_UNC p, LINK_P_EVT p] :=
    ((s.onlyRegs_refl _).bump (by simp [LINK_P_FEC_CORR_count])).bump (by simp [LINK_P_FEC_UNC_count])
  unfold State.decoded
  split
  · exact h
  · exact h.setBit (by simp)

theorem State.decoded_same {γ : Type} (g : State → γ) (hg : ∀ (t : State) C N, g { t with ctl := C, now := N } = g t) {a : Arrival} :
    g (s.decoded p a) = g s :=
  (congrArg g (s.decoded_onlyRegs p a).1).trans (hg _ _ _)

theorem State.decoded_rd (a : Arrival) {w : Nat} (hw : w = LINK_P_RX_BAD p ∨ w = LINK_TLT_ADDR) : (s.decoded p a).rd w = s.rd w := by
  refine (s.decoded_onlyRegs p a).2 w ?_
  rcases hw with rfl | rfl
  · simp [LINK_P_FEC_CORR, LINK_P_FEC_UNC, LINK_P_EVT, LINK_P_RX_BAD]
  · simp only [LINK_P_FEC_CORR, LINK_P_FEC_UNC, LINK_P_EVT, LINK_TLT_ADDR, List.mem_cons, List.not_mem_nil, or_false]
    omega

theorem State.frameReceive_bad {a : Arrival} (hup : s.portUp p = true) (h : a.crcOk = false) :
    s.frameReceive p a = (s.decoded p a).bump (LINK_P_RX_BAD_count p) 1 := by
  unfold State.frameReceive
  rw [hup, h]
  rfl

theorem State.frameReceive_hello {a : Arrival} (hup : s.portUp p = true) (h : a.crcOk = true) (he : a.etype = s.get LINK_TLT_ETYPE_etype)
    (hp : 4 ≤ a.frame.prio) (hk : a.frame.kind = 1) : s.frameReceive p a = (s.decoded p a).accept p a.frame := by
  have hf : ∀ v : State, v.foreign a.frame = false := fun v => by
    unfold State.foreign bedOnly
    rw [hk]
    rfl
  have hseq : sequenced a.frame.kind = false := by
    rw [hk]
    rfl
  have hk12 : a.frame.kind = 1 ∨ a.frame.kind = 2 := .inl hk
  unfold State.frameReceive
  rw [hup, h]
  dsimp only
  rw [if_neg (by decide), if_neg (by decide), if_neg (by simp [he, hp]), if_neg (by simp [hk])]
  simp only [hseq, Bool.false_eq_true, if_false, if_pos hk12]
  rw [hf, if_pos ⟨.inl hk, rfl⟩]
  rfl

theorem State.frameReceive_seq {a : Arrival} (hup : s.portUp p = true) (h : a.crcOk = true) (he : a.etype = s.get LINK_TLT_ETYPE_etype)
    (hp : 4 ≤ a.frame.prio) (hs : sequenced a.frame.kind = true) (ho : a.frame.source ≠ s.ownAddr) :
    s.frameReceive p a = ((s.decoded p a).ackTo p a.frame.source a.frame.ack false).receiveSeq p a.frame := by
  have hk : ¬ (a.frame.kind = 1 ∨ a.frame.kind = 2) := by
    unfold sequenced at hs
    have := of_decide_eq_true hs
    omega
  unfold State.frameReceive
  rw [hup, h]
  dsimp only
  rw [if_neg (by decide), if_neg (by decide), if_neg (by simp [he, hp]), if_neg (fun h => ho h.1), if_neg hk, if_pos hs]
  rfl

theorem State.accept_kept (s : State) (p : Nat) (f : Frame) :
    (s.accept p f).rx = s.rx ++ [(⟨p, f⟩ : Rx)] ∧ (s.accept p f).conns = s.conns := by
  have h := (State.flowControl_onlyPorts { s with rx := s.rx ++ [(⟨p, f⟩ : Rx)] } p f.prio).1
  exact ⟨(congrArg State.rx h).trans rfl, (congrArg State.conns h).trans rfl⟩

namespace State.sameVersions

variable {t : State}

theorem wire (h : s.sameVersions t) (p : Nat) (f : Frame) : s.sameVersions (t.wire p f) := h.send _ _

theorem sendAck (h : s.sameVersions t) (p m : Nat) (nak : Bool) : s.sameVersions (t.sendAck p m nak) := by
  unfold State.sendAck
  split
  · exact h
  next c hc =>
    refine State.sameVersions.wire (h.setConn hc ?_) _ _
    exact ⟨rfl, rfl⟩

theorem sendHeld (h : s.sameVersions t) (p m fuel : Nat) : s.sameVersions (t.sendHeld p m fuel) := by
  induction fuel generalizing t with
  | zero => exact h
  | succ n ih =>
    unfold State.sendHeld
    split
    · exact h
    next c hc =>
      split
      · split
        · exact h
        · refine ih (State.sameVersions.send (h.setConn hc ?_) _ _)
          exact ⟨rfl, rfl⟩
      · exact h

theorem ackTo (h : s.sameVersions t) (p m a : Nat) : s.sameVersions (t.ackTo p m a false) := by
  unfold State.ackTo
  split
  · exact h
  next c hc =>
    split
    · refine State.sameVersions.sendHeld (h.setConn hc ?_) _ _ _
      exact ⟨rfl, rfl⟩
    · exact h

theorem conn {c : Conn} {m : Nat} (h : s.sameVersions t) (hc : s.conn p m = some c) :
    ∃ d, t.conn p m = some d ∧ d.version = c.version ∧ d.nextRx = c.nextRx := by
  have := h p m
  rw [hc, Option.map_some, Option.map_eq_some_iff] at this
  obtain ⟨d, hd, he⟩ := this
  exact ⟨d, hd, congrArg Prod.fst he, congrArg Prod.snd he⟩

end State.sameVersions

theorem State.onlyLinks.ackTo {t : State} (h : s.onlyLinks t) (p m a : Nat) : s.onlyLinks (t.ackTo p m a false) := by
  unfold State.ackTo
  split
  · exact h
  · split
    · exact (h.conn _ _ _).sendHeld _ _ _
    · exact h

/-- A sequenced frame with the number expected is taken, one from a foreign bed without being kept (R437). -/
theorem State.receiveSeq_next {f : Frame} {c : Conn} (hc : s.conn p f.source = some c) (hn : f.seq = c.nextRx) :
    (s.receiveSeq p f).rx = (if s.foreign f then s.rx else s.rx ++ [⟨p, f⟩]) ∧
      ∃ d, (s.receiveSeq p f).conn p f.source = some d ∧ d.nextRx = (c.nextRx + 1) % 2 ^ 32 ∧ d.version = c.version := by
  unfold State.receiveSeq
  rw [hc]
  dsimp only
  rw [if_neg fun h => h hn]
  obtain ⟨v, hv⟩ : ∃ v, s.setConn p f.source { c with nextRx := (c.nextRx + 1) % 2 ^ 32, since := c.since + 1 } = v := ⟨_, rfl⟩
  have hrx : v.rx = s.rx := by rw [← hv]; rfl
  have hconn : v.conn p f.source = some { c with nextRx := (c.nextRx + 1) % 2 ^ 32, since := c.since + 1 } := by
    rw [← hv]
    exact State.conn_setConn _ _ _ _
  rw [hv]
  obtain ⟨u, hu⟩ : ∃ u, (if s.foreign f = true then v else v.accept p f) = u := ⟨_, rfl⟩
  have hur : u.rx = (if s.foreign f then s.rx else s.rx ++ [⟨p, f⟩]) ∧ u.conns = v.conns := by
    rw [← hu]
    split
    · exact ⟨hrx, rfl⟩
    · obtain ⟨h1, h2⟩ := v.accept_kept p f
      exact ⟨h1.trans (by rw [hrx]), h2⟩
  rw [hu]
  obtain ⟨hr, hcs⟩ := hur
  have hcon : u.conn p f.source = some { c with nextRx := (c.nextRx + 1) % 2 ^ 32, since := c.since + 1 } := by
    unfold State.conn at hconn ⊢
    rw [hcs]
    exact hconn
  split
  · obtain ⟨d, hd, hver, hnext⟩ := ((State.sameVersions.refl u).sendAck p f.source false).conn hcon
    refine ⟨?_, d, hd, hnext, hver⟩
    rw [((State.onlyLinks.refl u).sendAck p f.source false).same (g := State.rx) fun _ _ _ _ _ _ => rfl]
    exact hr
  · exact ⟨hr, _, hcon, rfl, rfl⟩

/-- A sequenced frame with another number is not taken (R437). -/
theorem State.receiveSeq_gap {f : Frame} {c : Conn} (hc : s.conn p f.source = some c) (hn : f.seq ≠ c.nextRx) :
    (s.receiveSeq p f).rx = s.rx ∧ ∃ d, (s.receiveSeq p f).conn p f.source = some d ∧ d.nextRx = c.nextRx := by
  unfold State.receiveSeq
  rw [hc]
  dsimp only
  rw [if_pos hn]
  obtain ⟨d, hd, -, hnext⟩ := ((State.sameVersions.refl s).sendAck p f.source true).conn hc
  exact ⟨((State.onlyLinks.refl s).sendAck p f.source true).same (g := State.rx) fun _ _ _ _ _ _ => rfl, d, hd, hnext⟩

/-- What a sequenced frame meets once its codewords and its acknowledgement are taken. -/
theorem State.acked_shows {a : Arrival} {c : Conn} (hc : s.conn p a.frame.source = some c) :
    ∃ d, ((s.decoded p a).ackTo p a.frame.source a.frame.ack false).conn p a.frame.source = some d ∧ d.version = c.version ∧ d.nextRx = c.nextRx ∧
      ((s.decoded p a).ackTo p a.frame.source a.frame.ack false).rx = s.rx ∧
      ((s.decoded p a).ackTo p a.frame.source a.frame.ack false).foreign a.frame = s.foreign a.frame := by
  have hdec : (s.decoded p a).conn p a.frame.source = some c := by
    unfold State.conn at hc ⊢
    rw [State.decoded_same State.conns fun _ _ _ => rfl]
    exact hc
  obtain ⟨d, hd, hver, hnext⟩ := ((State.sameVersions.refl (s.decoded p a)).ackTo p a.frame.source a.frame.ack).conn hdec
  have hl := (State.onlyLinks.refl (s.decoded p a)).ackTo p a.frame.source a.frame.ack
  refine ⟨d, hd, hver, hnext, ?_, ?_⟩
  · rw [hl.same (g := State.rx) fun _ _ _ _ _ _ => rfl, State.decoded_same State.rx fun _ _ _ => rfl]
  · unfold State.foreign
    rw [State.get_of_rd (f := LINK_TLT_ADDR_bed) (hl.rd _), State.get_of_rd (f := LINK_TLT_ADDR_bed) (State.decoded_rd a (.inr rfl))]

end Training

/-- Settles O39: ports train, come up and lose lock, and frames are received in order (R428, R429, R432, R433, R437). -/
theorem portsTrainAndReceive : Obligations.PortsTrainAndReceive := by
  intro p s hp
  refine ⟨fun offered works ho hw hu he ht ha => runs_next (congrArg Host.Outcome.next (if_pos ⟨hp, ho, hw⟩)) ?_,
    fun hw => runs_next (congrArg Host.Outcome.next (if_pos hp)) ?_,
    fun m ht hm => runs_next (congrArg Host.Outcome.next (if_pos hp)) (State.portLinkUp_up ht hm),
    fun hup => ⟨runs_next (congrArg Host.Outcome.next (if_pos hp)) (State.lockLoss_shows hup),
      fun prio pause hprio => runs_next (congrArg Host.Outcome.next (if_pos ⟨hp, hprio⟩)) (State.pfcReceive_shows hup hprio),
      fun a => ⟨fun hcrc => runs_next (congrArg Host.Outcome.next (if_pos hp)) ?_,
        fun hcrc het hprio => ⟨fun hk => runs_next (congrArg Host.Outcome.next (if_pos hp)) ?_, fun c hs ho hc =>
          ⟨fun hn => runs_next (congrArg Host.Outcome.next (if_pos hp)) ?_, fun hn => runs_next (congrArg Host.Outcome.next (if_pos hp)) ?_⟩⟩⟩⟩⟩
  · obtain ⟨f, hf, hphase⟩ := State.portTrain_ends (offered := offered) (works := works) hu he ht ha
    obtain ⟨v, hv⟩ : ∃ v, s.setOn (LINK_P_CTL_retrain p) false = v := ⟨_, rfl⟩
    have hget : v.get (LINK_P_CTL_retrain p) = 0 := hv ▸ State.get_setOn _ false
    have hkeep : s.keeps v [LINK_P_CTL p] := hv ▸ (s.keeps_refl _).setOn
    have hports : v.ports = s.ports := by rw [← hv, State.setOn_ports]
    rw [hf, hv]
    refine ⟨?_, hget, hkeep.same rfl, fun q hq => ?_⟩
    · rw [State.onPort_port]
      exact hphase _
    · rw [State.port_onPort, if_neg hq]
      unfold State.port
      rw [hports]
  · unfold State.portRetry
    rw [if_pos hw]
    exact ⟨by rw [State.onPort_port], rfl⟩
  · rw [State.frameReceive_bad hup hcrc, State.bump_rx, State.bump_conns]
    refine ⟨State.decoded_same State.rx fun _ _ _ => rfl, State.decoded_same State.conns fun _ _ _ => rfl, ?_⟩
    rw [State.get_bump _ 1, State.get_of_rd (f := LINK_P_RX_BAD_count p) (State.decoded_rd a (.inl rfl))]
  · rw [State.frameReceive_hello hup hcrc het hprio hk]
    obtain ⟨h1, h2⟩ := (s.decoded p a).accept_kept p a.frame
    exact ⟨h1.trans (by rw [State.decoded_same State.rx fun _ _ _ => rfl]), h2.trans (State.decoded_same State.conns fun _ _ _ => rfl)⟩
  · obtain ⟨d, hd, hver, hnext, hrx, hfor⟩ := State.acked_shows (a := a) hc
    obtain ⟨h1, e, he, hen, hev⟩ := State.receiveSeq_next hd (hn.trans hnext.symm)
    rw [State.frameReceive_seq hup hcrc het hprio hs ho]
    refine ⟨?_, e, he, hen.trans (by rw [hnext]), hev.trans hver⟩
    rw [h1, hrx, hfor]
    refine if_congr ?_ rfl rfl
    unfold State.foreign
    rw [Bool.and_eq_true, bne_iff_ne]
  · obtain ⟨d, hd, hver, hnext, hrx, hfor⟩ := State.acked_shows (a := a) hc
    obtain ⟨h1, e, he, hen⟩ := State.receiveSeq_gap hd (by rw [hnext]; exact hn)
    rw [State.frameReceive_seq hup hcrc het hprio hs ho]
    exact ⟨h1.trans hrx, e, he, hen.trans hnext⟩
end Sys2Proof.Machine

/-!
# Supplies, stops, rails, heat and the brake (O50)
-/

namespace Sys2Proof.Machine

/-! ## Words outside a set -/

section Frames

variable {W : Nat → Prop} {s t u : State}

/-- The words outside a set of addresses are the same. -/
def State.frames (W : Nat → Prop) (s t : State) : Prop := ∀ a, ¬ W a → t.rd a = s.rd a

namespace State.frames

theorem refl (W : Nat → Prop) (s : State) : s.frames W s := fun _ _ => rfl

theorem trans (h : s.frames W t) (h' : t.frames W u) : s.frames W u := fun a ha => (h' a ha).trans (h a ha)

theorem of_ctl (h : s.frames W t) (hu : u.ctl = t.ctl) : s.frames W u := fun a ha => by
  refine Eq.trans ?_ (h a ha)
  unfold State.rd
  rw [hu]

theorem onPart (h : s.frames W t) (n : Nat) (f : PartSt → PartSt) : s.frames W (t.onPart n f) := h.of_ctl rfl

theorem onCore (h : s.frames W t) (p : Nat) (f : Core → Core) : s.frames W (t.onCore p f) := h.of_ctl rfl

theorem weaken {V : Nat → Prop} (h : s.frames V t) (hV : ∀ a, V a → W a) : s.frames W t := fun a ha => h a fun hv => ha (hV a hv)

theorem wr (h : s.frames W t) {a : Nat} (v : Word) (ha : W a) : s.frames W (t.wr a v) := fun b hb =>
  (t.rd_wr a v b).trans ((if_neg (by rintro rfl; exact hb ha)).trans (h b hb))

theorem strike (h : s.frames W t) (a : Nat) (g : Word → Word) : s.frames W (t.strike a g) := h.of_ctl rfl

theorem set (h : s.frames W t) {f : FieldRef} (v : Nat) (ha : W f.addr) : s.frames W (t.set f v) := h.wr _ ha

theorem setOn (h : s.frames W t) {f : FieldRef} (b : Bool) (ha : W f.addr) : s.frames W (t.setOn f b) := h.set _ ha

theorem raise (h : s.frames W t) {f : FieldRef} (ha : W f.addr) : s.frames W (t.raise f) := (h.setOn _ ha).strike _ _

theorem bump (h : s.frames W t) {f : FieldRef} (n : Nat) (ha : W f.addr) : s.frames W (t.bump f n) := (h.wr _ ha).strike _ _

theorem setBit (h : s.frames W t) {a : Nat} (i : Nat) (ha : W a) : s.frames W (t.setBit a i) := (h.wr _ ha).strike _ _

theorem ite {c : Prop} [Decidable c] (h : s.frames W t) (h' : s.frames W u) : s.frames W (if c then t else u) := by
  split
  · exact h
  · exact h'

theorem each {α : Type} {f : α → State → State} {l : List α} (hf : ∀ a ∈ l, ∀ u, s.frames W u → s.frames W (f a u)) (h : s.frames W t) :
    s.frames W (each f l t) := by
  induction l generalizing t with
  | nil => exact h
  | cons a l ih => exact ih (fun b hb => hf b (List.mem_cons_of_mem _ hb)) (hf a List.mem_cons_self t h)

theorem get (h : s.frames W t) {f : FieldRef} (ha : ¬ W f.addr) : t.get f = s.get f := State.get_of_rd (h _ ha)

theorem on (h : s.frames W t) {f : FieldRef} (ha : ¬ W f.addr) : t.on f = s.on f := State.on_of_rd (h _ ha)

end State.frames

end Frames

/-! ## The fault log -/

section Log

variable {s : State}

/-- Words of the fault log and its counts. -/
def logWord (a : Nat) : Prop := 0x30004 < a ∧ a < 0x32000

/-- A record of the fault log changes words of the log and its sequence (R479, R482). -/
theorem State.logRecord_frames (s : State) {r : Report} (resp : Nat) (hr : r.cls < 16) : s.frames logWord (s.logRecord r resp) := by
  have hdet : logWord (SAGE_DET_count r.cls).addr := by
    show logWord (SAGE_DET r.cls)
    unfold logWord SAGE_DET
    omega
  unfold State.logRecord
  dsimp only
  split
  · exact (((State.frames.refl _ s).bump 1 hdet).raise (by unfold logWord; decide)).setBit 5 (by unfold logWord; decide)
  · have hh : s.get SAGE_LOG_head < 64 := field_lt _ _ _
    have h1 := (State.frames.refl logWord s).bump (f := SAGE_DET_count r.cls) 1 hdet
    have h2 := h1.each (f := fun (e : Nat × Nat) (t : State) => t.wr (SAGE_REC (s.get SAGE_LOG_head) e.1) (BitVec.ofNat 32 e.2))
      (l := (List.range 4).zip (r.words resp s.sage.seq)) fun e he u hu => hu.wr _ (by
        have := List.mem_range.1 (List.of_mem_zip he).1
        unfold logWord SAGE_REC
        omega)
    obtain ⟨v, hv⟩ : ∃ v, each (fun (e : Nat × Nat) (t : State) => t.wr (SAGE_REC (s.get SAGE_LOG_head) e.1) (BitVec.ofNat 32 e.2))
      ((List.range 4).zip (r.words resp s.sage.seq)) (s.bump (SAGE_DET_count r.cls) 1) = v := ⟨_, rfl⟩
    rw [hv] at h2 ⊢
    refine State.frames.set ?_ _ (by unfold logWord; decide)
    exact h2.of_ctl rfl

theorem State.logRecord_same {γ : Type} {g : State → γ} (wr : ∀ (t : State) a w, g (t.wr a w) = g t)
    (strike : ∀ (t : State) a f, g (t.strike a f) = g t) (sage : ∀ (t : State) x, g { t with sage := x } = g t)
    (s : State) (r : Report) (resp : Nat) : g (s.logRecord r resp) = g s := by
  have hbump : ∀ (t : State) f n, g (t.bump f n) = g t := fun t f n => (strike _ _ _).trans (wr _ _ _)
  have hset : ∀ (t : State) a i, g (t.setBit a i) = g t := fun t a i => (strike _ _ _).trans (wr _ _ _)
  have hraise : ∀ (t : State) f, g (t.raise f) = g t := fun t f => (strike _ _ _).trans (wr _ _ _)
  unfold State.logRecord
  dsimp only
  split
  · exact (hset _ _ _).trans ((hraise _ _).trans (hbump _ _ _))
  · refine (wr _ _ _).trans ((sage _ _).trans ?_)
    exact (each_eq g (fun e t => wr _ _ _) _ _).trans (hbump _ _ _)

end Log

/-! ## The stop of the module -/

section Stop

variable {s : State}

/-- Words of the beat block. -/
def beatWord (a : Nat) : Prop := 0x10000 ≤ a ∧ a < 0x20000

/-- What a stop of the module does to a partition in its beats (R499). -/
def State.stopPart (s : State) (n : Nat) : State :=
  if s.on (BEAT_PLAN_CTL_active n) then
    (each (fun p (u : State) => u.onCore p (fun c => { c with inBeat := false })) (s.partCores n) (s.wr (BEAT_STAT n) 0)).onPart n
      (fun q => { q with interval := .none, overrun := true, beats := [] })
  else s

/-- The bits a stop sets and clears at once. -/
def State.stopBits (s : State) : State := ((s.setOn SAGE_STAT_gate_open false).setOn PWR_STAT_stopping true).setBit PWR_EVT 7

theorem State.stopModule_eq (h : s.on PWR_STAT_stopping = false) (why : Nat) :
    s.stopModule why = (each (fun n (t : State) => t.stopPart n) (List.range 64) s.stopBits).setPwr (fun p => { p with stop := why }) := by
  unfold State.stopModule State.stopBits State.stopPart State.setPwr
  rw [if_neg (by rw [h]; decide)]

theorem State.stopPart_same {γ : Type} {g : State → γ} (wr : ∀ (t : State) a w, g (t.wr a w) = g t)
    (cores : ∀ (t : State) l, g { t with cores := l } = g t) (parts : ∀ (t : State) l, g { t with parts := l } = g t) (s : State) (n : Nat) :
    g (s.stopPart n) = g s := by
  unfold State.stopPart
  split
  · exact (parts _ _).trans ((each_eq g (fun p u => cores u _) _ _).trans (wr _ _ _))
  · rfl

theorem State.stopModule_same {γ : Type} {g : State → γ} (wr : ∀ (t : State) a w, g (t.wr a w) = g t)
    (strike : ∀ (t : State) a f, g (t.strike a f) = g t) (cores : ∀ (t : State) l, g { t with cores := l } = g t)
    (parts : ∀ (t : State) l, g { t with parts := l } = g t) (pwr : ∀ (t : State) k, g { t with pwr := { t.pwr with stop := k } } = g t)
    (s : State) (why : Nat) : g (s.stopModule why) = g s := by
  cases h : s.on PWR_STAT_stopping with
  | true =>
    unfold State.stopModule
    rw [if_pos h]
  | false =>
    rw [State.stopModule_eq h]
    refine (pwr _ _).trans ((each_eq g (fun n t => State.stopPart_same wr cores parts t n) _ _).trans ?_)
    show g (State.setBit _ _ _) = _
    exact (strike _ _ _).trans ((wr _ _ _).trans ((wr _ _ _).trans (wr _ _ _)))

theorem State.stopPart_frames {t : State} (h : s.frames beatWord t) {n : Nat} (hn : n < 64) : s.frames beatWord (t.stopPart n) := by
  have ha : beatWord (BEAT_STAT n) := by
    unfold beatWord BEAT_STAT
    omega
  have h1 := h.wr 0 ha
  have h2 : ∀ l : List Nat, s.frames beatWord (Machine.each (fun p (u : State) => u.onCore p (fun c => { c with inBeat := false })) l
      (t.wr (BEAT_STAT n) 0)) := fun l => h1.each fun p _ u hu => hu.onCore _ _
  unfold State.stopPart
  split
  · exact (h2 _).onPart _ _
  · exact h

/-- What the bits of a stop leave of the state's words. -/
theorem State.stopBits_shows (s : State) :
    s.stopBits.on PWR_STAT_stopping = true ∧ s.stopBits.on SAGE_STAT_gate_open = false ∧ s.stopBits.on PWR_STAT_en = s.on PWR_STAT_en ∧
      s.frames (fun a => a ∈ [SAGE_STAT, PWR_STAT, PWR_EVT]) s.stopBits := by
  unfold State.stopBits
  obtain ⟨v, hv⟩ : ∃ v, s.setOn SAGE_STAT_gate_open false = v := ⟨_, rfl⟩
  have hgate : v.get SAGE_STAT_gate_open = 0 := hv ▸ State.get_setOn _ false
  have hfv : s.frames (fun a => a ∈ [SAGE_STAT]) v := hv ▸ (State.frames.refl _ s).setOn false (by decide)
  rw [hv]
  obtain ⟨u, hu⟩ : ∃ u, v.setOn PWR_STAT_stopping true = u := ⟨_, rfl⟩
  have hstop : u.get PWR_STAT_stopping = 1 := hu ▸ State.get_setOn _ true
  have hen : u.get PWR_STAT_en = v.get PWR_STAT_en := hu ▸ State.get_setOn_apart _ true
  have hfu : v.frames (fun a => a ∈ [PWR_STAT]) u := hu ▸ (State.frames.refl _ v).setOn true (by decide)
  rw [hu]
  have hf : u.frames (fun a => a ∈ [PWR_EVT]) (u.setBit PWR_EVT 7) := (State.frames.refl _ u).setBit 7 (by decide)
  refine ⟨?_, ?_, ?_, ((hfv.weaken ?_).trans (hfu.weaken ?_)).trans (hf.weaken ?_)⟩
  · rw [hf.on (by decide)]
    exact State.on_of_get hstop
  · rw [hf.on (by decide), hfu.on (by decide)]
    unfold State.on
    rw [hgate]
    rfl
  · rw [hf.on (by decide)]
    unfold State.on
    rw [hen, hfv.get (by decide)]
  · decide +revert
  · decide +revert
  · decide +revert

end Stop

/-! ## Pins and what the compute domains lose -/

section Clear

variable {s : State}

theorem State.drivePin_same {γ : Type} {g : State → γ} (out : ∀ (t : State) O, g { t with outbox := O } = g t) (s : State) (name : String)
    (was now : Bool) : g (s.drivePin name was now) = g s := by
  unfold State.drivePin
  split
  · rfl
  · exact out _ _

theorem State.pins_same {γ : Type} {g : State → γ} (out : ∀ (t : State) O, g { t with outbox := O } = g t)
    (pwr : ∀ (t : State) a b c, g { t with pwr := { t.pwr with ready := a, fault := b, therm := c } } = g t) (s : State) : g s.pins = g s := by
  unfold State.pins
  dsimp only
  exact (pwr _ _ _ _).trans ((State.drivePin_same out _ _ _ _).trans ((State.drivePin_same out _ _ _ _).trans (State.drivePin_same out _ _ _ _)))

theorem State.pins_rd (s : State) (a : Nat) : s.pins.rd a = s.rd a :=
  State.pins_same (g := fun t => t.rd a) (fun _ _ => rfl) (fun _ _ _ _ => rfl) s

theorem State.pins_get (s : State) (f : FieldRef) : s.pins.get f = s.get f := State.get_of_rd (s.pins_rd _)

theorem State.bedsyncLow_same {γ : Type} {g : State → γ} (out : ∀ (t : State) O, g { t with outbox := O } = g t)
    (bed : ∀ (t : State) b, g { t with pwr := { t.pwr with bedOut := b } } = g t) (s : State) : g s.bedsyncLow = g s := by
  unfold State.bedsyncLow
  split
  · exact (out _ _).trans (bed _ _)
  · rfl

/-- A compute domain without cores, Bays, partitions, jobs and ticks. -/
def State.cleared (s : State) : Prop := s.cores = [] ∧ s.bays = [] ∧ s.parts = [] ∧ s.job = none ∧ s.tick = 0

theorem State.clearCompute_cleared (s : State) : s.clearCompute.cleared := ⟨rfl, rfl, rfl, rfl, rfl⟩

theorem State.clearCompute_flash (s : State) : s.clearCompute.flash = s.flash := rfl

theorem State.cleared.set (h : s.cleared) (f : FieldRef) (v : Nat) : (s.set f v).cleared := h
theorem State.cleared.setOn (h : s.cleared) (f : FieldRef) (b : Bool) : (s.setOn f b).cleared := h
theorem State.cleared.setPwr (h : s.cleared) (f : Pwr → Pwr) : (s.setPwr f).cleared := h
theorem State.cleared.pins (h : s.cleared) : s.pins.cleared :=
  Eq.mpr (State.pins_same (g := State.cleared) (fun _ _ => rfl) (fun _ _ _ _ => rfl) _) h

theorem State.pins_flash (s : State) : s.pins.flash = s.flash := State.pins_same (g := State.flash) (fun _ _ => rfl) (fun _ _ _ _ => rfl) s

/-- The end of an ordered stop: phase 7, and nothing of the compute domains left (R499). -/
theorem State.finishStop_shows (s : State) :
    s.finishStop.get IDENT_BOOT_phase = 7 ∧ s.finishStop.get IDENT_BOOT_fail = 0 ∧ s.finishStop.cleared ∧ s.finishStop.flash = s.flash := by
  unfold State.finishStop
  dsimp only
  obtain ⟨v, hv⟩ : ∃ v, s.logAll.bedsyncLow.clearCompute = v := ⟨_, rfl⟩
  have hclear : v.cleared := hv ▸ State.clearCompute_cleared _
  have hflash : v.flash = s.flash := by
    rw [← hv, State.clearCompute_flash]
    refine ((State.bedsyncLow_same (g := State.flash) (fun _ _ => rfl) (fun _ _ => rfl) _).trans ?_)
    exact each_eq State.flash (fun r t => State.logRecord_same (g := State.flash) (fun _ _ _ => rfl) (fun _ _ _ => rfl) (fun _ _ => rfl) t r _) _ _
  rw [hv]
  obtain ⟨f, hf⟩ : ∃ f, (if s.pwr.stop = 1 then IDENT_RST_CAUSE_pwr_en else IDENT_RST_CAUSE_stop) = f := ⟨_, rfl⟩
  have hfa : f.addr = IDENT_RST_CAUSE := by
    rw [← hf]
    split <;> rfl
  rw [hf]
  obtain ⟨p, hp⟩ : ∃ p, v.setPhase 7 = p := ⟨_, rfl⟩
  have hp7 : p.get IDENT_BOOT_phase = 7 := hp ▸ State.get_set_of_lt _ 4 (by decide)
  have hpc : p.cleared ∧ p.flash = v.flash := by
    rw [← hp]
    exact ⟨hclear.set _ _, State.set_flash _ _ _⟩
  rw [hp]
  obtain ⟨q, hq⟩ : ∃ q, p.set IDENT_BOOT_fail 0 = q := ⟨_, rfl⟩
  have hq0 : q.get IDENT_BOOT_fail = 0 := hq ▸ State.get_set_of_lt _ 4 (by decide)
  have hq7 : q.get IDENT_BOOT_phase = 7 := by
    rw [← hq, State.get_set_apart]
    exact hp7
  have hqc : q.cleared ∧ q.flash = p.flash := by
    rw [← hq]
    exact ⟨hpc.1.set _ _, State.set_flash _ _ _⟩
  rw [hq]
  have hfr : q.frames (fun a => a = IDENT_RST_CAUSE ∨ a = PWR_STAT) ((q.setOn f true).setOn PWR_STAT_brake false) :=
    ((State.frames.refl _ q).setOn true (.inl hfa)).setOn false (.inr rfl)
  obtain ⟨w, hw⟩ : ∃ w, (q.setOn f true).setOn PWR_STAT_brake false = w := ⟨_, rfl⟩
  have hwc : w.cleared ∧ w.flash = q.flash := by
    rw [← hw, State.setOn_flash, State.setOn_flash]
    exact ⟨(hqc.1.setOn _ _).setOn _ _, rfl⟩
  rw [hw] at hfr ⊢
  obtain ⟨hwcl, hwf⟩ := hwc
  refine ⟨?_, ?_, ?_, ?_⟩
  · rw [State.pins_get]
    exact (hfr.get (by decide)).trans hq7
  · rw [State.pins_get]
    exact (hfr.get (by decide)).trans hq0
  · exact (hwcl.setPwr _).pins
  · exact (State.pins_flash _).trans (hwf.trans (hqc.2.trans (hpc.2.trans hflash)))

/-! ## The ordered stop -/

theorem State.computeUp_of_rd {t : State} (h : t.rd IDENT_BOOT = s.rd IDENT_BOOT) : t.computeUp = s.computeUp := by
  unfold State.computeUp State.phase
  rw [State.get_of_rd (f := IDENT_BOOT_phase) h, State.get_of_rd (f := IDENT_BOOT_fail) h]

/-- A stop has begun: the flag is set, the compute domains are still up, and flash is as it was. -/
def State.stopBegun (s t : State) : Prop := t.on PWR_STAT_stopping = true ∧ t.computeUp = s.computeUp ∧ t.flash = s.flash

theorem State.setPwr_rd (s : State) (f : Pwr → Pwr) (a : Nat) : (s.setPwr f).rd a = s.rd a := rfl

theorem State.stopBeats_frames (s : State) : s.frames beatWord (each (fun n (t : State) => t.stopPart n) (List.range 64) s) :=
  (State.frames.refl beatWord s).each fun _ hn _ ht => State.stopPart_frames ht (List.mem_range.1 hn)

theorem State.stopModule_rd {a : Nat} (h : ¬ beatWord a) (h' : a ∉ [SAGE_STAT, PWR_STAT, PWR_EVT]) (why : Nat) : (s.stopModule why).rd a = s.rd a := by
  cases hs : s.on PWR_STAT_stopping with
  | true =>
    unfold State.stopModule
    rw [if_pos hs]
  | false =>
    rw [State.stopModule_eq hs]
    rw [State.setPwr_rd, s.stopBits.stopBeats_frames a h]
    exact s.stopBits_shows.2.2.2 a h'

theorem State.stopBits_pwr (s : State) : s.stopBits.pwr = s.pwr := by
  unfold State.stopBits
  rw [State.setBit_pwr, State.setOn_pwr, State.setOn_pwr]

/-- What a stop of the module shows: the flag, the gate closed and why (R499). -/
theorem State.stopModule_shows (h : s.on PWR_STAT_stopping = false) (why : Nat) :
    (s.stopModule why).on PWR_STAT_stopping = true ∧ (s.stopModule why).on SAGE_STAT_gate_open = false ∧
      (s.stopModule why).on PWR_STAT_en = s.on PWR_STAT_en ∧ (s.stopModule why).pwr = { s.pwr with stop := why } := by
  rw [State.stopModule_eq h]
  obtain ⟨h1, h2, h3, -⟩ := s.stopBits_shows
  have hf := s.stopBits.stopBeats_frames
  have hp : (each (fun n (t : State) => t.stopPart n) (List.range 64) s.stopBits).pwr = s.pwr :=
    (each_eq State.pwr (fun n t => State.stopPart_same (g := State.pwr) (fun _ _ _ => rfl) (fun _ _ => rfl) (fun _ _ => rfl) t n) _ _).trans s.stopBits_pwr
  obtain ⟨v, hv⟩ : ∃ v, each (fun n (t : State) => t.stopPart n) (List.range 64) s.stopBits = v := ⟨_, rfl⟩
  rw [hv] at hf hp ⊢
  have hb : ∀ f : FieldRef, f.addr = PWR_STAT ∨ f.addr = SAGE_STAT → v.on f = s.stopBits.on f := fun f hfa => hf.on (by
    unfold beatWord
    rcases hfa with h | h <;> rw [h] <;> decide)
  refine ⟨(hb PWR_STAT_stopping (.inl rfl)).trans h1, (hb SAGE_STAT_gate_open (.inr rfl)).trans h2, (hb PWR_STAT_en (.inl rfl)).trans h3, ?_⟩
  show { v.pwr with stop := why } = _
  rw [hp]

theorem State.stopModule_flash (s : State) (why : Nat) : (s.stopModule why).flash = s.flash :=
  State.stopModule_same (g := State.flash) (fun _ _ _ => rfl) (fun _ _ _ => rfl) (fun _ _ => rfl) (fun _ _ => rfl) (fun _ _ => rfl) s why

theorem State.logRecord_flash (s : State) (r : Report) (resp : Nat) : (s.logRecord r resp).flash = s.flash :=
  State.logRecord_same (g := State.flash) (fun _ _ _ => rfl) (fun _ _ _ => rfl) (fun _ _ => rfl) s r resp

/-- A stop by a supply has begun, once the compute domains were up. -/
theorem State.supplyStop_begun (hup : s.computeUp = true) (cause : Nat) :
    s.stopBegun (if s.computeUp && !s.on PWR_STAT_stopping then (s.logSupply cause).stopModule 2 else s) := by
  rw [hup]
  cases hs : s.on PWR_STAT_stopping with
  | true => exact ⟨hs, rfl, rfl⟩
  | false =>
    rw [if_pos (by decide)]
    unfold State.logSupply
    have hf := s.logRecord_frames (r := ⟨12, s.tick, none, none, 72, none, cause, 9, false⟩) 9 (Nat.le_of_ble_eq_true rfl)
    have hfl := s.logRecord_flash ⟨12, s.tick, none, none, 72, none, cause, 9, false⟩ 9
    obtain ⟨v, hv⟩ : ∃ v, s.logRecord ⟨12, s.tick, none, none, 72, none, cause, 9, false⟩ 9 = v := ⟨_, rfl⟩
    rw [hv] at hf hfl ⊢
    have hvs : v.on PWR_STAT_stopping = false := (hf.on (by unfold logWord; decide)).trans hs
    refine ⟨(State.stopModule_shows hvs 2).1, State.computeUp_of_rd ?_, (v.stopModule_flash 2).trans hfl⟩
    rw [State.stopModule_rd (by unfold beatWord; decide) (by decide)]
    exact hf _ (by unfold logWord; decide)

/-- The ordered stop of causes 0 to 2 is the end of a stop that has begun (R499). -/
theorem State.orderedStop_finishes {cause : Nat} (hc : cause < 3) (hup : s.computeUp = true)
    (h0 : cause = 0 → s.on PWR_STAT_stopping = true) : ∃ u : State, s.orderedStop cause = u.finishStop ∧ u.flash = s.flash := by
  unfold State.orderedStop
  interval_cases cause
  · dsimp only
    rw [hup, h0 rfl]
    exact ⟨s, rfl, rfl⟩
  · dsimp only
    obtain ⟨h1, h2, h3⟩ := State.supplyStop_begun hup 1
    obtain ⟨v, hv⟩ : ∃ v, (if s.computeUp && !s.on PWR_STAT_stopping then (s.logSupply 1).stopModule 2 else s) = v := ⟨_, rfl⟩
    rw [hv] at h1 h2 h3 ⊢
    obtain ⟨w, hw⟩ : ∃ w, v.setPwr (fun p => { p with main := false }) = w := ⟨_, rfl⟩
    have hwc : w.ctl = v.ctl := by rw [← hw]; rfl
    have hwf : w.flash = v.flash := by rw [← hw]; rfl
    rw [hw]
    have hfr : w.frames (fun a => a = PWR_STAT) (w.setOn PWR_STAT_main_valid false) := (State.frames.refl _ w).setOn false rfl
    have hon : (w.setOn PWR_STAT_main_valid false).on PWR_STAT_stopping = true := by
      have := State.get_setOn_apart w (f := PWR_STAT_main_valid) (g := PWR_STAT_stopping) false
      unfold State.on at h1 ⊢
      rw [this, State.get_of_ctl _ hwc]
      exact h1
    have hcu : (w.setOn PWR_STAT_main_valid false).computeUp = true := by
      rw [State.computeUp_of_rd (s := v), h2, hup]
      refine (hfr _ (by decide)).trans ?_
      unfold State.rd
      rw [hwc]
    rw [hon, hcu]
    exact ⟨_, rfl, (State.setOn_flash _ _ _).trans (hwf.trans h3)⟩
  · dsimp only
    obtain ⟨h1, h2, h3⟩ := State.supplyStop_begun hup 2
    obtain ⟨v, hv⟩ : ∃ v, (if s.computeUp && !s.on PWR_STAT_stopping then (s.logSupply 2).stopModule 2 else s) = v := ⟨_, rfl⟩
    rw [hv] at h1 h2 h3 ⊢
    rw [h1, h2, hup]
    exact ⟨v, rfl, h3⟩

end Clear

/-! ## Power-up -/

section PowerUp

variable {s : State}

/-- A domain powered at the start (R502). -/
def State.dieUp (s : State) (d : Nat) : State := (s.setOn (DIE_PWR_CTL_compute d) true).set (DIE_PWR_STAT_state d) 2

theorem State.dieUp_shows (s : State) (d : Nat) :
    (s.dieUp d).get (DIE_PWR_CTL_compute d) = 1 ∧ (s.dieUp d).get (DIE_PWR_STAT_state d) = 2 ∧
      s.frames (fun a => a = DIE_PWR_CTL d ∨ a = DIE_PWR_STAT d) (s.dieUp d) := by
  unfold State.dieUp
  obtain ⟨v, hv⟩ : ∃ v, s.setOn (DIE_PWR_CTL_compute d) true = v := ⟨_, rfl⟩
  have h1 : v.get (DIE_PWR_CTL_compute d) = 1 := hv ▸ State.get_setOn _ true
  have hf : s.frames (fun a => a = DIE_PWR_CTL d ∨ a = DIE_PWR_STAT d) v := hv ▸ (State.frames.refl _ s).setOn true (.inl rfl)
  rw [hv]
  refine ⟨?_, State.get_set_of_lt _ 4 (by decide), hf.set _ (.inr rfl)⟩
  rw [State.get_set_addr]
  · exact h1
  · show DIE_PWR_CTL d ≠ DIE_PWR_STAT d
    unfold DIE_PWR_CTL DIE_PWR_STAT
    omega

/-- The domains of the list that may be powered are, and nothing else of a die's words is written. -/
theorem State.diesUp_shows (ok : Nat → Bool) (l : List Nat) (s : State) :
    s.frames (fun a => 0x1000000 ≤ a) (each (fun d (t : State) => if ok d then t.dieUp d else t) l s) ∧
      ∀ d, ok d = true → (d ∈ l ∨ s.get (DIE_PWR_CTL_compute d) = 1 ∧ s.get (DIE_PWR_STAT_state d) = 2) →
        (each (fun d (t : State) => if ok d then t.dieUp d else t) l s).get (DIE_PWR_CTL_compute d) = 1 ∧
          (each (fun d (t : State) => if ok d then t.dieUp d else t) l s).get (DIE_PWR_STAT_state d) = 2 := by
  induction l generalizing s with
  | nil => exact ⟨State.frames.refl _ _, fun d _ h => h.resolve_left List.not_mem_nil⟩
  | cons e l ih =>
    obtain ⟨hc, hs, hf⟩ := s.dieUp_shows e
    have hstep : s.frames (fun a => 0x1000000 ≤ a) (if ok e = true then s.dieUp e else s) :=
      .ite (hf.weaken fun a ha => by unfold DIE_PWR_CTL DIE_PWR_STAT at ha; omega) (.refl _ _)
    obtain ⟨ih1, ih2⟩ := ih (if ok e = true then s.dieUp e else s)
    refine ⟨hstep.trans ih1, fun d hd h => ih2 d hd ?_⟩
    by_cases he : d = e
    · subst he
      rw [if_pos hd]
      exact .inr ⟨hc, hs⟩
    · rcases h with h | ⟨h1, h2⟩
      · exact .inl ((List.mem_cons.1 h).resolve_left he)
      · refine .inr ?_
        split
        · rw [hf.get (f := DIE_PWR_CTL_compute d), hf.get (f := DIE_PWR_STAT_state d)]
          · exact ⟨h1, h2⟩
          · show ¬ (DIE_PWR_STAT d = DIE_PWR_CTL e ∨ DIE_PWR_STAT d = DIE_PWR_STAT e)
            unfold DIE_PWR_CTL DIE_PWR_STAT
            omega
          · show ¬ (DIE_PWR_CTL d = DIE_PWR_CTL e ∨ DIE_PWR_CTL d = DIE_PWR_STAT e)
            unfold DIE_PWR_CTL DIE_PWR_STAT
            omega
        · exact ⟨h1, h2⟩

/-- The state before the domains are powered: the compute domains clear, phase 3 (R514, R519). -/
def State.upBase (s : State) : State :=
  (((s.clearCompute.setPhase 3).setOn PWR_STAT_stopping false).set IDENT_BOOT_MS_compute 0xFFFF).setPwr (fun p => { p with stop := 0 })

theorem State.upBase_shows (s : State) :
    s.upBase.get IDENT_BOOT_phase = 3 ∧ s.upBase.pwr.stop = 0 ∧ s.upBase.cores = [] ∧ s.upBase.parts = [] ∧ s.upBase.flash = s.flash := by
  unfold State.upBase
  obtain ⟨v, hv⟩ : ∃ v, s.clearCompute = v := ⟨_, rfl⟩
  have hc : v.cores = [] ∧ v.parts = [] ∧ v.flash = s.flash := by
    rw [← hv]
    exact ⟨rfl, rfl, rfl⟩
  rw [hv]
  obtain ⟨p, hp⟩ : ∃ p, v.setPhase 3 = p := ⟨_, rfl⟩
  have h3 : p.get IDENT_BOOT_phase = 3 := hp ▸ State.get_set_of_lt _ 4 (by decide)
  have hpc : p.cores = v.cores ∧ p.parts = v.parts ∧ p.flash = v.flash := by
    rw [← hp]
    exact ⟨State.set_cores _ _ _, State.set_parts _ _ _, State.set_flash _ _ _⟩
  rw [hp]
  have hf : p.frames (fun a => a = PWR_STAT ∨ a = IDENT_BOOT_MS) ((p.setOn PWR_STAT_stopping false).set IDENT_BOOT_MS_compute 0xFFFF) :=
    ((State.frames.refl _ p).setOn false (.inl rfl)).set _ (.inr rfl)
  obtain ⟨w, hw⟩ : ∃ w, (p.setOn PWR_STAT_stopping false).set IDENT_BOOT_MS_compute 0xFFFF = w := ⟨_, rfl⟩
  have hwc : w.cores = p.cores ∧ w.parts = p.parts ∧ w.flash = p.flash := by
    rw [← hw, State.set_cores, State.set_parts, State.set_flash, State.setOn_cores, State.setOn_parts, State.setOn_flash]
    exact ⟨rfl, rfl, rfl⟩
  rw [hw] at hf ⊢
  exact ⟨(hf.get (by decide)).trans h3, rfl, hwc.1.trans (hpc.1.trans hc.1), hwc.2.1.trans (hpc.2.1.trans hc.2.1),
    hwc.2.2.trans (hpc.2.2.trans hc.2.2)⟩

/-- The dies whose flags let them be powered. -/
def State.maybeUp (s : State) (d : Nat) : Bool := s.inv.any (fun v => (v.dieFlag d).testBit 0 && (v.dieFlag d).testBit 1)

theorem State.powerUp_eq (h : s.mayPowerUp = true) :
    s.powerUp = (each (fun d (t : State) => if s.maybeUp d then t.dieUp d else t) (List.range 72) s.upBase).pins := by
  unfold State.powerUp State.maybeUp State.dieUp State.upBase
  rw [if_pos h]

theorem State.diesUp_same {γ : Type} {g : State → γ} (wr : ∀ (t : State) a w, g (t.wr a w) = g t) (ok : Nat → Bool) (l : List Nat) (s : State) :
    g (each (fun d (t : State) => if ok d then t.dieUp d else t) l s) = g s :=
  each_eq g (fun d t => by
    split
    · exact (wr _ _ _).trans (wr _ _ _)
    · rfl) l s

/-- A power-up: phase 3, the compute domains clear, the dies of the record powered (R502, R514). -/
theorem State.powerUp_shows (h : s.mayPowerUp = true) :
    s.powerUp.get IDENT_BOOT_phase = 3 ∧ s.powerUp.pwr.stop = 0 ∧ s.powerUp.cores = [] ∧ s.powerUp.parts = [] ∧ s.powerUp.flash = s.flash ∧
      ∀ d v, d < 72 → s.inv = some v → (v.dieFlag d).testBit 0 = true → (v.dieFlag d).testBit 1 = true →
        s.powerUp.get (DIE_PWR_CTL_compute d) = 1 ∧ s.powerUp.get (DIE_PWR_STAT_state d) = 2 := by
  rw [State.powerUp_eq h]
  obtain ⟨h3, hstop, hcores, hparts, hflash⟩ := s.upBase_shows
  obtain ⟨hf, hd⟩ := State.diesUp_shows s.maybeUp (List.range 72) s.upBase
  have hpwr := State.diesUp_same (g := State.pwr) (fun _ _ _ => rfl) s.maybeUp (List.range 72) s.upBase
  have hc := State.diesUp_same (g := State.cores) (fun _ _ _ => rfl) s.maybeUp (List.range 72) s.upBase
  have hp := State.diesUp_same (g := State.parts) (fun _ _ _ => rfl) s.maybeUp (List.range 72) s.upBase
  have hfl := State.diesUp_same (g := State.flash) (fun _ _ _ => rfl) s.maybeUp (List.range 72) s.upBase
  obtain ⟨w, hw⟩ : ∃ w, each (fun d (t : State) => if s.maybeUp d then t.dieUp d else t) (List.range 72) s.upBase = w := ⟨_, rfl⟩
  rw [hw] at hf hd hpwr hc hp hfl ⊢
  refine ⟨?_, ?_, ?_, ?_, (State.pins_flash _).trans (hfl.trans hflash), fun d v hd72 hv h0 h1 => ?_⟩
  · rw [State.pins_get]
    exact (hf.get (by decide)).trans h3
  · rw [State.pins_same (g := fun t => t.pwr.stop) (fun _ _ => rfl) (fun _ _ _ _ => rfl), hpwr]
    exact hstop
  · rw [State.pins_same (g := State.cores) (fun _ _ => rfl) (fun _ _ _ _ => rfl), hc]
    exact hcores
  · rw [State.pins_same (g := State.parts) (fun _ _ => rfl) (fun _ _ _ _ => rfl), hp]
    exact hparts
  · rw [State.pins_get, State.pins_get]
    refine hd d ?_ (.inl (List.mem_range.2 hd72))
    unfold State.maybeUp
    rw [hv, Option.any_some, h0, h1]
    rfl

/-! ## Flags of dies -/

theorem State.dieLeaves_pwr (s : State) (n d : Nat) : (s.dieLeaves n d).pwr = s.pwr := by
  unfold State.dieLeaves
  dsimp only
  split
  · rw [State.set_pwr, State.set_pwr, State.onPart_pwr]
  · rw [State.setOn_pwr, State.onPart_pwr]

/-- A powered die that is flagged: the greater cause, and since when (R501). -/
theorem State.flagDie_flags {d : Nat} (h : s.railsOn d = true) (cause : Nat) :
    ((s.flagDie d cause).die d).cause = max (s.die d).cause cause ∧ ((s.flagDie d cause).die d).flagged.isSome = true := by
  unfold State.flagDie
  rw [h]
  dsimp only
  rw [if_neg (by decide)]
  generalize (if max (s.die d).cause cause = 5 then 5 else 3) = st
  obtain ⟨u, hu⟩ : ∃ u, (s.set (DIE_PWR_STAT_state d) st).setBit (DIE_PWR_STAT d) 1 = u := ⟨_, rfl⟩
  have hup : u.pwr = s.pwr := by rw [← hu, State.setBit_pwr, State.set_pwr]
  rw [hu]
  obtain ⟨v, hv⟩ : ∃ v, (if cause = 5 then u.setBit (DIE_PWR_STAT d) 4 else u) = v := ⟨_, rfl⟩
  have hvp : v.pwr = s.pwr := by
    rw [← hv]
    split
    · rw [State.setBit_pwr, hup]
    · exact hup
  rw [hv]
  obtain ⟨w, hw⟩ : ∃ w, v.onDie d (fun y => { y with cause := max (s.die d).cause cause, flagged := some (y.flagged.getD s.tick) }) = w := ⟨_, rfl⟩
  have hwd : (w.die d).cause = max (s.die d).cause cause ∧ (w.die d).flagged.isSome = true := by
    have hd : w.die d = { v.die d with cause := max (s.die d).cause cause, flagged := some ((v.die d).flagged.getD s.tick) } := by
      rw [← hw]
      exact (lookupD_put ..).trans (if_pos rfl)
    rw [hd]
    exact ⟨rfl, rfl⟩
  rw [hw]
  split
  · exact hwd
  · have he : (each (fun n (t : State) => t.dieLeaves n d) (w.partsOn d) w).die d = w.die d := by
      unfold State.die
      rw [each_eq State.pwr (fun n t => t.dieLeaves_pwr n d)]
    rw [he]
    exact hwd

/-- A die flagged after its record in the fault log. -/
theorem State.logged_flags {d : Nat} (hd : d < 72) (h : s.railsOn d = true) {r : Report} (hr : r.cls < 16) (resp cause : Nat) :
    (((s.logRecord r resp).flagDie d cause).die d).cause = max (s.die d).cause cause ∧
      (((s.logRecord r resp).flagDie d cause).die d).flagged.isSome = true := by
  have hf := s.logRecord_frames resp hr
  have hp : (s.logRecord r resp).pwr = s.pwr :=
    State.logRecord_same (g := State.pwr) (fun _ _ _ => rfl) (fun _ _ _ => rfl) (fun _ _ => rfl) s r resp
  obtain ⟨v, hv⟩ : ∃ v, s.logRecord r resp = v := ⟨_, rfl⟩
  rw [hv] at hf hp ⊢
  have hdie : v.die d = s.die d := by
    unfold State.die
    rw [hp]
  rw [← hdie]
  refine State.flagDie_flags ?_ cause
  unfold State.railsOn at h ⊢
  rw [hf.on]
  · exact h
  · show ¬ logWord (DIE_PWR_CTL d)
    unfold logWord DIE_PWR_CTL
    omega

/-- A stop of the module after its record in the fault log. -/
theorem State.logged_stops (h : s.on PWR_STAT_stopping = false) {r : Report} (hr : r.cls < 16) (resp why : Nat) :
    ((s.logRecord r resp).stopModule why).on PWR_STAT_stopping = true ∧ ((s.logRecord r resp).stopModule why).pwr.stop = why := by
  have hf := s.logRecord_frames resp hr
  obtain ⟨v, hv⟩ : ∃ v, s.logRecord r resp = v := ⟨_, rfl⟩
  rw [hv] at hf ⊢
  obtain ⟨h1, -, -, h4⟩ := State.stopModule_shows ((hf.on (by unfold logWord; decide)).trans h) why
  exact ⟨h1, by rw [h4]⟩

/-! ## The brake -/

theorem State.holdAll_get (l : List Nat) :
    ∀ (s : State) (n : Nat), n ∈ l ∨ s.get (BEAT_PLAN_CTL_hold n) = 1 →
      (each (fun n (t : State) => t.holdSet n) l s).get (BEAT_PLAN_CTL_hold n) = 1 := by
  induction l with
  | nil => exact fun s n h => h.resolve_left List.not_mem_nil
  | cons m l ih =>
    intro s n h
    refine ih (s.holdSet m) n ?_
    by_cases he : n = m
    · subst he
      exact .inr (State.get_setOn _ true)
    · refine h.imp (fun h => (List.mem_cons.1 h).resolve_left he) fun h => ?_
      unfold State.holdSet State.setOn
      rw [State.get_set_addr]
      · exact h
      · show BEAT_PLAN_CTL n ≠ BEAT_PLAN_CTL m
        unfold BEAT_PLAN_CTL
        omega

theorem State.holdAll_frames {l : List Nat} (hl : ∀ n ∈ l, n < 64) (s : State) :
    s.frames beatWord (each (fun n (t : State) => t.holdSet n) l s) :=
  (State.frames.refl _ s).each fun n hn t ht => ht.setOn true (by
    have := hl n hn
    show beatWord (BEAT_PLAN_CTL n)
    unfold beatWord BEAT_PLAN_CTL
    omega)

/-- The first brake holds every active partition and is counted (R507). -/
theorem State.brake_shows (hup : s.computeUp = true) (hs : s.on PWR_STAT_stopping = false) (hb : s.on PWR_STAT_brake = false) :
    s.brake.get PWR_STAT_brake = 1 ∧ s.brake.bitOn PWR_EVT 6 = true ∧
      s.brake.get PWR_BRAKE_CNT_count = satAdd PWR_BRAKE_CNT_count.len (s.get PWR_BRAKE_CNT_count) 1 ∧
      (∀ n, n < 64 → s.on (BEAT_PLAN_CTL_active n) = true → s.brake.get (BEAT_PLAN_CTL_hold n) = 1) ∧ s.brake.cores = s.cores := by
  unfold State.brake
  dsimp only
  rw [if_neg (by rw [hup, hs]; decide), if_neg (by rw [hb]; decide)]
  obtain ⟨ns, hns⟩ : ∃ ns, (List.range 64).filter (fun n => s.on (BEAT_PLAN_CTL_active n)) = ns := ⟨_, rfl⟩
  have hlt : ∀ n ∈ ns, n < 64 := fun n hn => by
    rw [← hns] at hn
    exact List.mem_range.1 (List.mem_of_mem_filter hn)
  have hmem : ∀ n, n < 64 → s.on (BEAT_PLAN_CTL_active n) = true → n ∈ ns := fun n hn ha => by
    rw [← hns]
    exact List.mem_filter.2 ⟨List.mem_range.2 hn, ha⟩
  rw [hns]
  have hf := State.holdAll_frames hlt s
  have hh := fun n h => State.holdAll_get ns s n (.inl h)
  have hc : (each (fun n (t : State) => t.holdSet n) ns s).cores = s.cores := each_eq State.cores (fun n t => t.setOn_cores (BEAT_PLAN_CTL_hold n) true) ns s
  obtain ⟨v, hv⟩ : ∃ v, each (fun n (t : State) => t.holdSet n) ns s = v := ⟨_, rfl⟩
  rw [hv] at hf hh hc ⊢
  obtain ⟨w, hw⟩ : ∃ w, v.setPwr (fun p => { p with braked := ns }) = w := ⟨_, rfl⟩
  have hwc : w.ctl = v.ctl ∧ w.cores = v.cores := by
    rw [← hw]
    exact ⟨rfl, rfl⟩
  rw [hw]
  obtain ⟨x, hx⟩ : ∃ x, w.setOn PWR_STAT_brake true = x := ⟨_, rfl⟩
  have hx1 : x.get PWR_STAT_brake = 1 := hx ▸ State.get_setOn _ true
  have hxf : w.frames (fun a => a = PWR_STAT) x := hx ▸ (State.frames.refl _ w).setOn true rfl
  have hxc : x.cores = w.cores := by rw [← hx, State.setOn_cores]
  rw [hx]
  obtain ⟨y, hy⟩ : ∃ y, x.bump PWR_BRAKE_CNT_count 1 = y := ⟨_, rfl⟩
  have hy1 : y.get PWR_BRAKE_CNT_count = satAdd PWR_BRAKE_CNT_count.len (x.get PWR_BRAKE_CNT_count) 1 := hy ▸ State.get_bump _ 1
  have hyf : x.frames (fun a => a = PWR_BRAKE_CNT) y := hy ▸ (State.frames.refl _ x).bump 1 rfl
  have hyc : y.cores = x.cores := by rw [← hy, State.bump_cores]
  rw [hy]
  have hz : y.frames (fun a => a = PWR_EVT) (y.setBit PWR_EVT 6) := (State.frames.refl _ y).setBit 6 rfl
  refine ⟨?_, State.setBit_bitOn_same y _ (by decide), ?_, fun n hn ha => ?_, ?_⟩
  · rw [hz.get (by decide), hyf.get (by decide)]
    exact hx1
  · rw [hz.get (by decide), hy1, hxf.get (by decide), State.get_of_ctl _ hwc.1, hf.get (by unfold beatWord; decide)]
  · have hne : ∀ a, 0x40000 ≤ a → (BEAT_PLAN_CTL_hold n).addr ≠ a := fun a ha => by
      show BEAT_PLAN_CTL n ≠ a
      unfold BEAT_PLAN_CTL
      omega
    rw [hz.get (hne _ (by decide)), hyf.get (hne _ (by decide)), hxf.get (hne _ (by decide)), State.get_of_ctl _ hwc.1]
    exact hh n (hmem n hn ha)
  · rw [State.setBit_cores, hyc, hxc, hwc.2, hc]

end PowerUp

/-! ## Supplies and the island's reset -/

section Island

variable {s : State}

/-- The state of the island before its registers are loaded (R519). -/
def State.islandBase (s : State) : State :=
  { State.reset with
    pending := s.pending
    outbox := ((((s.drivePin "MOD_READY_N" s.pwr.ready false).drivePin "MOD_FAULT_N" s.pwr.fault false).drivePin "THERM_WARN_N"
      s.pwr.therm false).bedsyncLow).outbox
    oracle := s.oracle, cycle := s.cycle, flash := s.flash, jtag := s.jtag, evc := { Evc.reset with pinIn := s.evc.pinIn }
    pwr := { Pwr.reset with main := s.pwr.main, aux := s.pwr.aux, en := s.pwr.en, inhibit := s.pwr.inhibit, armed := true } }

theorem State.islandBase_shows (s : State) :
    s.islandBase.ctl = State.reset.ctl ∧ s.islandBase.flash = s.flash ∧ s.islandBase.cores = [] ∧ s.islandBase.parts = [] ∧
      s.islandBase.inv = none ∧ s.islandBase.pwr.aux = s.pwr.aux ∧ s.islandBase.pwr.main = s.pwr.main := ⟨rfl, rfl, rfl, rfl, rfl, rfl, rfl⟩

/-- The levels of the power inputs as the island shows them. -/
def State.showInputs (s : State) (p : Pwr) : State :=
  (((s.setOn PWR_STAT_main_valid p.main).setOn PWR_STAT_aux_valid p.aux).setOn PWR_STAT_en p.en).setOn PWR_STAT_nv_inhibit p.inhibit

theorem State.islandReset_eq (s : State) (pin pres : Bool) :
    s.islandReset pin pres = (((s.islandBase.showInputs s.pwr).raise (if pin then IDENT_RST_CAUSE_pin else IDENT_RST_CAUSE_por)).setOn
      LINK_HB_CTL_bridge pres).set FWU_STAT_floor s.flash.floor := rfl

theorem State.islandReset_same {γ : Type} {g : State → γ} (wr : ∀ (t : State) a w, g (t.wr a w) = g t)
    (strike : ∀ (t : State) a f, g (t.strike a f) = g t) (s : State) (pin pres : Bool) : g (s.islandReset pin pres) = g s.islandBase := by
  have hraise : ∀ (t : State) f, g (t.raise f) = g t := fun t f => (strike _ _ _).trans (wr _ _ _)
  have hin : ∀ (t : State) p, g (t.showInputs p) = g t := fun t p => (wr _ _ _).trans ((wr _ _ _).trans ((wr _ _ _).trans (wr _ _ _)))
  rw [State.islandReset_eq]
  exact (wr _ _ _).trans ((wr _ _ _).trans ((hraise _ _).trans (hin _ _)))

/-- The island after its reset: phase 0, the cause shown, the bridge pin loaded, flash kept (R519, R520). -/
theorem State.islandReset_shows (s : State) (pin pres : Bool) :
    (s.islandReset pin pres).get IDENT_BOOT_phase = 0 ∧ (s.islandReset pin pres).on IDENT_RST_CAUSE_pin = pin ∧
      (s.islandReset pin pres).on IDENT_RST_CAUSE_por = !pin ∧ (s.islandReset pin pres).on LINK_HB_CTL_bridge = pres := by
  rw [State.islandReset_eq]
  have hb : s.islandBase.ctl = State.reset.ctl := s.islandBase_shows.1
  obtain ⟨b, hbe⟩ : ∃ b, s.islandBase = b := ⟨_, rfl⟩
  rw [hbe] at hb ⊢
  have hu : b.frames (fun a => a = PWR_STAT) (b.showInputs s.pwr) := by
    unfold State.showInputs
    have h0 := State.frames.refl (fun a => a = PWR_STAT) b
    have h1 := h0.setOn (f := PWR_STAT_main_valid) s.pwr.main rfl
    have h2 := h1.setOn (f := PWR_STAT_aux_valid) s.pwr.aux rfl
    have h3 := h2.setOn (f := PWR_STAT_en) s.pwr.en rfl
    exact h3.setOn s.pwr.inhibit rfl
  obtain ⟨u, hue⟩ : ∃ u, b.showInputs s.pwr = u := ⟨_, rfl⟩
  rw [hue] at hu ⊢
  have hreset : ∀ f : FieldRef, f.addr ≠ PWR_STAT → u.get f = State.reset.get f := fun f hf => (hu.get hf).trans (State.get_of_ctl _ hb f)
  obtain ⟨f, hf⟩ : ∃ f, (if pin then IDENT_RST_CAUSE_pin else IDENT_RST_CAUSE_por) = f := ⟨_, rfl⟩
  rw [hf]
  obtain ⟨v, hv⟩ : ∃ v, u.raise f = v := ⟨_, rfl⟩
  have hfa : f.addr = IDENT_RST_CAUSE := by
    rw [← hf]
    split <;> rfl
  have hvf : u.frames (fun a => a = IDENT_RST_CAUSE) v := hv ▸ (State.frames.refl _ u).raise hfa
  have hcause : v.on IDENT_RST_CAUSE_pin = pin ∧ v.on IDENT_RST_CAUSE_por = !pin := by
    rw [← hv, ← hf]
    unfold State.on
    cases pin with
    | true =>
      rw [if_pos rfl, State.get_raise, State.get_raise_apart, hreset _ (by decide)]
      decide
    | false =>
      rw [if_neg (by decide), State.get_raise, State.get_raise_apart, hreset _ (by decide)]
      decide
  rw [hv]
  obtain ⟨w, hw⟩ : ∃ w, v.setOn LINK_HB_CTL_bridge pres = w := ⟨_, rfl⟩
  have hwb : w.on LINK_HB_CTL_bridge = pres := by
    rw [← hw]
    unfold State.on
    rw [State.get_setOn]
    cases pres <;> rfl
  have hwf : v.frames (fun a => a = LINK_HB_CTL) w := hw ▸ (State.frames.refl _ v).setOn pres rfl
  rw [hw]
  have hx : w.frames (fun a => a = FWU_STAT) (w.set FWU_STAT_floor s.flash.floor) := (State.frames.refl _ w).set _ rfl
  refine ⟨?_, ?_, ?_, ?_⟩
  · rw [hx.get (by decide), hwf.get (by decide), hvf.get (by decide), hreset _ (by decide)]
    decide
  · rw [hx.on (by decide), hwf.on (by decide)]
    exact hcause.1
  · rw [hx.on (by decide), hwf.on (by decide)]
    exact hcause.2
  · rw [hx.on (by decide)]
    exact hwb

/-! ## Non-volatile writes that waited -/

theorem State.pausePorts_same {γ : Type} {g : State → γ} (out : ∀ (t : State) O, g { t with outbox := O } = g t) (s : State) (b : Bool) :
    g (s.pausePorts b) = g s :=
  each_eq g (fun _ _ => each_eq g (fun _ u => out u _) _ _) _ _

/-- Words of the firmware block, of the beat block and of IDENT. -/
def nvWord (a : Nat) : Prop := a < 0x20000 ∨ 0x50000 ≤ a ∧ a < 0x60000

theorem State.fwShow_frames {t : State} (h : s.frames nvWord t) : s.frames nvWord t.fwShow := by
  have h1 : ∀ a : Nat, a = FWU_STAT ∨ a = IDENT_BOOT ∨ a = FWU_INACT_VER ∨ a = FWU_INACT_INFO → nvWord a := by
    rintro a (rfl | rfl | rfl | rfl) <;> (unfold nvWord; decide)
  unfold State.fwShow
  exact ((((((h.set _ (h1 _ (.inl rfl))).set _ (h1 _ (.inl rfl))).setOn _ (h1 _ (.inl rfl))).set _ (h1 _ (.inr (.inl rfl)))).set _
    (h1 _ (.inr (.inr (.inl rfl))))).set _ (h1 _ (.inr (.inr (.inr rfl))))).set _ (h1 _ (.inr (.inr (.inr rfl))))

theorem State.storeSettings_frames {t : State} (h : s.frames nvWord t) : s.frames nvWord t.storeSettings := by
  unfold State.storeSettings
  split
  · exact h.setOn true (by unfold nvWord; decide)
  · exact h.of_ctl rfl

theorem State.fwShow_same {γ : Type} {g : State → γ} (wr : ∀ (t : State) a w, g (t.wr a w) = g t) (s : State) : g s.fwShow = g s := by
  unfold State.fwShow
  exact (wr _ _ _).trans ((wr _ _ _).trans ((wr _ _ _).trans ((wr _ _ _).trans ((wr _ _ _).trans ((wr _ _ _).trans (wr _ _ _))))))

theorem State.confirmWrites_shows (s : State) :
    s.frames nvWord s.confirmWrites ∧ s.confirmWrites.flash.settings = s.flash.settings ∧ s.confirmWrites.pwr = s.pwr := by
  unfold State.confirmWrites
  dsimp only
  obtain ⟨v, hv⟩ : ∃ v : State, (s.setFlash (fun f => { f with
      confirmed := s.fw.running, provisional := none
      floor := max s.flash.floor (min 64 (((s.flash.bank s.fw.running).map (·.rollback)).getD 0)), older := none })).setFw (fun f =>
    { f with confirmWaits := false }) = v := ⟨_, rfl⟩
  have hs : v.flash.settings = s.flash.settings ∧ v.pwr = s.pwr ∧ v.ctl = s.ctl := by
    rw [← hv]
    exact ⟨rfl, rfl, rfl⟩
  rw [hv]
  refine ⟨State.fwShow_frames ((State.frames.refl nvWord s).of_ctl hs.2.2), ?_, ?_⟩
  · rw [State.fwShow_same (g := State.flash) (fun _ _ _ => rfl)]
    exact hs.1
  · rw [State.fwShow_same (g := State.pwr) (fun _ _ _ => rfl)]
    exact hs.2.1

theorem State.pauseBegin_shows (s : State) :
    s.frames nvWord s.pauseBegin ∧ s.pauseBegin.flash = s.flash ∧ s.pauseBegin.pwr = s.pwr := by
  have hf : s.frames nvWord (each (fun n (t : State) => if t.on (BEAT_PLAN_CTL_active n) then t.holdSet n else t) (List.range 64) s) :=
    (State.frames.refl _ s).each fun n hn t ht => .ite (ht.setOn true (by
      have := List.mem_range.1 hn
      show nvWord (BEAT_PLAN_CTL n)
      unfold nvWord BEAT_PLAN_CTL
      omega)) ht
  have hs : ∀ {γ : Type} (g : State → γ), (∀ (t : State) a w, g (t.wr a w) = g t) →
      g (each (fun n (t : State) => if t.on (BEAT_PLAN_CTL_active n) then t.holdSet n else t) (List.range 64) s) = g s := fun g wr =>
    each_eq g (fun n t => by
      split
      · exact wr _ _ _
      · rfl) _ _
  have h1 := hs State.flash fun _ _ _ => rfl
  have h2 := hs State.pwr fun _ _ _ => rfl
  unfold State.pauseBegin
  dsimp only
  obtain ⟨v, hv⟩ : ∃ v, each (fun n (t : State) => if t.on (BEAT_PLAN_CTL_active n) then t.holdSet n else t) (List.range 64) s = v := ⟨_, rfl⟩
  rw [hv] at hf h1 h2 ⊢
  refine ⟨fun a ha => ?_, ?_, ?_⟩
  · rw [State.pausePorts_same (g := fun t => t.rd a) fun _ _ => rfl]
    exact hf a ha
  · rw [State.pausePorts_same (g := State.flash) fun _ _ => rfl]
    exact h1
  · rw [State.pausePorts_same (g := State.pwr) fun _ _ => rfl]
    exact h2

theorem State.bootRecord_shows (h : s.pwr.inhibit = false) (a : Activation) :
    s.frames nvWord (s.bootRecord a) ∧ (s.bootRecord a).flash.settings = s.flash.settings ∧ (s.bootRecord a).pwr = s.pwr := by
  unfold State.bootRecord
  rw [if_neg (by rw [h]; decide)]
  obtain ⟨v, hv⟩ : ∃ v : State, (s.setFlash (fun f => { f with provisional := if a.back then none else some a.target })).setFw (fun f =>
    { f with act := some a }) = v := ⟨_, rfl⟩
  have hs : v.flash.settings = s.flash.settings ∧ v.pwr = s.pwr ∧ v.ctl = s.ctl := by
    rw [← hv]
    exact ⟨rfl, rfl, rfl⟩
  rw [hv]
  obtain ⟨h1, h2, h3⟩ := v.pauseBegin_shows
  exact ⟨((State.frames.refl nvWord s).of_ctl hs.2.2).trans h1, by rw [h2]; exact hs.1, h3.trans hs.2.1⟩

/-- The writes that waited store the settings in memory (R498). -/
theorem State.nvRun_shows (h : s.pwr.inhibit = false) :
    s.frames nvWord s.nvRun ∧ s.nvRun.flash.settings = s.fw.settings ∧ s.nvRun.pwr = s.pwr := by
  unfold State.nvRun
  dsimp only
  obtain ⟨u, hu⟩ : ∃ u, s.setOn FWU_STAT_nv_wait false = u := ⟨_, rfl⟩
  have huf : s.frames nvWord u := hu ▸ (State.frames.refl _ s).setOn false (by unfold nvWord; decide)
  have hup : u.pwr = s.pwr ∧ u.fw = s.fw := by
    rw [← hu, State.setOn_pwr, State.setOn_fw]
    exact ⟨rfl, rfl⟩
  rw [hu]
  have hvf := State.storeSettings_frames huf
  have hvs : u.storeSettings.flash.settings = s.fw.settings := by
    rw [State.storeSettings_free (by rw [hup.1]; exact h), hup.2]
  have hvp : u.storeSettings.pwr = s.pwr := (State.storeSettings_same (g := State.pwr) (fun _ _ _ => rfl) (fun _ _ => rfl) u).trans hup.1
  obtain ⟨v, hv⟩ : ∃ v, u.storeSettings = v := ⟨_, rfl⟩
  rw [hv] at hvf hvs hvp ⊢
  obtain ⟨w, hw⟩ : ∃ w, (if v.fw.confirmWaits = true then v.confirmWrites else v) = w := ⟨_, rfl⟩
  have hws : s.frames nvWord w ∧ w.flash.settings = s.fw.settings ∧ w.pwr = s.pwr := by
    obtain ⟨h1, h2, h3⟩ := v.confirmWrites_shows
    rw [← hw]
    split
    · exact ⟨hvf.trans h1, h2.trans hvs, h3.trans hvp⟩
    · exact ⟨hvf, hvs, hvp⟩
  rw [hw]
  obtain ⟨hwf, hwset, hwp⟩ := hws
  split
  · split
    · obtain ⟨h1, h2, h3⟩ := State.bootRecord_shows (s := w) (by rw [hwp]; exact h) { ‹Activation› with waits := false }
      exact ⟨hwf.trans h1, h2.trans hwset, h3.trans hwp⟩
    · exact ⟨hwf, hwset, hwp⟩
  · exact ⟨hwf, hwset, hwp⟩

theorem State.flashInv_shape (s : State) :
    s.flashInv = s ∨ ∃ F : Flash, F.settings = s.flash.settings ∧ s.flashInv = State.setOn { s with flash := F } IDENT_INV_STAT_pending false := by
  unfold State.flashInv
  split
  · split
    · refine .inr ⟨_, ?_, rfl⟩
      rw [apply_ite Flash.settings]
      exact ite_self _
    · exact .inl rfl
  · exact .inl rfl

theorem State.flashInv_shows (s : State) :
    s.frames (fun a => a = IDENT_INV_STAT) s.flashInv ∧ s.flashInv.flash.settings = s.flash.settings ∧ s.flashInv.pwr = s.pwr := by
  rcases s.flashInv_shape with h | ⟨F, hF, h⟩
  · rw [h]
    exact ⟨.refl _ _, rfl, rfl⟩
  · obtain ⟨v, hv⟩ : ∃ v : State, { s with flash := F } = v := ⟨_, rfl⟩
    have hvs : v.flash = F ∧ v.pwr = s.pwr ∧ v.ctl = s.ctl := by
      rw [← hv]
      exact ⟨rfl, rfl, rfl⟩
    rw [h, hv, State.setOn_flash, State.setOn_pwr, hvs.1]
    exact ⟨((State.frames.refl _ s).of_ctl hvs.2.2).setOn false rfl, hF, hvs.2.1⟩

/-- The end of a sag: what waited is written, the settings stored (R498). -/
theorem State.sagEnd_shows (h : s.pwr.inhibit = true) :
    s.sagEnd.pwr.inhibit = false ∧ s.sagEnd.get PWR_STAT_nv_inhibit = 0 ∧ s.sagEnd.bitOn PWR_EVT 5 = true ∧
      s.sagEnd.flash.settings = s.fw.settings := by
  unfold State.sagEnd
  rw [if_pos h]
  obtain ⟨v, hv⟩ : ∃ v, s.setPwr (fun p => { p with inhibit := false }) = v := ⟨_, rfl⟩
  have hvs : v.pwr.inhibit = false ∧ v.fw = s.fw := by
    rw [← hv]
    exact ⟨rfl, rfl⟩
  rw [hv]
  obtain ⟨u, hu⟩ : ∃ u, v.setOn PWR_STAT_nv_inhibit false = u := ⟨_, rfl⟩
  have hu0 : u.get PWR_STAT_nv_inhibit = 0 := hu ▸ State.get_setOn _ false
  have hup : u.pwr = v.pwr ∧ u.fw = v.fw := by
    rw [← hu, State.setOn_pwr, State.setOn_fw]
    exact ⟨rfl, rfl⟩
  rw [hu]
  obtain ⟨w, hw⟩ : ∃ w, u.setBit PWR_EVT 5 = w := ⟨_, rfl⟩
  have hwb : w.bitOn PWR_EVT 5 = true := hw ▸ State.setBit_bitOn_same u _ (by decide)
  have hwf : u.frames (fun a => a = PWR_EVT) w := hw ▸ (State.frames.refl _ u).setBit 5 rfl
  have hwp : w.pwr = u.pwr ∧ w.fw = u.fw := by
    rw [← hw, State.setBit_pwr, State.setBit_fw]
    exact ⟨rfl, rfl⟩
  have hwi : w.pwr.inhibit = false := by rw [hwp.1, hup.1, hvs.1]
  rw [hw]
  obtain ⟨hnf, hns, hnp⟩ := State.nvRun_shows hwi
  obtain ⟨hff, hfs, hfp⟩ := w.nvRun.flashInv_shows
  refine ⟨?_, ?_, ?_, ?_⟩
  · rw [hfp, hnp, hwi]
  · rw [hff.get (by decide), hnf.get (by unfold nvWord; decide), hwf.get (by decide), hu0]
  · rw [State.bitOn_of_rd (hff PWR_EVT (by decide)), State.bitOn_of_rd (hnf PWR_EVT (by unfold nvWord; decide))]
    exact hwb
  · rw [hfs, hns, hwp.2, hup.2, hvs.2]

/-- A sag inhibits non-volatile writes and is counted (R498). -/
theorem State.sagBegin_shows (s : State) :
    s.sagBegin.pwr = { s.pwr with inhibit := true } ∧ s.sagBegin.get PWR_STAT_nv_inhibit = 1 ∧ s.sagBegin.bitOn PWR_EVT 4 = true ∧
      s.sagBegin.get PWR_SAG_CNT_count = satAdd PWR_SAG_CNT_count.len (s.get PWR_SAG_CNT_count) 1 ∧
      s.keeps s.sagBegin [PWR_STAT, PWR_SAG_CNT, PWR_EVT] ∧ s.sagBegin.flash = s.flash := by
  unfold State.sagBegin
  obtain ⟨v, hv⟩ : ∃ v, s.setPwr (fun p => { p with inhibit := true }) = v := ⟨_, rfl⟩
  have hvs : v.pwr = { s.pwr with inhibit := true } ∧ v.ctl = s.ctl ∧ v.flash = s.flash := by
    rw [← hv]
    exact ⟨rfl, rfl, rfl⟩
  rw [hv]
  obtain ⟨u, hu⟩ : ∃ u, v.setOn PWR_STAT_nv_inhibit true = u := ⟨_, rfl⟩
  have hu1 : u.get PWR_STAT_nv_inhibit = 1 := hu ▸ State.get_setOn _ true
  have huf : v.frames (fun a => a = PWR_STAT) u := hu ▸ (State.frames.refl _ v).setOn true rfl
  have hup : u.pwr = v.pwr ∧ u.flash = v.flash := by
    rw [← hu, State.setOn_pwr, State.setOn_flash]
    exact ⟨rfl, rfl⟩
  rw [hu]
  obtain ⟨w, hw⟩ : ∃ w, u.bump PWR_SAG_CNT_count 1 = w := ⟨_, rfl⟩
  have hw1 : w.get PWR_SAG_CNT_count = satAdd PWR_SAG_CNT_count.len (u.get PWR_SAG_CNT_count) 1 := hw ▸ State.get_bump _ 1
  have hwf : u.frames (fun a => a = PWR_SAG_CNT) w := hw ▸ (State.frames.refl _ u).bump 1 rfl
  have hwp : w.pwr = u.pwr ∧ w.flash = u.flash := by
    rw [← hw, State.bump_pwr, State.bump_flash]
    exact ⟨rfl, rfl⟩
  rw [hw]
  have hx : w.frames (fun a => a = PWR_EVT) (w.setBit PWR_EVT 4) := (State.frames.refl _ w).setBit 4 rfl
  refine ⟨?_, ?_, State.setBit_bitOn_same w _ (by decide), ?_, fun a ha => ?_, ?_⟩
  · rw [State.setBit_pwr, hwp.1, hup.1, hvs.1]
  · rw [hx.get (by decide), hwf.get (by decide), hu1]
  · rw [hx.get (by decide), hw1, huf.get (by decide), State.get_of_ctl _ hvs.2.1]
  · simp only [List.mem_cons, List.not_mem_nil, or_false, not_or] at ha
    rw [hx a ha.2.2, hwf a ha.2.1, huf a ha.1]
    unfold State.rd
    rw [hvs.2.1]
  · rw [State.setBit_flash, hwp.2, hup.2, hvs.2.2]

/-- PWR_EN has changed: the level is shown, and deasserted with the compute domains up it begins the ordered stop (R495, R499). -/
theorem State.pwrEn_shows {level : Bool} (h : s.pwr.en ≠ level) :
    (s.pwrEn level).pwr.en = level ∧ (s.pwrEn level).on PWR_STAT_en = (level && s.pwr.aux) ∧
      (level = false → s.computeUp = true → s.on PWR_STAT_stopping = false →
        (s.pwrEn level).on PWR_STAT_stopping = true ∧ (s.pwrEn level).on SAGE_STAT_gate_open = false ∧ (s.pwrEn level).pwr.stop = 1) := by
  unfold State.pwrEn
  rw [if_neg h]
  dsimp only
  obtain ⟨v, hv⟩ : ∃ v, s.setPwr (fun p => { p with en := level }) = v := ⟨_, rfl⟩
  have hvs : v.pwr.en = level ∧ v.ctl = s.ctl := by
    rw [← hv]
    exact ⟨rfl, rfl⟩
  rw [hv]
  obtain ⟨u, hu⟩ : ∃ u, v.setOn PWR_STAT_en (level && s.pwr.aux) = u := ⟨_, rfl⟩
  have hu1 : u.on PWR_STAT_en = (level && s.pwr.aux) := by
    rw [← hu]
    unfold State.on
    rw [State.get_setOn]
    cases level && s.pwr.aux <;> rfl
  have hus : u.on PWR_STAT_stopping = s.on PWR_STAT_stopping := by
    rw [← hu]
    unfold State.on
    rw [State.get_setOn_apart, State.get_of_ctl _ hvs.2]
  have huf : v.frames (fun a => a = PWR_STAT) u := hu ▸ (State.frames.refl _ v).setOn _ rfl
  have hup : u.pwr = v.pwr := by rw [← hu, State.setOn_pwr]
  rw [hu]
  cases level with
  | true =>
    rw [if_pos rfl]
    refine ⟨?_, ?_, (nomatch ·)⟩
    · split
      · rw [State.pins_same (g := fun t => t.pwr.en) (fun _ _ => rfl) (fun _ _ _ _ => rfl)]
        show u.pwr.en = true
        rw [hup, hvs.1]
      · rw [hup, hvs.1]
    · split
      · exact (State.on_of_rd (State.pins_rd _ _)).trans hu1
      · exact hu1
  | false =>
    rw [if_neg (by decide)]
    obtain ⟨w, hw⟩ : ∃ w, u.setPwr (fun p => { p with armed := true }) = w := ⟨_, rfl⟩
    have hws : w.pwr.en = false ∧ w.ctl = u.ctl := by
      rw [← hw]
      exact ⟨by show u.pwr.en = false; rw [hup, hvs.1], rfl⟩
    have hwon : ∀ f, w.on f = u.on f := fun f => by
      unfold State.on
      rw [State.get_of_ctl _ hws.2]
    have hcu : w.computeUp = s.computeUp := State.computeUp_of_rd (by
      have := huf IDENT_BOOT (by decide)
      unfold State.rd at this ⊢
      rw [hws.2, this, hvs.2])
    rw [hw]
    cases hst : w.on PWR_STAT_stopping with
    | true =>
      have he : (if w.computeUp = true then w.stopModule 1 else w) = w := by
        split
        · unfold State.stopModule
          rw [if_pos hst]
        · rfl
      rw [he]
      refine ⟨hws.1, (hwon _).trans hu1, fun _ _ h0 => ?_⟩
      rw [hwon, hus, h0] at hst
      cases hst
    | false =>
      obtain ⟨h1, h2, h3, h4⟩ := State.stopModule_shows hst 1
      split
      · exact ⟨by rw [h4]; exact hws.1, (h3.trans (hwon _)).trans hu1, fun _ _ _ => ⟨h1, h2, by rw [h4]⟩⟩
      next hn => exact ⟨hws.1, (hwon _).trans hu1, fun _ hup' _ => absurd (hcu.trans hup') hn⟩

end Island

/-! ## The obligation -/

/-- A thermal crossing that stops the module (R508). -/
theorem State.thermalCross_stops {s : State} (hup : s.computeUp = true) (hs : s.on PWR_STAT_stopping = false) {kind unit threshold : Nat}
    (h : (kind, threshold) ∈ [(0, 115), (1, 105), (2, 115), (3, 115)]) :
    (s.thermalCross kind unit threshold).on PWR_STAT_stopping = true ∧ (s.thermalCross kind unit threshold).pwr.stop = 2 := by
  have he : ∃ r : Report, r.cls < 16 ∧ s.thermalCross kind unit threshold = (s.logRecord r 9).stopModule 2 := by
    have hr : ∀ u : Nat, Report.cls ⟨13, s.tick, none, none, u, none, threshold, 9, false⟩ < 16 := fun _ => Nat.le_of_ble_eq_true rfl
    refine ⟨⟨13, s.tick, none, none, if kind = 3 then 72 else unit, none, threshold, 9, false⟩, hr _, ?_⟩
    unfold State.thermalCross
    dsimp only
    rw [if_neg (by rw [hup]; simp)]
    simp only [List.mem_cons, Prod.mk.injEq, List.not_mem_nil, or_false] at h
    rcases h with ⟨rfl, rfl⟩ | ⟨rfl, rfl⟩ | ⟨rfl, rfl⟩ | ⟨rfl, rfl⟩ <;> rfl
  obtain ⟨r, hr, he⟩ := he
  rw [he]
  exact State.logged_stops hs hr 9 2

/-- Settles O50: supplies, sags, the ordered stop, power-up, rails, heat and the brake take effect (R494 to R508, R519). -/
theorem powerIsStagedBrakedAndStopped : Obligations.PowerIsStagedBrakedAndStopped := by
  intro s
  refine ⟨fun pres => ⟨fun haux => ?_, ?_⟩, runs_next (u := s.sagBegin) rfl s.sagBegin_shows,
    fun h => runs_next (u := s.sagEnd) rfl (State.sagEnd_shows h), fun level h => runs_next (u := s.pwrEn level) rfl (State.pwrEn_shows h),
    fun cause hc hup h0 => runs_next (congrArg Host.Outcome.next (if_pos (by omega))) ?_,
    fun h => runs_next (u := s.powerUp) rfl (State.powerUp_shows h),
    fun i hup => ⟨fun hi h3 hr hcause => runs_next (congrArg Host.Outcome.next (if_pos (by omega))) ?_,
      fun hi hn hs => runs_next (congrArg Host.Outcome.next (if_pos hi)) ?_⟩,
    fun hup => ⟨fun d hd hr => runs_next (congrArg Host.Outcome.next (if_pos (decide_eq_true hd))) ?_,
      fun b hb => runs_next (congrArg Host.Outcome.next (if_pos (decide_eq_true hb))) ?_,
      fun kind unit threshold h hu hs => runs_next (congrArg Host.Outcome.next (if_pos hu)) (State.thermalCross_stops hup hs h),
      fun hs hb => runs_next (u := s.brake) rfl (State.brake_shows hup hs hb)⟩⟩
  · refine runs_next (u := s.supplyValid true pres) rfl ?_
    unfold State.supplyValid
    rw [if_pos rfl, if_neg (by rw [haux]; decide)]
    obtain ⟨v, hv⟩ : ∃ v, s.setPwr (fun p => { p with aux := true }) = v := ⟨_, rfl⟩
    have hvs : v.pwr.aux = true ∧ v.flash = s.flash := by
      rw [← hv]
      exact ⟨rfl, rfl⟩
    rw [hv]
    obtain ⟨hph, -, hpor, -⟩ := v.islandReset_shows false pres
    obtain ⟨-, hfl, hco, -, -, hax, -⟩ := v.islandBase_shows
    refine ⟨?_, ?_, hph, ?_, ?_⟩
    · rw [State.islandReset_same (g := State.pwr) (fun _ _ _ => rfl) (fun _ _ _ => rfl), hax]
      exact hvs.1
    · have h1 : (v.islandReset false pres).get IDENT_RST_CAUSE_por < 2 := field_lt _ _ _
      unfold State.on at hpor
      have h2 : (v.islandReset false pres).get IDENT_RST_CAUSE_por ≠ 0 := bne_iff_ne.1 hpor
      omega
    · rw [State.islandReset_same (g := State.flash) (fun _ _ _ => rfl) (fun _ _ _ => rfl), hfl]
      exact hvs.2
    · rw [State.islandReset_same (g := State.cores) (fun _ _ _ => rfl) (fun _ _ _ => rfl), hco]
  · refine runs_next (u := s.supplyValid false pres) rfl ?_
    unfold State.supplyValid
    rw [if_neg (by decide)]
    obtain ⟨v, hv⟩ : ∃ v, s.setPwr (fun p => { p with main := true }) = v := ⟨_, rfl⟩
    have hvs : v.pwr.main = true ∧ v.ctl = s.ctl ∧ v.cores = s.cores := by
      rw [← hv]
      exact ⟨rfl, rfl, rfl⟩
    rw [hv]
    refine ⟨?_, ?_, fun a ha => ?_, ?_⟩
    · rw [State.setOn_pwr]
      exact hvs.1
    · unfold State.on
      rw [State.get_setOn]
      cases s.pwr.aux <;> rfl
    · rw [((State.frames.refl (fun a => a = PWR_STAT) v).setOn (f := PWR_STAT_main_valid) s.pwr.aux rfl) a (by simpa using ha)]
      unfold State.rd
      rw [hvs.2.1]
    · rw [State.setOn_cores]
      exact hvs.2.2
  · obtain ⟨u, hu, hf⟩ := State.orderedStop_finishes hc hup h0
    rw [hu]
    obtain ⟨h1, h2, ⟨h3, h4, h5, h6, h7⟩, h8⟩ := u.finishStop_shows
    exact ⟨h1, h2, h3, h4, h5, h6, h7, h8.trans hf⟩
  · unfold State.railFault
    rw [if_neg (by rw [hup]; simp), if_pos ⟨hi, h3⟩]
    obtain ⟨h1, h2⟩ := State.logged_flags (d := i / 3) (by omega) hr
      (r := ⟨12, s.tick, none, none, i / 3, none, 0, 7, false⟩) (Nat.le_of_ble_eq_true rfl) 7 5
    exact ⟨h1.trans (by omega), h2⟩
  · unfold State.railFault
    dsimp only
    rw [if_neg (by rw [hup]; simp), if_neg hn, if_pos hi, if_pos hup]
    exact State.logged_stops hs (Nat.le_of_ble_eq_true rfl) 9 2
  · unfold State.thermalCross
    dsimp only
    rw [if_neg (by rw [hup]; simp)]
    exact State.logged_flags hd hr (Nat.le_of_ble_eq_true rfl) 7 4
  · unfold State.thermalCross
    dsimp only
    rw [if_neg (by rw [hup]; simp)]
    exact ⟨State.get_setOn _ true, (s.onlyRegs_refl [BAY_CTL b]).setOn⟩
end Sys2Proof.Machine

/-!
# Start-up and the resets of the module (O51)
-/

namespace Sys2Proof.Machine

/-! ## Cores taken out of the record -/

section Failed

variable {s : State} {v : Inv} {p q : Nat}

/-- Without a bit that it has a number has the others. -/
theorem testBit_sub_two_pow {m i : Nat} (h : m.testBit i = true) (j : Nat) : (m - 2 ^ i).testBit j = (decide (j ≠ i) && m.testBit j) := by
  have hodd : m / 2 ^ i % 2 = 1 := by
    rw [Nat.testBit_eq_decide_div_mod_eq] at h
    exact of_decide_eq_true h
  have hm : m = 2 ^ i * (2 * (m / 2 ^ i / 2) + 1) + m % 2 ^ i := by
    have h1 := Nat.div_add_mod m (2 ^ i)
    have h2 := Nat.div_add_mod (m / 2 ^ i) 2
    rw [hodd] at h2
    rw [h2]
    exact h1.symm
  have hlt : m % 2 ^ i < 2 ^ i := Nat.mod_lt _ (Nat.two_pow_pos i)
  generalize m / 2 ^ i / 2 = k at hm
  generalize m % 2 ^ i = b at hm hlt
  have hs : m - 2 ^ i = 2 ^ i * (2 * k) + b := by
    rw [hm, Nat.mul_add, Nat.mul_one]
    omega
  rw [hs, hm, Nat.testBit_two_pow_mul_add _ hlt, Nat.testBit_two_pow_mul_add _ hlt]
  split
  next hj => rw [decide_eq_true (by omega : j ≠ i), Bool.true_and]
  next hj =>
    by_cases he : j = i
    · subst he
      simp
    · obtain ⟨d, rfl⟩ : ∃ d, j = i + (d + 1) := ⟨j - i - 1, by omega⟩
      rw [decide_eq_true he, Bool.true_and, Nat.add_sub_cancel_left, Nat.testBit_succ, Nat.testBit_succ]
      congr 1
      omega

/-- A core marked failed is not good, and no other core is better. -/
theorem Inv.isGood_markFailed (v : Inv) (p q : Nat) : (v.markFailed p).isGood q = (decide (q ≠ p) && v.isGood q) := by
  unfold Inv.markFailed
  split
  next h =>
    unfold Inv.isGood Inv.goodMask at h ⊢
    rw [Bool.and_eq_true, decide_eq_true_eq] at h
    by_cases hq : q < 9216
    · dsimp only
      rw [lookupD_put, decide_eq_true hq, Bool.true_and, Bool.true_and]
      split
      next he =>
        rw [testBit_sub_two_pow h.2, he]
        congr 2
        refine propext (not_congr ⟨fun h => ?_, fun h => by rw [h]⟩)
        omega
      next he => rw [decide_eq_true (by rintro rfl; exact he rfl : q ≠ p), Bool.true_and]
    · rw [decide_eq_false hq, Bool.false_and, Bool.false_and, Bool.and_false]
  next h =>
    by_cases he : q = p
    · subst he
      rw [Bool.not_eq_true] at h
      rw [h, Bool.and_false]
    · rw [decide_eq_true he, Bool.true_and]

/-- A core that the record does not hold good. -/
def State.bad (s : State) (p : Nat) : Prop := s.isGood p = false

theorem State.bad_of_inv {t : State} (h : s.bad p) (ht : t.inv = s.inv) : t.bad p := by
  unfold State.bad State.isGood at h ⊢
  rw [ht]
  exact h

theorem State.bad_iff (h : s.inv = some v) : s.bad p ↔ v.isGood p = false := by
  unfold State.bad State.isGood
  rw [h]

/-- What shows a changed record: its words, the write to flash pending, the event. -/
def State.invShown (s : State) (v : Inv) : State :=
  ((State.setOn { s with inv := some v } IDENT_INV_STAT_pending true).showInv).setBit EVC_DEV_LATCH 2

theorem State.showInv_same {γ : Type} {g : State → γ} (wr : ∀ (t : State) a w, g (t.wr a w) = g t) (s : State) : g s.showInv = g s := by
  unfold State.showInv
  split
  · exact (wr _ _ _).trans ((wr _ _ _).trans ((wr _ _ _).trans ((wr _ _ _).trans (wr _ _ _))))
  · rfl

theorem State.invShown_same {γ : Type} {g : State → γ} (wr : ∀ (t : State) a w, g (t.wr a w) = g t)
    (strike : ∀ (t : State) a f, g (t.strike a f) = g t) (s : State) (v : Inv) : g (s.invShown v) = g { s with inv := some v } := by
  unfold State.invShown
  exact (strike _ _ _).trans ((wr _ _ _).trans ((State.showInv_same wr _).trans (wr _ _ _)))

theorem State.invShown_inv (s : State) (v : Inv) : (s.invShown v).inv = some v :=
  State.invShown_same (g := State.inv) (fun _ _ _ => rfl) (fun _ _ _ => rfl) s v

theorem State.bad_markFailed (h : s.bad p) (q : Nat) : (s.markFailed q).bad p := by
  unfold State.markFailed
  split
  next v hv =>
    split
    · refine (State.bad_iff (s.invShown_inv (v.markFailed q))).2 ?_
      rw [Inv.isGood_markFailed, (State.bad_iff hv).1 h, Bool.and_false]
    · exact h
  · exact h

theorem State.markFailed_bad (s : State) (p : Nat) : (s.markFailed p).bad p := by
  unfold State.markFailed
  split
  next v hv =>
    split
    · refine (State.bad_iff (s.invShown_inv (v.markFailed p))).2 ?_
      rw [Inv.isGood_markFailed, decide_eq_false (fun h => h rfl), Bool.false_and]
    next h => exact (State.bad_iff hv).2 (Bool.not_eq_true _ ▸ h)
  next hv =>
    unfold State.bad State.isGood
    rw [hv]

theorem State.bad_clearDieFlag (h : s.bad p) (d bit : Nat) : (s.clearDieFlag d bit).bad p := by
  unfold State.clearDieFlag
  split
  · exact h
  next v hv =>
    have hk : ∀ (l : List Nat) (w : Inv), w.isGood p = false → (l.foldl (fun w i => w.markFailed (128 * d + i)) w).isGood p = false := fun l w hw =>
      foldl_keeps (fun w : Inv => w.isGood p = false) (fun w i hw => by rw [Inv.isGood_markFailed, hw, Bool.and_false]) l w hw
    refine (State.bad_iff (s.invShown_inv _)).2 ?_
    exact hk _ v ((State.bad_iff hv).1 h)

theorem State.bad_updateInv (h : s.bad p) {f : Inv → Inv} (hf : ∀ v, (f v).good = v.good) : (s.updateInv f).bad p := by
  unfold State.updateInv
  split
  · exact h
  next v hv =>
    refine (State.bad_iff (s.invShown_inv _)).2 ?_
    have h1 := (State.bad_iff hv).1 h
    unfold Inv.isGood Inv.goodMask at h1 ⊢
    dsimp only
    rw [hf]
    exact h1

/-! ## The self-test -/

theorem State.invShown_get (s : State) (v : Inv) {f : FieldRef} (h : f.addr = IDENT_BOOT) : (s.invShown v).get f = s.get f := by
  have h1 : ∀ {t : State}, s.frames (fun a => a ≠ IDENT_BOOT) t → s.frames (fun a => a ≠ IDENT_BOOT) t.showInv := fun {t} ht => by
    unfold State.showInv
    split
    · exact ((((ht.set _ (by decide)).set _ (by decide)).set _ (by decide)).set _ (by decide)).set _ (by decide)
    · exact ht
  have h2 : s.frames (fun a => a ≠ IDENT_BOOT) (s.invShown v) := by
    unfold State.invShown
    refine State.frames.setBit (h1 (State.frames.setOn ?_ true (by decide))) 2 (by decide)
    exact (State.frames.refl _ s).of_ctl rfl
  exact h2.get fun hn => hn h

theorem State.markAll_bad {p : Nat} : ∀ (l : List Nat) (s : State), p ∈ l ∨ s.bad p → (each (fun p (t : State) => t.markFailed p) l s).bad p
  | [], _, h => h.resolve_left List.not_mem_nil
  | q :: l, s, h => by
    refine State.markAll_bad l (s.markFailed q) ?_
    rcases h with h | h
    · rcases List.mem_cons.1 h with rfl | h
      · exact .inr (s.markFailed_bad p)
      · exact .inl h
    · exact .inr (State.bad_markFailed h q)

/-- A die that failed its test: its flag cleared, its domain off (R517). -/
def State.dieFailed (s : State) (bit d : Nat) : State :=
  ((s.clearDieFlag d bit).setOn (DIE_PWR_CTL_compute d) false).set (DIE_PWR_STAT_state d) 0

theorem State.bad_dieFailed {s : State} {p : Nat} (h : s.bad p) (bit d : Nat) : (s.dieFailed bit d).bad p := by
  refine State.bad_of_inv (State.bad_clearDieFlag h d bit) ?_
  unfold State.dieFailed
  rw [State.set_inv, State.setOn_inv]

theorem State.bad_fails {s : State} {p : Nat} (h : s.bad p) (bit : Nat) (l : List Nat) : (each (fun d (t : State) => t.dieFailed bit d) l s).bad p :=
  each_keeps (fun t : State => t.bad p) (fun d _ ht => State.bad_dieFailed ht bit d) l s h

theorem State.bad_updates {s : State} {p : Nat} {α : Type} (h : s.bad p) {f : α → Inv → Inv} (hf : ∀ a v, (f a v).good = v.good) (l : List α) :
    (each (fun a (t : State) => t.updateInv (f a)) l s).bad p :=
  each_keeps (fun t : State => t.bad p) (fun a _ ht => State.bad_updateInv ht (hf a)) l s h

/-- The findings of a self-test, taken out of the record (R517). -/
def State.tested (s : State) (x : TestIn) : State :=
  let s1 := each (fun p (t : State) => t.markFailed p) (x.cores.filter (fun p => decide (p < 9216))) s
  let s2 := each (fun d (t : State) => t.dieFailed 1 d) (x.transit.filter (fun d => decide (d < 72))) s1
  let s3 := each (fun d (t : State) => t.dieFailed 0 d) (x.compute.filter (fun d => decide (d < 72))) s2
  let s4 := each (fun b (t : State) => t.updateInv (fun v => { v with bayFlags := put v.bayFlags b 0 }))
    (x.bays.filter (fun b => decide (b < 18))) s3
  let s5 := each (fun k (t : State) => t.updateInv (fun v => { v with ioFlags := put v.ioFlags k 0 }))
    (x.ios.filter (fun k => decide (k < 8))) s4
  each (fun (e : Nat × Nat) (t : State) => t.updateInv (fun v =>
    { v with portFlags := put v.portFlags e.1 (v.portFlag e.1 &&& (15 - e.2 % 16)) })) (x.lanes.filter (fun e => decide (e.1 < 32))) s5

theorem State.tested_bad {x : TestIn} {p : Nat} (h : p ∈ x.cores) : (s.tested x).bad p := by
  have h1 : (each (fun p (t : State) => t.markFailed p) (x.cores.filter (fun p => decide (p < 9216))) s).bad p := by
    refine State.markAll_bad _ s ?_
    by_cases hp : p < 9216
    · exact .inl (List.mem_filter.2 ⟨h, decide_eq_true hp⟩)
    · refine .inr ?_
      unfold State.bad State.isGood
      split
      · unfold Inv.isGood
        rw [decide_eq_false hp, Bool.false_and]
      · rfl
  unfold State.tested
  exact State.bad_updates (State.bad_updates (State.bad_updates (State.bad_fails (State.bad_fails h1 1 _) 0 _)
    (f := fun b v => { v with bayFlags := put v.bayFlags b 0 }) (fun _ _ => rfl) _)
    (f := fun k v => { v with ioFlags := put v.ioFlags k 0 }) (fun _ _ => rfl) _)
    (f := fun (e : Nat × Nat) v => { v with portFlags := put v.portFlags e.1 (v.portFlag e.1 &&& (15 - e.2 % 16)) }) (fun _ _ => rfl) _

/-- A module that does not start: phase 15 with the code (R518). -/
theorem State.bootFail_shows {code : Nat} (hc : code < 16) (s : State) :
    (s.bootFail code).get IDENT_BOOT_phase = 15 ∧ (s.bootFail code).get IDENT_BOOT_fail = code ∧ (s.bootFail code).inv = s.inv := by
  unfold State.bootFail State.setPhase
  obtain ⟨v, hv⟩ : ∃ v, s.set IDENT_BOOT_phase 15 = v := ⟨_, rfl⟩
  have h15 : v.get IDENT_BOOT_phase = 15 := hv ▸ State.get_set_of_lt _ 4 (by decide)
  have hi : v.inv = s.inv := by rw [← hv, State.set_inv]
  rw [hv, State.pins_get, State.pins_get, State.get_set_apart, State.get_set_of_lt _ 4 hc,
    State.pins_same (g := State.inv) (fun _ _ => rfl) (fun _ _ _ _ => rfl), State.set_inv]
  exact ⟨h15, rfl, hi⟩

/-- The self-test takes what failed out of the record and goes on, unless it overran (R517, R518). -/
theorem State.startTest_shows (h : s.phase = 3) (x : TestIn) :
    (x.overrun = false → (s.startTest x).get IDENT_BOOT_phase = 4) ∧
      (x.overrun = true → (s.startTest x).get IDENT_BOOT_phase = 15 ∧ (s.startTest x).get IDENT_BOOT_fail = 5) ∧
      ∀ p ∈ x.cores, (s.startTest x).isGood p = false := by
  have he : s.startTest x = if x.overrun then (s.tested x).bootFail 5 else (s.tested x).setPhase 4 := by
    unfold State.startTest
    exact if_neg fun hn => hn h
  have hb : ∀ p ∈ x.cores, (s.tested x).bad p := fun p hp => State.tested_bad hp
  rw [he]
  obtain ⟨v, hv⟩ : ∃ v, s.tested x = v := ⟨_, rfl⟩
  rw [hv] at hb ⊢
  obtain ⟨h1, h2, h3⟩ := v.bootFail_shows (code := 5) (by decide)
  cases x.overrun with
  | true => exact ⟨(nomatch ·), fun _ => ⟨h1, h2⟩, fun p hp => State.bad_of_inv (hb p hp) h3⟩
  | false =>
    refine ⟨fun _ => State.get_set_of_lt _ 4 (by decide), (nomatch ·), fun p hp => State.bad_of_inv (hb p hp) ?_⟩
    exact State.set_inv _ _ _

end Failed

/-! ## Boot -/

section Boot

variable {s : State}

theorem State.showVersion_same {γ : Type} {g : State → γ} (wr : ∀ (t : State) a w, g (t.wr a w) = g t) (s : State) : g s.showVersion = g s := by
  unfold State.showVersion
  split
  · rfl
  · exact (wr _ _ _).trans ((wr _ _ _).trans ((wr _ _ _).trans (wr _ _ _)))

/-- The confirmed bank boots: it runs, and the record of the inventory in flash is the same (R531). -/
theorem State.bootBank_shows (s : State) (b : Nat) :
    (s.bootBank b false).fw.running = b ∧ (s.bootBank b false).flash.inventory = s.flash.inventory := by
  unfold State.bootBank
  dsimp only
  rw [if_neg (by decide)]
  obtain ⟨v, hv⟩ : ∃ v : State, (s.setFlash (fun f => { f with
    confirmed := b, provisional := none, older := none
    settings := if s.flash.provisional.isSome = true then s.flash.older.getD s.flash.settings else s.flash.settings
    staged := !false && (f.staged || f.provisional.isSome) })).setFw (fun w => { w with
      running := b, settings := if s.flash.provisional.isSome = true then s.flash.older.getD s.flash.settings else s.flash.settings }) = v := ⟨_, rfl⟩
  have hvs : v.fw.running = b ∧ v.flash.inventory = s.flash.inventory := by
    rw [← hv]
    exact ⟨rfl, rfl⟩
  rw [hv, State.showVersion_same (g := fun t => t.fw.running) (fun _ _ _ => rfl), State.fwShow_same (g := fun t => t.fw.running) (fun _ _ _ => rfl),
    State.showVersion_same (g := fun t => t.flash.inventory) (fun _ _ _ => rfl),
    State.fwShow_same (g := fun t => t.flash.inventory) (fun _ _ _ => rfl)]
  exact hvs

theorem State.bootTrust_same {γ : Type} {g : State → γ} (wr : ∀ (t : State) a w, g (t.wr a w) = g t)
    (fw : ∀ (t : State) i k, g { t with fw := { t.fw with index := i, newKey := k } } = g t) (s : State) : g s.bootTrust = g s := by
  unfold State.bootTrust
  exact (wr _ _ _).trans ((wr _ _ _).trans ((wr _ _ _).trans ((wr _ _ _).trans (fw _ _ _))))

theorem State.bootTrust_frames (s : State) : s.frames (fun a => 0x60000 ≤ a) s.bootTrust := by
  unfold State.bootTrust
  dsimp only
  obtain ⟨v, hv⟩ : ∃ v, s.setFw (fun w => { w with index := s.flash.keyEnd, newKey := decide (983040 ≤ s.flash.keyEnd) }) = v := ⟨_, rfl⟩
  have hvc : v.ctl = s.ctl := by
    rw [← hv]
    rfl
  rw [hv]
  have h := (State.frames.refl (fun a => 0x60000 ≤ a) s).of_ctl hvc
  exact (((h.set _ (by decide)).set _ (by decide)).set _ (by decide)).set _ (by decide)

theorem State.settingEffect_frames (s : State) {k : Nat} (hk : k = 0x10 ∨ k = 0x11) :
    s.frames (fun a => a = SAGE_CTL) (s.settingEffect k) := by
  rcases hk with rfl | rfl
  · exact (State.frames.refl _ s).of_ctl rfl
  · have h : ∀ v, s.frames (fun a => a = SAGE_CTL) (s.writeSageCtl v) := fun v => by
      unfold State.writeSageCtl
      dsimp only
      split <;> split
      · exact .refl _ _
      · exact (State.frames.refl _ s).set _ rfl
      · exact (State.frames.refl _ s).set _ rfl
      · exact ((State.frames.refl (fun a => a = SAGE_CTL) s).set (f := SAGE_CTL_replays) _ rfl).set _ rfl
    exact h _

/-- The end of a verified boot, from the state with its record (R515). -/
def State.booted (s : State) (ms : Nat) : State :=
  ((((((s.showInv.setOn IDENT_INV_STAT_valid true).bootTrust).settingEffect 0x0010).settingEffect 0x0011).setOn SAGE_STAT_ok true).set
    IDENT_BOOT_MS_island (min ms 65535)).setPhase 2

theorem State.bootDone_eq {ms : Nat} {v : Inv} (haux : s.pwr.aux = true) (hph : s.phase = 0) (hb : s.bankPasses s.flash.confirmed = true)
    (hi : s.flash.inventory = some v) : s.bootDone true ms = State.booted { s.bootBank s.flash.confirmed false with inv := some v } ms := by
  have hinv := (s.bootBank_shows s.flash.confirmed).2.trans hi
  unfold State.bootDone
  rw [if_neg (by rw [haux, hph]; decide), if_neg (by decide)]
  dsimp only
  rw [if_neg (by rw [hb]; simp), hb, if_pos rfl, Bool.not_true, hinv]
  rfl

theorem State.booted_same {γ : Type} {g : State → γ} (wr : ∀ (t : State) a w, g (t.wr a w) = g t)
    (trust : ∀ (t : State) i k, g { t with fw := { t.fw with index := i, newKey := k } } = g t)
    (cap : ∀ (t : State) c, g { t with fw := { t.fw with capDue := c } } = g t) (s : State) (ms : Nat) : g (s.booted ms) = g s := by
  unfold State.booted
  exact (wr _ _ _).trans ((wr _ _ _).trans ((wr _ _ _).trans ((State.settingEffect_same wr cap _ _).trans ((State.settingEffect_same wr cap _ _).trans
    ((State.bootTrust_same wr trust _).trans ((wr _ _ _).trans (State.showInv_same wr _)))))))

theorem State.booted_shows (s : State) (ms : Nat) :
    (s.booted ms).get IDENT_BOOT_phase = 2 ∧ (s.booted ms).get IDENT_INV_STAT_valid = 1 ∧ (s.booted ms).get SAGE_STAT_ok = 1 ∧
      (s.booted ms).get IDENT_BOOT_MS_island = min ms 65535 := by
  unfold State.booted
  obtain ⟨a, ha⟩ : ∃ a, s.showInv.setOn IDENT_INV_STAT_valid true = a := ⟨_, rfl⟩
  have hvalid : a.get IDENT_INV_STAT_valid = 1 := ha ▸ State.get_setOn _ true
  rw [ha]
  have hb := a.bootTrust_frames
  obtain ⟨b, hbe⟩ : ∃ b, a.bootTrust = b := ⟨_, rfl⟩
  rw [hbe] at hb ⊢
  have hc := b.settingEffect_frames (k := 0x0010) (.inl rfl)
  obtain ⟨c, hce⟩ : ∃ c, b.settingEffect 0x0010 = c := ⟨_, rfl⟩
  rw [hce] at hc ⊢
  have hd := c.settingEffect_frames (k := 0x0011) (.inr rfl)
  obtain ⟨d, hde⟩ : ∃ d, c.settingEffect 0x0011 = d := ⟨_, rfl⟩
  rw [hde] at hd ⊢
  obtain ⟨e, hee⟩ : ∃ e, d.setOn SAGE_STAT_ok true = e := ⟨_, rfl⟩
  have hok : e.get SAGE_STAT_ok = 1 := hee ▸ State.get_setOn _ true
  have hef : d.frames (fun a => a = SAGE_STAT) e := hee ▸ (State.frames.refl _ d).setOn true rfl
  rw [hee]
  obtain ⟨f, hfe⟩ : ∃ f, e.set IDENT_BOOT_MS_island (min ms 65535) = f := ⟨_, rfl⟩
  have hms : f.get IDENT_BOOT_MS_island = min ms 65535 := hfe ▸ State.get_set_of_lt _ 16 (by omega)
  have hff : e.frames (fun a => a = IDENT_BOOT_MS) f := hfe ▸ (State.frames.refl _ e).set _ rfl
  rw [hfe]
  have hg : f.frames (fun a => a = IDENT_BOOT) (f.setPhase 2) := (State.frames.refl _ f).set _ rfl
  refine ⟨State.get_set_of_lt _ 4 (by decide), ?_, ?_, ?_⟩
  · rw [hg.get (by decide), hff.get (by decide), hef.get (by decide), hd.get (by decide), hc.get (by decide), hb.get (by decide)]
    exact hvalid
  · rw [hg.get (by decide), hff.get (by decide)]
    exact hok
  · rw [hg.get (by decide)]
    exact hms

/-! ## The module ready -/

/-- Words of the LINK block. -/
def linkWord (a : Nat) : Prop := 0x600000 ≤ a ∧ a < 0x700000

theorem State.linkSetting_frames {t : State} (h : s.frames linkWord t) (r : SetRec) (k : Nat) : s.frames linkWord (t.linkSetting r k) := by
  have ha : ∀ a, a = LINK_TLT_ETYPE ∨ a = LINK_TLT_VLAN ∨ a = LINK_TLT_MACPFX ∨ a = LINK_TS_CTL → linkWord a := by
    rintro a (rfl | rfl | rfl | rfl) <;> (unfold linkWord; decide)
  unfold State.linkSetting
  dsimp only
  split
  · exact h.set _ (ha _ (.inl rfl))
  · exact h.set _ (ha _ (.inr (.inl rfl)))
  · exact h.set _ (ha _ (.inr (.inr (.inl rfl))))
  · exact ((h.setOn _ (ha _ (.inr (.inr (.inr rfl))))).setOn _ (ha _ (.inr (.inr (.inr rfl))))).set _ (ha _ (.inr (.inr (.inr rfl))))
  · exact h

theorem State.linkSetting_tick (s : State) (r : SetRec) (k : Nat) : (s.linkSetting r k).tick = s.tick := by
  unfold State.linkSetting
  dsimp only
  split
  · exact State.set_tick _ _ _
  · exact State.set_tick _ _ _
  · exact State.set_tick _ _ _
  · rw [State.set_tick, State.setOn_tick, State.setOn_tick]
  · rfl

theorem State.linkSettings_tick (s : State) : s.linkSettings.tick = s.tick := by
  unfold State.linkSettings
  dsimp only
  rw [each_eq State.tick (fun k t => t.linkSetting_tick _ k), State.set_tick, State.set_tick]

theorem State.installRoutes_tick (s : State) : s.installRoutes.tick = s.tick := by
  unfold State.installRoutes
  split
  · rfl
  · dsimp only
    split
    · rfl
    · exact each_eq State.tick (fun d t => by rw [State.setOn_tick, State.set_tick]) _ _

theorem State.writePortCtl_frames {t : State} {p : Nat} (hp : p < 32) (h : s.frames linkWord t) (v : Word) : s.frames linkWord (t.writePortCtl p v) := by
  have hc : linkWord (LINK_P_CTL p) := by
    unfold linkWord LINK_P_CTL
    omega
  have hs : linkWord (LINK_P_STAT p) := by
    unfold linkWord LINK_P_STAT
    omega
  have hd : ∀ {u : State} ph, s.frames linkWord u → s.frames linkWord (u.portDown p ph) := fun {u} ph hu => by
    unfold State.portDown
    exact (State.frames.setOn (hu.of_ctl rfl) _ hs).set _ hs
  have h1 : s.frames linkWord ((t.setOn (LINK_P_CTL_enable p) (v.getLsbD 31)).set (LINK_P_CTL_modes p) (bits v 0 3)) := (h.setOn _ hc).set _ hc
  unfold State.writePortCtl
  dsimp only
  split
  · exact h1
  · split
    · exact hd _ h1
    · split
      · exact (hd _ h1).setOn _ hc
      · exact h1

theorem State.writePortCtl_tick (s : State) (p : Nat) (v : Word) : (s.writePortCtl p v).tick = s.tick := by
  have hd : ∀ (u : State) ph, (u.portDown p ph).tick = u.tick := fun u ph => by
    unfold State.portDown
    rw [State.set_tick, State.setOn_tick]
    rfl
  unfold State.writePortCtl
  dsimp only
  split
  · rw [State.set_tick, State.setOn_tick]
  · split
    · rw [hd, State.set_tick, State.setOn_tick]
    · split
      · rw [State.setOn_tick, hd, State.set_tick, State.setOn_tick]
      · rw [State.set_tick, State.setOn_tick]

/-- The module is ready: phase 6, its tick counter runs from 0, the gate is open (R515). -/
theorem State.moduleReady_shows (h : s.phase = 4) (ms : Nat) :
    (s.moduleReady ms).get IDENT_BOOT_phase = 6 ∧ (s.moduleReady ms).get BEAT_TICK_CTL_run = 1 ∧ (s.moduleReady ms).tick = 0 ∧
      (s.moduleReady ms).get SAGE_STAT_gate_open = 1 ∧ (s.moduleReady ms).get IDENT_BOOT_MS_compute = min ms 65534 := by
  unfold State.moduleReady
  rw [if_neg fun hn => hn h]
  dsimp only
  obtain ⟨a, ha⟩ : ∃ a, (State.installRoutes { s with tick := 0, cycle := s.tickEnd }).linkSettings = a := ⟨_, rfl⟩
  have hat : a.tick = 0 := by rw [← ha, State.linkSettings_tick, State.installRoutes_tick]
  rw [ha]
  obtain ⟨b, hb⟩ : ∃ b, a.setOn BEAT_TICK_CTL_run true = b := ⟨_, rfl⟩
  have hrun : b.get BEAT_TICK_CTL_run = 1 := hb ▸ State.get_setOn _ true
  have hbt : b.tick = 0 := by rw [← hb, State.setOn_tick, hat]
  rw [hb]
  have hcf : b.frames linkWord (each (fun p (t : State) => if t.portUsable p then t.writePortCtl p 0x80000007 else t) (List.range 32) b) :=
    (State.frames.refl _ b).each fun p hp t ht => .ite (State.writePortCtl_frames (List.mem_range.1 hp) ht _) ht
  have hct : (each (fun p (t : State) => if t.portUsable p then t.writePortCtl p 0x80000007 else t) (List.range 32) b).tick = b.tick :=
    each_eq State.tick (fun p t => by
      split
      · exact t.writePortCtl_tick _ _
      · rfl) _ _
  obtain ⟨c, hc⟩ : ∃ c, each (fun p (t : State) => if t.portUsable p then t.writePortCtl p 0x80000007 else t) (List.range 32) b = c := ⟨_, rfl⟩
  rw [hc] at hcf hct ⊢
  obtain ⟨d, hd⟩ : ∃ d, c.setOn SAGE_STAT_gate_open true = d := ⟨_, rfl⟩
  have hgate : d.get SAGE_STAT_gate_open = 1 := hd ▸ State.get_setOn _ true
  have hdf : c.frames (fun a => a = SAGE_STAT) d := hd ▸ (State.frames.refl _ c).setOn true rfl
  have hdt : d.tick = c.tick := by rw [← hd, State.setOn_tick]
  rw [hd]
  obtain ⟨e, he⟩ : ∃ e, d.set IDENT_BOOT_MS_compute (min ms 65534) = e := ⟨_, rfl⟩
  have hms : e.get IDENT_BOOT_MS_compute = min ms 65534 := he ▸ State.get_set_of_lt _ 16 (by omega)
  have hef : d.frames (fun a => a = IDENT_BOOT_MS) e := he ▸ (State.frames.refl _ d).set _ rfl
  have het : e.tick = d.tick := by rw [← he, State.set_tick]
  rw [he]
  have hg : e.frames (fun a => a = IDENT_BOOT) (e.setPhase 6) := (State.frames.refl _ e).set _ rfl
  refine ⟨(State.pins_get _ _).trans (State.get_set_of_lt _ 4 (by decide)), ?_, ?_, ?_, ?_⟩
  · rw [State.pins_get, hg.get (by decide), hef.get (by decide), hdf.get (by decide), hcf.get (by unfold linkWord; decide)]
    exact hrun
  · rw [State.pins_same (g := State.tick) (fun _ _ => rfl) (fun _ _ _ _ => rfl)]
    unfold State.setPhase
    rw [State.set_tick, het, hdt, hct, hbt]
  · rw [State.pins_get, hg.get (by decide), hef.get (by decide)]
    exact hgate
  · rw [State.pins_get, hg.get (by decide)]
    exact hms

end Boot

/-- Settles O51: start-up passes from an island reset through boot and self-test to ready (R515 to R520, R531). -/
theorem startUpPassesItsPhases : Obligations.StartUpPassesItsPhases := by
  intro s
  have hreset : ∀ (u : State) pin pres, u.flash = s.flash →
      (u.islandReset pin pres).flash = s.flash ∧ (u.islandReset pin pres).cores = [] ∧ (u.islandReset pin pres).parts = [] ∧
        (u.islandReset pin pres).inv = none ∧ (u.islandReset pin pres).pwr.aux = u.pwr.aux ∧
        (u.islandReset pin pres).pwr.main = u.pwr.main := fun u pin pres hu => by
    obtain ⟨-, hfl, hco, hpa, hin, hax, hma⟩ := u.islandBase_shows
    rw [State.islandReset_same (g := State.flash) (fun _ _ _ => rfl) (fun _ _ _ => rfl),
      State.islandReset_same (g := State.cores) (fun _ _ _ => rfl) (fun _ _ _ => rfl),
      State.islandReset_same (g := State.parts) (fun _ _ _ => rfl) (fun _ _ _ => rfl),
      State.islandReset_same (g := State.inv) (fun _ _ _ => rfl) (fun _ _ _ => rfl),
      State.islandReset_same (g := State.pwr) (fun _ _ _ => rfl) (fun _ _ _ => rfl)]
    exact ⟨hfl.trans hu, hco, hpa, hin, hax, hma⟩
  refine ⟨fun pin pres haux => runs_next (congrArg Host.Outcome.next (if_pos haux)) ?_, fun pres haux => ?_,
    fun ms haux hph => ⟨?_, fun v hb hi => ?_⟩, fun x h => runs_next (u := s.startTest x) rfl (State.startTest_shows h x),
    fun ms h => runs_next (u := s.moduleReady ms) rfl (State.moduleReady_shows h ms)⟩
  · obtain ⟨h1, h2, h3, h4⟩ := s.islandReset_shows pin pres
    obtain ⟨h5, h6, h7, h8, h9, h10⟩ := hreset s pin pres rfl
    exact ⟨h1, h2, h3, h4, h5, h6, h7, h8, h9.trans haux, h10⟩
  · refine runs_next (u := s.modReset pres) rfl ?_
    unfold State.modReset
    rw [if_neg (by rw [haux]; decide)]
    obtain ⟨u, hu⟩ : ∃ u, (if s.computeUp = true then (s.stopModule 2).finishStop else s) = u := ⟨_, rfl⟩
    have hf : u.flash = s.flash := by
      rw [← hu]
      split
      · exact (s.stopModule 2).finishStop_shows.2.2.2.trans (s.stopModule_flash 2)
      · rfl
    rw [hu]
    obtain ⟨h1, h2, -, -⟩ := u.islandReset_shows true pres
    obtain ⟨h3, h4, h5, -⟩ := hreset u true pres hf
    exact ⟨h1, h2, h3, h4, h5⟩
  · refine runs_next (u := s.bootDone false ms) rfl ?_
    have he : s.bootDone false ms = s.bootFail 2 := by
      unfold State.bootDone
      rw [if_neg (by rw [haux]; unfold State.phase; rw [hph]; decide), if_pos (by decide)]
    rw [he]
    exact State.bootFail_shows (by decide) s
  · refine runs_next (u := s.bootDone true ms) rfl ?_
    rw [State.bootDone_eq haux hph hb hi]
    obtain ⟨u, hu⟩ : ∃ u : State, { s.bootBank s.flash.confirmed false with inv := some v } = u := ⟨_, rfl⟩
    have hus : u.inv = some v ∧ u.fw.running = s.flash.confirmed := by
      rw [← hu]
      exact ⟨rfl, (s.bootBank_shows s.flash.confirmed).1⟩
    rw [hu]
    obtain ⟨h1, h2, h3, h4⟩ := u.booted_shows ms
    refine ⟨h1, ?_, h2, h3, ?_, h4⟩
    · rw [State.booted_same (g := State.inv) (fun _ _ _ => rfl) (fun _ _ _ => rfl) (fun _ _ => rfl)]
      exact hus.1
    · rw [State.booted_same (g := fun t => t.fw.running) (fun _ _ _ => rfl) (fun _ _ _ => rfl) (fun _ _ => rfl)]
      exact hus.2
end Sys2Proof.Machine

/-!
# Sage (O47)
-/

namespace Sys2Proof.Machine

/-! ## A read still served when a restart has drained -/

/-- A request for one row of core 0, from another core. -/
def drainRequest : Packet :=
  { cls := 1, kind := .readReq, part := 0, source := 16, node := 0, core := 0, page := 0, row := 0, counter := 0, tag := 0, rows := 0, total := 1
    writer := .core, data := 0, due := 0, fails := 0 }

/-- A restart of partition 0, of one cluster, whose core 0 has a row of another core's read still to serve. -/
def drainWitness : State :=
  ({ State.reset with
    cycle := 1024, cores := [(0, { Core.reset with serves := [⟨drainRequest, 0, 0, 0⟩] })]
    parts := [(0, { PartSt.reset with restart := some ⟨0, false, [], none, []⟩ })] } : State).wr (PART_RES_CL 0 0) 1

theorem drainWitness_drained :
    (drainWitness.part 0).restart = some ⟨0, false, [], none, []⟩ ∧ drainWitness.cycle = 1024 ∧ (drainWitness.settleCores 0).drained 0 = true ∧
      0 ∈ drainWitness.partCores 0 := by decide +kernel

theorem drainWitness_core :
    (drainWitness.core 0).runs = [] ∧ (drainWitness.core 0).pend = [] ∧ (drainWitness.core 0).clear.serves.length = 1 ∧
      ((drainWitness.drainEnd 0).core 0).serves.length = 0 := by decide +kernel

/-- Refutes O47: bringing a core to the present cycle serves the reads that other cores have asked of it, so a core with neither run nor effect
pending is not left as its own clearing leaves it. -/
theorem not_sageAnswersWhatIsReported : ¬ Obligations.SageAnswersWhatIsReported := by
  unfold Obligations.SageAnswersWhatIsReported
  intro h
  obtain ⟨hr, hc, hd, hm⟩ := drainWitness_drained
  obtain ⟨hruns, hpend, hclear, hserves⟩ := drainWitness_core
  obtain ⟨-, -, hdrain, -⟩ := h drainWitness
  obtain ⟨t, hex, -, hcores⟩ := hdrain 0 _ (by decide) hr rfl (by omega) (by dsimp only; omega) hd
  have he : exec (.restartDrainEnd 0) drainWitness = .next (drainWitness.drainEnd 0) := congrArg Host.Outcome.next (if_pos (by decide))
  have ht : drainWitness.drainEnd 0 = t := Host.Outcome.next.inj (he.symm.trans hex)
  have heq := (hcores 0 hm).2.2 hruns hpend
  rw [← ht] at heq
  rw [heq, hclear] at hserves
  cases hserves
end Sys2Proof.Machine
